-- ==== Sys2Proof/Word.lean ====
section
/-! DEFINITION. Word types of the device: bytes, registers, tagged words (R215). -/

namespace Sys2Proof

abbrev Byte := BitVec 8
abbrev Word4 := BitVec 4
abbrev Word16 := BitVec 16
abbrev Word32 := BitVec 32
abbrev Word64 := BitVec 64
abbrev Word128 := BitVec 128

/-- A word of the device: 64 data bits and the 4-bit tag that states what the word is (R215). -/
structure TWord where
  tag  : Word4
  data : Word64
  deriving DecidableEq, Repr, Inhabited

namespace Tag
/-- The tag numbers of R215. -/
abbrev raw    : Word4 := 0
abbrev int    : Word4 := 1
abbrev dec    : Word4 := 2
abbrev time   : Word4 := 3
abbrev ptr    : Word4 := 4
abbrev code   : Word4 := 5
abbrev keyh   : Word4 := 6
abbrev sesh   : Word4 := 7
abbrev stat   : Word4 := 8
abbrev ret    : Word4 := 9
abbrev sealed : Word4 := 10
abbrev chk    : Word4 := 11
abbrev poison : Word4 := 15
end Tag

/-- Words of the commonest tags. -/
abbrev rawW (d : Word64) : TWord := ⟨Tag.raw, d⟩
abbrev intW (d : Word64) : TWord := ⟨Tag.int, d⟩
abbrev ptrW (d : Word64) : TWord := ⟨Tag.ptr, d⟩
abbrev codeW (d : Word64) : TWord := ⟨Tag.code, d⟩
abbrev retW (d : Word64) : TWord := ⟨Tag.ret, d⟩
abbrev statW (d : Word64) : TWord := ⟨Tag.stat, d⟩
abbrev timeW (d : Word64) : TWord := ⟨Tag.time, d⟩
abbrev decW (d : Word64) : TWord := ⟨Tag.dec, d⟩
abbrev poisonW : TWord := ⟨Tag.poison, 0⟩

end Sys2Proof
end

