-- ==== Sys2Proof/Syntax.lean ====
section
/-! DEFINITION. The commands of the device: one constructor of `Instr` per row of spec/opcode_table.json, with the
operands the row needs. The table gives no row any fields: the operands are read from the rules (log entry 5). -/

namespace Sys2Proof

/-- The three host interfaces (R381, R401). -/
inductive Iface where
  | pcie | lbus | qspi
  deriving DecidableEq, Repr, Inhabited

/-- The agents for which the upper half of a wide quantity is latched (R30, R377). -/
inductive Reader where
  | core (i : Fin 64) (c : Fin 64)
  | host (p : Iface)
  deriving DecidableEq, Repr

/-- Whether a carry unit fails its check in an access, by the environment's doing, and at which boundary of R121: as its
memory is read, or in transit, at the cache fill or the engine's input. -/
inductive Upset where
  | none | memory | transit
  deriving DecidableEq, Repr, Inhabited

/-- One syllable as the fetch delivers it to a context (R229, R231): the context, whether an A-unit syllable names
A1, OPERAND, the literal extension that follows it, whether it is the last of its bundle, and the core on which the
context runs (0-11; 12 is the keeper's). The rest is the environment's doing (R24, R123): `upset` for the syllable's own
memory access, or for the fetch of its bundle where it makes none; `side` for what the device itself reads or writes for
it (a gate or exception descriptor, a frame, a stack's words); and
`writeBack` names a line whose old unit fails its check as the data cache writes it back (R591). -/
structure Syl where
  i : Fin 64
  c : Fin 64
  a1 : Bool := false
  operand : BitVec 20 := 0
  ext : Option (BitVec 28) := none
  stop : Bool := true
  core : Fin 13 := 0
  upset : Upset := .none
  side : Upset := .none
  writeBack : Option Nat := none
  deriving DecidableEq, Repr

/-- What a read of host memory answers (R399): an error completion, or the words of the slots read. -/
structure HostFetch where
  err : Bool := false
  words : List Word64 := []
  deriving DecidableEq, Repr

/-- The environment's part in the completion of an engine operation: a fault check failing (R413, R422), a source
unit failing its check at the engine's input, or already as it is read from its memory (R121, R123), a destination unit
failing its old check (R591), the transfer of a slot's value failing on the key bus (R448). -/
structure EngineEnv where
  fault : Bool := false
  upset : Bool := false
  memUpset : Bool := false
  destUpset : Bool := false
  busErr : Bool := false
  deriving DecidableEq, Repr

/-- The cells' part in the end of a code-flash operation (R482, R493, R489): the pulses each unit or the sector
took, whether the last of them verified, the units found weak and topped up, the first failing address, the units
corrected while they were read (CFL.CORR), and the second decision unit's verdict for a boot swap. -/
structure FlopEnv where
  pulses : List Nat := []
  ok : Bool := true
  weak : Nat := 0
  topped : Nat := 0
  failAddr : Nat := 0
  corrected : Nat := 0
  second : Bool := true
  deriving DecidableEq, Repr

/-- A downlink frame as received by a tag (R169), with its channel, the outcome of the FCS check and the level. -/
structure AirFrame where
  channel : Fin 4
  cmd : Byte
  flags : Byte
  dest : Word64
  seq : Byte
  payload : List Byte
  fcsOk : Bool := true
  rssi : Int := 0
  deriving DecidableEq, Repr

/-- An uplink frame as received by a reader (R170). -/
structure UplinkFrame where
  src : Word64
  seq : Byte
  status : Word16
  payload : List Byte
  rssi : Int := 0
  deriving DecidableEq, Repr

/-- What a reader receives after an IDENT (R167, R187): silence, or an identifier with its collided positions. -/
structure IdentReply where
  silent : Bool
  id : Word64
  collided : List (Fin 64)
  fcsOk : Bool
  deriving DecidableEq, Repr

/-- Who asks the Strata read path (R98). -/
inductive Requester where
  | keeper
  | inst (i : Fin 64)
  | rom
  deriving DecidableEq, Repr

/-- A Strata read request (R98); its OP is the row's. Of an instance and of the keeper only `who` counts: their request is
the oldest entry of their Strata read ring. `flash`: the item whose unit fails its check as it is read from the evidence
flash (R101, R121), if one does; `upset`: a destination unit fails its old check (R591). -/
structure StrataReq where
  who : Requester
  volume : Fin 64
  count : Nat
  start : Nat
  dest : Nat
  dlen : Nat
  flash : Option Nat := none
  upset : Bool := false
  deriving DecidableEq, Repr

/-- A key named by an operation: a slot or a session context (R407). -/
inductive KeyRef where
  | slot (n : Nat)
  | session (n : Nat)
  deriving DecidableEq, Repr

/-- An instance image as it arrives on the migration ring (R367): header and body chunks. -/
structure MigImage where
  header : List Byte
  chunks : List (List Byte)
  deriving DecidableEq, Repr

/-- The vehicle ports that post to rings (R511-R515). -/
inductive Port where
  | card (b : Fin 5)
  | iso (p : Fin 2)
  | can (c : Fin 2)
  | sensor
  | gnss
  deriving DecidableEq, Repr

/-- What the controller receives from a card (R517, R518). -/
inductive CardReply where
  | status (st : Word32) (crcOk : Bool)
  | identity (cid : Word128) (crcOk : Bool)
  | block (data : List Byte) (crcOk : Bool)
  | ack (b : Byte)
  deriving DecidableEq, Repr

/-- What an ISO/IEC 7816-3 card sends (R532): an ATR with its protocol, a procedure byte, a response APDU, or
characters that stay wrong after the standard's repetitions. -/
inductive IsoReply where
  | atr (bytes : List Byte) (valid : Bool) (t1 : Bool)
  | allSent
  | response (bytes : List Byte)
  | broken
  deriving DecidableEq, Repr

/-- A CAN frame (R536). -/
structure CanFrame where
  ide : Bool
  fd : Bool
  brs : Bool
  esi : Bool
  rtr : Bool
  id : BitVec 29
  data : List Byte
  deriving DecidableEq, Repr

/-- The four die temperatures in tenths of a degree Celsius (R551). -/
structure Temps where
  t0 : Int
  t1 : Int
  t2 : Int
  t3 : Int
  deriving DecidableEq, Repr

/-- What a power-on finds: VHOLD in mV, and how many of the last commit marks and of the applied marks do not read back
intact from the journal (R113). -/
structure PowerEnv where
  vholdMv : Nat := 0
  marksLost : Nat := 0
  appliedLost : Nat := 0
  deriving DecidableEq, Repr

/-- The commands: one constructor per row of spec/opcode_table.json. -/
inductive Instr where
  /-- REGISTER_WRITE (R7). -/
  | registerWrite (reg : Nat) (v : Word32)
  /-- RC_REGISTER_READ (R8). -/
  | rcRegisterRead (reg : Nat) (added : Word32)
  /-- UPPER_HALF_LATCH (R30). -/
  | upperHalfLatch (a : Reader) (reg : Nat)
  /-- POWER_ON (R51). -/
  | powerOn (vbatKept : Bool) (env : PowerEnv) (loopOk : Bool) (meshOk : Bool)
  /-- RESET_N_LOW (R576). -/
  | resetNLow (ns : Nat)
  /-- REPLAY_COMPLETE (R113). -/
  | replayComplete
  /-- SHINGLE_REBUILD_COMPLETE (R147). -/
  | shingleRebuildComplete
  /-- STL_GENERATION_LOADED (R158). -/
  | stlGenerationLoaded (g : Fin 2)
  /-- KEY_SLOT_LOAD (R442). -/
  | keySlotLoad (bad : List Nat) (busErr : List Nat)
  /-- VHOLD_CHARGED (R51). -/
  | vholdCharged
  /-- VHOLD_CHARGE_TIMEOUT (R55). -/
  | vholdChargeTimeout
  /-- BRK_MEASURE (R126). -/
  | brkMeasure
  /-- CAPACITANCE_MEASUREMENT_START (R115). -/
  | capacitanceMeasurementStart
  /-- CAPACITANCE_MEASURED (R115). -/
  | capacitanceMeasured (cycles : Nat)
  /-- STARTUP_RECORDS_COMMIT (R51). -/
  | startupRecordsCommit
  /-- FOLD_SHADOWS (R205). -/
  | foldShadows
  /-- HELD_DOORBELL_RELEASE (R58). -/
  | heldDoorbellRelease
  /-- MODE_REQ_WORKSHOP (R42). -/
  | modeReqWorkshop
  /-- MODE_REQ_SERVICE (R42). -/
  | modeReqService
  /-- MODE_REQ_STANDBY (R63). -/
  | modeReqStandby
  /-- MODE_REQ_DECOMMISSION (R42). -/
  | modeReqDecommission
  /-- MODE_REQ_REFUSED (R42). -/
  | modeReqRefused (target : Word4)
  /-- DEVICE_RESET_REQUEST (R61). -/
  | deviceResetRequest
  /-- DECISION_SECOND_EVALUATION (R39). -/
  | decisionSecondEvaluation (second : Bool)
  /-- DECISION_DEFERRED_START (R41). -/
  | decisionDeferredStart
  /-- WORKSHOP_INACTIVITY_EXPIRY (R49). -/
  | workshopInactivityExpiry
  /-- CREDENTIAL_WITHDRAWAL (R49). -/
  | credentialWithdrawal
  /-- STANDBY_DRAIN_END (R63). -/
  | standbyDrainEnd
  /-- STANDBY_STRIPS_SIGNED (R63). -/
  | standbyStripsSigned
  /-- WAKE_EVENT (R67). -/
  | wakeEvent (src : Fin 6)
  /-- PERSO_BEGIN (R42). -/
  | persoBegin (req : List Byte)
  /-- PERSO_TAGID (R382). -/
  | persoTagid (req : List Byte)
  /-- PERSO_KEYGEN (R455). -/
  | persoKeygen (req : List Byte)
  /-- PERSO_CERT (R454). -/
  | persoCert (req : List Byte)
  /-- PERSO_IMAGE (R488). -/
  | persoImage (req : List Byte) (r : FlopEnv)
  /-- PERSO_CLOSE (R42). -/
  | persoClose (req : List Byte)
  /-- READ_EVIDENCE (R68). -/
  | readEvidence (req : List Byte)
  /-- ATTEST (R453). -/
  | attest (req : List Byte)
  /-- IMAGE_WRITE (R488). -/
  | imageWrite (req : List Byte) (r : FlopEnv)
  /-- IMAGE_SWAP (R489). -/
  | imageSwap (req : List Byte)
  /-- RECOVERY_EXIT (R48). -/
  | recoveryExit (req : List Byte)
  /-- NONCE (R68). -/
  | nonce (req : List Byte)
  /-- SVC_CODE_UNKNOWN (R382). -/
  | svcCodeUnknown (code : Byte)
  /-- COMMIT (R106). -/
  | commit (x : Syl)
  /-- COMMIT_ADMISSION (R116). -/
  | commitAdmission
  /-- COMMIT_ADMISSION_TIMEOUT (R116). -/
  | commitAdmissionTimeout (id : Nat)
  /-- COMMIT_MARK (R107): the commits whose marks the page carries, and the energy that each drew (R118). -/
  | commitMark (count : Nat) (markUj : List Nat) (intentUj : List Nat)
  /-- COMMIT_APPLY (R106). -/
  | commitApply
  /-- APPLIED_MARK (R106). -/
  | appliedMark
  /-- JOURNAL_PROGRAM_FAILURE (R108): a mark page with the marks of the first `number` admitted commits, or the
  named intent page of commit `number`. -/
  | journalProgramFailure (page : Option (Fin 3)) (number : Nat)
  /-- MAIN_LOSS (R111). -/
  | mainLoss
  /-- SHORT_DIP (R111). -/
  | shortDip
  /-- FLUSH_MARKS_WRITTEN (R111). -/
  | flushMarksWritten
  /-- DEVICE_STOP (R111). -/
  | deviceStop
  /-- STRIP_IDLE_CLOSE (R85). -/
  | stripIdleClose (vol : Fin 64)
  /-- STRIP_SIGNED (R90). -/
  | stripSigned (vol : Fin 64) (ok : Bool)
  /-- BAND_SEAL (R92). -/
  | bandSeal (vol : Fin 64)
  /-- READ_RECORDS (R100). -/
  | readRecords (q : StrataReq)
  /-- READ_TRAILER (R100). -/
  | readTrailer (q : StrataReq)
  /-- READ_SEAL (R100). -/
  | readSeal (q : StrataReq)
  /-- READ_COUNTER (R100). -/
  | readCounter (q : StrataReq)
  /-- READ_VOLUME_STATE (R100). -/
  | readVolumeState (q : StrataReq)
  /-- CLOAD (R132). -/
  | cload (x : Syl)
  /-- CSTORE (R134). -/
  | cstore (x : Syl)
  /-- CNEW (R135). -/
  | cnew (x : Syl)
  /-- CFREE (R141). -/
  | cfree (x : Syl)
  /-- LOOK (R151). -/
  | look (x : Syl)
  /-- STL_INSERT (R154). -/
  | stlInsert
  /-- STL_DELETE (R162). -/
  | stlDelete
  /-- STL_CLEAR (R162). -/
  | stlClear
  /-- STL_SET_SALT (R155). -/
  | stlSetSalt
  /-- STL_PERSIST (R156). -/
  | stlPersist
  /-- STL_EDIT_COMPLETE (R154). -/
  | stlEditComplete
  /-- STL_GENERATION_RELEASE (R157). -/
  | stlGenerationRelease
  /-- WAKE (R175). -/
  | airWake (f : AirFrame)
  /-- IDENT (R185). -/
  | airIdent (f : AirFrame)
  /-- SELECT (R175). -/
  | airSelect (f : AirFrame)
  /-- DESELECT (R175). -/
  | airDeselect (f : AirFrame)
  /-- HALT (R175). -/
  | airHalt (f : AirFrame)
  /-- GET_RESULT (R179). -/
  | getResult (f : AirFrame)
  /-- PING (R177). -/
  | airPing (f : AirFrame)
  /-- READ (R196). -/
  | airRead (f : AirFrame)
  /-- WRITE (R197). -/
  | airWrite (f : AirFrame)
  /-- PWD (R207). -/
  | airPwd (f : AirFrame)
  /-- APP (R181). -/
  | airApp (f : AirFrame)
  /-- UNKNOWN_COMMAND (R177). -/
  | unknownCommand (f : AirFrame)
  /-- ACTIVE_TIMEOUT (R175). -/
  | activeTimeout
  /-- FIELD_LOSS (R175). -/
  | fieldLoss
  /-- RESULT_WINDOW_EXPIRY (R179). -/
  | resultWindowExpiry (seq : Byte)
  /-- AREA_LOCK_GRANT (R211). -/
  | areaLockGrant (area : Fin 64)
  /-- SHADOW_WRITE_COMPLETE (R203). -/
  | shadowWriteComplete (area : Fin 64) (intact : Bool)
  /-- APP_REPLY (R183). -/
  | appReply (b : Fin 16)
  /-- AIR_ENABLE (R163). -/
  | airEnable (testOk : Bool)
  /-- AIR_DISABLE (R175). -/
  | airDisable
  /-- READER_COMMAND_SEND (R181). -/
  | readerCommandSend (b : Fin 16)
  /-- READER_REPLY_RECEIVED (R181). -/
  | readerReplyReceived (b : Fin 16) (f : UplinkFrame)
  /-- READER_REPLY_TIMEOUT (R181). -/
  | readerReplyTimeout (b : Fin 16)
  /-- INVENTORY_ROUND (R187). -/
  | inventoryRound (r : IdentReply) (s : List UplinkFrame)
  /-- WAIT_MODE_ENTRY (R192). -/
  | waitModeEntry
  /-- WAIT_PROBE (R192). -/
  | waitProbe (lossCdb : Nat) (otherReader : Bool)
  /-- BIND (R184). -/
  | airBind (x : Syl)
  /-- UNBIND (R184). -/
  | airUnbind (x : Syl)
  /-- LINK (R302). -/
  | airLink (x : Syl)
  /-- INVENTORY (R184). -/
  | airInventory (x : Syl)
  /-- AREAREAD (R184). -/
  | arearead (x : Syl)
  /-- NOP (R269). -/
  | nop (x : Syl)
  /-- LIT (R269). -/
  | lit (x : Syl)
  /-- DUP (R269). -/
  | dup (x : Syl)
  /-- DROP (R269). -/
  | drop (x : Syl)
  /-- SWAP (R269). -/
  | swap (x : Syl)
  /-- OVER (R269). -/
  | over (x : Syl)
  /-- ROT (R269). -/
  | rot (x : Syl)
  /-- NIP (R269). -/
  | nip (x : Syl)
  /-- ADD (R270). -/
  | add (x : Syl)
  /-- SUB (R270). -/
  | sub (x : Syl)
  /-- ADDI (R270). -/
  | addi (x : Syl)
  /-- MUL (R271). -/
  | mul (x : Syl)
  /-- MULH (R269). -/
  | mulh (x : Syl)
  /-- DIV (R269). -/
  | div (x : Syl)
  /-- REM (R269). -/
  | rem (x : Syl)
  /-- AND (R269). -/
  | bitAnd (x : Syl)
  /-- OR (R269). -/
  | bitOr (x : Syl)
  /-- XOR (R269). -/
  | bitXor (x : Syl)
  /-- NOT (R269). -/
  | bitNot (x : Syl)
  /-- SHL (R269). -/
  | shl (x : Syl)
  /-- SHR (R269). -/
  | shr (x : Syl)
  /-- SAR (R269). -/
  | sar (x : Syl)
  /-- NEG (R269). -/
  | neg (x : Syl)
  /-- CMP (R271). -/
  | cmp (x : Syl)
  /-- TST (R271). -/
  | tst (x : Syl)
  /-- RPUSH (R242). -/
  | rpush (x : Syl)
  /-- RPOP (R242). -/
  | rpop (x : Syl)
  /-- RCOPY (R269). -/
  | rcopy (x : Syl)
  /-- TAX0 (R246). -/
  | tax0 (x : Syl)
  /-- TAX1 (R246). -/
  | tax1 (x : Syl)
  /-- TXA0 (R269). -/
  | txa0 (x : Syl)
  /-- TXA1 (R269). -/
  | txa1 (x : Syl)
  /-- LEA (R269). -/
  | lea (x : Syl)
  /-- LDW (R218). -/
  | ldw (x : Syl)
  /-- LDWK (R273). -/
  | ldwk (x : Syl)
  /-- STW (R219). -/
  | stw (x : Syl)
  /-- STWK (R273). -/
  | stwk (x : Syl)
  /-- LD8 (R220). -/
  | ld8 (x : Syl)
  /-- LD16 (R220). -/
  | ld16 (x : Syl)
  /-- LD32 (R220). -/
  | ld32 (x : Syl)
  /-- ST8 (R220). -/
  | st8 (x : Syl)
  /-- ST16 (R220). -/
  | st16 (x : Syl)
  /-- ST32 (R220). -/
  | st32 (x : Syl)
  /-- LDS (R275). -/
  | lds (x : Syl)
  /-- LDR (R276). -/
  | ldr (x : Syl)
  /-- STC (R276). -/
  | stc (x : Syl)
  /-- TAS (R278). -/
  | tas (x : Syl)
  /-- FENCE (R236). -/
  | fence (x : Syl)
  /-- REGP (R273). -/
  | regp (x : Syl)
  /-- LDA (R273). -/
  | lda (x : Syl)
  /-- STA (R273). -/
  | sta (x : Syl)
  /-- LDX0 (R246). -/
  | ldx0 (x : Syl)
  /-- LDX1 (R246). -/
  | ldx1 (x : Syl)
  /-- STX0 (R273). -/
  | stx0 (x : Syl)
  /-- STX1 (R273). -/
  | stx1 (x : Syl)
  /-- BR (R280). -/
  | br (x : Syl)
  /-- BEQ (R280). -/
  | beq (x : Syl)
  /-- BNE (R280). -/
  | bne (x : Syl)
  /-- BLT (R280). -/
  | blt (x : Syl)
  /-- BGE (R280). -/
  | bge (x : Syl)
  /-- BLTU (R280). -/
  | bltu (x : Syl)
  /-- BGEU (R280). -/
  | bgeu (x : Syl)
  /-- BDC (R280). -/
  | bdc (x : Syl)
  /-- BRZ (R280). -/
  | brz (x : Syl)
  /-- BRNZ (R280). -/
  | brnz (x : Syl)
  /-- CALL (R241). -/
  | call (x : Syl)
  /-- CALLI (R282). -/
  | calli (x : Syl)
  /-- JMPI (R282). -/
  | jmpi (x : Syl)
  /-- RETURN (R317). -/
  | ret (x : Syl)
  /-- CADR (R280). -/
  | cadr (x : Syl)
  /-- GATE (R310). -/
  | gate (x : Syl)
  /-- GRET (R312). -/
  | gret (x : Syl)
  /-- LOOP (R252). -/
  | hwLoop (x : Syl)
  /-- GETCST (R280). -/
  | getcst (x : Syl)
  /-- SETFL (R280). -/
  | setfl (x : Syl)
  /-- SETMASK (R280). -/
  | setmask (x : Syl)
  /-- YIELD (R280). -/
  | yield (x : Syl)
  /-- DADD (R284). -/
  | dadd (x : Syl)
  /-- DSUB (R284). -/
  | dsub (x : Syl)
  /-- DMUL10 (R284). -/
  | dmul10 (x : Syl)
  /-- DSHR (R284). -/
  | dshr (x : Syl)
  /-- DSHL (R284). -/
  | dshl (x : Syl)
  /-- DADJ (R285). -/
  | dadj (x : Syl)
  /-- DCMP (R284). -/
  | dcmp (x : Syl)
  /-- BIN2DEC (R222). -/
  | bin2dec (x : Syl)
  /-- DEC2BIN (R222). -/
  | dec2bin (x : Syl)
  /-- TODEC (R222). -/
  | todec (x : Syl)
  /-- TOINT (R222). -/
  | toint (x : Syl)
  /-- TOTIME (R222). -/
  | totime (x : Syl)
  /-- TORAW (R222). -/
  | toraw (x : Syl)
  /-- TAGOF (R283). -/
  | tagof (x : Syl)
  /-- KHANDLE (R286). -/
  | khandle (x : Syl)
  /-- WAITT (R262). -/
  | waitt (x : Syl)
  /-- WAITT_RESUME (R262). -/
  | waittResume (i : Fin 64) (c : Fin 64)
  /-- TESTT (R263). -/
  | testt (x : Syl)
  /-- ENGINE_COMPLETION (R265). -/
  | engineCompletion (i : Fin 64) (t : Byte) (e : EngineEnv)
  /-- QPUT (R293). -/
  | qput (x : Syl)
  /-- QPUT_WAIT_SATISFIED (R293). -/
  | qputWaitSatisfied (ring : Fin 4096)
  /-- QGET (R293). -/
  | qget (x : Syl) (h : HostFetch)
  /-- QGET_WAIT_SATISFIED (R293). -/
  | qgetWaitSatisfied (ring : Fin 4096) (h : HostFetch)
  /-- SEAL (R407). -/
  | sealAead (x : Syl)
  /-- OPEN (R414). -/
  | openAead (x : Syl)
  /-- LANE_GRANT (R405). -/
  | laneGrant (busOk : Bool)
  /-- RESERVATION_RESUME (R412). -/
  | reservationResume (k : KeyRef)
  /-- SIGN (R422). -/
  | sign (x : Syl)
  /-- VERIFY (R419). -/
  | verify (x : Syl)
  /-- AGREE_ECDH_SLOT (R296). -/
  | agreeEcdhSlot (x : Syl)
  /-- AGREE_ECDH_EPHEMERAL (R424). -/
  | agreeEcdhEphemeral (x : Syl)
  /-- AGREE_MLKEM_DECAPSULATE (R296). -/
  | agreeMlkemDecapsulate (x : Syl)
  /-- AGREE_MLKEM_ENCAPSULATE (R296). -/
  | agreeMlkemEncapsulate (x : Syl)
  /-- HASH (R425). -/
  | hash (x : Syl)
  /-- INTENT (R298). -/
  | intent (x : Syl)
  /-- RAND (R460). -/
  | rand (x : Syl)
  /-- TIME_READ (R291). -/
  | timeRead (x : Syl)
  /-- TIME_WAIT (R301). -/
  | timeWait (x : Syl)
  /-- TIME_WAIT_REACHED (R301). -/
  | timeWaitReached (i : Fin 64) (t : Byte)
  /-- FLOP_PROGRAM_CODE (R482). -/
  | flopProgramCode (x : Syl)
  /-- FLOP_PROGRAM_DATA (R482). -/
  | flopProgramData (x : Syl)
  /-- FLOP_ERASE (R482). -/
  | flopErase (x : Syl)
  /-- FLOP_MARGIN_READ (R493). -/
  | flopMarginRead (x : Syl)
  /-- FLOP_BOOT_SWAP (R489). -/
  | flopBootSwap (x : Syl)
  /-- FLOP_COMPLETE (R482). -/
  | flopComplete (array : Fin 4) (r : FlopEnv)
  /-- INTERRUPT_TAKEN (R321). -/
  | interruptTaken (i : Fin 64) (c : Fin 64) (core : Fin 13)
  /-- TIME_SLICE_END (R349). -/
  | timeSliceEnd (i : Fin 64) (c : Fin 64)
  /-- ESC_RESUME (R328). -/
  | escResume (i : Fin 64) (c : Fin 64)
  /-- ESC_HALT (R328). -/
  | escHalt (i : Fin 64) (c : Fin 64)
  /-- MPU_SET_UPDATE (R333). -/
  | mpuSetUpdate (reg : Nat) (v : Word32)
  /-- CREATE (R341). -/
  | createInst
  /-- INSTALL (R347). -/
  | installImage
  /-- START (R348). -/
  | startInst
  /-- QUIESCE (R351). -/
  | quiesce
  /-- DRAIN_WINDOW_END (R351). -/
  | drainWindowEnd (i : Fin 64)
  /-- QUIESCE_BOUND_EXPIRY (R353). -/
  | quiesceBoundExpiry (who : Option (Fin 64))
  /-- QUIESCE_COMPLETE (R351). -/
  | quiesceComplete (i : Fin 64)
  /-- RESUME (R338). -/
  | resumeInst
  /-- RESET (R354). -/
  | resetInst
  /-- REMOVE (R355). -/
  | removeInst
  /-- STAGE (R343). -/
  | stage
  /-- UNSTAGE (R336). -/
  | unstage
  /-- FREEZE (R365). -/
  | freeze
  /-- SAVE (R366). -/
  | save
  /-- SAVE_IMAGE_STREAM (R366). -/
  | saveImageStream
  /-- OFFER (R364). -/
  | offer
  /-- RESTORE (R369). -/
  | restore (img : MigImage)
  /-- EPOCH_BOUNDARY (R358). -/
  | epochBoundary (meanTempDc : Int) (testOk : Bool)
  /-- DOORBELL (R394). -/
  | doorbell (p : Iface) (w : Fin 64) (k : Fin 1024) (v : Word32)
  /-- PUSH (R395). -/
  | push (p : Iface) (w : Fin 64) (v : Word32)
  /-- POP (R395). -/
  | pop (p : Iface) (w : Fin 64) (v : Word32)
  /-- RCTL_DISCARD (R395). -/
  | rctlDiscard (p : Iface) (w : Fin 64) (k : Fin 1024)
  /-- RCTL_RESUME (R397). -/
  | rctlResume (p : Iface) (w : Fin 64) (k : Fin 1024)
  /-- STAGING_BUFFER_WRITE (R395). -/
  | stagingBufferWrite (p : Iface) (w : Fin 64) (o : Fin 256) (v : Word32) (upset : Bool)
  /-- LOCAL_BUS_READ (R388). -/
  | localBusRead (a : Nat)
  /-- LOCAL_BUS_WRITE (R388). -/
  | localBusWrite (a : Nat) (v : Word32)
  /-- READ1 (R389). -/
  | read1 (a : Nat) (n : Nat)
  /-- READ4 (R389). -/
  | read4 (a : Nat) (n : Nat)
  /-- WRITE1 (R391). -/
  | write1 (a : Nat) (d : List Byte) (crcOk : Bool)
  /-- WRITE4 (R391). -/
  | write4 (a : Nat) (d : List Byte) (crcOk : Bool)
  /-- QSPI_STATUS (R391). -/
  | qspiStatus
  /-- QSPI_READ_TIMEOUT (R390). -/
  | qspiReadTimeout
  /-- FUNCTION_LEVEL_RESET (R386). -/
  | functionLevelReset (f : Fin 64)
  /-- BUS_MASTER_DISABLE (R385). -/
  | busMasterDisable (f : Fin 64)
  /-- RING_ENABLE (R392). -/
  | ringEnable
  /-- RING_CTRL_DISCARD (R403). -/
  | ringCtrlDiscard
  /-- RING_CTRL_RESUME (R397). -/
  | ringCtrlResume
  /-- RING_CTRL_STOP (R397). -/
  | ringCtrlStop
  /-- HIF_ENABLE_CHANGE (R381). -/
  | hifEnableChange (v : Word32)
  /-- EXPORT (R420). -/
  | exportKey
  /-- LOAD (R421). -/
  | loadKeyRecord
  /-- GENERATE (R443). -/
  | generate
  /-- DERIVE (R443). -/
  | derive
  /-- IMPORT_AGREE (R443). -/
  | importAgree
  /-- IMPORT_WRAP (R443). -/
  | importWrap
  /-- ZEROISE (R443). -/
  | zeroise
  /-- ATTESTATION_STATEMENT (R450). -/
  | attestationStatement
  /-- RAW_BLOCK_TESTED (R459): the samples of the block, in two halves. -/
  | rawBlockTested (first : BitVec 2048) (last : BitVec 2048)
  /-- NOISE_RESTART_DONE (R466). -/
  | noiseRestartDone
  /-- RETENTION_STRESS_UPDATE (R491). -/
  | retentionStressUpdate
  /-- RSADD (R491). -/
  | rsadd (h : Word16)
  /-- PATROL_READ (R500). -/
  | patrolRead (b : Fin 43520) (maxCb : Byte) (uncorr : Bool)
  /-- PATROL_LATE (R500). -/
  | patrolLate (b : Fin 43520)
  /-- REFRESH_SWITCH (R502). -/
  | refreshSwitch (b : Fin 43520) (eraseOk : Bool)
  /-- NAND_PROGRAM_FAILURE (R503). -/
  | nandProgramFailure (b : Fin 43520)
  /-- STORE_SEAL_RECORD (R505). -/
  | storeSealRecord
  /-- CARD_BUS_ENABLE (R523). -/
  | cardBusEnable (fixed : List Word128)
  /-- CARD_INSERTION (R523). -/
  | cardInsertion (s : Fin 4) (ids : List Word128)
  /-- CARD_REMOVAL (R528). -/
  | cardRemoval (s : Fin 4)
  /-- CARD_READ (R525). -/
  | cardRead (b : Fin 5)
  /-- CARD_WRITE (R526). -/
  | cardWrite (b : Fin 5)
  /-- CARD_STATUS (R525). -/
  | cardStatus (b : Fin 5)
  /-- CARD_SLEEP (R525). -/
  | cardSleep (b : Fin 5)
  /-- CARD_WAKE (R525). -/
  | cardWake (b : Fin 5)
  /-- CARD_SETWP (R521). -/
  | cardSetwp (b : Fin 5)
  /-- CARD_CLRWP (R525). -/
  | cardClrwp (b : Fin 5)
  /-- CARD_RESPONSE (R517). -/
  | cardResponse (r : CardReply)
  /-- BUSY_RELEASE (R526). -/
  | busyRelease
  /-- CARD_RESPONSE_TIMEOUT (R527). -/
  | cardResponseTimeout
  /-- CARD_BUSY_TIMEOUT (R527). -/
  | cardBusyTimeout
  /-- ACTIVATE (R533). -/
  | activate (p : Fin 2)
  /-- EXCHANGE (R533). -/
  | exchange (p : Fin 2)
  /-- DEACTIVATE (R533). -/
  | deactivate (p : Fin 2)
  /-- ISO_CARD_PRESENCE (R534). -/
  | isoCardPresence (p : Fin 2) (present : Bool)
  /-- CAN_FRAME_RECEIVED (R536). -/
  | canFrameReceived (c : Fin 2) (f : CanFrame)
  /-- PORT_BUFFER_DRAIN (R515). -/
  | portBufferDrain (p : Port)
  /-- CAN_TRANSMIT (R536). -/
  | canTransmit (c : Fin 2)
  /-- CAN_TRANSMIT_ACK (R536). -/
  | canTransmitAck (c : Fin 2)
  /-- CAN_BUS_OFF_RECOVERY (R537). -/
  | canBusOffRecovery (c : Fin 2)
  /-- PULSE_REPORT (R538). -/
  | pulseReport (n : Fin 2)
  /-- SENSOR_LINK_REQUEST (R539). -/
  | sensorLinkRequest
  /-- SENSOR_ANSWER (R539). -/
  | sensorAnswer (ty : Byte) (body : List Byte) (crcOk : Bool)
  /-- SENSOR_ANSWER_TIMEOUT (R539). -/
  | sensorAnswerTimeout
  /-- GNSS_EVENT_CLOSE (R541). -/
  | gnssEventClose
  /-- PPS_EDGE (R542). -/
  | ppsEdge (ns : Nat)
  /-- HOST_SET (R543). -/
  | hostSet
  /-- PPS_SET (R543). -/
  | ppsSet
  /-- TAMPER_RAISE (R553). -/
  | tamperRaise (t : Fin 24) (v : Word32) (who : Option (Fin 64))
  /-- TAMPER_REARM (R548). -/
  | tamperRearm (t : Fin 24) (vioC : Bool)
  /-- NEAR_MISS (R549). -/
  | nearMiss (t : Fin 24)
  /-- RATE_WINDOW_EXPIRY (R548). -/
  | rateWindowExpiry (t : Fin 24)
  /-- VIO_SUPPLY_CHANGE (R570). -/
  | vioSupplyChange (cardSide : Bool) (ok : Bool) (classHi : Bool)
  /-- VBAT_MEASUREMENT (R574). -/
  | vbatMeasurement (mv : Word16)
  /-- GOVERNOR_EVALUATION (R583). -/
  | governorEvaluation (t : Temps)
  /-- PULSE_EDGE (R538). -/
  | pulseEdge (n : Fin 2) (ns : Nat) (phase : Bool)
  /-- GNSS_UART_BYTE (R541). -/
  | gnssUartByte (b : Byte)
  /-- READER_SIGNAL_SAMPLE (R199). -/
  | readerSignalSample (x : Int)
  /-- ISO_CARD_RECEIVE (R532). -/
  | isoCardReceive (p : Fin 2) (r : IsoReply)
  /-- ISO_WAITING_TIME_EXPIRY (R532). -/
  | isoWaitingTimeExpiry (p : Fin 2)
  /-- CAN_ERROR_DETECTED (R537). -/
  | canErrorDetected (c : Fin 2) (tx : Bool) (delta : Nat)
  /-- PCIE_LINK_STATE_CHANGE (R383). -/
  | pcieLinkStateChange (width : Word4) (speed : Word4)
  /-- VF_ENABLE_CHANGE (R384). -/
  | vfEnableChange (en : Bool) (n : Fin 64)
  /-- BOUNDARY_SCAN_ACCESS (R37). -/
  | boundaryScanAccess (tms : Bool) (tdi : Bool)
  deriving DecidableEq, Repr

end Sys2Proof
end

