-- ==== Sys2Proof/Config.lean ====
section
/-! DEFINITION. What the spec leaves open, as constants with no body: nothing can be proved of their values (log
entry 7), and the cryptographic functions, of which the model uses no property (log entry 6). -/

namespace Sys2Proof.Config

/-- Data content that the spec calls undefined (R4), drawn by the counter of free values. -/
opaque freeWord : Nat → Word64
opaque freeTag : Nat → Word4
opaque freeByte : Nat → Byte

/-- Which of several equal choices is taken, where the spec does not say: a number, reduced by the caller. -/
opaque pick : Nat → Nat

/-- What a draw answers that the device makes while its expander serves nothing: byte `k` of draw `n`. -/
opaque randByte : Nat → Nat → Byte

/-- AES-256 (FIPS 197): byte `k` of the encryption of a block under a key. -/
opaque aesByte : List Byte → List Byte → Nat → Byte

/-- A hash function by its number: 1 SHA-256, 2 SHA-384, 3 SHA-512, 4 SHA3-256, 5 SHAKE128, 6 SHAKE256 (R291). Byte
`k` of the digest. -/
opaque hashByte : Nat → List Byte → Nat → Byte

/-- Byte `k` of a signature of an algorithm (R295) by a key over a message, with the random input of R422. -/
opaque signByte : Nat → List Byte → List Byte → List Byte → Nat → Byte

/-- Whether a signature verifies: algorithm, public key, message, signature (R295, R418). -/
opaque sigOk : Nat → List Byte → List Byte → List Byte → Bool

/-- Whether an encoded peer key is a valid point or key (R419). -/
opaque keyOk : Nat → List Byte → Bool

/-- Whether certificates form valid twin chains for a signer's identity up to a chain position (R454). -/
opaque chainOk : Nat → List Byte → List Byte → Bool

/-- Whether a certificate parses (R454). -/
opaque certParses : List Byte → Bool

/-- The public key that the certificates bind to an identity. -/
opaque chainKey : List Byte → List Byte → List Byte

/-- Byte `k` of what an asymmetric algorithm makes of a private key and another datum: 1 a public key, 2 a shared secret, 3
a capsule (R418). -/
opaque kdfByte : Nat → List Byte → List Byte → Nat → Byte

/-- The label under which CNEW diversifies a slot's key, which R135 does not give (log entry 117). -/
opaque cnewLabel : List Byte

/-- AEAD (R408-R410): mode, key, IV, associated data, payload; byte `k` of ciphertext and tag. -/
opaque aeadByte : Nat → List Byte → List Byte → List Byte → List Byte → Nat → Byte

/-- AEAD opening: byte `k` of the plaintext, and whether the tag verifies. -/
opaque aeadOpenByte : Nat → List Byte → List Byte → List Byte → List Byte → Nat → Byte
opaque aeadOk : Nat → List Byte → List Byte → List Byte → List Byte → Bool

/-- The content of the ROM, which the spec does not give: its bytes and the tags of its words. -/
opaque romByte : Nat → Byte
opaque romTag : Nat → Word4

/-- The ROM's mode-entry point (R43), which the spec does not give. -/
opaque modeEntry : Nat

/-- What the operations read from a word tagged DEC whose nibbles are not 15 digits and a sign. No operation makes such
a word (R215, R222), and the spec gives no result for one: its magnitude and its sign are free (log entry 7). -/
opaque decMag : Word64 → Nat
opaque decNeg : Word64 → Bool

/-- FORMAT of the device's own records, by their type: the writer chooses it (R78), and the spec does not say what the
device writes (log entry 61). -/
opaque devFormat : Nat → Byte

/-- What a register shows of an analogue quantity that no command brings: the register and the counter of free
values. -/
opaque analog : Nat → Nat → Word16

end Sys2Proof.Config
end

