-- ==== Sys2Proof/Machine/Codes.lean ====
section
/-! DEFINITION. The status codes (R13 and each chapter's table of codes). -/

namespace Sys2Proof.St

abbrev ok : Word16 := 0x0000
abbrev argInvalid : Word16 := 0x0001
abbrev carryFault : Word16 := 0x0101
abbrev ringFull : Word16 := 0x0102
abbrev ringHalted : Word16 := 0x0103
abbrev ringStopped : Word16 := 0x0104
abbrev entryInvalid : Word16 := 0x0105
abbrev doorbellOverrun : Word16 := 0x0106
abbrev keyExhausted : Word16 := 0x0201
abbrev authFail : Word16 := 0x0202
abbrev slotBad : Word16 := 0x0203
abbrev keyMode : Word16 := 0x0204
abbrev cipherFault : Word16 := 0x0205
abbrev slotOccupied : Word16 := 0x0206
abbrev holdupLow : Word16 := 0x0301
abbrev storeSealed : Word16 := 0x0302
abbrev volumeFull : Word16 := 0x0303
abbrev receiptInvalid : Word16 := 0x0304
abbrev intentInvalid : Word16 := 0x0305
abbrev journalBusy : Word16 := 0x0306
abbrev versionConflict : Word16 := 0x0307
abbrev commitAborted : Word16 := 0x0308
abbrev journalFault : Word16 := 0x0309
abbrev typeReserved : Word16 := 0x030A
abbrev quotaOvercommit : Word16 := 0x030B
abbrev notPresent : Word16 := 0x030C
abbrev selfBank : Word16 := 0x0401
abbrev bankBusy : Word16 := 0x0402
abbrev programFail : Word16 := 0x0403
abbrev eraseFail : Word16 := 0x0404
abbrev notErased : Word16 := 0x0405
abbrev swapPending : Word16 := 0x0406
abbrev swapExhausted : Word16 := 0x0407
abbrev flopStopped : Word16 := 0x0408
abbrev sessionStale : Word16 := 0x0501
abbrev tableFull : Word16 := 0x0502
abbrev listMiss : Word16 := 0x0503
abbrev contextForeign : Word16 := 0x0504
abbrev contextBad : Word16 := 0x0505
abbrev contextOvercommit : Word16 := 0x0506
abbrev genBusy : Word16 := 0x0507
abbrev genUnsealed : Word16 := 0x0508
abbrev bucketFull : Word16 := 0x0509
abbrev keyAbsent : Word16 := 0x050A
abbrev dwellShort : Word16 := 0x0601
abbrev pwLocked : Word16 := 0x0602
abbrev busyField : Word16 := 0x0603
abbrev linkLost : Word16 := 0x0604
abbrev pending : Word16 := 0x0605
abbrev pwWrong : Word16 := 0x0606
abbrev pwClearRefused : Word16 := 0x0607
abbrev accessDenied : Word16 := 0x0608
abbrev areaAbsent : Word16 := 0x0609
abbrev cmdUnknown : Word16 := 0x060A
abbrev starting : Word16 := 0x060B
abbrev roleRefused : Word16 := 0x060C
abbrev areaRange : Word16 := 0x060D
abbrev outcomeUnknown : Word16 := 0x0701
abbrev writeProtected : Word16 := 0x0702
abbrev cardAbsent : Word16 := 0x0703
abbrev portTimeout : Word16 := 0x0704
abbrev portCrc : Word16 := 0x0705
abbrev cardState : Word16 := 0x0706
abbrev isoProtocol : Word16 := 0x0707
abbrev canBusOff : Word16 := 0x0708
abbrev pairingRefused : Word16 := 0x0709
abbrev timeRefused : Word16 := 0x070A
abbrev portOverrun : Word16 := 0x070B
abbrev rngFatal : Word16 := 0x0802
abbrev instanceQuiescing : Word16 := 0x0901
abbrev imageNewer : Word16 := 0x0902
abbrev resizeBelowUse : Word16 := 0x0903
abbrev instanceState : Word16 := 0x0904
abbrev resourceOvercommit : Word16 := 0x0905
abbrev descriptorInvalid : Word16 := 0x0906
abbrev imageMismatch : Word16 := 0x0907
abbrev volumeRetained : Word16 := 0x0908
abbrev ringsNotEmpty : Word16 := 0x0909
abbrev migOfferInvalid : Word16 := 0x090A
abbrev migImageInvalid : Word16 := 0x090B
abbrev modeRefused : Word16 := 0x0A01
abbrev terminated : Word16 := 0x0A02
abbrev decisionMismatch : Word16 := 0x0A03
abbrev credentialInvalid : Word16 := 0x0A04
abbrev instancesActive : Word16 := 0x0A05
abbrev imageInvalid : Word16 := 0x0A06
abbrev tamperActive : Word16 := 0x0A07

end Sys2Proof.St
end

