-- ==== Sys2Proof/Machine/Regs.lean ====
section
/-! DEFINITION. The table of the device registers (R26, and the register map of every chapter): address, number of
copies, the bits of each access code of R7, the value at reset, and the values that are not reserved (R9). A register
is named by its offset from 0x4000_0000. Generated from the register maps of the spec. -/

namespace Sys2Proof.Machine

/-- One line of a register map. `legal` lists fields (lowest bit, width) whose values are restricted, with the
ranges that are not reserved. -/
structure RegDesc where
  addr : Nat
  count : Nat := 1
  stride : Nat := 4
  rw : Word32 := 0
  w1c : Word32 := 0
  w1s : Word32 := 0
  rc : Bool := false
  reset : Word32 := 0
  legal : List (Nat × Nat × List (Nat × Nat)) := []
  deriving Repr

/-- The copies of a register lie at multiples of its stride. -/
def RegDesc.covers (d : RegDesc) (a : Nat) : Bool :=
  d.addr ≤ a && (a - d.addr) % d.stride == 0 && (a - d.addr) / d.stride < d.count

/-- Register map of the KPR block. -/
def regsKpr : List RegDesc :=
  [{ addr := 0x0, reset := 0x8128B001 },
   { addr := 0x4, reset := 0xAE1D },
   { addr := 0x20, reset := 0x40E },
   { addr := 0x24 },
   { addr := 0x28 },
   { addr := 0x2C },
   { addr := 0x30 },
   { addr := 0x34 },
   { addr := 0x38 },
   { addr := 0x3C },
   { addr := 0x40, rw := 0x1F, reset := 0x21 },
   { addr := 0x44, rc := true },
   { addr := 0x48, rw := 0xFFFFFFFF },
   { addr := 0x4C, rw := 0xFF },
   { addr := 0x50 },
   { addr := 0x54 },
   { addr := 0x58 },
   { addr := 0x5C },
   { addr := 0x60 },
   { addr := 0x64 }] ++
  [{ addr := 0x68 },
   { addr := 0x6C }]

/-- Register map of the INS block. -/
def regsIns : List RegDesc :=
  [{ addr := 0x100000, rw := 0x3F },
   { addr := 0x100004 },
   { addr := 0x100008 },
   { addr := 0x10000C, rw := 0xFFFFFFFF },
   { addr := 0x100010, rw := 0xFF },
   { addr := 0x100014 },
   { addr := 0x100018 },
   { addr := 0x10001C, rw := 0x3FFF, reset := 0x64, legal := [(0, 14, [(0, 10000)])] },
   { addr := 0x100020, rw := 0xFFFFFFFF },
   { addr := 0x100024, rw := 0xFF },
   { addr := 0x100028, rw := 0xFFF },
   { addr := 0x10002C },
   { addr := 0x100030 }]

/-- Register map of the RING block. -/
def regsRing : List RegDesc :=
  [{ addr := 0x200000, rw := 0xFFF },
   { addr := 0x200004, rw := 0xFFC0FFFF, reset := 0x1 },
   { addr := 0x200008, rw := 0xFFFFFFFF },
   { addr := 0x20000C, rw := 0xFFFFFFFF },
   { addr := 0x200010, rw := 0xF0007 },
   { addr := 0x200014 },
   { addr := 0x200018 },
   { addr := 0x20001C },
   { addr := 0x200020 },
   { addr := 0x200030, w1c := 0x1 },
   { addr := 0x200040, rw := 0xFFF1FFF, reset := 0x10 },
   { addr := 0x200044, rw := 0x1F, reset := 0x7 },
   { addr := 0x200048 },
   { addr := 0x20004C, rc := true },
   { addr := 0x200050, rc := true },
   { addr := 0x200054, rc := true },
   { addr := 0x200058, rc := true }]

/-- Register map of the BRK block. -/
def regsBrk : List RegDesc :=
  [{ addr := 0x300000 },
   { addr := 0x300004 },
   { addr := 0x300008 },
   { addr := 0x30000C },
   { addr := 0x300010, rw := 0xFF, w1s := 0x100, reset := 0x5, legal := [(0, 8, [(5, 50)])] },
   { addr := 0x300014, rw := 0xFFFF, reset := 0x3E8, legal := [(0, 16, [(1000, 65535)])] },
   { addr := 0x300018 },
   { addr := 0x30001C },
   { addr := 0x300020 },
   { addr := 0x300024, rc := true },
   { addr := 0x300100, reset := 0x339 },
   { addr := 0x300104, reset := 0x294 },
   { addr := 0x300108, reset := 0x294 },
   { addr := 0x30010C, reset := 0x2F7 },
   { addr := 0x300110, reset := 0x36B },
   { addr := 0x300114, reset := 0x2BC },
   { addr := 0x300118, reset := 0x2BC },
   { addr := 0x30011C, reset := 0x325 },
   { addr := 0x300120, reset := 0x96 },
   { addr := 0x300124, reset := 0x78 }] ++
  [{ addr := 0x300128, reset := 0x78 },
   { addr := 0x30012C, reset := 0x8A },
   { addr := 0x300130, reset := 0xFA },
   { addr := 0x300134, reset := 0xC8 },
   { addr := 0x300138, reset := 0xC8 },
   { addr := 0x30013C, reset := 0xE6 },
   { addr := 0x300140, reset := 0x96 },
   { addr := 0x300144, reset := 0x78 },
   { addr := 0x300148, reset := 0x78 },
   { addr := 0x30014C, reset := 0x8A },
   { addr := 0x300150, reset := 0xBC },
   { addr := 0x300154, reset := 0x96 },
   { addr := 0x300158, reset := 0x96 },
   { addr := 0x30015C, reset := 0xAD },
   { addr := 0x300160, reset := 0x139 },
   { addr := 0x300164, reset := 0xFA },
   { addr := 0x300168, reset := 0xFA },
   { addr := 0x30016C, reset := 0x120 },
   { addr := 0x300170, reset := 0x96 },
   { addr := 0x300174, reset := 0x78 }] ++
  [{ addr := 0x300178, reset := 0x78 },
   { addr := 0x30017C, reset := 0x8A },
   { addr := 0x300180, reset := 0xBC },
   { addr := 0x300184, reset := 0x96 },
   { addr := 0x300188, reset := 0x96 },
   { addr := 0x30018C, reset := 0xAD }]

/-- Register map of the TDL block. -/
def regsTdl : List RegDesc :=
  [{ addr := 0x400000 },
   { addr := 0x400008 },
   { addr := 0x40000C },
   { addr := 0x400010 },
   { addr := 0x400014 },
   { addr := 0x400018 },
   { addr := 0x40001C },
   { addr := 0x400020 },
   { addr := 0x400024 }]

/-- Register map of the STR block. -/
def regsStr : List RegDesc :=
  [{ addr := 0x500000 },
   { addr := 0x500004 },
   { addr := 0x500008 },
   { addr := 0x50000C },
   { addr := 0x500010, rw := 0x3F },
   { addr := 0x500014 },
   { addr := 0x500018 },
   { addr := 0x50001C },
   { addr := 0x500020 },
   { addr := 0x500024 },
   { addr := 0x500028 },
   { addr := 0x50002C },
   { addr := 0x500030 },
   { addr := 0x500034 },
   { addr := 0x500038 },
   { addr := 0x50003C },
   { addr := 0x500040, rw := 0x7F0FFF, legal := [(16, 7, [(1, 64)])] }]

/-- Register map of the SHG block. -/
def regsShg : List RegDesc :=
  [{ addr := 0x600000 },
   { addr := 0x600004 },
   { addr := 0x600008, rc := true },
   { addr := 0x60000C, rc := true },
   { addr := 0x600010, rc := true },
   { addr := 0x600014, rw := 0x3F },
   { addr := 0x600018 },
   { addr := 0x60001C },
   { addr := 0x600020 }]

/-- Register map of the STL block. -/
def regsStl : List RegDesc :=
  [{ addr := 0x700000 },
   { addr := 0x700004 },
   { addr := 0x700008 },
   { addr := 0x700020, rw := 0xFFFFFFFF },
   { addr := 0x700024, rw := 0xFFFFFFFF },
   { addr := 0x700028, rw := 0xFFFFFFFF },
   { addr := 0x70002C, rw := 0xFFFFFFFF },
   { addr := 0x700030, rw := 0xFFFFFFFF },
   { addr := 0x700034, rw := 0xFFFFFFFF },
   { addr := 0x700038, rw := 0xFFFFFFFF },
   { addr := 0x70003C, rw := 0xFFFFFFFF },
   { addr := 0x700040 },
   { addr := 0x700044 },
   { addr := 0x700048, rc := true },
   { addr := 0x70004C, rc := true }]

/-- Register map of the AIR block. -/
def regsAir : List RegDesc :=
  [{ addr := 0x800000, rw := 0x31B },
   { addr := 0x800004 },
   { addr := 0x800008 },
   { addr := 0x80000C },
   { addr := 0x800010 },
   { addr := 0x800014 },
   { addr := 0x800018 },
   { addr := 0x80001C },
   { addr := 0x800020, rw := 0xFFFF, reset := 0xFD44, legal := [(0, 16, [(64636, 65036)])] },
   { addr := 0x800024, rw := 0xFFFF, reset := 0x32, legal := [(0, 16, [(10, 1000)])] },
   { addr := 0x800028, reset := 0x3E8 },
   { addr := 0x80002C, rw := 0xFFFFFFFF, reset := 0x7D0 },
   { addr := 0x800030, rw := 0xFFFFFFFF, reset := 0x7D00096 },
   { addr := 0x800034 },
   { addr := 0x800038, rw := 0xFFFF, reset := 0x64 },
   { addr := 0x800040, rw := 0x3F },
   { addr := 0x800044 },
   { addr := 0x800048 },
   { addr := 0x80004C },
   { addr := 0x800100, count := 16, stride := 4, rw := 0xFEFFFFFF }] ++
  [{ addr := 0x800200, rc := true },
   { addr := 0x800204, rc := true },
   { addr := 0x800208, rc := true },
   { addr := 0x80020C, rc := true },
   { addr := 0x800210, rc := true },
   { addr := 0x800214, rc := true },
   { addr := 0x800218, rc := true }]

/-- Register map of the CIP block. -/
def regsCip : List RegDesc :=
  [{ addr := 0x900000 },
   { addr := 0x900004 },
   { addr := 0x900008, rw := 0xFFFF, reset := 0xFFFF },
   { addr := 0x90000C, rc := true },
   { addr := 0x900010, rc := true },
   { addr := 0x900014, rc := true },
   { addr := 0x900018, rc := true },
   { addr := 0x900020, rw := 0xF },
   { addr := 0x900024 }]

/-- Register map of the PKE block. -/
def regsPke : List RegDesc :=
  [{ addr := 0xA00000 },
   { addr := 0xA00004, rw := 0xFFF },
   { addr := 0xA00008, rw := 0xFFFFFFFF },
   { addr := 0xA0000C, rw := 0xFF },
   { addr := 0xA00010, rw := 0xFFFF },
   { addr := 0xA00014 },
   { addr := 0xA00018 },
   { addr := 0xA00020, rc := true },
   { addr := 0xA00024, rc := true },
   { addr := 0xA00028, rc := true },
   { addr := 0xA0002C, rc := true }]

/-- Register map of the KEY block. -/
def regsKey : List RegDesc :=
  [{ addr := 0xB00000 },
   { addr := 0xB00004 },
   { addr := 0xB00008 },
   { addr := 0xB0000C },
   { addr := 0xB00010 },
   { addr := 0xB00014, rw := 0xFFF },
   { addr := 0xB00018 },
   { addr := 0xB0001C },
   { addr := 0xB00020 },
   { addr := 0xB00024, rw := 0xFFFFFC00 },
   { addr := 0xB00028, rw := 0xFFFFFFFF },
   { addr := 0xB0002C, rw := 0xFF },
   { addr := 0xB00030, rw := 0xFFFFFFFF },
   { addr := 0xB00034 },
   { addr := 0xB00038 },
   { addr := 0xB0003C, rc := true },
   { addr := 0xB00040, rc := true },
   { addr := 0xB00044, rw := 0xFFFFFFFF },
   { addr := 0xB00048, rw := 0xFF },
   { addr := 0xB0004C, rw := 0xFFFF }] ++
  [{ addr := 0xB00050 },
   { addr := 0xB00054 }]

/-- Register map of the RNG block. -/
def regsRng : List RegDesc :=
  [{ addr := 0xC00000 },
   { addr := 0xC00004 },
   { addr := 0xC00008 },
   { addr := 0xC0000C, rc := true },
   { addr := 0xC00010, rc := true },
   { addr := 0xC00014, rc := true },
   { addr := 0xC00018, rc := true },
   { addr := 0xC0001C }]

/-- Register map of the CFL block. -/
def regsCfl : List RegDesc :=
  [{ addr := 0xD00000 },
   { addr := 0xD00004 },
   { addr := 0xD00008 },
   { addr := 0xD0000C },
   { addr := 0xD00010 },
   { addr := 0xD00014, rw := 0x3FF, legal := [(0, 10, [(0, 548)])] },
   { addr := 0xD00018 },
   { addr := 0xD0001C },
   { addr := 0xD00020 },
   { addr := 0xD00024 },
   { addr := 0xD00028 },
   { addr := 0xD0002C },
   { addr := 0xD00030 },
   { addr := 0xD00034, rc := true },
   { addr := 0xD00038, rc := true }]

/-- Register map of the EVF block. -/
def regsEvf : List RegDesc :=
  [{ addr := 0xE00000 },
   { addr := 0xE00004 },
   { addr := 0xE00008 },
   { addr := 0xE0000C, reset := 0x2D00000 },
   { addr := 0xE00010, rw := 0xFFFF, reset := 0x5028, legal := [(0, 8, [(16, 80)]), (8, 8, [(60, 100)])] },
   { addr := 0xE00014, rw := 0xFFFF, reset := 0x9C4, legal := [(0, 16, [(1000, 5000)])] },
   { addr := 0xE00018, rw := 0xFFFF, legal := [(0, 14, [(0, 10879)])] },
   { addr := 0xE0001C },
   { addr := 0xE00020 },
   { addr := 0xE00024, rc := true },
   { addr := 0xE00028, rc := true },
   { addr := 0xE0002C, rc := true },
   { addr := 0xE00030, rc := true }]

/-- Register map of the CRD block. -/
def regsCrd : List RegDesc :=
  [{ addr := 0xF00000, rw := 0xF, reset := 0x2 },
   { addr := 0xF00004 },
   { addr := 0xF00010, count := 5, stride := 4, rw := 0xFEFFFFFF },
   { addr := 0xF00030, rw := 0xF },
   { addr := 0xF00034 },
   { addr := 0xF00038, count := 4, stride := 4 },
   { addr := 0xF00050, rc := true },
   { addr := 0xF00054, rc := true },
   { addr := 0xF00058, rc := true },
   { addr := 0xF0005C, rc := true },
   { addr := 0xF00060, rc := true }]

/-- Register map of the ISO block. -/
def regsIso : List RegDesc :=
  [{ addr := 0x1000000, count := 2, stride := 64, rw := 0x71, reset := 0x40, legal := [(4, 3, [(1, 5)])] },
   { addr := 0x1000004, count := 2, stride := 64 },
   { addr := 0x1000008, count := 2, stride := 64, rw := 0xFEFFFFFF },
   { addr := 0x100000C, count := 2, stride := 64, rc := true }]

/-- Register map of the CAN block. -/
def regsCan : List RegDesc :=
  [{ addr := 0x1100000, count := 2, stride := 64, rw := 0xFF0F, reset := 0x200 },
   { addr := 0x1100004, count := 2, stride := 64, reset := 0x3 },
   { addr := 0x1100008, count := 2, stride := 64, rw := 0xFEFFFFFF },
   { addr := 0x110000C, count := 2, stride := 64, rc := true },
   { addr := 0x1101000, count := 128, stride := 8, rw := 0xDFFFFFFF },
   { addr := 0x1101004, count := 128, stride := 8, rw := 0x5FFFFFFF }]

/-- Register map of the SNS block. -/
def regsSns : List RegDesc :=
  [{ addr := 0x1200000, rw := 0xFFFF0007, reset := 0x3E80000, legal := [(16, 16, [(10, 1000)])] },
   { addr := 0x1200004, count := 2, stride := 4 },
   { addr := 0x120000C, rw := 0xFEFFFFFF },
   { addr := 0x1200010, rc := true }]

/-- Register map of the GNS block. -/
def regsGns : List RegDesc :=
  [{ addr := 0x1300000, rw := 0xF3, reset := 0x20 },
   { addr := 0x1300004, rw := 0xFFFFFFFF },
   { addr := 0x1300008, rw := 0xFFFFFFFF },
   { addr := 0x130000C },
   { addr := 0x1300010 },
   { addr := 0x1300014 },
   { addr := 0x1300018, rw := 0xFEFFFFFF },
   { addr := 0x130001C },
   { addr := 0x1300020 }]

/-- Register map of the TMP block. -/
def regsTmp : List RegDesc :=
  [{ addr := 0x1400000 },
   { addr := 0x1400004 },
   { addr := 0x1400008, w1c := 0xFFFFFF },
   { addr := 0x140000C },
   { addr := 0x1400010 },
   { addr := 0x1400020 },
   { addr := 0x1400024 },
   { addr := 0x1400028 },
   { addr := 0x140002C },
   { addr := 0x1400030 },
   { addr := 0x1400034 },
   { addr := 0x1400038, rc := true },
   { addr := 0x1400040 },
   { addr := 0x1400044 },
   { addr := 0x1400048 },
   { addr := 0x140004C },
   { addr := 0x1400050 },
   { addr := 0x1400054 },
   { addr := 0x1400058 },
   { addr := 0x140005C }] ++
  [{ addr := 0x1400100, rw := 0x7, reset := 0x1, legal := [(0, 3, [(0, 5)])] },
   { addr := 0x1400104, rw := 0x7, reset := 0x3, legal := [(0, 3, [(0, 5)])] },
   { addr := 0x1400108, rw := 0x7, reset := 0x1, legal := [(0, 3, [(0, 5)])] },
   { addr := 0x140010C, rw := 0x7, reset := 0x2, legal := [(0, 3, [(0, 5)])] },
   { addr := 0x1400110, rw := 0x7, reset := 0x1, legal := [(0, 3, [(0, 5)])] },
   { addr := 0x1400114, rw := 0x7, reset := 0x3, legal := [(0, 3, [(0, 5)])] },
   { addr := 0x1400118, rw := 0x7, reset := 0x3, legal := [(0, 3, [(0, 5)])] },
   { addr := 0x140011C, rw := 0x7, reset := 0x1, legal := [(0, 3, [(0, 5)])] },
   { addr := 0x1400120, rw := 0x7, reset := 0x1, legal := [(0, 3, [(0, 5)])] },
   { addr := 0x1400124, rw := 0x7, reset := 0x1, legal := [(0, 3, [(0, 5)])] },
   { addr := 0x1400128, rw := 0x7, reset := 0x4, legal := [(0, 3, [(0, 5)])] },
   { addr := 0x140012C, rw := 0x7, reset := 0x5, legal := [(0, 3, [(0, 5)])] },
   { addr := 0x1400130, rw := 0x7, reset := 0x5, legal := [(0, 3, [(0, 5)])] },
   { addr := 0x1400134, rw := 0x7, reset := 0x4, legal := [(0, 3, [(0, 5)])] },
   { addr := 0x1400138, rw := 0x7, reset := 0x3, legal := [(0, 3, [(0, 5)])] },
   { addr := 0x140013C, rw := 0x7, reset := 0x3, legal := [(0, 3, [(0, 5)])] },
   { addr := 0x1400140, rw := 0xFF000007, reset := 0x2000004, legal := [(0, 3, [(0, 5)]), (24, 8, [(1, 16)])] },
   { addr := 0x1400144, rw := 0x7, reset := 0x3, legal := [(0, 3, [(0, 5)])] },
   { addr := 0x1400148, rw := 0xFF000007, reset := 0x4000002, legal := [(0, 3, [(0, 5)]), (24, 8, [(1, 255)])] },
   { addr := 0x140014C, rw := 0xFF000007, reset := 0x8000002, legal := [(0, 3, [(0, 5)]), (24, 8, [(1, 255)])] }] ++
  [{ addr := 0x1400150, rw := 0xFF000007, reset := 0x1000004, legal := [(0, 3, [(0, 5)]), (24, 8, [(1, 16)])] },
   { addr := 0x1400154, rw := 0x7, reset := 0x3, legal := [(0, 3, [(0, 5)])] },
   { addr := 0x1400158, rw := 0xFF000007, reset := 0x10000001, legal := [(0, 3, [(0, 5)]), (24, 8, [(1, 255)])] },
   { addr := 0x140015C, rw := 0x7, reset := 0x2, legal := [(0, 3, [(0, 5)])] }]

/-- Register map of the MPU block. -/
def regsMpu : List RegDesc :=
  [{ addr := 0x1500000, rw := 0x3F },
   { addr := 0x1500004, rw := 0xFFFFFF },
   { addr := 0x1500008, w1c := 0x1 },
   { addr := 0x1500010, rw := 0xFFFFFFC0 },
   { addr := 0x1500014, rw := 0xFF },
   { addr := 0x1500018, rc := true },
   { addr := 0x1500020 },
   { addr := 0x1500024 },
   { addr := 0x1500028 },
   { addr := 0x150002C },
   { addr := 0x1500030 },
   { addr := 0x1500100, count := 16, stride := 8, rw := 0xFFFFFFC0 },
   { addr := 0x1500104, count := 16, stride := 8, rw := 0x83703FFF }]

/-- Register map of the PWR block. -/
def regsPwr : List RegDesc :=
  [{ addr := 0x1700000 },
   { addr := 0x1700004 },
   { addr := 0x1700008 },
   { addr := 0x170000C },
   { addr := 0x1700010, rw := 0xFF00, reset := 0x7D00, legal := [(8, 8, [(95, 125)])] },
   { addr := 0x1700014, rc := true }]

/-- Register map of the STAT block. -/
def regsStat : List RegDesc :=
  [{ addr := 0x1800000, rw := 0xFFF, reset := 0x3C, legal := [(0, 12, [(1, 3600)])] },
   { addr := 0x1800004 },
   { addr := 0x1800008 },
   { addr := 0x180000C },
   { addr := 0x1800010, reset := 0x1 }]

/-- Register map of the HSH block. -/
def regsHsh : List RegDesc :=
  [{ addr := 0x1900000 },
   { addr := 0x1900004, rc := true },
   { addr := 0x1900008 },
   { addr := 0x190000C }]

/-- The register maps by block number (R26). Block 22, CLK, has no registers. -/
def regsOf : Nat → List RegDesc
  | 0 => regsKpr
  | 1 => regsIns
  | 2 => regsRing
  | 3 => regsBrk
  | 4 => regsTdl
  | 5 => regsStr
  | 6 => regsShg
  | 7 => regsStl
  | 8 => regsAir
  | 9 => regsCip
  | 10 => regsPke
  | 11 => regsKey
  | 12 => regsRng
  | 13 => regsCfl
  | 14 => regsEvf
  | 15 => regsCrd
  | 16 => regsIso
  | 17 => regsCan
  | 18 => regsSns
  | 19 => regsGns
  | 20 => regsTmp
  | 21 => regsMpu
  | 23 => regsPwr
  | 24 => regsStat
  | 25 => regsHsh
  | _ => []

/-- The register at an offset, if one is there (R29). -/
def regDesc (a : Nat) : Option RegDesc :=
  (regsOf (a / 0x100000)).find? fun d => d.covers a

/-- The value of a register at reset, by its offset. -/
def regReset (a : Nat) : Word32 :=
  match regDesc a with
  | some d => d.reset
  | none => 0

end Sys2Proof.Machine

/-! Names of the registers: the offset of the first copy. -/
namespace Sys2Proof.Reg

/-- R31 -/
abbrev KPR_ID_REV : Nat := 0x0
/-- R32 -/
abbrev KPR_ID_VENDOR : Nat := 0x4
/-- R50 -/
abbrev KPR_MODE : Nat := 0x20
/-- R50 -/
abbrev KPR_MODE_REQ : Nat := 0x24
/-- R50 -/
abbrev KPR_MODE_STAT : Nat := 0x28
/-- R50 -/
abbrev KPR_START : Nat := 0x2C
/-- R50 -/
abbrev KPR_LC_WORKSHOP : Nat := 0x30
/-- R50 -/
abbrev KPR_LC_RECOVERY : Nat := 0x34
/-- R50 -/
abbrev KPR_LC_FATAL : Nat := 0x38
/-- R50 -/
abbrev KPR_RESET_CAUSE : Nat := 0x3C
/-- R50 -/
abbrev KPR_WAKE_EN : Nat := 0x40
/-- R50 -/
abbrev KPR_WAKE_CAUSE : Nat := 0x44
/-- R50 -/
abbrev KPR_MODE_CRED_LO : Nat := 0x48
/-- R50 -/
abbrev KPR_MODE_CRED_HI : Nat := 0x4C
/-- R50 -/
abbrev KPR_DNONCE0 : Nat := 0x50
/-- R50 -/
abbrev KPR_DNONCE1 : Nat := 0x54
/-- R50 -/
abbrev KPR_DNONCE2 : Nat := 0x58
/-- R50 -/
abbrev KPR_DNONCE3 : Nat := 0x5C
/-- R50 -/
abbrev KPR_DNONCE4 : Nat := 0x60
/-- R50 -/
abbrev KPR_DNONCE5 : Nat := 0x64
/-- R50 -/
abbrev KPR_DNONCE6 : Nat := 0x68
/-- R50 -/
abbrev KPR_DNONCE7 : Nat := 0x6C
/-- R374 -/
abbrev INS_ISEL : Nat := 0x100000
/-- R374 -/
abbrev INS_CMD : Nat := 0x100004
/-- R374 -/
abbrev INS_CMD_STAT : Nat := 0x100008
/-- R374 -/
abbrev INS_DESC_LO : Nat := 0x10000C
/-- R374 -/
abbrev INS_DESC_HI : Nat := 0x100010
/-- R374 -/
abbrev INS_STATE : Nat := 0x100014
/-- R374 -/
abbrev INS_QSTAT : Nat := 0x100018
/-- R374 -/
abbrev INS_DRAIN : Nat := 0x10001C
/-- R374 -/
abbrev INS_MIG_LO : Nat := 0x100020
/-- R374 -/
abbrev INS_MIG_HI : Nat := 0x100024
/-- R374 -/
abbrev INS_MIG_RING : Nat := 0x100028
/-- R374 -/
abbrev INS_MIGCTR_LO : Nat := 0x10002C
/-- R374 -/
abbrev INS_MIGCTR_HI : Nat := 0x100030
/-- R403 -/
abbrev RING_RSEL : Nat := 0x200000
/-- R403 -/
abbrev RING_CFG : Nat := 0x200004
/-- R403 -/
abbrev RING_BASE_LO : Nat := 0x200008
/-- R403 -/
abbrev RING_BASE_HI : Nat := 0x20000C
/-- R403 -/
abbrev RING_IRQ : Nat := 0x200010
/-- R403 -/
abbrev RING_HEAD : Nat := 0x200014
/-- R403 -/
abbrev RING_TAIL : Nat := 0x200018
/-- R403 -/
abbrev RING_STATE : Nat := 0x20001C
/-- R403 -/
abbrev RING_CTRL : Nat := 0x200020
/-- R403 -/
abbrev RING_STATUS : Nat := 0x200030
/-- R403 -/
abbrev RING_KRANGE : Nat := 0x200040
/-- R403 -/
abbrev RING_HIF : Nat := 0x200044
/-- R403 -/
abbrev RING_PCIE : Nat := 0x200048
/-- R403 -/
abbrev RING_DBERR : Nat := 0x20004C
/-- R403 -/
abbrev RING_QCRCERR : Nat := 0x200050
/-- R403 -/
abbrev RING_FLRCNT : Nat := 0x200054
/-- R403 -/
abbrev RING_HALTS : Nat := 0x200058
/-- R126 -/
abbrev BRK_STATUS : Nat := 0x300000
/-- R126 -/
abbrev BRK_VHOLD : Nat := 0x300004
/-- R126 -/
abbrev BRK_CAP : Nat := 0x300008
/-- R126 -/
abbrev BRK_MEAS : Nat := 0x30000C
/-- R126 -/
abbrev BRK_CTRL : Nat := 0x300010
/-- R126 -/
abbrev BRK_CAP_MIN : Nat := 0x300014
/-- R126 -/
abbrev BRK_ENERGY : Nat := 0x300018
/-- R126 -/
abbrev BRK_INFLIGHT : Nat := 0x30001C
/-- R126 -/
abbrev BRK_RESERVE : Nat := 0x300020
/-- R126 -/
abbrev BRK_REFUSED : Nat := 0x300024
/-- R126 -/
abbrev BRK_COST : Nat := 0x300100
/-- R127 -/
abbrev TDL_STATUS : Nat := 0x400000
/-- R127 -/
abbrev TDL_MARKED_LO : Nat := 0x400008
/-- R127 -/
abbrev TDL_MARKED_HI : Nat := 0x40000C
/-- R127 -/
abbrev TDL_APPLIED_LO : Nat := 0x400010
/-- R127 -/
abbrev TDL_APPLIED_HI : Nat := 0x400014
/-- R127 -/
abbrev TDL_JUSED : Nat := 0x400018
/-- R127 -/
abbrev TDL_REPLAYED : Nat := 0x40001C
/-- R127 -/
abbrev TDL_DISCARDED : Nat := 0x400020
/-- R127 -/
abbrev TDL_PFAIL : Nat := 0x400024
/-- R128 -/
abbrev STR_STATUS : Nat := 0x500000
/-- R128 -/
abbrev STR_SPARE : Nat := 0x500004
/-- R128 -/
abbrev STR_BANDS_FREE : Nat := 0x500008
/-- R128 -/
abbrev STR_DEVREC_LOST : Nat := 0x50000C
/-- R128 -/
abbrev STR_VSEL : Nat := 0x500010
/-- R128 -/
abbrev STR_VQUOTA : Nat := 0x500014
/-- R128 -/
abbrev STR_VUSED : Nat := 0x500018
/-- R128 -/
abbrev STR_VFLAGS : Nat := 0x50001C
/-- R128 -/
abbrev STR_VSEQ_LO : Nat := 0x500020
/-- R128 -/
abbrev STR_VSEQ_HI : Nat := 0x500024
/-- R128 -/
abbrev STR_VSTRIP_LO : Nat := 0x500028
/-- R128 -/
abbrev STR_VSTRIP_HI : Nat := 0x50002C
/-- R128 -/
abbrev STR_VREL_LO : Nat := 0x500030
/-- R128 -/
abbrev STR_VREL_HI : Nat := 0x500034
/-- R128 -/
abbrev STR_VRCPT_LO : Nat := 0x500038
/-- R128 -/
abbrev STR_VRCPT_HI : Nat := 0x50003C
/-- R128 -/
abbrev STR_RCPT : Nat := 0x500040
/-- R161 -/
abbrev SHG_STATUS : Nat := 0x600000
/-- R161 -/
abbrev SHG_USED : Nat := 0x600004
/-- R161 -/
abbrev SHG_HITS : Nat := 0x600008
/-- R161 -/
abbrev SHG_MISSES : Nat := 0x60000C
/-- R161 -/
abbrev SHG_BAD : Nat := 0x600010
/-- R161 -/
abbrev SHG_ISEL : Nat := 0x600014
/-- R161 -/
abbrev SHG_IQUOTA : Nat := 0x600018
/-- R161 -/
abbrev SHG_IUSED : Nat := 0x60001C
/-- R161 -/
abbrev SHG_WRAPGEN : Nat := 0x600020
/-- R162 -/
abbrev STL_STATUS : Nat := 0x700000
/-- R162 -/
abbrev STL_COUNT0 : Nat := 0x700004
/-- R162 -/
abbrev STL_COUNT1 : Nat := 0x700008
/-- R162 -/
abbrev STL_ENTRY0 : Nat := 0x700020
/-- R162 -/
abbrev STL_ENTRY1 : Nat := 0x700024
/-- R162 -/
abbrev STL_ENTRY2 : Nat := 0x700028
/-- R162 -/
abbrev STL_ENTRY3 : Nat := 0x70002C
/-- R162 -/
abbrev STL_ENTRY4 : Nat := 0x700030
/-- R162 -/
abbrev STL_ENTRY5 : Nat := 0x700034
/-- R162 -/
abbrev STL_ENTRY6 : Nat := 0x700038
/-- R162 -/
abbrev STL_ENTRY7 : Nat := 0x70003C
/-- R162 -/
abbrev STL_CMD : Nat := 0x700040
/-- R162 -/
abbrev STL_EDIT_STAT : Nat := 0x700044
/-- R162 -/
abbrev STL_LOOKUPS : Nat := 0x700048
/-- R162 -/
abbrev STL_MISSES : Nat := 0x70004C
/-- R214 -/
abbrev AIR_CTRL : Nat := 0x800000
/-- R214 -/
abbrev AIR_STATUS : Nat := 0x800004
/-- R214 -/
abbrev AIR_TAGID_LO : Nat := 0x800008
/-- R214 -/
abbrev AIR_TAGID_HI : Nat := 0x80000C
/-- R214 -/
abbrev AIR_READER_LO : Nat := 0x800010
/-- R214 -/
abbrev AIR_READER_HI : Nat := 0x800014
/-- R214 -/
abbrev AIR_RSSI : Nat := 0x800018
/-- R214 -/
abbrev AIR_DWELL : Nat := 0x80001C
/-- R214 -/
abbrev AIR_FLOOR : Nat := 0x800020
/-- R214 -/
abbrev AIR_DWELL_CAP : Nat := 0x800024
/-- R214 -/
abbrev AIR_TCOMMIT : Nat := 0x800028
/-- R214 -/
abbrev AIR_TXBUDGET : Nat := 0x80002C
/-- R214 -/
abbrev AIR_WAIT : Nat := 0x800030
/-- R214 -/
abbrev AIR_WAITBASE : Nat := 0x800034
/-- R214 -/
abbrev AIR_INV : Nat := 0x800038
/-- R214 -/
abbrev AIR_ASEL : Nat := 0x800040
/-- R214 -/
abbrev AIR_AINFO : Nat := 0x800044
/-- R214 -/
abbrev AIR_AVER_LO : Nat := 0x800048
/-- R214 -/
abbrev AIR_AVER_HI : Nat := 0x80004C
/-- R214 -/
abbrev AIR_BIND : Nat := 0x800100
/-- R214 -/
abbrev AIR_RXFRAMES : Nat := 0x800200
/-- R214 -/
abbrev AIR_TXFRAMES : Nat := 0x800204
/-- R214 -/
abbrev AIR_FCSERR : Nat := 0x800208
/-- R214 -/
abbrev AIR_DWELLSHORT : Nat := 0x80020C
/-- R214 -/
abbrev AIR_PWFAIL : Nat := 0x800210
/-- R214 -/
abbrev AIR_BSREPLIES : Nat := 0x800214
/-- R214 -/
abbrev AIR_DROPPED : Nat := 0x800218
/-- R428 -/
abbrev CIP_STATUS : Nat := 0x900000
/-- R428 -/
abbrev CIP_PREFIX : Nat := 0x900004
/-- R428 -/
abbrev CIP_LANE_EN : Nat := 0x900008
/-- R428 -/
abbrev CIP_FAULTS : Nat := 0x90000C
/-- R428 -/
abbrev CIP_AUTHFAIL : Nat := 0x900010
/-- R428 -/
abbrev CIP_RESWAIT : Nat := 0x900014
/-- R428 -/
abbrev CIP_ADVANCES : Nat := 0x900018
/-- R428 -/
abbrev CIP_LSEL : Nat := 0x900020
/-- R428 -/
abbrev CIP_LSTAT : Nat := 0x900024
/-- R429 -/
abbrev PKE_STATUS : Nat := 0xA00000
/-- R429 -/
abbrev PKE_PUB_SLOT : Nat := 0xA00004
/-- R429 -/
abbrev PKE_PUB_ADDR_LO : Nat := 0xA00008
/-- R429 -/
abbrev PKE_PUB_ADDR_HI : Nat := 0xA0000C
/-- R429 -/
abbrev PKE_PUB_LEN : Nat := 0xA00010
/-- R429 -/
abbrev PKE_PUB_CMD : Nat := 0xA00014
/-- R429 -/
abbrev PKE_PUB_STAT : Nat := 0xA00018
/-- R429 -/
abbrev PKE_SIGNS : Nat := 0xA00020
/-- R429 -/
abbrev PKE_VERIFIES : Nat := 0xA00024
/-- R429 -/
abbrev PKE_AGREES : Nat := 0xA00028
/-- R429 -/
abbrev PKE_FAULTS : Nat := 0xA0002C
/-- R469 -/
abbrev KEY_STATUS : Nat := 0xB00000
/-- R469 -/
abbrev KEY_SERIAL0 : Nat := 0xB00004
/-- R469 -/
abbrev KEY_SERIAL1 : Nat := 0xB00008
/-- R469 -/
abbrev KEY_SERIAL2 : Nat := 0xB0000C
/-- R469 -/
abbrev KEY_SERIAL3 : Nat := 0xB00010
/-- R469 -/
abbrev KEY_SSEL : Nat := 0xB00014
/-- R469 -/
abbrev KEY_SATTR_LO : Nat := 0xB00018
/-- R469 -/
abbrev KEY_SATTR_HI : Nat := 0xB0001C
/-- R469 -/
abbrev KEY_SSTAT : Nat := 0xB00020
/-- R469 -/
abbrev KEY_NATTR : Nat := 0xB00024
/-- R469 -/
abbrev KEY_ARG_LO : Nat := 0xB00028
/-- R469 -/
abbrev KEY_ARG_HI : Nat := 0xB0002C
/-- R469 -/
abbrev KEY_ARG2 : Nat := 0xB00030
/-- R469 -/
abbrev KEY_CMD : Nat := 0xB00034
/-- R469 -/
abbrev KEY_CMD_STAT : Nat := 0xB00038
/-- R469 -/
abbrev KEY_BAD : Nat := 0xB0003C
/-- R469 -/
abbrev KEY_BUSERR : Nat := 0xB00040
/-- R469 -/
abbrev KEY_ATT_ADDR_LO : Nat := 0xB00044
/-- R469 -/
abbrev KEY_ATT_ADDR_HI : Nat := 0xB00048
/-- R469 -/
abbrev KEY_ATT_LEN : Nat := 0xB0004C
/-- R469 -/
abbrev KEY_ATT_CMD : Nat := 0xB00050
/-- R469 -/
abbrev KEY_ATT_STAT : Nat := 0xB00054
/-- R470 -/
abbrev RNG_STATUS : Nat := 0xC00000
/-- R470 -/
abbrev RNG_EPFAIL : Nat := 0xC00004
/-- R470 -/
abbrev RNG_SINCE : Nat := 0xC00008
/-- R470 -/
abbrev RNG_REQS : Nat := 0xC0000C
/-- R470 -/
abbrev RNG_RESEEDS : Nat := 0xC00010
/-- R470 -/
abbrev RNG_BLOCKS : Nat := 0xC00014
/-- R470 -/
abbrev RNG_FAILS : Nat := 0xC00018
/-- R470 -/
abbrev RNG_LASTFAIL : Nat := 0xC0001C
/-- R509 -/
abbrev CFL_STATUS : Nat := 0xD00000
/-- R509 -/
abbrev CFL_SWAP : Nat := 0xD00004
/-- R509 -/
abbrev CFL_LAST : Nat := 0xD00008
/-- R509 -/
abbrev CFL_FADDR_LO : Nat := 0xD0000C
/-- R509 -/
abbrev CFL_FADDR_HI : Nat := 0xD00010
/-- R509 -/
abbrev CFL_SSEL : Nat := 0xD00014
/-- R509 -/
abbrev CFL_SINFO : Nat := 0xD00018
/-- R509 -/
abbrev CFL_HIST_LO : Nat := 0xD0001C
/-- R509 -/
abbrev CFL_HIST_HI : Nat := 0xD00020
/-- R509 -/
abbrev CFL_MSTAMP : Nat := 0xD00024
/-- R509 -/
abbrev CFL_RSTRESS : Nat := 0xD00028
/-- R509 -/
abbrev CFL_RSADD : Nat := 0xD0002C
/-- R509 -/
abbrev CFL_MARGIN : Nat := 0xD00030
/-- R509 -/
abbrev CFL_CORR : Nat := 0xD00034
/-- R509 -/
abbrev CFL_UNCORR : Nat := 0xD00038
/-- R510 -/
abbrev EVF_STATUS : Nat := 0xE00000
/-- R510 -/
abbrev EVF_POOL : Nat := 0xE00004
/-- R510 -/
abbrev EVF_RETIRED : Nat := 0xE00008
/-- R510 -/
abbrev EVF_PATROL : Nat := 0xE0000C
/-- R510 -/
abbrev EVF_THRESH : Nat := 0xE00010
/-- R510 -/
abbrev EVF_TPROG_LIM : Nat := 0xE00014
/-- R510 -/
abbrev EVF_BSEL : Nat := 0xE00018
/-- R510 -/
abbrev EVF_BINFO : Nat := 0xE0001C
/-- R510 -/
abbrev EVF_BTIME : Nat := 0xE00020
/-- R510 -/
abbrev EVF_UNCORR : Nat := 0xE00024
/-- R510 -/
abbrev EVF_REFRESHES : Nat := 0xE00028
/-- R510 -/
abbrev EVF_RETIRES : Nat := 0xE0002C
/-- R510 -/
abbrev EVF_RETRIES : Nat := 0xE00030
/-- R547 -/
abbrev CRD_CTRL : Nat := 0xF00000
/-- R547 -/
abbrev CRD_STATUS : Nat := 0xF00004
/-- R547 -/
abbrev CRD_BIND : Nat := 0xF00010
/-- R547 -/
abbrev CRD_CSEL : Nat := 0xF00030
/-- R547 -/
abbrev CRD_CINFO : Nat := 0xF00034
/-- R547 -/
abbrev CRD_CID : Nat := 0xF00038
/-- R547 -/
abbrev CRD_REMOVALS : Nat := 0xF00050
/-- R547 -/
abbrev CRD_UNKNOWN : Nat := 0xF00054
/-- R547 -/
abbrev CRD_TIMEOUTS : Nat := 0xF00058
/-- R547 -/
abbrev CRD_CRCERR : Nat := 0xF0005C
/-- R547 -/
abbrev CRD_OVERRUN : Nat := 0xF00060
/-- R547 -/
abbrev ISO_CTRL : Nat := 0x1000000
/-- R547 -/
abbrev ISO_STATUS : Nat := 0x1000004
/-- R547 -/
abbrev ISO_BIND : Nat := 0x1000008
/-- R547 -/
abbrev ISO_ERRORS : Nat := 0x100000C
/-- R547 -/
abbrev CAN_CTRL : Nat := 0x1100000
/-- R547 -/
abbrev CAN_STATUS : Nat := 0x1100004
/-- R547 -/
abbrev CAN_BIND : Nat := 0x1100008
/-- R547 -/
abbrev CAN_OVERRUN : Nat := 0x110000C
/-- R547 -/
abbrev CAN_FID : Nat := 0x1101000
/-- R547 -/
abbrev CAN_FMASK : Nat := 0x1101004
/-- R547 -/
abbrev SNS_CTRL : Nat := 0x1200000
/-- R547 -/
abbrev SNS_COUNT : Nat := 0x1200004
/-- R547 -/
abbrev SNS_BIND : Nat := 0x120000C
/-- R547 -/
abbrev SNS_LINKERR : Nat := 0x1200010
/-- R547 -/
abbrev GNS_CTRL : Nat := 0x1300000
/-- R547 -/
abbrev GNS_TSET_LO : Nat := 0x1300004
/-- R547 -/
abbrev GNS_TSET_HI : Nat := 0x1300008
/-- R547 -/
abbrev GNS_PPS_LO : Nat := 0x130000C
/-- R547 -/
abbrev GNS_PPS_HI : Nat := 0x1300010
/-- R547 -/
abbrev GNS_OFFSET : Nat := 0x1300014
/-- R547 -/
abbrev GNS_BIND : Nat := 0x1300018
/-- R547 -/
abbrev GNS_TCMD : Nat := 0x130001C
/-- R547 -/
abbrev GNS_TSTAT : Nat := 0x1300020
/-- R566 -/
abbrev TMP_STATUS : Nat := 0x1400000
/-- R566 -/
abbrev TMP_STICKY : Nat := 0x1400004
/-- R566 -/
abbrev TMP_PEND : Nat := 0x1400008
/-- R566 -/
abbrev TMP_LAST : Nat := 0x140000C
/-- R566 -/
abbrev TMP_LASTVAL : Nat := 0x1400010
/-- R566 -/
abbrev TMP_TEMP0 : Nat := 0x1400020
/-- R566 -/
abbrev TMP_TEMP1 : Nat := 0x1400024
/-- R566 -/
abbrev TMP_TEMP2 : Nat := 0x1400028
/-- R566 -/
abbrev TMP_TEMP3 : Nat := 0x140002C
/-- R566 -/
abbrev TMP_GRAD : Nat := 0x1400030
/-- R566 -/
abbrev TMP_RAILDIFF : Nat := 0x1400034
/-- R566 -/
abbrev TMP_NEAR : Nat := 0x1400038
/-- R566 -/
abbrev TMP_WNONCE0 : Nat := 0x1400040
/-- R566 -/
abbrev TMP_WNONCE1 : Nat := 0x1400044
/-- R566 -/
abbrev TMP_WNONCE2 : Nat := 0x1400048
/-- R566 -/
abbrev TMP_WNONCE3 : Nat := 0x140004C
/-- R566 -/
abbrev TMP_WNONCE4 : Nat := 0x1400050
/-- R566 -/
abbrev TMP_WNONCE5 : Nat := 0x1400054
/-- R566 -/
abbrev TMP_WNONCE6 : Nat := 0x1400058
/-- R566 -/
abbrev TMP_WNONCE7 : Nat := 0x140005C
/-- R566 -/
abbrev TMP_RESP : Nat := 0x1400100
/-- R334 -/
abbrev MPU_ISEL : Nat := 0x1500000
/-- R334 -/
abbrev MPU_DMAP : Nat := 0x1500004
/-- R334 -/
abbrev MPU_STATUS : Nat := 0x1500008
/-- R334 -/
abbrev MPU_GATE_LO : Nat := 0x1500010
/-- R334 -/
abbrev MPU_GATE_HI : Nat := 0x1500014
/-- R334 -/
abbrev MPU_SHADOWFLT : Nat := 0x1500018
/-- R334 -/
abbrev MPU_ESC_STAT : Nat := 0x1500020
/-- R334 -/
abbrev MPU_ESC_CTRL : Nat := 0x1500024
/-- R334 -/
abbrev MPU_FATAL : Nat := 0x1500028
/-- R334 -/
abbrev MPU_FATAL_ADDR_LO : Nat := 0x150002C
/-- R334 -/
abbrev MPU_FATAL_ADDR_HI : Nat := 0x1500030
/-- R334 -/
abbrev MPU_RGN_LO : Nat := 0x1500100
/-- R334 -/
abbrev MPU_RGN_HI : Nat := 0x1500104
/-- R589 -/
abbrev PWR_STATUS : Nat := 0x1700000
/-- R589 -/
abbrev PWR_VMAIN : Nat := 0x1700004
/-- R589 -/
abbrev PWR_VBAT : Nat := 0x1700008
/-- R589 -/
abbrev PWR_POWER : Nat := 0x170000C
/-- R589 -/
abbrev PWR_GOV : Nat := 0x1700010
/-- R589 -/
abbrev PWR_GOVSTEPS : Nat := 0x1700014
/-- R375 -/
abbrev STAT_CTRL : Nat := 0x1800000
/-- R375 -/
abbrev STAT_EPOCH : Nat := 0x1800004
/-- R375 -/
abbrev STAT_NEXT_LO : Nat := 0x1800008
/-- R375 -/
abbrev STAT_NEXT_HI : Nat := 0x180000C
/-- R375 -/
abbrev STAT_STATUS : Nat := 0x1800010
/-- R430 -/
abbrev HSH_STATUS : Nat := 0x1900000
/-- R430 -/
abbrev HSH_REQS : Nat := 0x1900004
/-- R430 -/
abbrev HSH_BYTES_LO : Nat := 0x1900008
/-- R430 -/
abbrev HSH_BYTES_HI : Nat := 0x190000C

end Sys2Proof.Reg
end

