-- ==== Sys2Proof/Machine/Sparse.lean ====
section
/-! DEFINITION. Sparse maps: lists of (key, value) in one canonical form, strictly rising keys, no entry equal to what
an unlisted key reads as. Every bank of the state that is large and mostly at its default is kept so. -/

namespace Sys2Proof.Machine

variable {α : Type}

/-- The value at a key; an unlisted key reads as `d`. -/
def sget (d : Nat → α) : List (Nat × α) → Nat → α
  | [], k => d k
  | (j, v) :: m, k => if j = k then v else sget d m k

/-- The map with the entry of `k` taken out. -/
def sdel (k : Nat) : List (Nat × α) → List (Nat × α)
  | [] => []
  | (j, v) :: m => if j = k then sdel k m else (j, v) :: sdel k m

/-- The map with an entry put at its place in the order, over any entry of that key. -/
def sput (k : Nat) (v : α) : List (Nat × α) → List (Nat × α)
  | [] => [(k, v)]
  | (j, w) :: m =>
    if j < k then (j, w) :: sput k v m
    else if j = k then (k, v) :: m
    else (k, v) :: (j, w) :: m

/-- Writing keeps the canonical form: writing the default removes the entry. -/
def sset [DecidableEq α] (d : Nat → α) (m : List (Nat × α)) (k : Nat) (v : α) : List (Nat × α) :=
  if v = d k then sdel k m else sput k v m

/-- The keys rise strictly. -/
def srising : List (Nat × α) → Bool
  | [] => true
  | [_] => true
  | p :: q :: m => decide (p.1 < q.1) && srising (q :: m)

/-- The canonical form. -/
def swf [DecidableEq α] (d : Nat → α) (m : List (Nat × α)) : Bool :=
  srising m && m.all fun p => decide (p.2 ≠ d p.1)

end Sys2Proof.Machine
end

