-- ==== Sys2Proof/Machine/State.lean ====
section
/-! DEFINITION. The state of the device: everything the spec gives it, as plain data, the queue of waiting commands,
and the machine right after reset. -/

namespace Sys2Proof.Machine

/-- No command of this block faults: an event whose condition does not hold changes nothing (log entry 4). -/
inductive Fault where
  deriving DecidableEq, Repr

/-- Raised only by an arm of `exec` that has no meaning yet; safe. -/
inductive Refusal where
  | notModelled (mnemonic : String)
  deriving DecidableEq, Repr

/-! ## Program contexts (06-08) -/

/-- A stack: the address above its entries, the bytes from there down to the base of its area, the top of the area
(R327), and its entries, the first on top (R239). The lowest `mem` of them stand in the area; the others are held on the
core (R240). `holes`: the addresses there that a program has stored into since. -/
structure Stk where
  top : Nat := 0
  size : Nat := 0
  atop : Nat := 0
  items : List TWord := []
  mem : Nat := 0
  holes : List Nat := []
  deriving DecidableEq, Repr

/-- A loop context (R254), the bundles counted in the present pass (R256), and whether it is LC0 or LC1. -/
structure LoopCtx where
  start : Nat
  count : Nat
  length : Nat
  passes : Nat := 0
  slot : Nat := 0
  deriving DecidableEq, Repr

/-- The registers of a context: CST, HCV, the stacks, the accumulator model's registers, the active loop contexts, the
innermost last, and the reservation, named by the number of its 64-byte granule (R238, R272, R246, R254, R276). -/
structure CpuRegs where
  level : Fin 3 := 1
  mask : BitVec 3 := 0
  z : Bool := false
  n : Bool := false
  c : Bool := false
  v : Bool := false
  dc : Bool := false
  hcv : Word16 := 0
  pc : Nat := 0
  ds : Stk := {}
  rs : Stk := {}
  acc : TWord := rawW 0
  x0 : TWord := rawW 0
  x1 : TWord := rawW 0
  loops : List LoopCtx := []
  resv : Option Nat := none
  deriving DecidableEq, Repr

/-- An entry of the shadow stack (R316). An exception entry also keeps the registers as they stood at delivery: the
stacks whose positions the frame's DSP and RSP name (R327), and the record of an escalation (R328). -/
inductive Shadow where
  | call (ret : Nat)
  | gate (ret : Nat) (ds rs : Stk) (level : Fin 3) (mask : BitVec 3) (x0 x1 : TWord) (resc : Nat)
  | exc (resume : Nat) (level : Fin 3) (frame : Nat) (saved : CpuRegs) (esc : Bool)
  deriving DecidableEq, Repr

/-- Entries that a shadow entry uses of the 256 (R316). -/
def Shadow.cost : Shadow → Nat
  | .call _ => 1
  | _ => 4

/-- Data as it travels through the device: its length in bytes and the tagged words that hold it (R216). -/
structure Payload where
  len : Nat
  words : List TWord
  deriving DecidableEq, Repr

/-- Memory effects of a bundle, made when it commits (R233). `regRead` has the value that a load of a register returned
and the upper half that it saw; `spill` is a stack entry on its way to its area (R240). -/
inductive Pend where
  | store (a : Nat) (width : Nat) (w : TWord)
  | regStore (a : Nat) (v : Word32)
  | regRead (a : Nat) (hi v : Word32)
  | stc (a : Nat) (w : TWord)
  | tas (a : Nat) (old : TWord)
  | spill (a : Nat) (w : TWord)
  deriving DecidableEq, Repr

/-- What a context is doing. -/
inductive RunState where
  | stopped | running | held
  deriving DecidableEq, Repr

/-! ## The evidence store (03) -/

/-- A record as it is appended: the header fields of R78 and its body. -/
structure Record where
  type : Nat
  inst : Nat
  fmt : Nat
  flags : Nat
  epoch : Nat
  tagLow : Word32
  time : Word64
  seq : Nat
  body : Payload
  strip : Nat
  offset : Nat
  deriving DecidableEq, Repr

/-- A strip that holds a record and has no trailer yet: open while `closed` is none, else closed for a reason of R85
at a time and an epoch (R590). -/
structure Strip where
  num : Nat
  closed : Option (Nat × Word64 × Nat) := none
  deriving DecidableEq, Repr

/-- A volume (R74-R97). `next` strip fields give where the next record goes; `reqs` are close reasons that have
occurred for a strip not closed yet. -/
structure Vol where
  exist : Bool := false
  gen : Nat := 0
  anchor : List Byte := []
  opened : Bool := false
  nextSeq : Nat := 1
  strip : Nat := 0
  fill : Nat := 0
  records : List Record := []
  strips : List Strip := []
  reqs : List (Nat × Nat × Word64 × Nat) := []
  trailers : List (Nat × List Byte) := []
  seals : List (Nat × List Byte) := []
  prevHash : List Byte := []
  released : Option Nat := none
  rcount : Nat := 0
  retained : Bool := false
  fromMigrated : Bool := false
  full : Bool := false
  deriving DecidableEq, Repr

/-! ## Absolute results, intents and commits (R102-R110) -/

/-- A wrapped session key (R136): the 40 bytes that are wrapped, and KEY as it stands in the context. -/
structure Wrapped where
  plain : List Byte
  blob : List Byte
  deriving DecidableEq, Repr

/-- A Shingle context (R131). `ivctr` is the working counter; the rest is committed, but for a provisional context,
which a reset frees (R140). -/
structure ShgCtx where
  kind : Nat := 0
  owner : Nat := 0
  gen : Nat := 1
  provisional : Bool := false
  exhausted : Bool := false
  keyPresent : Bool := false
  slotRef : Option Nat := none
  wrapped : Option Wrapped := none
  st : Word64 := 0
  version : Nat := 0
  ivctr : Nat := 0
  reslim : Nat := 0
  limlog : Nat := 0
  created : Word64 := 0
  updated : Word64 := 0
  cred : List Byte := []
  area : List TWord := []
  deriving DecidableEq, Repr

/-- A key slot (R439, R440) and, for a verification key, its public-key record (R421). `ivctr` is the working
counter. -/
structure Slot where
  kind : Nat := 0
  root : Nat := 0
  owner : Nat := 0
  limlog : Nat := 0
  exhausted : Bool := false
  reslim : Nat := 0
  ivctr : Nat := 0
  v : List Byte := []
  pubRec : List Byte := []
  deriving DecidableEq, Repr

/-- A shadow slot of an area (R203): its flag, version and content, with its tags (R216). -/
structure ShadowSlot where
  valid : Bool := false
  version : Nat := 0
  content : List TWord := []
  deriving DecidableEq, Repr

/-- A tag-memory area (R194-R196) with its committed attempts and its two shadow slots; its content keeps its tags
(R216). Size 0: not defined. -/
structure Area where
  size : Nat := 0
  owner : Nat := 0
  read : Nat := 0
  write : Nat := 0
  limit : Nat := 0
  openClear : Bool := false
  password : Word64 := 0
  version : Nat := 0
  content : List TWord := []
  attempts : Nat := 0
  sh0 : ShadowSlot := {}
  sh1 : ShadowSlot := {}
  deriving DecidableEq, Repr

/-- A standing-list generation (R149): its salt and its occupied entries by place, four a bucket. `sealed` is that of
its copy in the durable home (R156). -/
structure StlGen where
  salt : List Byte := List.replicate 16 0
  entries : List (Nat × List Byte) := []
  sealed : Bool := false
  deriving DecidableEq, Repr

/-- The absolute results that a commit applies to the durable state (R102). Applying one twice is applying it
once. -/
inductive Eff where
  | record (vol : Nat) (r : Record)
  | newVol (vol : Nat) (gen : Nat) (anchor : List Byte)
  | retain (vol : Nat) (migrated : Bool)
  | unretain (vol : Nat)
  | release (vol last : Nat)
  | rcount (vol n : Nat)
  | counter (inst idx : Nat) (v : Word64) (num : Nat)
  | sticky (mask : BitVec 24) (b : Bool)
  | instState (i st : Nat)
  | desc (i : Nat) (d : List Byte)
  | offer (i : Nat) (n : Option (List Byte))
  | epochLimit (n : Nat)
  | migctr (n : Nat)
  | sealStore
  | devLost (n : Nat)
  | ctxUpdate (k : Nat) (st : Word64) (area : List TWord) (version : Nat) (updated : Word64)
  | ctxFree (k gen : Nat)
  | ctxPut (k : Nat) (c : ShgCtx)
  | ctxLimit (k n : Nat)
  | ctxExhausted (k : Nat)
  | wrapgen (n : Nat)
  | stlSwitch (g : Nat)
  | slot (n : Nat) (x : Slot)
  | slotLimit (n lim : Nat)
  | slotExhausted (n : Nat)
  | slotsZero
  | areaMeta (a : Nat) (rec : List Byte)
  | areaContent (a version : Nat) (content : List TWord)
  | attempts (a n : Nat)
  | shadowClear (a : Nat)
  deriving DecidableEq, Repr

/-- An intent as it is staged (R102, R298); the last three are the device's own: a record, results that it forms, and
the fold of an area's shadow (R205). -/
inductive Intent where
  | append (type fmt : Word64) (body : Payload)
  | counter (idx inc : Word64)
  | ctxUpdate (h : Word64) (base : Word64) (st : TWord) (area : Payload)
  | keyAdvance (k : TWord)
  | stlSwitch (g : Word64)
  | area (a base : Word64) (content : Payload)
  | pwAttempt (a op : Word64)
  | clearFlag (src : Word64) (cred : Payload)
  | ctxFree (h : Word64)
  | devRec (vol : Nat) (type : Nat) (body : List Byte)
  | effects (e : List Eff)
  | fold (a version : Nat) (content : List TWord)
  deriving DecidableEq, Repr

/-- What a device commit is for, beyond its results: what happens at its mark. -/
inductive Purpose where
  | none
  | tamper (t level : Nat)
  | terminal
  | instCmd (i op st : Nat)
  | descApply
  | transition (trigger : Nat)
  | startup
  | standby
  | advance (owner : Nat) (k : KeyRef)
  | keyCmd (slot : Nat) (isNew : Bool)
  | pubLoad (slot : Nat)
  | areaWrite (a : Nat)
  | pwIncr (a : Nat)
  | pwReset (a : Nat)
  | fold (a : Nat)
  | sealRec
  | portPost (port : Nat) (e : Payload)
  deriving DecidableEq, Repr

/-- The durable state as every committed change leaves it (R77, R107). -/
structure Durable where
  vols : List (Nat × Vol) := []
  ctrs : List (Nat × (Word64 × Nat)) := []
  sticky : BitVec 24 := 0
  states : List (Nat × Nat) := []
  descs : List (Nat × List Byte) := []
  offers : List (Nat × Option (List Byte)) := []
  epochLimit : Nat := 0
  migctr : Nat := 0
  sealed : Bool := false
  devrecLost : Nat := 0
  shg : List (Nat × ShgCtx) := []
  shgFresh : Nat := 0
  shgFreed : List Nat := []
  wrapgen : Nat := 0
  stl0 : StlGen := {}
  stl1 : StlGen := {}
  stlActive : Nat := 0
  slots : List (Nat × Slot) := []
  areas : List (Nat × Area) := []
  deriving DecidableEq, Repr

/-- The results that a ticket of a commit delivers (R291). -/
inductive Deliver where
  | commit | cstore | cfree
  deriving DecidableEq, Repr

/-- What a mark that does not read back intact takes back (R113): the durable state before it, and the last commit marked
and the time of the last record then. -/
structure Rollback where
  dur : Durable := {}
  lastMarked : Nat := 0
  lastTime : Word64 := 0
  deriving DecidableEq, Repr

/-- A commit in one of its phases (R106). `src` is the issuing instance, or 64 for the device. `lost`: its device records
that found no space (R97). `failed`: failed programs of each of its intent pages and, under 3, of the pages that carried
its mark (R108). `before`: what its mark changed, kept until it is applied. -/
structure Commit where
  id : Nat
  src : Nat
  ticket : Option Nat := none
  deliver : Deliver := .commit
  intents : List Intent
  reserve : Bool := false
  purpose : Purpose := .none
  num : Nat := 0
  effs : List Eff := []
  cost : Nat := 0
  codes : List Nat := []
  lost : Nat := 0
  failed : List (Nat × Nat) := []
  before : Option Rollback := none
  pages : Nat := 0
  firstSeq : Nat := 0
  time : Word64 := 0
  issued : Word64 := 0
  deriving DecidableEq, Repr

/-- The commit engine (R102-R114). `pages` are the live journal pages with the numbers of the commits they hold; `unread`:
how many of the last marks, and how many applied marks, the next replay does not find intact (R113). -/
structure Tdl where
  next : Nat := 1
  nextId : Nat := 1
  ptr : Nat := 0
  waiting : List Commit := []
  admitted : List Commit := []
  marked : List Commit := []
  applied : List Commit := []
  pages : List (List Nat) := []
  lastMarked : Nat := 0
  lastApplied : Nat := 0
  replayed : Nat := 0
  discarded : Nat := 0
  pfail : Nat := 0
  lost : List Nat := []
  lastTime : Word64 := 0
  unread : Nat × Nat := (0, 0)
  times : List Nat := []
  sealing : Bool := false
  deriving DecidableEq, Repr

/-- A protection set (R305, R334): region words, default map, gate table base, and the LO halves latched. -/
structure MpuSet where
  rgn : List (Nat × (Word32 × Word32)) := []
  rgnLo : List (Nat × Word32) := []
  dmap : Word32 := 0
  gateLo : Word32 := 0
  gateHi : Word32 := 0
  gateLoLatch : Word32 := 0
  deriving DecidableEq, Repr

/-! ## Contexts and tickets (06) -/

/-- A bundle under way: the registers at its first syllable, its syllables as they were fetched (R226, R229), the
protection sets in force when its checks began (R333), how many syllables have been counted in, and the effects it will
make when it commits (R233, R234): on memory, where it leads, whether it pushes a RET word, a return it makes, a loop it
starts, whether it yields. -/
structure Bundle where
  regs0 : CpuRegs
  shadow0 : List Shadow
  code : List Nat := []
  sets : List (Nat × MpuSet) := []
  count : Nat := 0
  pend : List Pend := []
  target : Option (Nat × Bool) := none
  call : Bool := false
  ret : Bool := false
  newLoop : Option (Nat × Nat) := none
  yields : Bool := false
  deriving DecidableEq, Repr

/-- An escalation waiting for the keeper core (R323, R328): the context, its class, DETAIL and FADDR, the slot and the
words of its faulting syllable, and its core. -/
structure EscEvent where
  ctx : Nat
  cls : Nat
  detail : Nat
  faddr : Nat
  slot : Nat
  syl : Word64
  core : Nat
  deriving DecidableEq, Repr

/-- A program context (R238-R259). `waiting` is a WAITT that waits (R262); `since` is when its core began what the
statistics have not counted yet (R349). -/
structure Ctx where
  run : RunState := .stopped
  acc : Bool := false
  r : CpuRegs := {}
  shadow : List Shadow := []
  staging : List Intent := []
  bundle : Option Bundle := none
  waiting : Option Syl := none
  yielded : Bool := false
  since : Option Word64 := none
  dbase : Nat := 0
  deriving DecidableEq, Repr

/-- An operation in flight (R291): its opcode, selector and arguments, the source data taken at the issue (R237; log
entry 10), and its stage: 0 waits outside its engine, 1 is in it. -/
inductive Op where
  | none
  | x (code sel : Nat) (args : List TWord) (data : List Payload) (stage : Nat)
  deriving DecidableEq, Repr

/-- A ticket entry (R259-R264). `block` is where the accumulator model's results go, `staged` what a COMMIT that waits
submits, `ctx` the issuing context, `no` the place of the request in the order of issue. -/
structure Ticket where
  serial : BitVec 24 := 0
  used : Bool := false
  done : Bool := false
  status : Word16 := 0
  loc : Byte := 0
  value : BitVec 24 := 0
  nres : Nat := 0
  results : List TWord := []
  block : Option Nat := none
  op : Op := .none
  secret : Option (List Byte) := none
  staged : List Intent := []
  ctx : Nat := 0
  no : Nat := 0
  deriving DecidableEq, Repr

/-! ## Instances (09) -/

/-- A ring (R392-R397): its registers, its counts modulo 2^32, its state (0 Disabled, 1 Active, 2 Halted, 3 Stopped), the
recorded slot counts of its entries (R396), and the operations that wait on it, oldest first. -/
structure Ring where
  cfg : Word32 := 1
  base : Nat := 0
  irq : Word32 := 0
  head : Word32 := 0
  tail : Word32 := 0
  st : Nat := 0
  err : Word16 := 0
  haltAt : Word32 := 0
  lens : List Nat := []
  waiters : List (Nat × Nat) := []
  deriving DecidableEq, Repr

/-- What FREEZE fixes of an instance (R365) and a migration image carries (R368): the descriptor, the protection set,
contexts and tickets, the DRAM range with its tags, the counters, the Shingle contexts by index, the key slots by their
place in the range, the rings by theirs, and the volume's generation, last SEQ and last chain value. -/
structure Snapshot where
  desc : List Byte := []
  mpu : MpuSet := {}
  ctxs : List (Nat × Ctx) := []
  tickets : List (Nat × Ticket) := []
  dram : List TWord := []
  ctrs : List Word64 := []
  shg : List (Nat × ShgCtx) := []
  slots : List (Nat × Slot) := []
  rings : List (Nat × Ring) := []
  volGen : Nat := 0
  lastSeq : Nat := 0
  chain : List Byte := []
  deriving DecidableEq, Repr

/-- An instance beside its durable state (R335-R355). `desc` is the descriptor in force, `entries` the entry table as its
last START read it (R348), `coreNs` the core time below a µs not counted yet (R349), `saved` the offer of the SAVE that made
it Migrated (R366). -/
structure Inst where
  state : Nat := 0
  desc : List Byte := []
  staged : Option (List Byte) := none
  installed : Bool := false
  measImage : List Byte := []
  measDesc : List Byte := []
  irq : List Nat := []
  irqPtr : Nat := 0
  ctxPtr : Nat := 0
  drain : Bool := false
  zeroDrain : Bool := false
  closed : Bool := false
  stopping : Bool := false
  left : Nat := 0
  entries : List TWord := []
  coreNs : Nat := 0
  saved : List Byte := []
  snap : Option Snapshot := none
  deriving DecidableEq, Repr

/-- The INS block: the command in progress with its instance, its last status (R337, R374), and the image that a SAVE
streams with the bytes streamed so far (R366), or before it is made the offer that it answers; and the epoch length in force
(R357). `held`: the command waits for the expander, for the nonce of an offer (1), its statement (2) or an image (3). -/
structure Ins where
  busy : Option (Nat × Nat) := none
  stat : Word16 := 0
  chunks : Nat := 0
  image : List Byte := []
  sent : Nat := 0
  held : Nat := 0
  epochLen : Nat := 60
  deriving DecidableEq, Repr

/-! ## The keeper block, tamper monitors and supplies (02, 15, 16) -/

/-- What a critical decision is about (R39, R42). A return from Workshop names its trigger; the start-up mode is decided
once the image has been accepted or not (R51 step 7). -/
inductive Decision where
  | workshop
  | service (trigger : Nat)
  | standby
  | decommission
  | startup
  | persoBegin
  | persoClose
  | imageSwap
  | recoveryExit
  | startMode (good : Bool)
  | wake
  deriving DecidableEq, Repr

/-- The KPR block (R36-R73). `decision`: the decision under way, with the first unit's verdict once it has evaluated.
`standby` is the step of R63 that the entry sequence has reached, 0 when none runs. `prev` is the mode before the
last reset, `trigger` what the next transition record names, `records` tells that step 13 of R51 has been taken. -/
structure Kpr where
  mode : Word4 := 0xE
  monOk : Bool := false
  seedDone : Bool := false
  imageOk : Bool := false
  replayDone : Bool := false
  brkReady : Bool := false
  timeSet : Bool := false
  bootsel : Bool := false
  cause : Word4 := 0
  modeStat : Word16 := 0
  decision : Option (Decision × Option Word16) := none
  standby : Nat := 0
  waking : Bool := false
  dnonce : List Byte := []
  notAfter : Option Word64 := none
  devtime : Word64 := 0
  terminalCause : Nat := 0
  trigger : Nat := 9
  running : Bool := false
  prev : Word4 := 0
  records : Bool := false
  mrom : List Byte := []
  mkeeper : List Byte := []
  startNonce : List Byte := []
  deriving DecidableEq, Repr

/-- The tamper monitors (R548-R566). `armed` has a bit per source; bit 24 is VIO_C's own part of T02 (R592). -/
structure Tmp where
  on : Bool := false
  armed : BitVec 25 := 0
  sticky : BitVec 24 := 0
  pendFlags : BitVec 24 := 0
  deferred : Bool := false
  win : List (Nat × List (Option Nat)) := []
  lastRaise : List (Nat × Word64) := []
  fastUntil : Word64 := 0
  wnonce : List Byte := []
  deriving DecidableEq, Repr

/-- The supplies (R111, R570-R584). `flush` is the step of R111 reached, 0 when no main loss is declared; `samples` are
the last 8 VHOLD samples in mV, the newest last (R116), empty until the first after a reset; `vhold` is what stands on
VHOLD; `reached`: it has been at 16 V since the last start (R55). -/
structure Pwr where
  up : Bool := false
  flush : Nat := 0
  vhold : Nat := 0
  samples : List Nat := []
  reached : Bool := false
  cmeas : Nat := 0
  measuring : Bool := false
  charged : Bool := false
  want : Bool := false
  low : Bool := false
  viohOk : Bool := false
  viocOk : Bool := false
  viohHi : Option Bool := none
  viocHi : Option Bool := none
  vbatLow : Bool := false
  deriving DecidableEq, Repr

/-- A code-flash operation that keeps an array busy (R478): its code there, the ticket it serves, its request, the
words it programs, and for a swap the first decision's verdict. -/
structure FlopRun where
  op : Nat
  inst : Nat
  ticket : Nat
  sel : Nat
  addr : Nat := 0
  len : Nat := 0
  src : List TWord := []
  first : Bool := true
  deriving DecidableEq, Repr

/-- The controller's records of a sector (R486): its erase count, the pulses of its last erase, the program histogram,
the flags, RSTRESS at its last margin read, and the units that this topped up. -/
structure Sector where
  ecount : Nat := 0
  epulses : Nat := 0
  b12 : Nat := 0
  b34 : Nat := 0
  b57 : Nat := 0
  b816 : Nat := 0
  wear : Bool := false
  efail : Bool := false
  pfail : Bool := false
  mstamp : Nat := 0
  topped : Nat := 0
  deriving DecidableEq, Repr

/-- The code-flash arrays (R471-R493): the busy arrays by number; a swap made since start-up; and what the cells hold:
each unit's flags (R476), by its address divided by 32, the sectors' records, and the stress of R491 in units of
2^-32 s. -/
structure Cfl where
  busy : List (Nat × FlopRun) := []
  swapped : Bool := false
  units : List (Nat × Nat) := []
  sectors : List (Nat × Sector) := []
  stress : Nat := 0
  deriving DecidableEq, Repr

/-- A block of the evidence flash (R510): its use, the worst codeword of its last read, its erase count, its longest page
program, and when it was last read. -/
structure Blk where
  use : Nat
  maxcb : Nat := 0
  ecount : Nat := 0
  tprog : Nat := 0
  seen : Word64 := 0
  deriving DecidableEq, Repr

/-- The evidence flash (R496-R507): blocks by number, the counts of the spare pool, the margin reserve and the retired
blocks, and the patrol's pass. -/
structure Evf where
  blocks : List (Nat × Blk) := []
  spare : Nat := 3047
  margin : Nat := 6967
  retired : Nat := 0
  late : Bool := false
  catchup : Bool := false
  noRefresh : Bool := false
  visited : List Nat := []
  deriving DecidableEq, Repr

/-- One-time cells (R46, R473) and the certificates of the personalisation area by chain position (R454, R472).
`fatalPending`: the Recovery-pending setting came from a fatal escalation (R62). -/
structure Otp where
  serial : List Byte := List.replicate 16 0
  persoBegun : Bool := false
  persoClosed : Bool := false
  terminal : Bool := false
  tagged : Bool := false
  swapCtr : Nat := 0
  lcWorkshop : Nat := 0
  lcRecovery : Nat := 0
  lcFatal : Nat := 0
  rpSet : Nat := 0
  rpClear : Nat := 0
  fatalPending : Bool := false
  statement : List Byte := []
  certs : List (Nat × List Byte) := []
  deriving DecidableEq, Repr

/-- A root with its check (R431, R433). -/
structure Root where
  bits : List Byte := []
  crc : Word32 := 0
  deriving DecidableEq, Repr

/-- The key store (R442-R450, R469): working copies loaded, bad slots of the root in use and those already counted; the
command in progress, and whether it waits for the expander or the load; the statement in progress. -/
structure KeyBlk where
  loaded : Bool := false
  bad : List Nat := []
  cmd : Option Nat := none
  held : Bool := false
  stat : Word16 := 0
  att : Bool := false
  attStat : Word16 := 0
  deriving DecidableEq, Repr

/-- The random source (R457-R466): the conditioner's register, the seed buffer, the expander's key and V (R460), `q` requests
since the last reseed, `passes` of the start-up blocks. -/
structure Rng where
  fatal : Bool := false
  waiting : Bool := false
  restarting : Bool := false
  cond : BitVec 256 := 0
  seed : Option (List Byte) := none
  key : List Byte := []
  v : List Byte := []
  epfail : Nat := 0
  q : Nat := 0
  passes : Nat := 0
  startFails : Nat := 0
  lastfail : Nat := 0
  deriving DecidableEq, Repr

/-- A cipher lane that holds a request (R405-R414): its ticket, mode, key and the counter value taken; `dead` where its
key was zeroised (R447). -/
structure Lane where
  inst : Nat
  ticket : Nat
  mode : Nat
  long : Bool
  ref : KeyRef
  key : List Byte
  c : Option Nat := none
  dead : Bool := false
  deriving DecidableEq, Repr

/-- The cipher engine: lanes by number, requests waiting in issue order, the round-robin pointer, and the device's IV
prefix (R405, R411). -/
structure Cip where
  lanes : List (Nat × Lane) := []
  queue : List (Nat × Nat) := []
  ptr : Nat := 0
  deriving DecidableEq, Repr

/-- The arbiters of the public-key and the hash engine (R417, R425): the requests that hold a unit (0 the ECC unit, 1 the
lattice unit, 2-5 the hash units), and for the ECC unit, the lattice unit and the hash engine the instance that is next. -/
structure Units where
  held : List (Nat × (Nat × Nat)) := []
  ecc : Nat := 0
  lat : Nat := 0
  hash : Nat := 0
  deriving DecidableEq, Repr

/-- The public-key engine's keeper command: in progress, and its last status (R429). -/
structure Pke where
  busy : Option Nat := none
  stat : Word16 := 0
  hashed : Nat := 0
  deriving DecidableEq, Repr

/-- A field command in progress (R179, R201-R211): its place in the order of arrival, its frame fields, the opened
payload, its stage (0 waits for the lock, 1 its commit is under way, 2 the password reset's, 3 a shadow write), whether
PENDING was sent, whether the tag is still Active since, the command's BS, and whether a later command took its SEQ. -/
structure FieldOp where
  id : Nat := 0
  seq : Byte
  pwd : Bool
  ref : Option KeyRef
  area : Nat
  offset : Nat
  expected : Nat
  data : List Byte
  stage : Nat := 0
  deferred : Bool := false
  live : Bool := true
  bs : Bool := false
  stale : Bool := false
  deriving DecidableEq, Repr

/-- A result kept, or waiting for a counter value (R179): the SEQ it answers, its status and payload, the key that seals
it, and the command's BS. -/
structure AirResult where
  seq : Byte
  status : Word16
  payload : List Byte
  ref : Option KeyRef
  bs : Bool := false
  deriving DecidableEq, Repr

/-- A sealed frame that waits for a counter value (R412), whether PENDING was sent for it, and whether a later command
took its SEQ. -/
structure HeldFrame where
  f : AirFrame
  deferred : Bool := false
  stale : Bool := false
  deriving DecidableEq, Repr

/-- An APP frame not answered yet (R181, R183): its binding, its SEQ, whether PENDING was sent, the command's BS, and the
key that seals what the device itself answers. -/
structure AppCmd where
  b : Nat
  seq : Byte
  deferred : Bool := false
  bs : Bool := false
  ref : Option KeyRef := none
  deriving DecidableEq, Repr

/-- A command that a reader has sent and that awaits its reply (R181), with the key under which it was sealed. -/
structure SentCmd where
  peer : Word64
  cmd : Byte
  seq : Byte
  ref : Option KeyRef := none
  deriving DecidableEq, Repr

/-- What a reader knows of a tag (R184): the level and uplink form of its last reply, and the state that its replies
show. -/
structure AirPeer where
  rssi : Int := 0
  bs : Bool := false
  tstate : Nat := 1
  deriving DecidableEq, Repr

/-- Who holds an area's lock (R209): the field, the fold of its shadow, or the commits of instances. -/
inductive LockHolder where
  | field
  | fold
  | commits (ids : List Nat)
  deriving DecidableEq, Repr

/-- The air baseband and tag memory (R163-R212). `folds`: areas whose fold is not admitted yet (R205). `heldTx`: bindings
whose next command waits for a counter value. -/
structure Air where
  tstate : Nat := 0
  reader : Word64 := 0
  channel : Nat := 0
  roleLocked : Bool := false
  txfail : Bool := false
  bsLast : Bool := false
  field : Bool := false
  bound : List (Word64 × Word64) := []
  unlocked : List Nat := []
  samples : List Int := []
  dwell : Nat := 0
  locks : List (Nat × LockHolder) := []
  ops : List FieldOp := []
  nextOp : Nat := 0
  apps : List AppCmd := []
  kept : List AirResult := []
  held : List HeldFrame := []
  due : List AirResult := []
  sent : List (Nat × SentCmd) := []
  peers : List (Word64 × AirPeer) := []
  heldTx : List Nat := []
  invStack : List (Nat × Word64) := []
  retries : Nat := 0
  waiting : Bool := false
  probes : List Nat := []
  folds : List Nat := []
  deriving DecidableEq, Repr

/-- A push and pop port of an interface in a window (R395). -/
structure HostPort where
  staging : List (Nat × Word32) := []
  stagingBad : List Nat := []
  popBuf : List TWord := []
  pushStat : Word16 := 0
  popStat : Word16 := 0
  popped : Nat := 0
  deriving DecidableEq, Repr

/-- The host side (R376-R391): ports by interface and window, MSI-X tables and pending bits, host-notify bits, functions
whose Bus Master Enable is clear, the link, VFs, QSPI status, the ROM service, and doorbells held before start-up ends.
`svcHeld`: the service waits for the replay or for the expander. -/
structure HostSide where
  ports : List (Nat × HostPort) := []
  msix : List (Nat × Word32) := []
  pba : List Nat := []
  notify : List (Nat × Nat) := []
  bmeOff : List Nat := []
  width : Word4 := 0
  speed : Word4 := 0
  vfEnable : Bool := false
  numVfs : Nat := 0
  qstat : Byte := 0
  svcBuf : List (Nat × Word32) := []
  svcLen : Nat := 0
  svcStat : Word16 := 0
  svcCode : Byte := 0
  heldDb : List (Nat × Nat × Word32) := []
  svcHeld : Bool := false
  deriving DecidableEq, Repr

/-- The context cache (R145), a set's contexts most recent first, and the rebuild (R147). -/
structure Shg where
  cache : List (Nat × List Nat) := []
  rebuilt : Bool := false
  deriving DecidableEq, Repr

/-- A standing-list edit under way (R154): its operation, its entry registers, and whether a switch refuses it. -/
structure StlEdit where
  op : Nat
  entry : List Byte
  refused : Bool
  deriving DecidableEq, Repr

/-- The standing-list engine's working copies (R149, R158) and the edit under way. `releasing`: lookups that started on
the generation made inactive may be outstanding (R157). -/
structure Stl where
  g0 : StlGen := {}
  g1 : StlGen := {}
  loaded0 : Bool := false
  loaded1 : Bool := false
  busy : Option StlEdit := none
  stat : Word16 := 0
  moves : Nat := 0
  releasing : Bool := false
  deriving DecidableEq, Repr

/-- A request that a port has taken from a ring (R513), with its binding. -/
structure PortReq where
  bind : Nat
  op : Nat
  unit : Nat
  corr : Word32
  arg : Word32
  arg2 : Word64
  data : List Byte
  deriving DecidableEq, Repr

/-- Entries that a port holds while its ring is full, and the items dropped since (R515). -/
structure PortBuf where
  held : List Payload := []
  dropped : Nat := 0
  deriving DecidableEq, Repr

/-- A card that holds or held a relative card address: 0 Absent, 2 Standby, 3 Selected, 4 Asleep (R519, R547); its slot, 15
for a fixed card; its identifier and last status. -/
structure Card where
  state : Nat := 0
  slot : Nat := 0
  cid : Word128 := 0
  status : Word32 := 0
  deriving DecidableEq, Repr

/-- The request in progress on the card bus: its card, its stage (0 SELECT sent, 1 command sent, 2 block awaited, 3
acknowledge awaited, 4 busy phase), repeats of a READ, and whether the command was sent again. -/
structure CardRun where
  req : PortReq
  rca : Nat
  stage : Nat
  tries : Nat := 0
  again : Bool := false
  deriving DecidableEq, Repr

/-- The card bus (R517-R531): cards by relative card address, detect and power-enable pins by slot. -/
structure CardBus where
  cards : List (Nat × Card) := []
  det : BitVec 4 := 0
  pen : BitVec 4 := 0
  run : Option CardRun := none
  ptr : Nat := 0
  deriving DecidableEq, Repr

/-- An ISO/IEC 7816-3 port (R532-R534): its state and protocol as ISO.STATUSp shows them, the card's presence, the request
in progress, whether a warm reset was made, and whether the command's bytes have all been sent. -/
structure IsoPort where
  state : Nat := 0
  proto : Nat := 0
  present : Bool := false
  run : Option PortReq := none
  warm : Bool := false
  allSent : Bool := false
  deriving DecidableEq, Repr

/-- A CAN controller (R535-R537): error counters, bus-off, and up to three transmit requests. -/
structure CanCtl where
  tec : Nat := 0
  recv : Nat := 0
  busOff : Bool := false
  held : List PortReq := []
  deriving DecidableEq, Repr

/-- A pulse input (R538): edges since reset, and the edges, the shortest interval in ns and the first and last edge of the
period; `last` is the last edge ever. -/
structure PulseIn where
  count : Word32 := 0
  edges : Nat := 0
  shortest : Option Nat := none
  first : Word64 := 0
  last : Option Word64 := none
  deriving DecidableEq, Repr

/-- GNSS and time (R541-R545): the open event, the last PPS edge, consecutive ignored edges, whether a host set was made,
and the fields of GNS.TSTAT. -/
structure Gnss where
  bytes : List Byte := []
  first : Word64 := 0
  pps : Option Word64 := none
  ignored : Nat := 0
  offset : Word32 := 0
  hostSet : Bool := false
  source : Nat := 0
  locked : Bool := false
  stat : Word16 := 0
  deriving DecidableEq, Repr

/-- The card bus and vehicle ports (14). Buffers are by port: 0-4 the card bindings, 5-6 ISO, 7-8 CAN, 9 the sensor port, 10
GNSS. `sensor` is the request that awaits an answer. -/
structure Ports where
  bufs : List (Nat × PortBuf) := []
  crd : CardBus := {}
  iso : List (Nat × IsoPort) := []
  can : List (Nat × CanCtl) := []
  pulse : List (Nat × PulseIn) := []
  sensor : Option PortReq := none
  gnss : Gnss := {}
  deriving DecidableEq, Repr

/-- Things that have left the device. -/
inductive Out where
  | uplink (f : UplinkFrame) (backscatter : Bool) (channel : Nat)
  | identResponse (id : Word64) (idRev : Word32) (backscatter : Bool) (channel : Nat)
  | downlink (f : AirFrame)
  | probe (channel : Nat)
  | hostWrite (fn a : Nat) (words : List Word64)
  | msix (fn vec : Nat)
  | readCompletion (who : Requester) (status : Word16) (items loc : Nat)
  | hostRead (p : Iface) (a : Nat) (v : Word32)
  | qspiStatus (b : Byte)
  | qspiCrc (v : Word16)
  | cardCmd (op rca : Nat) (arg : Word32)
  | cardBlock (data : List Byte)
  | isoActivate (p : Nat) (warm : Bool)
  | isoSend (p : Nat) (apdu : List Byte)
  | isoOff (p : Nat)
  | canSent (c : Nat) (f : CanFrame)
  | sensorSent (ty : Byte) (body : List Byte)
  | tdo (b : Bool)
  deriving DecidableEq, Repr

/-- The whole state. `checks` holds, for a carry unit named by its address divided by 64, the difference (exclusive or)
between the check that is kept with it and the check of its data (R120): zero where they agree. `freeCtr`, `outbox` and
`pending` are the model's own (log entries 7 and 13). -/
structure State where
  kpr : Kpr := {}
  pwr : Pwr := {}
  otp : Otp := {}
  tmp : Tmp := {}
  cfl : Cfl := {}
  evf : Evf := {}
  regs : List (Nat × Word32) := []
  latch : List (Nat × Word32) := []
  mem : List Host.Cell := []
  tags : List (Nat × Word4) := []
  checks : List (Nat × Word32) := []
  eras : List (Nat × Nat) := []
  dur : Durable := {}
  tdl : Tdl := {}
  ctxs : List (Nat × Ctx) := []
  tickets : List (Nat × Ticket) := []
  mpu : List (Nat × MpuSet) := []
  insts : List (Nat × Inst) := []
  ins : Ins := {}
  escQ : List EscEvent := []
  roots : List (Nat × Root) := []
  key : KeyBlk := {}
  rng : Rng := {}
  cip : Cip := {}
  pke : Pke := {}
  units : Units := {}
  ivPrefix : Word32 := 0
  rings : List (Nat × Ring) := []
  host : HostSide := {}
  air : Air := {}
  ports : Ports := {}
  shg : Shg := {}
  stl : Stl := {}
  stat : List (Nat × Nat) := []
  statPub : List (Nat × Nat) := []
  freeCtr : Nat := 0
  outbox : List Out := []
  pending : List Instr := []
  deriving DecidableEq, Repr

/-- Protection sets at reset (R334): instance 0's default map grants ROM, code flash and boot view R and X, and the
other ranges R and W. -/
def mpuAtReset : List (Nat × MpuSet) := [(0, { dmap := 0x006DDB5D })]

/-- The descriptor of instance 0 until a STAGE changes it: a quota of 4 bands (R75). -/
def keeperDesc : List Byte := List.replicate 20 0 ++ [4] ++ List.replicate 235 0

/-- The machine right after reset: as it leaves manufacture, without supply (log entry 2). Instance 0 is Running
whenever the keeper runs (R335); DEVTIME is unset (R374 `STAT.STATUS.UNSET`). -/
def State.reset : State :=
  { mpu := mpuAtReset, insts := [(0, { state := 2, desc := keeperDesc })], stat := [(0x20, 1)] }

end Sys2Proof.Machine
end

