-- ==== Sys2Proof/Machine/Ops.lean ====
section
/-! DEFINITION. The named operations over registers, memory, free values, tickets, interrupts and the statistics
frame that the meanings share. -/

namespace Sys2Proof.Machine

open Sys2Proof

/-! ## Bytes and fields -/

/-- The field of `n` bits from bit `lo` of a number. -/
def fld (w lo n : Nat) : Nat := w / 2 ^ lo % 2 ^ n

/-- The number that little-endian bytes spell (R5). -/
def leNat : List Byte → Nat
  | [] => 0
  | b :: bs => b.toNat + 256 * leNat bs

/-- The `n` little-endian bytes of a number (R5). -/
def leBytes : Nat → Nat → List Byte
  | 0, _ => []
  | n + 1, v => BitVec.ofNat 8 v :: leBytes n (v / 256)

/-- `n` bytes, the first of a function. -/
def genBytes (n : Nat) (f : Nat → Byte) : List Byte := (List.range n).map f

/-- The bytes from `off` on, `n` of them; past the end they are zero. -/
def slice (l : List Byte) (off n : Nat) : List Byte :=
  (List.range n).map fun k => l.getD (off + k) 0

/-- The little-endian field of `n` bytes at `off` of a layout. -/
def getLe (l : List Byte) (off n : Nat) : Nat := leNat (slice l off n)

def b2n (b : Bool) : Nat := if b then 1 else 0

def zeros (n : Nat) : List Byte := List.replicate n 0

/-- Signed reading of a 64-bit word. -/
abbrev sInt (w : Word64) : Int := w.toInt

/-- The eight bytes of each word, in order. -/
def wordsBytes : List TWord → List Byte
  | [] => []
  | w :: ws => leBytes 8 w.data.toNat ++ wordsBytes ws

/-- Bytes packed into words of one tag, the last filled with zero. -/
def packWords (tag : Word4) (l : List Byte) : List TWord :=
  (List.range ((l.length + 7) / 8)).map fun k => ⟨tag, BitVec.ofNat 64 (getLe l (8 * k) 8)⟩

/-- A payload of undefined data content (R4), of the same length and tags. -/
def Payload.free (c : Nat) (p : Payload) : Payload :=
  { p with words := p.words.mapIdx fun k w => ⟨w.tag, Config.freeWord (c * 65536 + k)⟩ }

/-- Data of raw bytes. -/
def rawPayload (l : List Byte) : Payload := ⟨l.length, packWords Tag.raw l⟩

/-- The data bytes of a payload. -/
def Payload.bytes (p : Payload) : List Byte := (wordsBytes p.words).take p.len

/-- A payload with a word tagged POISON (R225). -/
def Payload.poisoned (p : Payload) : Bool := p.words.any fun w => w.tag == Tag.poison

/-! ## Registers -/

def State.reg (s : State) (a : Nat) : Word32 := sget regReset s.regs a

def State.setReg (s : State) (a : Nat) (v : Word32) : State := { s with regs := sset regReset s.regs a v }

/-- A counting register counts `n` more, at most to all ones. -/
def State.incReg (s : State) (a : Nat) (n : Nat := 1) : State :=
  s.setReg a (BitVec.ofNat 32 (min ((s.reg a).toNat + n) 0xFFFFFFFF))

/-- A field of a register. -/
def State.regFld (s : State) (a lo n : Nat) : Nat := fld (s.reg a).toNat lo n

/-- A bit of a register. -/
def State.regBit (s : State) (a k : Nat) : Bool := (s.reg a).getLsbD k

/-- The number held by a LO register and the HI register after it (R30). -/
def State.reg64 (s : State) (a : Nat) : Nat := (s.reg a).toNat + 2 ^ 32 * (s.reg (a + 4)).toNat

def State.setReg64 (s : State) (a : Nat) (v : Nat) : State :=
  (s.setReg a (BitVec.ofNat 32 v)).setReg (a + 4) (BitVec.ofNat 32 (v / 2 ^ 32))

/-- Whether the fields of a value that have reserved values hold none (R9): the mask of fields that keep their old
value. -/
def reservedMask (d : RegDesc) (v : Word32) : Word32 :=
  d.legal.foldl (fun m p =>
    let x := fld v.toNat p.1 p.2.1
    if p.2.2.any (fun r => r.1 ≤ x && x ≤ r.2) then m
    else m ||| BitVec.ofNat 32 ((2 ^ p.2.1 - 1) * 2 ^ p.1)) 0

/-- What a software write leaves in a register (R7, R9). -/
def regWritten (d : RegDesc) (old v : Word32) : Word32 :=
  let keep := reservedMask d v
  let rw := d.rw &&& ~~~keep
  (old &&& ~~~rw ||| v &&& rw) &&& ~~~(v &&& d.w1c) ||| v &&& d.w1s

/-! ## Sub-structures by key -/

def State.ctx (s : State) (k : Nat) : Ctx := sget (fun _ => {}) s.ctxs k
def State.setCtx (s : State) (k : Nat) (c : Ctx) : State := { s with ctxs := sset (fun _ => {}) s.ctxs k c }
/-- The key of a context: its instance and its number. -/
def ctxKey (i c : Nat) : Nat := 64 * i + c

def State.inst (s : State) (i : Nat) : Inst := sget (fun _ => {}) s.insts i
def State.setInst (s : State) (i : Nat) (x : Inst) : State := { s with insts := sset (fun _ => {}) s.insts i x }
def State.modInst (s : State) (i : Nat) (f : Inst → Inst) : State := s.setInst i (f (s.inst i))

def State.mpuSet (s : State) (i : Nat) : MpuSet := sget (fun _ => {}) s.mpu i
def State.setMpu (s : State) (i : Nat) (m : MpuSet) : State := { s with mpu := sset (fun _ => {}) s.mpu i m }

def State.tk (s : State) (i t : Nat) : Ticket := sget (fun _ => {}) s.tickets (256 * i + t)
def State.setTk (s : State) (i t : Nat) (x : Ticket) : State :=
  { s with tickets := sset (fun _ => {}) s.tickets (256 * i + t) x }

def Durable.vol (d : Durable) (v : Nat) : Vol := sget (fun _ => {}) d.vols v
def Durable.setVol (d : Durable) (v : Nat) (x : Vol) : Durable := { d with vols := sset (fun _ => {}) d.vols v x }

/-! ## Free values -/

/-- The next number for a free value. -/
def State.draw (s : State) : Nat × State := (s.freeCtr, { s with freeCtr := s.freeCtr + 1 })

/-- `n` random bytes (R460). -/
def State.rand (s : State) (n : Nat) : List Byte × State :=
  (genBytes n (Config.randByte s.freeCtr), { s with freeCtr := s.freeCtr + 1 })

/-- The tag of a word of undefined content (R4): RAW, INT or POISON, for nothing creates another one there (R215). -/
def freeTag (c : Nat) : Word4 :=
  let t := Config.freeTag c
  if t = Tag.poison then t else if t = Tag.int then t else Tag.raw

/-- Words of undefined content. -/
def freeWords (c n : Nat) : List TWord :=
  (List.range n).map fun k => ⟨freeTag (c * 65536 + k), Config.freeWord (c * 65536 + k)⟩

/-! ## The statistics frame (R359-R361): counters by their offset in the frame -/

def State.statInc (s : State) (off : Nat) (n : Nat := 1) : State :=
  { s with stat := sset (fun _ => 0) s.stat off (min (sget (fun _ => 0) s.stat off + n) 0xFFFFFFFF) }

/-- A 64-bit counter of the frame. -/
def State.statInc64 (s : State) (off : Nat) (n : Nat) : State :=
  { s with stat := sset (fun _ => 0) s.stat off (min (sget (fun _ => 0) s.stat off + n) 0xFFFFFFFFFFFFFFFF) }

def State.statMax (s : State) (off v : Nat) : State :=
  { s with stat := sset (fun _ => 0) s.stat off (max (sget (fun _ => 0) s.stat off) v) }

/-- Instance record field of the frame. -/
def instStat (i off : Nat) : Nat := 0x1000 + 64 * i + off
/-- Ring record field of the frame. -/
def ringStat (r off : Nat) : Nat := 0x10000 + 16 * r + off

/-! ## Memory (R22, R215) -/

/-- The canonical form of the memory: an unlisted byte reads as zero (R60, R476; log entry 8). -/
abbrev Memory.wf (m : List Host.Cell) : Bool := swf (fun _ => 0) m

/-- Where the bytes of an address are held: the boot-block views name the block by BOOTSEL (R22, R301), BOOT_A at
0x100_0000_0000 and BOOT_B after it. -/
def phys (s : State) (a : Nat) : Nat :=
  if 0x28000000 ≤ a ∧ a < 0x28200000 then
    let inactive := decide (0x28100000 ≤ a)
    0x10000000000 + (if s.kpr.bootsel != inactive then 0x100000 else 0) + a % 0x100000
  else a

def State.rdByte (s : State) (a : Nat) : Byte :=
  if a < 0x40000 then Config.romByte a else sget (fun _ => 0) s.mem (phys s a)

def State.wrByte (s : State) (a : Nat) (b : Byte) : State :=
  { s with mem := sset (fun _ => 0) s.mem (phys s a) b }

def State.rdTag (s : State) (a : Nat) : Word4 :=
  if a < 0x40000 then Config.romTag (a / 8) else sget (fun _ => 0) s.tags (phys s a / 8)

def State.wrTag (s : State) (a : Nat) (t : Word4) : State :=
  { s with tags := sset (fun _ => 0) s.tags (phys s a / 8) t }

def State.rdBytes (s : State) (a n : Nat) : List Byte := (List.range n).map fun k => s.rdByte (a + k)

/-- Writes the items of a list one after the other, `step` addresses apart. -/
def foldAddr {σ β : Type} (f : σ → Nat → β → σ) (step : Nat) : σ → Nat → List β → σ
  | s, _, [] => s
  | s, a, b :: bs => foldAddr f step (f s a b) (a + step) bs

def wrBytes (s : State) (a : Nat) (l : List Byte) : State := foldAddr State.wrByte 1 s a l

/-- The word at an 8-byte-aligned address. -/
def State.rdWord (s : State) (a : Nat) : TWord :=
  ⟨s.rdTag a, BitVec.ofNat 64 (leNat (s.rdBytes a 8))⟩

def State.wrWord (s : State) (a : Nat) (w : TWord) : State :=
  (wrBytes s a (leBytes 8 w.data.toNat)).wrTag a w.tag

def wrWords (s : State) (a : Nat) (l : List TWord) : State := foldAddr State.wrWord 8 s a l

def State.rdWords (s : State) (a n : Nat) : List TWord := (List.range n).map fun k => s.rdWord (a + 8 * k)

/-! ## Modes -/

/-- Mode codes (R36, R50). -/
abbrev Mode.blank : Word4 := 0
abbrev Mode.personalise : Word4 := 1
abbrev Mode.workshop : Word4 := 2
abbrev Mode.service : Word4 := 3
abbrev Mode.standby : Word4 := 4
abbrev Mode.recovery : Word4 := 5
abbrev Mode.starting : Word4 := 0xE
abbrev Mode.terminated : Word4 := 0xF

def State.mode (s : State) : Word4 := s.kpr.mode
def State.terminated (s : State) : Bool := s.kpr.mode == Mode.terminated

/-- Modes whose root is Indigo (R36). -/
def State.indigo (s : State) : Bool := s.kpr.mode == Mode.service || s.kpr.mode == Mode.standby

/-- The root in use: 0 Slate, 1 Ochre, 2 Indigo, 3 Ash, 4 none (R36, R50). -/
def rootOf (m : Word4) : Nat :=
  if m = Mode.blank ∨ m = Mode.personalise then 0
  else if m = Mode.workshop then 1
  else if m = Mode.service ∨ m = Mode.standby then 2
  else if m = Mode.recovery then 3
  else 4

/-! ## Carry units (R120-R124): 64 bytes each -/

def crcShift : Nat → Word32 → Word32
  | 0, c => c
  | n + 1, c => crcShift n (if c.getLsbD 0 then (c >>> 1) ^^^ 0x82F63B78 else c >>> 1)

/-- CRC-32C with the parameters of R120. -/
def crc32c (l : List Byte) : Word32 :=
  (l.foldl (fun c b => crcShift 8 (c ^^^ b.setWidth 32)) 0xFFFFFFFF) ^^^ 0xFFFFFFFF

def crcStep16 : Nat → Word16 → Word16
  | 0, c => c
  | n + 1, c => crcStep16 n (if c.getLsbD 0 then (c >>> 1) ^^^ 0x8408 else c >>> 1)

/-- The CRC-16 of ISO/IEC 13239, whose parameters the standard gives (log entry 128). -/
def crc16 (l : List Byte) : Word16 :=
  (l.foldl (fun c b => crcStep16 8 (c ^^^ b.setWidth 16)) 0xFFFF) ^^^ 0xFFFF

/-- The four tag bytes of eight words: byte k holds the tag of word 2k below that of word 2k + 1. -/
def tagBytes (l : List TWord) : List Byte :=
  (List.range 4).map fun k =>
    BitVec.ofNat 8 ((l.getD (2 * k) (rawW 0)).tag.toNat + 16 * (l.getD (2 * k + 1) (rawW 0)).tag.toNat)

/-- The carry check of a unit's eight words, 68 bytes in all; a shorter datum is filled with zero words tagged RAW
(R120). -/
def unitCheck (l : List TWord) : Word32 :=
  let u := (List.range 8).map fun k => l.getD k (rawW 0)
  crc32c (wordsBytes u ++ tagBytes u)

/-- The check that is kept with the unit at an address. -/
def State.keptCheck (s : State) (u : Nat) : Word32 :=
  unitCheck (s.rdWords u 8) ^^^ sget (fun _ => 0) s.checks (phys s u / 64)

/-- DRAM available to instances (R22). -/
def inDram (a : Nat) : Bool := 0x100000000 ≤ a && a < 0x1C0000000

/-- The boundary at which a unit of a memory is verified when it is read (R121): code flash and boot blocks 0x14, DRAM
0x13, tagged SRAM 0x12. -/
def memLoc (a : Nat) : Nat :=
  if 0x20000000 ≤ a ∧ a < 0x28200000 ∨ 0x10000000000 ≤ a then 0x14
  else if 0x100000000 ≤ a then 0x13
  else 0x12

/-- The line was written under another root than the one in use, so that its MAC fails (R24, R25). Cleared lines are
Indigo's. -/
def State.foreign (s : State) (a : Nat) : Bool := inDram a && sget (fun _ => 2) s.eras (a / 64) != rootOf s.mode

/-- The unit fails its check when it is read: the check kept with it is not that of its data (R120), or its line's MAC
fails. -/
def State.isBad (s : State) (a : Nat) : Bool := sget (fun _ => 0) s.checks (phys s a / 64) != 0 || s.foreign a

/-- The line is the present root's from now on: it is written whole. -/
def State.claim (s : State) (a : Nat) : State :=
  if inDram a then { s with eras := sset (fun _ => 2) s.eras (a / 64) (rootOf s.mode) } else s

/-- The unit's check is computed over what it now holds (R120, R121). -/
def State.newCheck (s : State) (a : Nat) : State :=
  { s.claim a with checks := sset (fun _ => 0) s.checks (phys s a / 64) 0 }

/-- The eight words of the unit become POISON and its check is made over them (R123, R591). A line of another root is
only delivered so: it stays as it was written (R43). -/
def State.poisonUnit (s : State) (a : Nat) : State :=
  let u := a / 64 * 64
  if s.foreign a then s
  else ((List.range 8).foldl (fun s k => s.wrTag (u + 8 * k) Tag.poison) s).newCheck u

/-- The addresses of the units that a range touches. -/
def unitsOf (a n : Nat) : List Nat :=
  if n = 0 then [] else (List.range ((a + n - 1) / 64 - a / 64 + 1)).map fun k => (a / 64 + k) * 64

/-- Data at an address: whole words with their tags where it is 8-byte aligned, else bytes tagged RAW; what is past
its length is zero (R120; log entry 16). -/
def State.rdPayload (s : State) (a n : Nat) : Payload :=
  if a % 8 = 0 then
    ⟨n, (s.rdWords a (n / 8)) ++
      (if n % 8 = 0 then [] else [⟨s.rdTag (a + n / 8 * 8), BitVec.ofNat 64 (leNat (s.rdBytes (a + n / 8 * 8) (n % 8)))⟩])⟩
  else rawPayload (s.rdBytes a n)

/-- Writing data: whole words with their tags where the address is 8-byte aligned; a part of a word keeps the rest of
the word and takes the data's tag; elsewhere bytes, whose words take the tag RAW (log entry 16). -/
def State.wrPayload (s : State) (a : Nat) (p : Payload) : State :=
  if a % 8 = 0 then
    let s1 := wrWords s a (p.words.take (p.len / 8))
    if p.len % 8 = 0 then s1
    else
      let e := a + p.len / 8 * 8
      match p.words[p.len / 8]? with
      | some w => (wrBytes s1 e ((leBytes 8 w.data.toNat).take (p.len % 8))).wrTag e w.tag
      | none => s1
  else
    (List.range ((a + p.len + 7) / 8 - a / 8)).foldl (fun s k => s.wrTag (a / 8 * 8 + 8 * k) Tag.raw)
      (wrBytes s a p.bytes)

/-- The registers with a reservation on the granules of a range broken. -/
def CpuRegs.broken (r : CpuRegs) (a n : Nat) : CpuRegs :=
  match r.resv with
  | some g => if a / 64 ≤ g ∧ g ≤ (a + n - 1) / 64 then { r with resv := none } else r
  | none => r

/-- A write breaks every reservation on the granules it touches (R277), those of bundles under way included. -/
def State.breakResv (s : State) (a n : Nat) : State :=
  if n = 0 then s else
  s.ctxs.foldl (fun t p =>
    let c := { p.2 with
      r := p.2.r.broken a n, bundle := p.2.bundle.map fun b => { b with regs0 := b.regs0.broken a n } }
    if c = p.2 then t else t.setCtx p.1 c) s

/-! ## Interrupts and tickets -/

/-- Source `src` of instance `i` becomes pending (R350, R398). -/
def State.raiseIrq (s : State) (i src : Nat) : State :=
  s.modInst i fun x => if src ∈ x.irq then x else { x with irq := x.irq ++ [src] }

/-- A ticket completes (R261, R262): when the status is not OK every result word is INT zero. -/
def State.tkDone (s : State) (i t : Nat) (status : Word16) (results : List TWord := []) (value : Nat := 0)
    (loc : Nat := 0) : State :=
  let k := s.tk i t
  if k.used && !k.done then
    s.setTk i t { k with
      done := true, status := status, loc := BitVec.ofNat 8 loc, value := BitVec.ofNat 24 value,
      results := if status = St.ok then results else List.replicate k.nres (intW 0) }
  else s

/-- A write of the keeper's, the only software that reaches device registers (R22): it is made while the keeper runs. -/
def State.byKeeper (s : State) (f : State → State) : State := if s.kpr.running then f s else s

/-- What a command answers: the state its effect leaves, with the queue as the command found it. -/
abbrev done (s s' : State) : Host.Outcome State Fault Refusal := .next { s' with pending := s.pending }

end Sys2Proof.Machine
end

