-- ==== Sys2Proof/Machine/Desc.lean ====
section
/-! DEFINITION. The fields of an instance descriptor (R340), as applied and as limited by a staged one (R343). -/

namespace Sys2Proof.Machine

/-- The offset and the size of a field of R340. -/
inductive DescField where
  | model | contexts | share | lanes | ctimeout | ringBase | ringCount | rdRing | ksCount | ksBase | vQuota | sQuota
  | dramSize | dramBase | dsTop | rsTop | dsSize | rsSize | dBase | eTab | irqLvl | ringLvl | imgBase | imgLen
  deriving DecidableEq, Repr

def DescField.at : DescField → Nat × Nat
  | .model => (0x00, 1) | .contexts => (0x01, 1) | .share => (0x02, 2) | .lanes => (0x04, 2)
  | .ctimeout => (0x06, 2) | .ringBase => (0x08, 2) | .ringCount => (0x0A, 2) | .rdRing => (0x0C, 2)
  | .ksCount => (0x0E, 2) | .ksBase => (0x10, 2) | .vQuota => (0x14, 4) | .sQuota => (0x18, 4)
  | .dramSize => (0x1C, 4) | .dramBase => (0x20, 8) | .dsTop => (0x28, 8) | .rsTop => (0x30, 8)
  | .dsSize => (0x38, 2) | .rsSize => (0x3A, 2) | .dBase => (0x40, 8) | .eTab => (0x48, 8) | .irqLvl => (0x50, 8)
  | .ringLvl => (0x58, 1) | .imgBase => (0x90, 8) | .imgLen => (0x98, 4)

def descGet (d : List Byte) (f : DescField) : Nat := getLe d f.at.1 f.at.2

/-- The field in force. -/
def State.descF (s : State) (i : Nat) (f : DescField) : Nat := descGet (s.inst i).desc f

/-- The size of a resource an engine grants: the smaller of the applied and the staged (R343). -/
def State.limF (s : State) (i : Nat) (f : DescField) : Nat :=
  match (s.inst i).staged with
  | some d => min (s.descF i f) (descGet d f)
  | none => s.descF i f

/-- The value a total counts: the staged one where there is one (R341). -/
def State.totF (s : State) (i : Nat) (f : DescField) : Nat :=
  match (s.inst i).staged with
  | some d => descGet d f
  | none => s.descF i f

/-- The commit-admission timeout in ms (R340): 0 selects 50. -/
def State.ctimeoutMs (s : State) (i : Nat) : Nat := let n := s.descF i .ctimeout; if n = 0 then 50 else n

/-- The ring range of an instance, or of the keeper (R376, R403 KRANGE): its first ring and its count. -/
def ringRange (s : State) (i : Nat) : Nat × Nat :=
  if i = 0 then (s.regFld Reg.RING_KRANGE 16 12, s.regFld Reg.RING_KRANGE 0 13)
  else (s.descF i .ringBase, s.limF i .ringCount)

def ringIn (s : State) (i r : Nat) : Bool :=
  decide ((ringRange s i).1 ≤ r ∧ r < (ringRange s i).1 + (ringRange s i).2)

/-- The slot lies in the instance's key-slot range; the keeper's range is every slot (R286). -/
def keySlotIn (s : State) (i n : Nat) : Bool :=
  decide (i = 0 ∨ (s.descF i .ksBase ≤ n ∧ n < s.descF i .ksBase + s.limF i .ksCount))

/-- A range wholly within the keeper data area (R22). -/
def inKeeperData (a n : Nat) : Bool := decide (0x1C0000000 ≤ a ∧ a + n ≤ 0x1CE000000)

end Sys2Proof.Machine
end

