-- ==== Sys2Proof/Machine/Commit.lean ====
section
/-! DEFINITION. What the commit engine is asked: the device's own commits, the absolute results and how they change
the durable state, and the state as it will stand after every admitted commit (R102-R105). -/

namespace Sys2Proof.Machine

/-- One absolute result applied to the durable state (R102, R107). A record that the volume holds already stays as it
is: applying a result twice leaves the state of applying it once. -/
def applyEff (d : Durable) : Eff → Durable
  | .record v r =>
    let x := d.vol v
    if x.records.any (·.seq == r.seq) then d else
    d.setVol v { x with
      records := x.records ++ [r], nextSeq := r.seq + 1, strip := r.strip,
      fill := (r.offset + 32 + r.body.len + 7) / 8 * 8, opened := x.opened || r.type == 0x000E,
      strips := if x.strips.any (fun t => t.num == r.strip) then x.strips else x.strips ++ [{ num := r.strip }] }
  | .newVol v g a => d.setVol v { exist := true, gen := g, anchor := a }
  | .retain v m => let x := d.vol v; d.setVol v { x with retained := true, fromMigrated := m }
  | .unretain v => let x := d.vol v; d.setVol v { x with retained := false, fromMigrated := false }
  | .rcount v n => let x := d.vol v; d.setVol v { x with rcount := n }
  | .counter i k v n => { d with ctrs := sset (fun _ => (0, 0)) d.ctrs (256 * i + k) (v, n) }
  | .sticky m b => { d with sticky := if b then d.sticky ||| m else d.sticky &&& ~~~m }
  | .instState i st => { d with states := sset (fun _ => 0) d.states i st }
  | .desc i x => { d with descs := sset (fun _ => []) d.descs i x }
  | .offer i n => { d with offers := sset (fun _ => none) d.offers i n }
  | .epochLimit n => { d with epochLimit := n }
  | .migctr n => { d with migctr := n }
  | .sealStore => { d with sealed := true }
  | .devLost n => { d with devrecLost := n }
  | .release _ _ => d
  | .ctxUpdate k st area v u =>
    let c := sget (fun _ => {}) d.shg k
    { d with
      shg := sset (fun _ => {}) d.shg k
        { c with st := st, area := area, version := v, updated := u, provisional := false } }
  | .ctxFree k g =>
    { d with
      shg := sset (fun _ => {}) d.shg k { gen := g }
      shgFreed := if (sget (fun _ => {}) d.shg k).kind = 0 then d.shgFreed else d.shgFreed ++ [k] }
  | .ctxPut k c => { d with shg := sset (fun _ => {}) d.shg k c }
  | .ctxLimit k n =>
    let c := sget (fun _ => {}) d.shg k
    { d with shg := sset (fun _ => {}) d.shg k { c with reslim := n } }
  | .ctxExhausted k =>
    let c := sget (fun _ => {}) d.shg k
    { d with shg := sset (fun _ => {}) d.shg k { c with exhausted := true } }
  | .wrapgen n =>
    { d with
      wrapgen := n
      shg := d.shg.foldl (fun m p => sset (fun _ => {}) m p.1 { p.2 with keyPresent := false, wrapped := none }) [] }
  | .stlSwitch g => { d with stlActive := g }
  | .slot n x => { d with slots := sset (fun _ => {}) d.slots n x }
  | .slotLimit n l =>
    { d with slots := sset (fun _ => {}) d.slots n { sget (fun _ => {}) d.slots n with reslim := l } }
  | .slotExhausted n =>
    { d with slots := sset (fun _ => {}) d.slots n { sget (fun _ => {}) d.slots n with exhausted := true } }
  | .slotsZero => { d with slots := [] }
  | .areaMeta a r =>
    let x := sget (fun _ => {}) d.areas a
    let n := getLe r 0 2
    let y : Area := { x with
      size := n, owner := getLe r 2 1, read := getLe r 3 1, write := getLe r 4 1
      limit := if getLe r 5 1 = 0 then 3 else getLe r 5 1
      openClear := getLe r 6 1 == 1, password := BitVec.ofNat 64 (getLe r 8 8)
      version := if x.size = 0 then 1 else x.version
      content := if x.size = 0 then List.replicate (n / 8) (rawW 0) else x.content }
    { d with areas := sset (fun _ => {}) d.areas a (if n = 0 then {} else y) }
  | .areaContent a v c =>
    { d with
      areas := sset (fun _ => {}) d.areas a { sget (fun _ => {}) d.areas a with version := v, content := c } }
  | .attempts a n =>
    { d with areas := sset (fun _ => {}) d.areas a { sget (fun _ => {}) d.areas a with attempts := n } }
  | .shadowClear a =>
    { d with
      areas := sset (fun _ => {}) d.areas a { sget (fun _ => {}) d.areas a with sh0 := {}, sh1 := {} } }

/-- What the apply phase adds to a result already visible (R95): the bands of a receipt become released. -/
def applyHome (d : Durable) : Eff → Durable
  | .release v last =>
    let x := d.vol v
    d.setVol v { x with
      released := some last,
      full := false,
      records := x.records.filter fun r => decide (64 * (last + 1) ≤ r.strip),
      trailers := x.trailers.filter fun t => decide (64 * (last + 1) ≤ t.1),
      seals := x.seals.filter fun t => decide (last ≤ t.1) }
  | _ => d

/-- The durable state as it will stand after every commit admitted so far, marked and applied (R104). -/
def State.projected (s : State) : Durable :=
  let d := s.tdl.marked.foldl (fun d c => c.effs.foldl applyHome d) s.dur
  s.tdl.admitted.foldl (fun d c => c.effs.foldl applyHome (c.effs.foldl applyEff d)) d

/-! ## Breakwater's terms (R116-R118) -/

/-- A die temperature in tenths of a degree (R551). -/
def dieTemp (s : State) (k : Nat) : Int := ((s.reg (Reg.TMP_TEMP0 + 4 * k)).setWidth 16).toInt

/-- The temperature band (R117). -/
def tempBand (s : State) : Nat :=
  let t := max (max (dieTemp s 0) (dieTemp s 1)) (max (dieTemp s 2) (dieTemp s 3))
  if t < 0 then 0 else if t < 600 then 1 else if t < 1050 then 2 else 3

/-- The address and the value of a cost-table entry: 0 the mark, 1-8 the intents. -/
def costReg (s : State) (k : Nat) : Nat := Reg.BRK_COST + 16 * k + 4 * tempBand s
def costOf (s : State) (k : Nat) : Nat := s.regFld (costReg s k) 0 24

/-- V of R116 in mV: the lowest of the last 8 VHOLD samples; zero while there is none. -/
def vLow (s : State) : Nat :=
  match s.pwr.samples with
  | [] => 0
  | v :: l => l.foldl min v

/-- The lowest VHOLD of the epoch while VMAIN is present (R361); zero until there is one. -/
def lowVhold (s : State) (mv : Nat) : State :=
  if s.pwr.flush ≠ 0 then s
  else
    let old := sget (fun _ => 0) s.stat 0x54
    { s with stat := sset (fun _ => 0) s.stat 0x54 (if old = 0 then mv else min old mv) }

/-- A VHOLD sample is taken (R115, R116). -/
def sampleVhold (s : State) (mv : Nat) : State :=
  let l := s.pwr.samples ++ [mv]
  lowVhold { s with pwr := { s.pwr with vhold := mv, samples := l.drop (l.length - 8) } } mv

/-- VHOLD stands at a level for 8 samples and more. -/
def holdVhold (s : State) (mv : Nat) : State :=
  lowVhold { s with pwr := { s.pwr with vhold := mv, samples := List.replicate 8 mv } } mv

/-- Once main loss is declared VHOLD only falls (R111): the next sample is a free value that is not above what stands
there (log entry 15). -/
def flushSample (s : State) : State :=
  if s.pwr.flush = 0 then s
  else sampleVhold { s with freeCtr := s.freeCtr + 1 } (Config.pick s.freeCtr % (s.pwr.vhold + 1))

/-- E in µJ (R116): V in mV, C_meas in µF. -/
def energyUj (s : State) : Nat :=
  s.pwr.cmeas * (100 - s.regFld Reg.BRK_CTRL 0 8) * (vLow s * vLow s - 16000000) / 200000000

def inflightUj (s : State) : Nat := (s.tdl.admitted.map (·.cost)).sum
def reserveUj (s : State) : Nat := 8 * (costOf s 1 + costOf s 0)

/-- E - inflight - reserve. -/
def headroomUj (s : State) : Int := (energyUj s : Int) - inflightUj s - reserveUj s

/-- A commit joins those that wait for admission. -/
def State.enqueue (s : State) (c : Commit) : State :=
  { s with tdl := { s.tdl with
      nextId := s.tdl.nextId + 1, waiting := s.tdl.waiting ++ [{ c with id := s.tdl.nextId, issued := s.kpr.devtime }] } }

/-- The device issues a commit on an instance's behalf (R197, R205, R412). -/
def State.behalfCommit (s : State) (owner : Nat) (intents : List Intent) (p : Purpose) : State :=
  if s.terminated then s else s.enqueue { id := 0, src := owner, intents := intents, purpose := p }

/-- The device issues a commit of its own. In Terminated it makes none (R45, R553). -/
def State.devCommit (s : State) (intents : List Intent) (p : Purpose := .none) (reserve : Bool := false) : State :=
  if s.terminated then s else
  s.enqueue { id := 0, src := 64, intents := intents, purpose := p, reserve := reserve }

/-- An instance-state record (type 0x000C of R82) beside the result it carries (R337). -/
def stateIntents (i old new : Nat) : List Intent :=
  [.effects [.instState i new], .devRec 0 0x000C [BitVec.ofNat 8 i, BitVec.ofNat 8 old, BitVec.ofNat 8 new, 0]]

/-- A device record of volume 0 (R82). -/
def State.devRecord (s : State) (type : Nat) (body : List Byte) : State := s.devCommit [.devRec 0 type body]

end Sys2Proof.Machine
end

