-- ==== Sys2Proof/Machine/CodeFlash.lean ====
section
/-! DEFINITION. The cells of the code flash (13, R471-R486): units and sectors, and what an interruption leaves of an
operation (R484). Cells are named by the address at which their bytes are held (`phys`). -/

namespace Sys2Proof.Machine

open Sys2Proof

/-- The code-flash array that holds an address (R471, R478). -/
def arrayOf (s : State) (a : Nat) : Option Nat :=
  if 0x20000000 ≤ a ∧ a < 0x21000000 then some 0
  else if 0x21000000 ≤ a ∧ a < 0x22000000 then some 1
  else if 0x28000000 ≤ a ∧ a < 0x28200000 then
    some (if phys s a < 0x10000100000 then 2 else 3)
  else none

def arrayBusy (s : State) (k : Nat) : Bool := s.cfl.busy.any (·.1 == k)

/-- An address range touches a busy array (R478, R479). -/
def rangeBusy (s : State) (a n : Nat) : Bool :=
  n != 0 && [a, a + n - 1].any fun x => match arrayOf s x with | some k => arrayBusy s k | none => false

/-- The sector of a cell (R471). -/
def sectorOf (pa : Nat) : Nat :=
  if pa < 0x10000000000 then (pa - 0x20000000) / 65536 else 512 + (pa - 0x10000000000) / 65536

def State.sector (s : State) (n : Nat) : Sector := sget (fun _ => {}) s.cfl.sectors n
def State.setSector (s : State) (n : Nat) (x : Sector) : State :=
  { s with cfl := { s.cfl with sectors := sset (fun _ => {}) s.cfl.sectors n x } }

/-- The flags of a program unit (R476): bit 0 WRITTEN, bit 1 PAIR. -/
def State.unitFlags (s : State) (pa : Nat) : Nat := sget (fun _ => 0) s.cfl.units (pa / 32)
def State.setUnitFlags (s : State) (pa n : Nat) : State :=
  { s with cfl := { s.cfl with units := sset (fun _ => 0) s.cfl.units (pa / 32) n } }
def State.written (s : State) (pa : Nat) : Bool := s.unitFlags pa % 2 == 1

/-- The other half of a unit's carry unit (R477). -/
def otherHalf (pa : Nat) : Nat := if pa / 32 % 2 = 0 then pa + 32 else pa - 32

/-- `n` pulses on one program unit, in the sector's histogram (R482, R486). -/
def Sector.pulsed (x : Sector) (n : Nat) : Sector :=
  let up := fun k => min (k + 1) 65535
  { x with
    wear := x.wear || decide (8 ≤ n)
    b12 := if n ≤ 2 then up x.b12 else x.b12
    b34 := if 3 ≤ n ∧ n ≤ 4 then up x.b34 else x.b34
    b57 := if 5 ≤ n ∧ n ≤ 7 then up x.b57 else x.b57
    b816 := if 8 ≤ n then up x.b816 else x.b816 }

/-- Words as FLOP stores them: SEL 1 tags every word CODE, SEL 2 keeps each tag but CODE and RET (R301). -/
def flopWord (code : Bool) (w : TWord) : TWord :=
  if code then ⟨Tag.code, w.data⟩ else if w.tag = Tag.code ∨ w.tag = Tag.ret then rawW w.data else w

/-- A unit is programmed (R476, R477). -/
def progUnit (s : State) (pa : Nat) (ws : List TWord) (pulses : Nat) : State :=
  let s := s.setSector (sectorOf pa) ((s.sector (sectorOf pa)).pulsed (max 1 (min pulses 16)))
  let s := s.setUnitFlags pa (if s.written (otherHalf pa) then 3 else 1)
  (wrWords s pa ws).newCheck pa

/-- `n` words of undefined content from a cell on. -/
def freeFill (s : State) (pa n : Nat) : State :=
  { wrWords s pa (freeWords s.freeCtr n) with freeCtr := s.freeCtr + 1 }

/-- The units of a range read as unwritten: zero words tagged RAW (R476). -/
def blankCells (s : State) (pa n : Nat) : State :=
  let out := fun (a : Nat) => !(decide (pa ≤ a ∧ a < pa + n))
  { s with
    mem := s.mem.filter fun p => out p.1
    tags := s.tags.filter fun p => out (8 * p.1)
    cfl := { s.cfl with units := s.cfl.units.filter fun p => out (32 * p.1) } }

/-- The cells of a range become erased. -/
def eraseCells (s : State) (pa n : Nat) : State :=
  let s := blankCells s pa n
  { s with checks := s.checks.filter fun p => !(decide (pa ≤ 64 * p.1 ∧ 64 * p.1 < pa + n)) }

/-- The data content of a written unit is undefined: its reads deliver its data or POISON (R483). -/
def freeCell (s : State) (pa : Nat) : State :=
  let c := s.freeCtr
  let s := freeFill s pa 4
  { s with checks := sset (fun _ => 0) s.checks (pa / 64) ((Config.freeWord (c * 65536 + 4)).setWidth 32) }

/-- A unit of undefined content, which reads as written or does not (R483, R484). -/
def freeUnit (s : State) (pa : Nat) : State :=
  if Config.pick s.freeCtr % 2 = 0 then { blankCells s pa 32 with freeCtr := s.freeCtr + 1 }
  else freeCell (s.setUnitFlags pa 1) pa

/-- A sector whose content is undefined (R483, R484). -/
def freeSector (s : State) (pa : Nat) : State := (List.range 2048).foldl (fun s k => freeUnit s (pa + 32 * k)) s

/-- An erase of a sector with its pulses (R482). -/
def eraseSector (s : State) (pa pulses : Nat) (ok : Bool) : State :=
  let n := max 1 (min pulses 32)
  let x := s.sector (sectorOf pa)
  let y := { x with epulses := n, ecount := min (x.ecount + 1) 0x7FFFFF, wear := x.wear || decide (8 ≤ n) }
  if ok then
    (eraseCells s pa 65536).setSector (sectorOf pa)
      { y with efail := false, pfail := false, b12 := 0, b34 := 0, b57 := 0, b816 := 0 }
  else (freeSector s pa).setSector (sectorOf pa) { y with efail := true }

/-- The words of a request, unit by unit. -/
def unitWords (l : List TWord) (k : Nat) : List TWord := (List.range 4).map fun j => l.getD (4 * k + j) (rawW 0)

/-- What main loss or a device reset leaves of the operations under way (R484). How far each has come is open. -/
def flopStop (s : State) : State :=
  s.cfl.busy.foldl (fun s p =>
    let r := p.2
    let n := Config.pick s.freeCtr
    let s := { s with freeCtr := s.freeCtr + 1 }
    match r.sel with
    | 1 | 2 =>
      let k := n % (r.len / 32 + 1)
      let s := (List.range k).foldl (fun s j => progUnit s (r.addr + 32 * j) (unitWords r.src j) 1) s
      if k < r.len / 32 then freeUnit s (r.addr + 32 * k) else s
    | 3 => freeSector s r.addr
    | 4 => if s.written (r.addr + 32 * (n % 2048)) then freeCell s (r.addr + 32 * (n % 2048)) else s
    | _ => if r.first ∧ n % 2 = 0 then { s with otp := { s.otp with swapCtr := min 64 (s.otp.swapCtr + 1) } } else s)
    { s with cfl := { s.cfl with busy := [] } }

end Sys2Proof.Machine
end

