-- ==== Sys2Proof/Machine/Device.lean ====
section
/-! DEFINITION. What a tamper raise can do to the whole device, each as one shared operation: the device reset
(R59-R62), the halt of an instance (R351-R353), the zeroisation of working keys (R446), termination (R70), and the
raise itself (R548-R557). -/

namespace Sys2Proof.Machine

/-! ## Device reset -/

/-- Registers whose Reset entry is Keep and whose home is the register bank (R10): STR.RCPT, the MPU.FATAL group, and
AIR.TAGID of the personalisation area (R472). -/
def keptReg (a : Nat) : Bool :=
  a == Reg.STR_RCPT || a == Reg.MPU_FATAL || a == Reg.MPU_FATAL_ADDR_LO || a == Reg.MPU_FATAL_ADDR_HI ||
    a == Reg.AIR_TAGID_LO || a == Reg.AIR_TAGID_HI

/-- Code flash and boot blocks keep their content over a reset; DRAM and SRAM do not (R60). -/
def keptAddr (a : Nat) : Bool := (0x20000000 ≤ a && a < 0x22000000) || 0x10000000000 ≤ a

/-- Instances 1-63 after a device reset (R339): those that were Building to Frozen are in Building, without code, with
the committed descriptor; staged descriptors are lost. -/
def instAfterReset (d : Durable) (i : Nat) : Inst :=
  let st := sget (fun _ => 0) d.states i
  { state := if 1 ≤ st ∧ st ≤ 5 then 1 else st, desc := sget (fun _ => []) d.descs i }

def keeperInst (d : List Byte) : Inst := { state := 2, desc := if d = [] then keeperDesc else d }

def instsAfterReset (d : Durable) : List (Nat × Inst) :=
  (List.range 63).foldl (fun m k => sset (fun _ => {}) m (k + 1) (instAfterReset d (k + 1)))
    (sset (fun _ => {}) [] 0 (keeperInst (sget (fun _ => []) d.descs 0)))

/-- The next generation of a context (R141). -/
def nextGen (g : Nat) : Nat := if 4095 ≤ g then 1 else g + 1

/-- The durable state after power loss or reset: provisional contexts are freed (R140, R141), working counters start at
the limit (R138), and the next refusal of an append for want of space is the first again (R96). -/
def durAfterReset (d : Durable) : Durable :=
  let d := d.shg.foldl (fun d p =>
    if p.2.provisional ∧ p.2.kind ≠ 0 then
      { d with
        shg := sset (fun _ => {}) d.shg p.1 { gen := nextGen p.2.gen }
        shgFreed := d.shgFreed ++ [p.1] }
    else d) d
  { d with
    shg := d.shg.foldl (fun m p => sset (fun _ => {}) m p.1 { p.2 with ivctr := p.2.reslim }) []
    slots := d.slots.foldl (fun m p => sset (fun _ => {}) m p.1 { p.2 with ivctr := p.2.reslim }) []
    vols := d.vols.map fun p => (p.1, { p.2 with full := false }) }

/-- A device reset (R59, R60, R10). What is kept is named; everything else is as at reset. Commits without a mark are
left for replay to discard; the epoch number is the committed limit (R356). -/
def deviceReset (s : State) (cause : Word4) : State :=
  let s := flopStop s
  { State.reset with
    kpr := {
      monOk := s.kpr.monOk, cause := cause, timeSet := s.kpr.timeSet, devtime := s.kpr.devtime
      terminalCause := s.kpr.terminalCause, trigger := s.kpr.trigger
      prev := if s.mode = Mode.starting then s.kpr.prev else s.mode }
    pwr := { s.pwr with
      measuring := false, want := true, low := false, cmeas := 0, samples := [], reached := s.pwr.charged }
    otp := s.otp
    tmp := { on := s.tmp.on, armed := s.tmp.armed, sticky := s.tmp.pendFlags, pendFlags := s.tmp.pendFlags,
             lastRaise := s.tmp.lastRaise, fastUntil := s.tmp.fastUntil }
    cfl := { units := s.cfl.units, sectors := s.cfl.sectors, stress := s.cfl.stress }
    evf := { s.evf with late := false, catchup := false, noRefresh := false, visited := [] }
    regs := sset regReset (s.regs.filter fun p => keptReg p.1) Reg.STAT_EPOCH (BitVec.ofNat 32 s.dur.epochLimit)
    mem := s.mem.filter fun p => keptAddr p.1
    tags := s.tags.filter fun p => keptAddr (8 * p.1)
    checks := s.checks.filter fun p => keptAddr (64 * p.1)
    dur := durAfterReset s.dur
    tdl := { s.tdl with
      waiting := [], admitted := [], ptr := 0, pfail := 0, sealing := false, times := [], replayed := 0, discarded := 0
      lost := s.tdl.lost ++ s.tdl.admitted.map (·.num) }
    mpu := mpuAtReset
    insts := instsAfterReset s.dur
    ports := {
      crd := { det := s.ports.crd.det }
      iso := s.ports.iso.map fun (p : Nat × IsoPort) => (p.1, { present := p.2.present }) }
    roots := s.roots
    ivPrefix := s.ivPrefix
    stat := [(0x10, s.kpr.devtime.toNat), (0x20, b2n (!s.kpr.timeSet))].filter fun p => p.2 ≠ 0
    freeCtr := s.freeCtr
    outbox := s.outbox
    pending := s.pending }

/-! ## Quiesce -/

/-- A context has stopped, or will at its next bundle boundary (R351 step 3, R352): one under way with a bundle, or at
level K, goes on until then. -/
def stopsNow (c : Ctx) : Bool := c.bundle.isNone && c.r.level != 2

/-- The core time since it was last counted goes to the instance of a context of an application core (R349), in whole µs
with the rest kept. -/
def chargeCore (s : State) (k : Nat) : State :=
  match (s.ctx k).since with
  | none => s
  | some t =>
    let i := k / 64
    let n := (s.inst i).coreNs + (s.kpr.devtime - t).toNat
    let s := (s.modInst i fun x => { x with coreNs := n % 1000 }).statInc64 (instStat i 8) (n / 1000)
    s.setCtx k { s.ctx k with since := none }

/-- An operation that waits on an event outside its engine (R353): a QPUT or a QGET with SEL bit 0 set, or a TIME with SEL
1. -/
def waitsOutside : Op → Bool
  | .x 0x10 sel _ _ 0 | .x 0x11 sel _ _ 0 | .x 0x51 sel _ _ 0 => sel % 2 == 1
  | _ => false

/-- Those of an instance complete with INSTANCE_QUIESCING (R353). -/
def endWaits (s : State) (i : Nat) : State :=
  let stays := fun (w : Nat × Nat) => decide (w.1 ≠ i) || !waitsOutside (s.tk w.1 w.2).op
  let s := { s with rings := s.rings.map fun (p : Nat × Ring) =>
    (p.1, { p.2 with waiters := p.2.waiters.filter stays }) }
  s.tickets.foldl (fun t p =>
    if p.1 / 256 = i ∧ p.2.used ∧ ¬ p.2.done ∧ waitsOutside p.2.op then t.tkDone i (p.1 % 256) St.instanceQuiescing
    else t) s

/-- X-slot issue closes for an instance (R351 step 3, R353): its waits end, and each context stops at its next bundle
boundary. Staging sets are discarded (R299). -/
def closeIssue (s : State) (i : Nat) (stop : Bool) : State :=
  let s := s.modInst i fun x => { x with closed := true, drain := false, stopping := stop }
  let s := endWaits s i
  if stop then
    let s := (s.ctxs.filter fun p => decide (p.1 / 64 = i)).foldl (fun t p => chargeCore t p.1) s
    s.ctxs.foldl (fun t p =>
      if p.1 / 64 = i then
        t.setCtx p.1 { p.2 with
          staging := [], run := if p.2.run = .running ∧ stopsNow p.2 then .stopped else p.2.run }
      else t) s
  else s

/-- A halt: the quiesce of an instance with a drain window of zero (R352, R553). An instance in Quiescing has its
window ended at once; one that is neither is not affected (R555). -/
def haltInst (s : State) (i : Nat) : State :=
  let x := s.inst i
  if i = 0 then s
  else if x.state = 2 then
    (s.modInst i fun x => { x with zeroDrain := true }).devCommit (stateIntents i 2 3) (.instCmd i 4 3)
  else if x.state = 3 ∧ x.drain then closeIssue s i true
  else s

/-- Instances that a halt reaches when a source names none: every one in Running or Quiescing (R555). In Workshop no
instance runs. -/
def activeInsts (s : State) : List Nat :=
  (List.range 64).filter fun i => i ≠ 0 ∧ ((s.inst i).state = 2 ∨ (s.inst i).state = 3)

/-! ## Tamper sources (R548) -/

/-- The kind of a source. -/
inductive TKind where
  | level | event | rate
  deriving DecidableEq, Repr

def tKind (t : Nat) : TKind :=
  if t ∈ [16, 18, 19, 20, 22] then .rate
  else if t ∈ [6, 10, 11, 12, 13, 14, 15, 17, 21] then .event
  else .level

/-- The floors of R548: Blank and Personalise, Workshop, Service and Standby, Recovery. -/
def floors (t : Nat) : Nat × Nat × Nat × Nat :=
  match t with
  | 0 => (0, 1, 1, 0) | 1 => (0, 2, 2, 1) | 2 => (0, 0, 0, 0) | 3 => (0, 1, 1, 1) | 4 => (0, 1, 1, 1)
  | 5 => (0, 2, 2, 2) | 6 => (0, 3, 3, 3) | 7 => (0, 1, 1, 1) | 8 => (0, 1, 1, 1) | 9 => (0, 1, 1, 1)
  | 10 => (0, 2, 4, 2) | 11 => (5, 5, 5, 5) | 12 => (5, 5, 5, 5) | 13 => (0, 3, 3, 3) | 14 => (0, 2, 2, 2)
  | 15 => (1, 3, 3, 3) | 16 => (0, 3, 3, 3) | 17 => (3, 3, 3, 3) | 18 => (0, 1, 1, 1) | 19 => (0, 1, 1, 1)
  | 20 => (0, 3, 3, 3) | 21 => (3, 3, 3, 3) | 22 => (0, 1, 1, 1) | 23 => (0, 1, 1, 1) | _ => (0, 0, 0, 0)

/-- The floor of a source in the present mode (R548). During start-up it is the highest of the four columns until the
lifecycle state has been read (`SEED_DONE`: that step and step 6 are one command here), then the S column when
PERSO_CLOSE is done, else the B/P column. -/
def floorNow (s : State) (t : Nat) : Nat :=
  let f := floors t
  let m := s.mode
  if m = Mode.starting then
    if ¬ s.kpr.seedDone then max (max f.1 f.2.1) (max f.2.2.1 f.2.2.2)
    else if s.otp.persoClosed then f.2.2.1 else f.1
  else if m = Mode.workshop then f.2.1
  else if m = Mode.service ∨ m = Mode.standby then f.2.2.1
  else if m = Mode.recovery then f.2.2.2
  else f.1

/-- The effective level (R553). -/
def effLevel (s : State) (t : Nat) : Nat := max (s.regFld (Reg.TMP_RESP + 4 * t) 0 3) (floorNow s t)

/-- The raise count of a rate source. -/
def rateCount (s : State) (t : Nat) : Nat := s.regFld (Reg.TMP_RESP + 4 * t) 24 8

/-- The instances that a halt reaches, by the source and the events of its window (R555). -/
def affected (s : State) (t : Nat) (evs : List (Option Nat)) : List Nat :=
  let act := activeInsts s
  let named := evs.filterMap id
  if t = 18 then
    let cnt := fun i => (named.filter (· = i)).length
    let top := (named.map cnt).foldl max 0
    act.filter fun i => i ∈ named ∧ cnt i = top
  else if (t = 19 ∨ t = 22) ∧ named ≠ [] then act.filter (· ∈ named)
  else act

/-! ## Zeroisation, termination, wake -/

/-- A ROM service asked for the decision. -/
def Decision.svc : Decision → Bool
  | .persoBegin | .persoClose | .imageSwap | .recoveryExit => true
  | _ => false

/-- Raw bytes of undefined content. -/
def freePayload (c n : Nat) : Payload := rawPayload (genBytes n fun k => Config.freeByte (c * 65536 + k))

/-- What a SEAL that fails in its lane leaves at its destination (R413): the ciphertext is undefined, the tag is not
written. -/
def sealSpoil (s : State) (o : Op) : State :=
  match o with
  | .x 0x20 _ args _ _ =>
    let dst := (args.getD 4 (intW 0)).data.toNat
    let n := (args.getD 3 (intW 0)).data.toNat + 12
    let s := s.breakResv dst n
    { s.wrPayload dst (freePayload s.freeCtr n) with freeCtr := s.freeCtr + 1 }
  | _ => s

/-- Lane key registers and held output cleared at once; each busy operation completes with KEY_ABSENT (R416). -/
def clearLanes (s : State) : State :=
  { s.cip.lanes.foldl (fun s l =>
      (sealSpoil s (s.tk l.2.inst l.2.ticket).op).tkDone l.2.inst l.2.ticket St.keyAbsent) s with
    cip := { s.cip with lanes := [] } }

/-- The key slots and the Shingle keys of every context zeroised in one device commit (R446, R139); a key command not
yet marked completes with KEY_ABSENT (R447), a SAVE that does not yet stream with MIG_IMAGE_INVALID (R372). -/
def zeroiseWorking (s : State) : State :=
  let s := clearLanes s
  let s := if s.key.cmd.isSome then { s with key := { s.key with cmd := none, stat := St.keyAbsent } } else s
  let s := { s with tdl := { s.tdl with
    waiting := s.tdl.waiting.filter fun c => match c.purpose with | .keyCmd _ _ => false | _ => true } }
  let s := if s.ins.busy.map (·.2) = some 11 then
      { s with
        ins := { s.ins with busy := none, stat := St.migImageInvalid, image := [], sent := 0 }
        tdl := { s.tdl with
          waiting := s.tdl.waiting.filter fun c => match c.purpose with | .instCmd _ 11 _ => false | _ => true
          admitted := s.tdl.admitted.map fun c =>
            match c.purpose with
            | .instCmd _ 11 _ => { c with purpose := .none, effs := c.effs.filter fun e => match e with | .record _ _ => true | _ => false }
            | _ => c } }
    else s
  let s := { s with insts := s.insts.map fun (p : Nat × Inst) => (p.1, { p.2 with snap := none }) }
  s.devCommit [.effects [.slotsZero, .wrapgen 0]]

/-- The DRAM that cores see: the instances' and the keeper data area (R22). -/
def dramAddr (a : Nat) : Bool := decide (0x100000000 ≤ a ∧ a < 0x1CE000000)

/-- Requests that are outstanding complete with TERMINATED (R71): tickets, the commands of the keeper, a transition and
the ROM service in progress. -/
def endRequests (s : State) : State :=
  let s := s.tickets.foldl (fun t p => t.tkDone (p.1 / 256) (p.1 % 256) St.terminated) s
  let st := fun (b : Bool) (old : Word16) => if b then St.terminated else old
  let svc := s.host.svcHeld || s.kpr.decision.any fun d => d.1.svc
  { s with
    key := { s.key with
      cmd := none, held := false, stat := st s.key.cmd.isSome s.key.stat
      att := false, attStat := st s.key.att s.key.attStat }
    ins := { s.ins with busy := none, stat := st s.ins.busy.isSome s.ins.stat }
    pke := { s.pke with busy := none, stat := st s.pke.busy.isSome s.pke.stat }
    kpr := { s.kpr with modeStat := st (s.kpr.decision.isSome && !svc) s.kpr.modeStat }
    host := { s.host with svcHeld := false, svcStat := st svc s.host.svcStat } }

/-- Roots, slots, lane keys and DRAM destroyed, and the terminal state programmed (R70). -/
def destroyAll (s : State) (cause : Nat) : State :=
  let s := endRequests (clearLanes s)
  { s with
    kpr := { s.kpr with mode := Mode.terminated, terminalCause := cause, decision := none,
                        running := false, standby := 0 }
    otp := { s.otp with terminal := true }
    roots := []
    dur := { s.dur with slots := [] }
    mem := s.mem.filter fun p => !dramAddr p.1
    tags := s.tags.filter fun p => !dramAddr (8 * p.1)
    checks := s.checks.filter fun p => !dramAddr (64 * p.1)
    eras := []
    ctxs := [] }

/-- The mode-transition record (type 0x0002 of R82). -/
def transitionRec (old new : Word4) (trigger : Nat) : Intent :=
  .devRec 0 0x0002 [old.setWidth 8, new.setWidth 8, BitVec.ofNat 8 trigger, 0]

/-- The cores start again and X-slot issue reopens (R67); the transition record carries trigger 1. -/
def wakeNow (s : State) : State :=
  let s := { s with
    air := { s.air with roleLocked := false }
    kpr := { s.kpr with mode := Mode.service, standby := 0, waking := false, running := true } }
  let s := (List.range 64).foldl (fun s i => s.modInst i fun x =>
    { x with closed := if i = 0 ∨ x.state = 2 ∨ (x.state = 3 ∧ x.drain) then false else x.closed }) s
  s.devCommit [transitionRec Mode.standby Mode.service 1] (.transition 1)

/-- A wake event of source `k` (R66, R67): latched; in Standby the decision on the wake is asked for (R39), unless it is
under way. -/
def wakeSource (s : State) (k : Nat) : State :=
  let en := s.regBit Reg.KPR_WAKE_EN k
  if ¬ en then s
  else if s.mode = Mode.standby then
    { s.setReg Reg.KPR_WAKE_CAUSE (s.reg Reg.KPR_WAKE_CAUSE ||| BitVec.ofNat 32 (2 ^ k)) with
      kpr := { s.kpr with decision := s.kpr.decision.or (some (.wake, none)) } }
  else if s.kpr.standby ≠ 0 then
    { s.setReg Reg.KPR_WAKE_CAUSE (s.reg Reg.KPR_WAKE_CAUSE ||| BitVec.ofNat 32 (2 ^ k)) with
      kpr := { s.kpr with waking := true } }
  else s

/-! ## The raise (R553-R557) -/

/-- Commits are admitted (R53, R55). -/
def State.admits (s : State) : Bool := s.kpr.replayDone && s.kpr.brkReady

/-- Raises waiting for their records (R557). -/
def State.queued (s : State) : Nat :=
  (s.tdl.waiting.filter fun c => match c.purpose with | .tamper _ _ => true | _ => false).length

/-- Whether a device reset follows the record of a raise (R553, R554). -/
def resets (s : State) (t l : Nat) : Bool :=
  if t = 17 then decide (3 ≤ l)
  else if t = 21 then decide (3 ≤ l) && s.kpr.seedDone
  else l == 3

/-- The device reset that a raise of `t` makes: T17 with cause 7 (R554); T21 sets Recovery-pending (R463). -/
def tamperReset (s : State) (t : Nat) : State :=
  if t = 17 then deviceReset s 7
  else if t = 21 then
    deviceReset { s with otp := { s.otp with rpSet := min 1024 (s.otp.rpSet + 1) }, kpr := { s.kpr with trigger := 6 } } 3
  else deviceReset s 3

/-- A raise of source `t` with its measured value and the events of its window (R553-R557, R564). An event source raises
at most once per millisecond (R548). -/
def tamperRaise (s : State) (t : Nat) (v : Word32) (evs : List (Option Nat) := []) : State :=
  let bit : BitVec 24 := BitVec.ofNat 24 (2 ^ t)
  if s.terminated then { s with tmp := { s.tmp with sticky := s.tmp.sticky ||| bit } } else
  if tKind t = .event ∧ s.kpr.devtime < sget (fun _ => 0) s.tmp.lastRaise t then s.statInc (0x2C0 + 8 * t + 4) else
  let l := effLevel s t
  let s := (s.setReg Reg.TMP_LAST (BitVec.ofNat 32 (256 * t + l))).setReg Reg.TMP_LASTVAL v
  let s := s.statInc (0x2C0 + 8 * t + 4)
  let s := { s with tmp := { s.tmp with
    sticky := s.tmp.sticky ||| bit
    pendFlags := s.tmp.pendFlags ||| bit
    lastRaise := sset (fun _ => 0) s.tmp.lastRaise t (s.kpr.devtime + 1000000)
    fastUntil := if t = 5 ∨ t = 6 ∨ t = 13 ∨ t = 14 then s.kpr.devtime + 1000000 else s.tmp.fastUntil } }
  let body := [BitVec.ofNat 8 t, BitVec.ofNat 8 l, s.mode.setWidth 8, 0] ++ leBytes 4 v.toNat
  if l = 5 then
    let s := { s with tdl := { s.tdl with waiting := [] } }
    let s := s.devCommit [.devRec 0 0x0004 body, transitionRec s.mode Mode.terminated 7] (.tamper t 5) true
    destroyAll s (0x80 + t)
  else
    let s := if l = 1 ∨ l = 2 ∨ l = 4 then
        (s.setReg Reg.TMP_PEND (s.reg Reg.TMP_PEND ||| BitVec.ofNat 32 (2 ^ t))).raiseIrq 0 5
      else s
    let s := if 1 ≤ l then wakeSource s 5 else s
    let s := if l = 2 ∨ l = 4 then (affected s t evs).foldl haltInst s else s
    let full := decide (32 ≤ s.queued) || s.pwr.low
    let s := if full then { s with dur := { s.dur with devrecLost := s.dur.devrecLost + 1 } }
      else s.devCommit [.devRec 0 0x0004 body] (.tamper t l) true
    let s := if l = 4 then zeroiseWorking s else s
    if resets s t l ∧ s.pwr.flush = 0 then
      if full then tamperReset s t
      else if ¬ s.admits then
        (activeInsts s).foldl (fun s i => closeIssue s i false)
          { s with tmp := { s.tmp with deferred := true } }
      else s
    else s

/-- One event of a rate source, with the instance it concerns (R548). -/
def rateEvent (s : State) (t : Nat) (who : Option Nat) : State :=
  let evs := sget (fun _ => []) s.tmp.win t ++ [who]
  if rateCount s t ≤ evs.length then
    tamperRaise { s with tmp := { s.tmp with win := sset (fun _ => []) s.tmp.win t [] } } t
      (BitVec.ofNat 32 evs.length) evs
  else { s with tmp := { s.tmp with win := sset (fun _ => []) s.tmp.win t evs } }

/-- A failed carry check (R123): counted, recorded, and counted against T19. The words of the unit are made POISON by
the caller. -/
def carryFault (s : State) (loc : Nat) (who : Option Nat) (a : Nat) : State :=
  let s := s.statInc 0x7C
  let s := s.devRecord 0x0009
    ([BitVec.ofNat 8 loc, match who with | some i => BitVec.ofNat 8 i | none => 0xFF, 0, 0] ++ leBytes 8 a)
  rateEvent s 19 who

/-- A unit that fails its check when it is met (R123): POISON, and the fault. -/
def unitFails (s : State) (a loc : Nat) (who : Option Nat) : State :=
  let s := if loc = 0x0A ∨ loc = 0x0B then s.claim a else s
  let s := if (0x20000000 ≤ a ∧ a < 0x28200000) ∨ 0x10000000000 ≤ a then s.incReg Reg.CFL_UNCORR else s
  carryFault (s.poisonUnit a) loc who (a / 64 * 64)

/-- A failure of a credential (R552). -/
def credFailure (s : State) (who : Option Nat := none) : State := rateEvent s 22 who

/-- A fatal escalation (R323, R62): recorded in MPU.FATAL, and the device resets with cause 4 and Recovery pending. -/
def fatalEscalation (s : State) (cls detail resume : Nat) : State :=
  let s := (s.setReg Reg.MPU_FATAL (BitVec.ofNat 32 (256 * detail + cls))).setReg64 Reg.MPU_FATAL_ADDR_LO (resume % 2 ^ 40)
  deviceReset { s with
    otp := { s.otp with rpSet := min 1024 (s.otp.rpSet + 1), fatalPending := true }
    kpr := { s.kpr with trigger := 4 } } 4

/-- Data leaves the device and is verified on its way out (R121 0x30-0x37). Whether a unit fails there is the
environment's, and no row brings it: it is drawn (log entry 121). -/
def egress (s : State) (loc : Nat) (who : Option Nat) : Bool × State :=
  let c := s.freeCtr
  let s := { s with freeCtr := c + 1 }
  if Config.pick c % 2 = 0 then (true, s) else (false, carryFault s loc who (Config.freeWord c).toNat)

/-! ## Engine buffers -/

/-- A word tagged POISON lies in a range. -/
def State.poisonIn (s : State) (a n : Nat) : Bool :=
  n != 0 && (List.range ((a + n - 1) / 8 - a / 8 + 1)).any fun k => s.rdTag (a / 8 * 8 + 8 * k) == Tag.poison

/-- What an engine reads (R123, R225): the data, and where a unit fails its check now, the state after the fault, with
the location code of the boundary that found it: the memory's for a unit that fails as it is read there (R24, R121;
`mem` is the environment's doing), the engine's input `loc` for one that fails on its way. A POISON word met is the
engine's input, and makes no further record. -/
def engRead (s : State) (a n loc : Nat) (who : Option Nat) (upset : Bool) (mem : Bool := false) : Except Nat Payload × State :=
  if n = 0 then (.ok ⟨0, []⟩, s)
  else
    let us := unitsOf a n
    match us.find? fun u => s.isBad u || ((upset || mem) && u == a / 64 * 64) with
    | some u =>
      let at_ := if s.isBad u ∨ mem then memLoc u else loc
      (.error at_, unitFails s u at_ who)
    | none =>
      if s.poisonIn a n then (.error loc, s) else (.ok (s.rdPayload a n), s)

/-- Every unit of a range has its check computed anew. -/
def newChecks (s : State) (a n : Nat) : State := (unitsOf a n).foldl State.newCheck s

/-- What an engine writes (R121 0x0B, R591): every reservation on the granules breaks; a unit written in part whose
old check fails becomes POISON, the data of the other destination units is undefined, and the operation ends with
CARRY_FAULT at 0x0B. -/
def engWrite (s : State) (a : Nat) (p : Payload) (who : Option Nat) (destUpset : Bool := false) : Bool × State :=
  if p.len = 0 then (true, s)
  else
    let s := s.breakResv a p.len
    let part := (unitsOf a p.len).filter fun u => decide (u < a ∨ a + p.len < u + 64)
    match part.find? fun u => s.isBad u || destUpset with
    | some u =>
      let kept := s.rdWords u 8
      let s := newChecks ({ s with freeCtr := s.freeCtr + 1 }.wrPayload a (p.free s.freeCtr)) a p.len
      (false, unitFails (wrWords s u kept) u 0x0B who)
    | none => (true, newChecks (s.wrPayload a p) a p.len)

end Sys2Proof.Machine
end

