-- ==== Sys2Proof/Machine/Derive.lean ====
section
/-! DEFINITION. Key derivation (R436, R437), key wrapping (RFC 5649), the root memory (R431, R433), and the private keys
of slot values (R420). -/

namespace Sys2Proof.Machine

open Sys2Proof

/-! ## The derivation function (R436) -/

/-- The ASCII bytes of a label, without terminator. -/
def ascii (l : String) : List Byte := l.toList.map fun c => BitVec.ofNat 8 c.toNat

/-- The `n` big-endian bytes of a number. -/
def beBytes (n v : Nat) : List Byte := (leBytes n v).reverse

/-- The number that big-endian bytes spell. -/
def beNat (l : List Byte) : Nat := leNat l.reverse

def hash384 (m : List Byte) : List Byte := genBytes 48 (Config.hashByte 2 m)

/-- HMAC-SHA-384, whose block is 128 bytes. -/
def hmac384 (k m : List Byte) : List Byte :=
  let k := slice (if 128 < k.length then hash384 k else k) 0 128
  hash384 (k.map (· ^^^ 0x5C) ++ hash384 (k.map (· ^^^ 0x36) ++ m))

/-- KDF(K, label, context, 8n) of R436: SP 800-108 counter mode with HMAC-SHA-384; the first `n` bytes. -/
def kdf (label k ctx : List Byte) (n : Nat) : List Byte :=
  slice ((List.range ((n + 47) / 48)).map fun i =>
    hmac384 k (beBytes 4 (i + 1) ++ label ++ [0] ++ ctx ++ beBytes 4 (8 * n))).flatten 0 n

/-- The labels of R437, R443, R136 and R368. -/
def Lbl.slotCheck : List Byte := ascii "KEY-SLOTCHK"
def Lbl.store : List Byte := ascii "KEY-STORE"
def Lbl.slot : List Byte := ascii "KEY-SLOT"
def Lbl.dramLine : List Byte := ascii "DRAM-LINE"
def Lbl.wrap : List Byte := ascii "SHG-WRAP"
def Lbl.attest : List Byte := ascii "ATTEST"
def Lbl.strip : List Byte := ascii "STRIP"
def Lbl.migrate : List Byte := ascii "MIGRATE"
def Lbl.agree : List Byte := ascii "KEY-AGREE"
def Lbl.importKey : List Byte := ascii "KEY-IMPORT"
def Lbl.body : List Byte := ascii "MIG-BODY"

/-! ## Key wrapping (RFC 5649) -/

/-- AES-256 key wrap with padding. -/
def wrapKey (kek p : List Byte) : List Byte := genBytes ((p.length + 7) / 8 * 8 + 8) (Config.aeadByte 3 kek [] [] p)

/-- Unwrapping `n` bytes: none where the integrity check fails. -/
def unwrapKey (kek b : List Byte) (n : Nat) : Option (List Byte) :=
  if Config.aeadOk 3 kek [] [] b then some (genBytes n (Config.aeadOpenByte 3 kek [] [] b)) else none

/-! ## Roots -/

def State.root (s : State) (r : Nat) : Root := sget (fun _ => {}) s.roots r

/-- A root is present and passes its check (R433). -/
def rootGood (s : State) (r : Nat) : Bool :=
  let k := s.root r
  k.bits.length == 32 && k.crc == crc32c (k.bits ++ [BitVec.ofNat 8 r]) &&
    k.bits != List.replicate 32 0 && k.bits != List.replicate 32 0xFF

def setRoot (s : State) (r : Nat) (bits : List Byte) : State :=
  { s with roots := sset (fun _ => {}) s.roots r { bits := bits, crc := crc32c (bits ++ [BitVec.ofNat 8 r]) } }

def zeroRoot (s : State) (r : Nat) : State := { s with roots := sset (fun _ => {}) s.roots r {} }

/-- The value of a derived pair under a root (R437). -/
def pairValue (s : State) (label : List Byte) (r : Nat) : List Byte := kdf label (s.root r).bits [] 32

/-- The DRAM line key of a root: the encryption key and the MAC key (R24, R25, R437). -/
def lineKey (s : State) (r : Nat) : List Byte := kdf Lbl.dramLine (s.root r).bits (slice s.kpr.startNonce 0 16) 64

/-- The Shingle's wrap key (R136). -/
def shgWrapKey (s : State) (wrapgen : Nat) : List Byte := kdf Lbl.wrap (s.root 2).bits (leBytes 4 wrapgen) 32

/-! ## Private and public keys (R418, R420) -/

/-- The order and the bit length of a curve: P-256, P-384, brainpoolP256r1, brainpoolP384r1, as their standards give
them. -/
def curveOrder (c : Nat) : Nat × Nat :=
  match c with
  | 1 => (0xFFFFFFFF00000000FFFFFFFFFFFFFFFFBCE6FAADA7179E84F3B9CAC2FC632551, 256)
  | 2 => (0xFFFFFFFFFFFFFFFFFFFFFFFFFFFFFFFFFFFFFFFFFFFFFFFFC7634D81F4372DDF581A0DB248B0A77AECEC196ACCC52973, 384)
  | 3 => (0xA9FB57DBA1EEA9BC3E660A909D838D718C397AA3B561A6F7901E0E82974856A7, 256)
  | _ => (0x8CB91E82A3386D280F5D6F7E50E641DF152F7109ED5456B31F166E6CAC0425A7CF3AB6AF6B7FC3103B883202E9046565, 384)

/-- The private scalar of a curve under a label. -/
def ecKey (label v : List Byte) (c : Nat) : List Byte :=
  let (n, b) := curveOrder c
  beBytes (b / 8) (beNat (kdf label v [] (b / 8 + 8)) % (n - 1) + 1)

/-- The private key that the engine derives from a value of a kind (R420). -/
def privKey (kind : Nat) (v : List Byte) : List Byte :=
  if kind = 0x30 then kdf (ascii "MLKEM768") v [] 64
  else if kind = 0x18 then ecKey (ascii "HYB-EC") v 2 ++ kdf (ascii "HYB-MLDSA") v [] 32
  else if kind % 16 ≤ 4 then ecKey (ascii "EC-" ++ [BitVec.ofNat 8 (0x30 + kind % 16)]) v (kind % 16)
  else v

/-- The encoded public key of a value of a kind (R418, R420). -/
def pubLen (kind : Nat) : Nat :=
  match kind % 16 with
  | 1 => 65 | 2 => 97 | 3 => 65 | 4 => 97 | 5 => 32 | 6 => 1312 | 7 => 1952 | 8 => 2049 | 9 => 60
  | _ => 1184

/-- Bytes of an asymmetric algorithm: 1 a public key, 2 a shared secret, 3 a capsule. -/
def pkBytes (fn : Nat) (k ctx : List Byte) (n : Nat) : List Byte := genBytes n (Config.kdfByte fn k ctx)

def pubOf (kind : Nat) (priv : List Byte) : List Byte :=
  pkBytes 1 priv [BitVec.ofNat 8 kind] (if kind = 0x30 then 1184 else pubLen kind)

def pubKey (kind : Nat) (v : List Byte) : List Byte :=
  if kind = 0x18 then pubOf 0x12 ((privKey 0x18 v).take 48) ++ pubOf 0x17 ((privKey 0x18 v).drop 48)
  else pubOf kind (privKey kind v)

/-! ## Signatures (R295, R418, R423) -/

/-- Signature bytes of an algorithm (R295). -/
def sigLen (sel : Nat) : Nat :=
  match sel with
  | 1 => 64 | 2 => 96 | 3 => 64 | 4 => 96 | 5 => 64 | 6 => 2420 | 7 => 3309 | 8 => 3405 | _ => 0

/-- The random input that a signature draws (R422): 32 bytes for ECDSA and for ML-DSA, none for Ed25519. -/
def signDraw (sel : Nat) : Nat := if sel = 8 then 64 else if sel = 5 then 0 else 32

/-- A signature of an algorithm by a slot value over a message, with its random input (R422). The hybrid one is the ECDSA
P-384 signature, then the ML-DSA-65 signature (R423). -/
def signature (sel : Nat) (v msg r : List Byte) : List Byte :=
  let k := privKey (0x10 + sel) v
  if sel = 8 then
    genBytes 96 (Config.signByte 2 (k.take 48) msg (r.take 32)) ++
      genBytes 3309 (Config.signByte 7 (k.drop 48) msg (r.drop 32))
  else genBytes (sigLen sel) (Config.signByte sel k msg r)

/-- The length that the type fields of an LMS signature give it, none where a type is not supported (RFC 8554). -/
def lmsLen (b : List Byte) : Option Nat :=
  let p := match beNat (slice b 4 4) with | 1 => 265 | 2 => 133 | 3 => 67 | 4 => 34 | _ => 0
  let y := 40 + 32 * p
  let h := beNat (slice b y 4)
  if p = 0 ∨ h < 5 ∨ 9 < h then none else some (y + 4 + 32 * (5 * (h - 4)))

/-- The length that the type fields of an HSS signature of one or two levels give it (R418). -/
def hssLen (b : List Byte) : Option Nat :=
  match beNat (slice b 0 4) with
  | 0 => (lmsLen (b.drop 4)).map (4 + ·)
  | 1 => (lmsLen (b.drop 4)).bind fun n => (lmsLen (b.drop (4 + n + 56))).map fun m => 4 + n + 56 + m
  | _ => none

/-- Whether a signature verifies under an encoded public key, which is validated before use (R418, R419); both signatures of
a hybrid one (R423). -/
def sigVerify (sel : Nat) (pub msg sig : List Byte) : Bool :=
  let one := fun (sel : Nat) (pub sig : List Byte) => Config.keyOk (256 + sel) pub && Config.sigOk sel pub msg sig
  pub.length == pubLen sel &&
    (if sel = 8 then sig.length == 3405 && one 2 (pub.take 97) (sig.take 96) && one 7 (pub.drop 97) (sig.drop 96)
     else if sel = 9 then hssLen sig == some sig.length && one 9 pub sig
     else sig.length == sigLen sel && one sel pub sig)

/-- A shared secret, and the capsule of an encapsulation (R296, R424). -/
def sharedSecret (priv peer : List Byte) (n : Nat) : List Byte := pkBytes 2 priv peer n
def capsule (r peer : List Byte) : List Byte := pkBytes 3 r peer 1088

end Sys2Proof.Machine
end

