-- ==== Sys2Proof/Machine/Random.lean ====
section
/-! DEFINITION. The random source's pipeline (R457-R460): health tests of a raw block, the conditioner, and the expander. -/

namespace Sys2Proof.Machine

open Sys2Proof

/-! ## Raw blocks (R459): 4,096 samples, sample k in bit k of its half -/

/-- The samples of a block whose halves are given. -/
def rawSamples (first last : BitVec 2048) : List Bool :=
  (List.range 2048).map first.getLsbD ++ (List.range 2048).map last.getLsbD

/-- The longest run of identical samples; `prev` is the sample before, `run` the run that it ends. -/
def longestRun : Option Bool → Nat → Nat → List Bool → Nat
  | _, _, m, [] => m
  | prev, run, m, b :: bs =>
    let n := if prev = some b then run + 1 else 1
    longestRun (some b) n (max m n) bs

/-- Repetition count: a run of 41 identical samples. -/
def repetitionFails (l : List Bool) : Bool := decide (41 ≤ longestRun none 0 0 l)

/-- How often the first sample of a window recurs in it (log entry 125). -/
def recurrences : List Bool → Nat
  | [] => 0
  | b :: bs => bs.count b

/-- Adaptive proportion: four windows of 1,024 samples. -/
def proportionFails (l : List Bool) : Bool :=
  (List.range 4).any fun k => decide (800 ≤ recurrences ((l.drop (1024 * k)).take 1024))

/-! ## The conditioner (R458; log entry 125) -/

/-- The register takes a raw bit: it shifts towards bit 255, and its bit 0 takes the feedback of
x^256 + x^10 + x^5 + x^2 + 1 with the raw bit. -/
def lfsrStep (r : BitVec 256) (b : Bool) : BitVec 256 :=
  let f := (r.getLsbD 255 ^^ r.getLsbD 9) ^^ (r.getLsbD 4 ^^ r.getLsbD 1)
  (r <<< 1) ||| (if f ^^ b then 1 else 0)

/-- Eight raw bits, then bit 255 is one output bit. -/
def lfsrBits (r : BitVec 256) : List Bool → Nat → List Bool → BitVec 256 × List Bool
  | [], _, out => (r, out)
  | b :: bs, n, out =>
    let r := lfsrStep r b
    lfsrBits r bs (n + 1) (if (n + 1) % 8 = 0 then out ++ [r.getLsbD 255] else out)

/-- The bytes of bits, the first bit lowest. -/
def bitBytes (l : List Bool) : List Byte :=
  (List.range (l.length / 8)).map fun k =>
    BitVec.ofNat 8 (((List.range 8).map fun j => 2 ^ j * b2n (l.getD (8 * k + j) false)).sum)

/-- A passing block gives the register's next state and a seed of 512 bits, as 64 bytes. -/
def condition (r : BitVec 256) (l : List Bool) : BitVec 256 × List Byte :=
  let (r, out) := lfsrBits r l 0 []
  (r, bitBytes out)

/-! ## The expander (R460): CTR_DRBG of NIST SP 800-90A Rev. 1 with AES-256 and the derivation function -/

def aesBlock (k b : List Byte) : List Byte := genBytes 16 (Config.aesByte k b)

/-- Blocks of 16 bytes. -/
def blocks16 (l : List Byte) : List (List Byte) := (List.range (l.length / 16)).map fun k => slice l (16 * k) 16

def xorBytes (a b : List Byte) : List Byte := List.zipWith (· ^^^ ·) a b

/-- BCC. -/
def drbgBcc (k data : List Byte) : List Byte :=
  (blocks16 data).foldl (fun c b => aesBlock k (xorBytes c b)) (zeros 16)

/-- Block_Cipher_df to 48 bytes. -/
def drbgDf (input : List Byte) : List Byte :=
  let s := beBytes 4 input.length ++ beBytes 4 48 ++ input ++ [0x80]
  let s := slice s 0 ((s.length + 15) / 16 * 16)
  let k0 := genBytes 32 (BitVec.ofNat 8)
  let t := ((List.range 3).map fun i => drbgBcc k0 (beBytes 4 i ++ zeros 12 ++ s)).flatten
  let k := t.take 32
  let x1 := aesBlock k (t.drop 32)
  let x2 := aesBlock k x1
  x1 ++ x2 ++ aesBlock k x2

/-- The expander's state: key and V. -/
structure Drbg where
  key : List Byte
  v : List Byte

/-- V after `n` more blocks. -/
def drbgV (v : List Byte) (n : Nat) : List Byte := beBytes 16 ((beNat v + n) % 2 ^ 128)

/-- `n` output blocks. -/
def drbgBlocks (d : Drbg) (n : Nat) : List Byte := ((List.range n).map fun k => aesBlock d.key (drbgV d.v (k + 1))).flatten

/-- CTR_DRBG_Update. -/
def drbgUpdate (d : Drbg) (data : List Byte) : Drbg :=
  let t := xorBytes (drbgBlocks d 3) data
  ⟨t.take 32, t.drop 32⟩

/-- Instantiation: bits [383:0] of the seed are the entropy input and bits [511:384] the nonce; the personalisation string is
the serial number and ID_REV. -/
def drbgInstantiate (seed serial idRev : List Byte) : Drbg :=
  drbgUpdate ⟨zeros 32, zeros 16⟩ (drbgDf (slice seed 0 48 ++ slice seed 48 16 ++ slice serial 0 16 ++ idRev))

/-- Reseeding takes the whole seed. -/
def drbgReseed (d : Drbg) (seed : List Byte) : Drbg := drbgUpdate d (drbgDf seed)

/-- A generate request of `n` bytes. -/
def drbgGenerate (d : Drbg) (n : Nat) : List Byte × Drbg :=
  let m := (n + 15) / 16
  (slice (drbgBlocks d m) 0 n, drbgUpdate { d with v := drbgV d.v m } (zeros 48))

end Sys2Proof.Machine
end

