-- ==== Sys2Proof/Machine/Shingle.lean ====
section
/-! DEFINITION. Session contexts and the standing list (04). -/

namespace Sys2Proof.Machine

open Sys2Proof

/-! ## Session contexts -/

def Durable.sctx (d : Durable) (k : Nat) : ShgCtx := sget (fun _ => {}) d.shg k
def State.sctx (s : State) (k : Nat) : ShgCtx := s.dur.sctx k
def State.setSctx (s : State) (k : Nat) (c : ShgCtx) : State :=
  { s with dur := { s.dur with shg := sset (fun _ => {}) s.dur.shg k c } }

/-- The Shingle serves operations (R161 READY). -/
def shgReady (s : State) : Bool := s.indigo && s.kpr.replayDone

/-- Fields of a handle (R129). -/
def hOwner (h : Word64) : Nat := fld h.toNat 32 6
def hGen (h : Word64) : Nat := fld h.toNat 20 12
def hIndex (h : Word64) : Nat := fld h.toNat 0 20

def handleWord (owner gen index : Nat) : TWord :=
  ⟨Tag.sesh, BitVec.ofNat 64 (owner * 2 ^ 32 + gen * 2 ^ 20 + index)⟩

/-- Checks 2 and 3 of R130, for the issuing instance. -/
def handleCheck (d : Durable) (i : Nat) (h : Word64) : Word16 :=
  let c := d.sctx (hIndex h)
  if i ≠ 0 ∧ hOwner h ≠ i then St.contextForeign
  else if c.kind = 0 ∨ hGen h ≠ c.gen ∨ hOwner h ≠ c.owner then St.sessionStale
  else St.ok

/-- KFLAGS (R131). -/
def ShgCtx.kflags (c : ShgCtx) : Nat :=
  b2n c.provisional * 8 + b2n c.exhausted * 4 + b2n c.slotRef.isSome * 2 + b2n c.keyPresent

/-- The image that CLOAD delivers (R131, R132). -/
def cloadWords (c : ShgCtx) : List TWord :=
  let int := fun n => intW (BitVec.ofNat 64 n)
  [int (c.kind + c.owner * 2 ^ 8 + c.gen * 2 ^ 16 + c.kflags * 2 ^ 32), intW c.st, int c.version] ++
  List.replicate 6 (int 0) ++
  [int c.ivctr, int c.reslim, int c.limlog, ⟨Tag.time, c.created⟩, ⟨Tag.time, c.updated⟩,
   int (getLe c.cred 0 8), int (getLe c.cred 8 8)] ++
  (List.range 16).map fun k => c.area.getD k (rawW 0)

/-- Contexts held by an instance (R161 IUSED). -/
def shgHeld (s : State) (i : Nat) : Nat := (s.dur.shg.filter fun p => p.2.kind ≠ 0 ∧ p.2.owner = i).length
def shgUsed (s : State) : Nat := (s.dur.shg.filter fun p => p.2.kind ≠ 0).length

/-- A context is pinned from the admission of an update to its applied mark (R145). -/
def shgPinned (s : State) (k : Nat) : Bool :=
  (s.tdl.admitted ++ s.tdl.marked ++ s.tdl.applied).any fun c => c.effs.any fun e =>
    match e with
    | .ctxUpdate j _ _ _ _ | .ctxFree j _ => j == k
    | _ => false

/-- One access through the cache (R145): none when every way of the set is pinned. -/
def cacheAccess (s : State) (k : Nat) : Option State :=
  let set := k % 256
  let ways := sget (fun _ => []) s.shg.cache set
  let put := fun l => { s with shg := { s.shg with cache := sset (fun _ => []) s.shg.cache set l } }
  if k ∈ ways then some ((put (k :: ways.erase k)).incReg Reg.SHG_HITS)
  else if ways.length < 16 then some ((put (k :: ways)).incReg Reg.SHG_MISSES)
  else
    match (ways.reverse.find? fun j => !shgPinned s j) with
    | some v => some ((put (k :: ways.erase v)).incReg Reg.SHG_MISSES)
    | none => none

/-- What CNEW asks (R134, R297). The key is a slot reference or the bytes of a key to wrap. -/
structure NewCtx where
  kind : Nat
  owner : Nat
  cred : List Byte
  limlog : Nat
  slot : Option Nat
  key : Option (List Byte)
  deriving DecidableEq, Repr

/-- The free context that has been free longest, taken (R134, R141). -/
def takeFree (d : Durable) : Option (Nat × Durable) :=
  if d.shgFresh < 2 ^ 20 then some (d.shgFresh, { d with shgFresh := d.shgFresh + 1 })
  else match d.shgFreed with
    | k :: ks => some (k, { d with shgFreed := ks })
    | [] => none

/-- The 40 bytes that KEY wraps (R136): the key, the index, the generation, the owner, LIMLOG. -/
def sessionPlain (key : List Byte) (k g owner limlog : Nat) : List Byte :=
  slice key 0 32 ++ leBytes 4 k ++ leBytes 2 g ++ [BitVec.ofNat 8 owner, BitVec.ofNat 8 limlog]

/-- A session key wrapped under a wrap key (R136). -/
def wrapSession (kek plain : List Byte) : Wrapped := { plain := plain, blob := wrapKey kek plain }

/-- CNEW's effect (R134, R135, R136, R138): the handle, or none where the table is full. KEY_PRESENT is also set with a
slot reference (log entry 112); STATE, UPDATED and the AREA words are zero until the first update, the words tagged RAW (log
entry 113). -/
def cnewTake (s : State) (q : NewCtx) : Option (TWord × State) :=
  match takeFree s.dur with
  | none => none
  | some (k, d) =>
    let g := (d.sctx k).gen
    let c : ShgCtx := {
      kind := q.kind, owner := q.owner, gen := g, provisional := true
      keyPresent := q.slot.isSome || q.key.isSome
      slotRef := q.slot
      wrapped := q.key.map fun b => wrapSession (shgWrapKey s d.wrapgen) (sessionPlain b k g q.owner q.limlog)
      reslim := if q.key.isSome then min 4096 (2 ^ q.limlog) else 0
      limlog := q.limlog, created := s.kpr.devtime, cred := q.cred
      area := List.replicate 16 (rawW 0) }
    some (handleWord q.owner g k, ({ s with dur := d }).setSctx k c)

/-- A wrapped key unwraps where KEY is what the present wrap key makes of it, and where it is bound to its context (R136,
R137). -/
def unwrap (s : State) (k : Nat) (c : ShgCtx) : Option (List Byte) :=
  match c.wrapped with
  | some w =>
    if w.blob = wrapKey (shgWrapKey s s.dur.wrapgen) w.plain ∧ getLe w.plain 32 4 = k ∧ getLe w.plain 36 2 = c.gen ∧
        getLe w.plain 38 1 = c.owner then some (w.plain.take 32) else none
  | none => none

/-- SHINGLE_REBUILD_COMPLETE (R147). -/
def execShingleRebuildComplete (s : State) : Host.Outcome State Fault Refusal :=
  done s (if s.kpr.replayDone then { s with shg := { s.shg with rebuilt := true } } else s)

/-! ## The standing list -/

/-- Hash bits that name a bucket (R150). -/
def stlB1 (salt cred : List Byte) : Nat := getLe (genBytes 4 (Config.hashByte 1 (salt ++ cred))) 0 4 % 2 ^ 17

def stlB2 (salt cred : List Byte) : Nat :=
  let b := getLe (genBytes 8 (Config.hashByte 1 (salt ++ cred))) 4 4 % 2 ^ 17
  if b = stlB1 salt cred then Nat.xor b 1 else b

/-- The places of a credential: the ways of its two buckets. -/
def stlPlaces (salt cred : List Byte) : List Nat :=
  (List.range 4).map (4 * stlB1 salt cred + ·) ++ (List.range 4).map (4 * stlB2 salt cred + ·)

def credOf (e : List Byte) : List Byte := e.take 16

/-- The place and entry of a credential in a generation (R150). -/
def StlGen.find (g : StlGen) (cred : List Byte) : Option (Nat × List Byte) :=
  g.entries.find? fun p => decide (p.1 ∈ stlPlaces g.salt cred) && credOf p.2 == cred

def StlGen.free (g : StlGen) (p : Nat) : Bool := !(g.entries.any fun q => q.1 == p)

/-- Relocation (R154): `e` is put into bucket `b`; where that is full, an occupant goes to its other bucket. Which one
is open, and drawn by `Config.pick`. `fuel` moves remain. -/
def stlPlace : Nat → Nat → StlGen → Nat → List Byte → Nat → Option (StlGen × Nat)
  | fuel, n, g, b, e, moves =>
    match (List.range 4).find? fun w => g.free (4 * b + w) with
    | some w => some ({ g with entries := sput (4 * b + w) e g.entries }, moves)
    | none =>
      match fuel with
      | 0 => none
      | fuel + 1 =>
        let p := 4 * b + Config.pick n % 4
        let v := sget (fun _ => []) g.entries p
        let b1 := stlB1 g.salt (credOf v)
        let other := if b1 = b then stlB2 g.salt (credOf v) else b1
        stlPlace fuel (n + 1) { g with entries := sput p e g.entries } other v (moves + 1)
  termination_by structural fuel => fuel

/-- An insert (R154): the generation and the moves made, or none for BUCKET_FULL; `n` numbers the free choices. -/
def StlGen.insert (g : StlGen) (e : List Byte) (n : Nat) : Option (StlGen × Nat) :=
  match g.find (credOf e) with
  | some (p, _) => some ({ g with entries := sput p e g.entries }, 0)
  | none =>
    let b1 := stlB1 g.salt (credOf e)
    let b2 := stlB2 g.salt (credOf e)
    if (List.range 4).any fun w => g.free (4 * b1 + w) then stlPlace 64 n g b1 e 0
    else if (List.range 4).any fun w => g.free (4 * b2 + w) then stlPlace 64 n g b2 e 0
    else stlPlace 64 (n + 1) g (if Config.pick n % 2 = 0 then b1 else b2) e 0

def State.stlGen (s : State) (k : Nat) : StlGen := if k = 0 then s.stl.g0 else s.stl.g1
def State.setStlGen (s : State) (k : Nat) (g : StlGen) : State :=
  { s with stl := if k = 0 then { s.stl with g0 := g } else { s.stl with g1 := g } }
def State.stlLoaded (s : State) (k : Nat) : Bool := if k = 0 then s.stl.loaded0 else s.stl.loaded1
def Durable.stlHome (d : Durable) (k : Nat) : StlGen := if k = 0 then d.stl0 else d.stl1
def Durable.setStlHome (d : Durable) (k : Nat) (g : StlGen) : Durable :=
  if k = 0 then { d with stl0 := g } else { d with stl1 := g }

/-- LOOK on the active generation (R151, R152): the entry as four words and the generation; LIST_MISS where absent.
Counted in LOOKUPS and MISSES. -/
def lookNow (s : State) (cred : List Byte) : Option (List TWord) × State :=
  let s := s.incReg Reg.STL_LOOKUPS
  match (s.stlGen s.dur.stlActive).find cred with
  | some (_, e) => (some (packWords Tag.raw e), s)
  | none => (none, s.incReg Reg.STL_MISSES)

/-- A switch intent is admitted and its applied mark pending (R157, R162 SWITCHING). -/
def stlSwitching (s : State) : Bool :=
  (s.tdl.admitted ++ s.tdl.marked ++ s.tdl.applied).any fun c =>
    c.effs.any fun e => match e with | .stlSwitch _ => true | _ => false

/-- The bytes of ENTRY0-ENTRY7. -/
def stlEntryBytes (s : State) : List Byte :=
  ((List.range 8).map fun k => leBytes 4 (s.reg (Reg.STL_ENTRY0 + 4 * k)).toNat).flatten

/-- A write of STL.CMD (R154, R162): ignored while BUSY, refused while Ochre or Ash is in use (R42). It restarts the inactivity timer, which is the sender's clock
(R49). -/
def stlCmd (s : State) (op : Nat) : State :=
  if s.stl.busy.isSome ∨ op = 0 ∨ 5 < op then s
  else if ¬ s.indigo then { s with stl := { s.stl with stat := St.modeRefused } }
  else { s with stl := { s.stl with busy := some ⟨op, stlEntryBytes s, stlSwitching s⟩ } }

/-- The entry with its reserved bits zero (R149). -/
def stlEntry (e : List Byte) : List Byte :=
  e.take 16 ++ [1] ++ e.drop 17

/-- An edit of the inactive generation is complete (R154-R157, R162): its status, clearing BUSY. It waits for its
generation to be loaded, and for the lookups of a switch. A DELETE of a credential that is not there ends LIST_MISS (log
entry 114); an edit that changes nothing keeps the seal (log entry 115); MOVES is set by every insert that is tried, to 64 by
one that ends BUCKET_FULL (log entry 116). -/
def stlEditDone (s : State) : State :=
  match s.stl.busy with
  | none => s
  | some b =>
    let k := 1 - s.dur.stlActive
    let fin := fun (s : State) (st : Word16) (m : Nat) =>
      { s with stl := { s.stl with busy := none, stat := st, moves := m } }
    if ¬ s.indigo then fin s St.modeRefused s.stl.moves
    else if b.refused ∨ stlSwitching s then fin s St.genBusy s.stl.moves
    else if ¬ s.stlLoaded k ∨ s.stl.releasing then s
    else
      let g := s.stlGen k
      let unsealed := fun (s : State) =>
        { s with dur := s.dur.setStlHome k { s.dur.stlHome k with sealed := false } }
      let cred := b.entry.take 16
      match b.op with
      | 1 =>
        let n := s.freeCtr
        let s := { s with freeCtr := n + 66 }
        match g.insert (stlEntry b.entry) n with
        | some (g, m) => fin (unsealed (s.setStlGen k g)) St.ok m
        | none => fin s St.bucketFull 64
      | 2 =>
        match g.find cred with
        | some (p, _) => fin (unsealed (s.setStlGen k { g with entries := sdel p g.entries })) St.ok s.stl.moves
        | none => fin s St.listMiss s.stl.moves
      | 3 => fin (unsealed (s.setStlGen k { g with entries := [] })) St.ok s.stl.moves
      | 4 =>
        if g.entries = [] then fin (unsealed (s.setStlGen k { g with salt := cred })) St.ok s.stl.moves
        else fin { s with freeCtr := s.freeCtr + 1 } ((Config.freeWord s.freeCtr).setWidth 16) s.stl.moves
      | _ => fin { s with dur := s.dur.setStlHome k { g with sealed := true } } St.ok s.stl.moves

/-- After start-up the engine loads the active generation and then the inactive one (R158). -/
def stlLoad (s : State) (k : Nat) : State :=
  let act := s.dur.stlActive
  if ¬ s.kpr.replayDone ∨ s.stlLoaded k ∨ (k ≠ act ∧ ¬ s.stlLoaded act) then s
  else
    let h := s.dur.stlHome k
    let g := if k ≠ act ∧ ¬ h.sealed then { h with entries := [] } else h
    let s := s.setStlGen k g
    { s with stl := if k = 0 then { s.stl with loaded0 := true } else { s.stl with loaded1 := true } }

def execStlGenerationLoaded (g : Fin 2) (s : State) : Host.Outcome State Fault Refusal := done s (stlLoad s g.val)

/-- The keeper's write of STL.CMD with each operation. -/
def execStlInsert (s : State) : Host.Outcome State Fault Refusal := done s (s.byKeeper fun s => stlCmd s 1)
def execStlDelete (s : State) : Host.Outcome State Fault Refusal := done s (s.byKeeper fun s => stlCmd s 2)
def execStlClear (s : State) : Host.Outcome State Fault Refusal := done s (s.byKeeper fun s => stlCmd s 3)
def execStlSetSalt (s : State) : Host.Outcome State Fault Refusal := done s (s.byKeeper fun s => stlCmd s 4)
def execStlPersist (s : State) : Host.Outcome State Fault Refusal := done s (s.byKeeper fun s => stlCmd s 5)
def execStlEditComplete (s : State) : Host.Outcome State Fault Refusal := done s (stlEditDone s)

/-- Lookups that started on the generation made inactive have completed (R157). -/
def execStlGenerationRelease (s : State) : Host.Outcome State Fault Refusal :=
  done s (if stlSwitching s then s else { s with stl := { s.stl with releasing := false } })

end Sys2Proof.Machine
end

