-- ==== Sys2Proof/Machine/Keys.lean ====
section
/-! DEFINITION. Roots, the random source, key slots and attestation (12). -/

namespace Sys2Proof.Machine

open Sys2Proof

/-! ## The random source -/

inductive Draw where
  | ok (b : List Byte)
  | wait
  | fatal
  deriving DecidableEq, Repr

/-- A seed is in the buffer. -/
def Rng.seedReady (r : Rng) : Bool := r.seed.isSome

/-- A reseed takes the seed in the buffer (R460, R461). -/
def reseed (s : State) : State :=
  let s := (s.incReg Reg.RNG_RESEEDS).statInc 0x64
  let d := drbgReseed ⟨s.rng.key, s.rng.v⟩ (s.rng.seed.getD [])
  { s with rng := { s.rng with q := 0, seed := none, waiting := false, key := d.key, v := d.v } }

/-- One generate request of `n` bytes (R41, R460-R462). -/
def rngDraw (s : State) (n : Nat) : Draw × State :=
  if s.rng.fatal then (.fatal, s)
  else if ¬ s.kpr.seedDone then (.wait, s)
  else
    let s := if 2 ^ 16 ≤ s.rng.q ∧ s.rng.seedReady then reseed s else s
    if 2 ^ 24 ≤ s.rng.q then
      (.wait, if s.rng.waiting then s else { s with rng := { s.rng with waiting := true } })
    else
      let s := if 2 ^ 16 ≤ s.rng.q then s.statInc 0x68 else s
      let s := s.incReg Reg.RNG_REQS
      let (b, d) := drbgGenerate ⟨s.rng.key, s.rng.v⟩ n
      (.ok b, { s with rng := { s.rng with q := s.rng.q + 1, key := d.key, v := d.v } })

/-- A draw of the device's own where the seed is known to be there. -/
def rngBytes (s : State) (n : Nat) : List Byte × State :=
  match rngDraw s n with
  | (.ok b, s) => (b, s)
  | (_, s) => s.rand n

/-- What a tested block does to the source (R459, R462, R464), up to the first seed: none but its counts while the
noise restarts or after a fatal failure. A failed block takes the conditioner's state with it (R458), the fatal failure
the seed and the expander's state. `true`: this block's failure is the fatal one. -/
def rngBlock (s : State) (rep prop : Bool) : Bool × State :=
  let s := (s.incReg Reg.RNG_BLOCKS).statInc 0x58
  if rep || prop then
    let s := s.incReg Reg.RNG_FAILS
    let s := if rep then s.statInc 0x5C else s
    let s := if prop then s.statInc 0x60 else s
    let n := min 4 (s.rng.epfail + 1)
    let m := if s.kpr.seedDone then s.rng.startFails else s.rng.startFails + 1
    let f := if s.kpr.seedDone then decide (4 ≤ n) else decide (4 ≤ m)
    let r := { s.rng with
      epfail := n, startFails := m, passes := 0, restarting := !f, fatal := f, cond := 0
      lastfail := b2n rep + 2 * b2n prop }
    (f, { s with rng := if f then { r with seed := none, key := [], v := [] } else r })
  else
    (false, { s with rng := { s.rng with lastfail := 0 } })

/-- A passing block's seed goes into the buffer (R457, R458). -/
def putSeed (s : State) (l : List Bool) : State :=
  let (r, seed) := condition s.rng.cond l
  { s with rng := { s.rng with cond := r, seed := some seed } }

/-- The first seed instantiates the expander (R460, R464). -/
def instantiate (s : State) : State :=
  let d := drbgInstantiate (s.rng.seed.getD []) s.otp.serial (leBytes 4 (s.reg Reg.KPR_ID_REV).toNat)
  { s with rng := { s.rng with seed := none, key := d.key, v := d.v } }

def execNoiseRestartDone (s : State) : Host.Outcome State Fault Refusal :=
  done s { s with rng := { s.rng with restarting := false } }

/-! ## Key slots -/

def Durable.slot (d : Durable) (n : Nat) : Slot := sget (fun _ => {}) d.slots n
def State.slot (s : State) (n : Nat) : Slot := s.dur.slot n
def State.setSlot (s : State) (n : Nat) (x : Slot) : State :=
  { s with dur := { s.dur with slots := sset (fun _ => {}) s.dur.slots n x } }

/-- ATTR (R440). -/
def Slot.attr (x : Slot) : Nat :=
  x.kind * 2 ^ 56 + x.root * 2 ^ 54 + x.owner * 2 ^ 48 + x.limlog * 2 ^ 42 + b2n x.exhausted * 2 ^ 41 + x.reslim

/-- The key with which a slot of an AEAD kind runs: AES-128 takes bytes 0-15 of the value (R408). -/
def Slot.aeadKey (x : Slot) : List Byte := if x.kind = 1 then slice x.v 0 16 else x.v

/-- The 64-byte record of a slot in the durable home: ATTR, V wrapped under the storage key of the slot's root, and its
check (R437, R439). The model keeps what a load makes of it. -/
def slotRecord (s : State) (n : Nat) : List Byte :=
  let x := s.slot n
  let r := (s.root x.root).bits
  let attr := leBytes 8 x.attr
  if x.kind = 0 then zeros 64
  else attr ++ wrapKey (kdf Lbl.store r [] 32) x.v ++
    (hmac384 (kdf Lbl.slotCheck r [] 48) (leBytes 2 n ++ attr ++ x.v)).take 8 ++ zeros 8

/-- A slot in use waits for the load (R442, R53). -/
def slotsReady (s : State) : Bool := s.kpr.replayDone && s.key.loaded

/-- Fields of a KEYH (R286). -/
def kOwner (h : Word64) : Nat := fld h.toNat 32 6
def kSlot (h : Word64) : Nat := fld h.toNat 0 12

/-- The checks of a slot that an operation of instance `i` names, in the order of R407: owner and range, integrity,
empty, kind and root. `h` gives the owner of the handle. -/
def slotCheck (s : State) (i howner n : Nat) (kind : Nat → Bool) : Word16 :=
  let x := s.slot n
  if i ≠ 0 ∧ (howner ≠ i ∨ ¬ keySlotIn s i n ∨ (x.kind ≠ 0 ∧ x.owner ≠ i)) then St.keyMode
  else if n ∈ s.key.bad then St.slotBad
  else if x.kind = 0 then St.keyAbsent
  else if ¬ kind x.kind ∨ x.root ≠ rootOf s.mode then St.keyMode
  else St.ok

/-- A key-bus transfer that fails its CRC (R448). -/
def busFailure (s : State) : State := rateEvent (s.incReg Reg.KEY_BUSERR) 20 none

/-- The slots of the root in use are loaded and checked (R442). A slot found bad counts once, until it loads well. After
the load, the slots whose working copy failed its ECC are loaded again: `bad` are those that fail now. -/
def slotLoad (s : State) (bad busErr : List Nat) : State :=
  let r := rootOf s.mode
  if ¬ s.kpr.replayDone ∨ r = 4 then s
  else
    let inUse := fun n => decide ((s.slot n).kind ≠ 0 ∧ (s.slot n).root = r)
    let found := ((List.range 4096).filter fun n => decide (n ∈ bad) && inUse n && !decide (n ∈ s.key.bad))
    let s := { s with key := { s.key with 
      loaded := true, bad := (s.key.bad.filter fun n => s.key.loaded || !(inUse n) || decide (n ∈ bad)) ++ found } }
    let s := found.foldl (fun s _ => rateEvent (s.incReg Reg.KEY_BAD) 20 none) s
    ((List.range 4096).filter fun n => decide (n ∈ busErr) && inUse n).foldl (fun s _ => busFailure s) s

/-- A slot as `KEY.NATTR` asks for it (R440, R469). -/
def nattrSlot (s : State) : Slot :=
  let w := (s.reg Reg.KEY_NATTR).toNat
  { kind := fld w 24 8, root := fld w 22 2, owner := fld w 16 6, limlog := fld w 10 6 }

/-- A new AEAD slot's reservation (R445). -/
def Slot.fresh (x : Slot) (v : List Byte) : Slot :=
  { x with v := v, reslim := if x.kind = 1 ∨ x.kind = 2 then min 4096 (2 ^ x.limlog) else 0 }

def aeadKind (k : Nat) : Bool := k == 0x01 || k == 0x02

/-- Check 2 of R444 on the attributes. `kinds` are those the command writes. -/
def attrOk (s : State) (n : Nat) (x : Slot) (kinds : Nat → Bool) : Bool :=
  kinds x.kind && x.root == rootOf s.mode && keySlotIn s x.owner n &&
    (if aeadKind x.kind then decide (10 ≤ x.limlog ∧ x.limlog ≤ 32) else x.limlog == 0)

def cmdKinds (k : Nat) : Bool :=
  aeadKind k || (0x11 ≤ k && k ≤ 0x18) || (0x21 ≤ k && k ≤ 0x24) || k == 0x30 || k == 0x50

def keyFail (s : State) (st : Word16) : State :=
  { s with key := { s.key with cmd := none, held := false, stat := st } }

/-- The device commit of a key command (R445). -/
def keyCommit (s : State) (n : Nat) (x : Slot) : State :=
  { s with key := { s.key with held := false } }.devCommit [.effects [.slot n x]] (.keyCmd n (x.kind != 0))

/-- The bytes at KEY.ARG, read by the key store (R443): they must lie in the keeper data area. -/
def keyArg (s : State) (n : Nat) : Except (Word16 × State) (List Byte × State) :=
  match engRead s (s.reg64 Reg.KEY_ARG_LO) n 0x28 none false with
  | (.ok p, s) => .ok (p.bytes, s)
  | (.error _, s) => .error (St.carryFault, s)

/-- A ticket of the keeper that holds an AGREE secret (R444 check 4). -/
def agreeSecret (s : State) (i idx serial : Nat) : Option (List Byte) :=
  let k := s.tk i idx
  match k.op with
  | .x 0x2A _ _ _ _ => if k.used ∧ k.serial.toNat = serial ∧ k.done ∧ k.status = St.ok then k.secret else none
  | _ => none

def dropSecret (s : State) (i idx : Nat) : State := s.setTk i idx { s.tk i idx with secret := none }

/-- A key command's checks and its commit (R443-R445). `key.cmd` holds the operation; it waits for the load and for the
expander. -/
def keyTry (s : State) : State :=
  match s.key.cmd with
  | none => s
  | some op =>
    let n := s.regFld Reg.KEY_SSEL 0 12
    let x := nattrSlot s
    let arg := s.reg64 Reg.KEY_ARG_LO
    let arg2 := (s.reg Reg.KEY_ARG2).toNat
    let need := if op = 4 then 40 else 16
    if s.mode ≠ Mode.workshop ∧ s.mode ≠ Mode.service then keyFail s St.modeRefused
    else if ¬ slotsReady s then { s with key := { s.key with held := true } }
    else if op = 5 then keyCommit s n {}
    else if ¬ attrOk s n x cmdKinds ∨ (op ≠ 1 ∧ ¬ inKeeperData arg need) then keyFail s St.argInvalid
    else if (s.slot n).kind ≠ 0 then keyFail s St.slotOccupied
    else if op = 1 then
      match rngDraw s 32 with
      | (.ok b, s) => keyCommit s n (x.fresh b)
      | (.wait, s) => { s with key := { s.key with held := true } }
      | (.fatal, s) => keyFail s St.rngFatal
    else if op = 3 ∧ (agreeSecret s 0 (fld arg2 24 8) (fld arg2 0 24)).isNone then keyFail s St.argInvalid
    else
      let kek := fld arg2 0 12
      let kst := if op = 4 then slotCheck s 0 0 kek (· == 0x50) else St.ok
      if kst ≠ St.ok then keyFail s kst
      else
        match keyArg s need with
        | .error (st, s) => keyFail s st
        | .ok (b, s) =>
          if op = 2 then
            keyCommit s n (x.fresh (kdf Lbl.slot (s.root x.root).bits (leBytes 2 n ++ b) 32))
          else if op = 3 then
            match agreeSecret s 0 (fld arg2 24 8) (fld arg2 0 24) with
            | some z => keyCommit (dropSecret s 0 (fld arg2 24 8)) n (x.fresh (kdf Lbl.agree z b 32))
            | none => keyFail s St.argInvalid
          else
            match unwrapKey (kdf Lbl.importKey (s.slot kek).v [] 32) b 32 with
            | some v => keyCommit s n (x.fresh v)
            | none => keyFail s St.authFail

/-- A write of KEY.CMD (R443, R469). -/
def keyCmd (s : State) (op : Nat) : State :=
  if s.key.cmd.isSome ∨ op = 0 ∨ 5 < op then s
  else keyTry { s with key := { s.key with cmd := some op } }

def execGenerate (s : State) : Host.Outcome State Fault Refusal := done s (s.byKeeper fun s => keyCmd s 1)
def execDerive (s : State) : Host.Outcome State Fault Refusal := done s (s.byKeeper fun s => keyCmd s 2)
def execImportAgree (s : State) : Host.Outcome State Fault Refusal := done s (s.byKeeper fun s => keyCmd s 3)
def execImportWrap (s : State) : Host.Outcome State Fault Refusal := done s (s.byKeeper fun s => keyCmd s 4)
def execZeroise (s : State) : Host.Outcome State Fault Refusal := done s (s.byKeeper fun s => keyCmd s 5)

/-! ## EXPORT and LOAD of public keys (R420, R421) -/

def pubFail (s : State) (st : Word16) : State := { s with pke := { s.pke with busy := none, stat := st } }

/-- `pke.busy` is 1 for an EXPORT and 2 for a LOAD that waits for the slots, 3 for a LOAD whose commit is issued. -/
def pubTry (s : State) : State :=
  match s.pke.busy with
  | none => s
  | some op =>
    let n := s.regFld Reg.PKE_PUB_SLOT 0 12
    let a := s.reg64 Reg.PKE_PUB_ADDR_LO
    let len := s.regFld Reg.PKE_PUB_LEN 0 16
    let x := s.slot n
    if op = 3 then s
    else if s.mode ≠ Mode.workshop ∧ s.mode ≠ Mode.service then pubFail s St.modeRefused
    else if ¬ slotsReady s then s
    else if op = 1 then
      let st := slotCheck s 0 0 n fun k => !(aeadKind k || k == 0x50)
      let out := if 0x41 ≤ x.kind then x.pubRec else pubKey x.kind x.v
      if st ≠ St.ok then pubFail s st
      else if len < out.length ∨ ¬ inKeeperData a out.length then pubFail s St.argInvalid
      else
        match engWrite s a (rawPayload out) none with
        | (true, s) => pubFail (s.setReg Reg.PKE_PUB_LEN (BitVec.ofNat 32 out.length)) St.ok
        | (false, s) => pubFail s St.carryFault
    else
      let y := nattrSlot s
      if ¬ attrOk s n y (fun k => 0x41 ≤ k && k ≤ 0x49) ∨ len ≠ pubLen y.kind ∨ ¬ inKeeperData a len then
        pubFail s St.argInvalid
      else if x.kind ≠ 0 then pubFail s St.slotOccupied
      else
        match engRead s a len 0x27 none false with
        | (.ok p, s) =>
          { s with pke := { s.pke with busy := some 3 } }.devCommit [.effects [.slot n { y with v := genBytes 32 (Config.hashByte 1 p.bytes), pubRec := p.bytes }]]
            (.pubLoad n)
        | (.error _, s) => pubFail s St.carryFault

def pubCmd (s : State) (op : Nat) : State :=
  if s.pke.busy.isSome ∨ (op ≠ 1 ∧ op ≠ 2) then s
  else pubTry { s with pke := { s.pke with busy := some op } }

def execExportKey (s : State) : Host.Outcome State Fault Refusal := done s (s.byKeeper fun s => pubCmd s 1)
def execLoadKeyRecord (s : State) : Host.Outcome State Fault Refusal := done s (s.byKeeper fun s => pubCmd s 2)

/-! ## Signing with the device's own pairs (R423, R437) -/

/-- KEYID (R88): the first 16 bytes of a hash over the public key. -/
def keyId (pub : List Byte) : List Byte := genBytes 16 (Config.hashByte 2 pub)

/-- A hybrid signature by a value: the draw it takes, and the signature. -/
def hybridSign (s : State) (v msg : List Byte) : Draw × State :=
  match rngDraw s 64 with
  | (.ok r, s) => (.ok (signature 8 v msg r), s)
  | r => r

/-! ## Attestation statements (R450-R453) -/

/-- Instances with INSTALLED set, 1-63 (R452). -/
def measured (s : State) : List Nat := ((List.range 64).filter fun i => decide (i ≠ 0) && (s.inst i).installed)

/-- The statement up to its signing-pair fields (R451). -/
def statementBody (s : State) (nonce : List Byte) (sign terminal : Bool) : List Byte :=
  let is := if terminal ∧ ¬ sign then [] else measured s
  leBytes 4 0x41545354 ++ [0x01, s.mode.setWidth 8,
    BitVec.ofNat 8 (if s.terminated then s.kpr.terminalCause else 0),
    BitVec.ofNat 8 (b2n sign + 2 * b2n (!s.kpr.timeSet))] ++
  slice s.otp.serial 0 16 ++ leBytes 4 (s.reg Reg.KPR_ID_REV).toNat ++
  leBytes 4 (s.dur.sticky ||| s.tmp.sticky).toNat ++
  leBytes 2 s.otp.lcWorkshop ++ leBytes 2 s.otp.lcRecovery ++ leBytes 2 s.otp.lcFatal ++ [0, 0] ++
  leBytes 8 s.dur.migctr ++ leBytes 8 s.kpr.devtime.toNat ++ slice nonce 0 32 ++
  slice s.kpr.mrom 0 48 ++ slice s.kpr.mkeeper 0 48 ++
  leBytes 8 ((is.map (2 ^ ·)).sum) ++ leBytes 4 is.length ++ zeros 4 ++
  (is.map fun i =>
    [BitVec.ofNat 8 i, BitVec.ofNat 8 (s.inst i).state] ++ zeros 6 ++
      slice (s.inst i).measImage 0 48 ++ slice (s.inst i).measDesc 0 48).flatten

/-- A signed statement under the root in use, or none with the draw's failure. -/
def signedStatement (s : State) (nonce : List Byte) : Draw × State :=
  let v := pairValue s Lbl.attest (rootOf s.mode)
  let m := statementBody s nonce true false ++ keyId (pubKey 0x18 v) ++ leBytes 4 1 ++ zeros 4
  match hybridSign s v m with
  | (.ok g, s) => (.ok (m ++ g), s)
  | r => r

/-- An unsigned statement (R453). -/
def unsignedStatement (s : State) (nonce : List Byte) : List Byte :=
  statementBody s nonce false true ++ zeros (16 + 4 + 4 + 3405)

def attFail (s : State) (st : Word16) : State := { s with key := { s.key with att := false, attStat := st } }

/-- The keeper's statement (R450, R469): it waits while the expander waits. -/
def attTry (s : State) : State :=
  if ¬ s.key.att then s
  else
    let a := s.reg64 Reg.KEY_ATT_ADDR_LO
    let cap := s.regFld Reg.KEY_ATT_LEN 0 16
    if s.mode ≠ Mode.workshop ∧ s.mode ≠ Mode.service then attFail s St.modeRefused
    else if cap < 0xC8 + 104 * (measured s).length + 3429 ∨ ¬ inKeeperData a cap then attFail s St.argInvalid
    else
      match engRead s a 32 0x28 none false with
      | (.error _, s) => attFail s St.carryFault
      | (.ok p, s) =>
        match signedStatement s p.bytes with
        | (.ok st, s) =>
          match engWrite s a (rawPayload st) none with
          | (true, s) => attFail (s.setReg Reg.KEY_ATT_LEN (BitVec.ofNat 32 st.length)) St.ok
          | (false, s) => attFail s St.carryFault
        | (.wait, s) => s
        | (.fatal, s) => attFail s St.rngFatal

/-- A write of KEY.ATT_CMD with GO (R450). -/
def attCmd (s : State) : State := if s.key.att then s else attTry { s with key := { s.key with att := true } }

def execAttestationStatement (s : State) : Host.Outcome State Fault Refusal := done s (s.byKeeper fun s => attCmd s)

/-- Keeper commands that waited for the load or for the expander go on. -/
def keyResume (s : State) : State :=
  let s := if s.key.held then keyTry s else s
  attTry (pubTry s)

/-- KEY_SLOT_LOAD (R442). -/
def execKeySlotLoad (bad busErr : List Nat) (s : State) : Host.Outcome State Fault Refusal :=
  done s (keyResume (slotLoad s bad busErr))

end Sys2Proof.Machine
end

