-- ==== Sys2Proof/Machine/Crypto.lean ====
section
/-! DEFINITION. The cipher, public-key and hash engines (11), as they serve a ticket: what grants a lane, what takes a
counter value, and what each operation completes with. -/

namespace Sys2Proof.Machine

open Sys2Proof

/-! ## Operations in flight -/

def Op.code : Op → Nat
  | .x c _ _ _ _ => c
  | .none => 0xFFFF
def Op.sel : Op → Nat
  | .x _ v _ _ _ => v
  | .none => 0
def Op.args : Op → List TWord
  | .x _ _ a _ _ => a
  | .none => []
def Op.stage : Op → Nat
  | .x _ _ _ _ g => g
  | .none => 0
/-- Argument `k`, from 1, as a word and as a number. -/
def Op.word (o : Op) (k : Nat) : TWord := o.args.getD (k - 1) (intW 0)
def Op.num (o : Op) (k : Nat) : Nat := (o.word k).data.toNat

/-- The source buffers of an operation: address and length (R291-R302). -/
def opSources (code sel : Nat) (args : List TWord) : List (Nat × Nat) :=
  let w := fun k => args.getD (k - 1) (intW 0)
  let n := fun k => (w k).data.toNat
  let ptr := fun (k len : Nat) => if (w k).tag = Tag.ptr then [(n k, len)] else []
  match code with
  | 0x10 => ptr 2 (64 * n 3)
  | 0x20 | 0x21 => ptr 2 (n 3 + n 4)
  | 0x28 => ptr 2 (n 3)
  | 0x29 => ptr 1 (n 2) ++ ptr 3 (n 4) ++ ptr 5 (n 6)
  | 0x2A => ptr 2 (n 3)
  | 0x30 => ptr 1 (n 2)
  | 0x38 => ptr 1 16
  | 0x41 => ptr 4 128
  | 0x42 => ptr 3 16 ++ ptr 4 16
  | 0x48 => if sel = 1 ∨ sel = 6 then ptr 3 (n 4) else if sel = 3 then ptr 4 128 else if sel = 8 then ptr 2 (n 3) else []
  | 0x58 => if sel = 1 ∨ sel = 2 then ptr 2 (n 3) else []
  | _ => []

/-- The destination buffer of an operation. -/
def opDest (code sel : Nat) (args : List TWord) : List (Nat × Nat) :=
  let w := fun k => args.getD (k - 1) (intW 0)
  let n := fun k => (w k).data.toNat
  let ptr := fun (k len : Nat) => if (w k).tag = Tag.ptr then [(n k, len)] else []
  match code with
  | 0x11 => ptr 2 (64 * n 3)
  | 0x20 | 0x21 => ptr 5 (n 6)
  | 0x28 => ptr 4 (n 5)
  | 0x2A => if sel = 2 ∨ sel = 4 then ptr 4 (n 5) else []
  | 0x40 => ptr 2 256
  | 0x50 => ptr 1 (n 2)
  | 0x60 => if sel = 5 then ptr 4 (n 3) else []
  | _ => []

/-- The engine-input location of an operation (R122). -/
def opLoc (code : Nat) : Nat :=
  match code with
  | 0x10 | 0x11 => 0x20
  | 0x20 | 0x21 => 0x26
  | 0x28 | 0x29 | 0x2A => 0x27
  | 0x30 => 0x2A
  | 0x38 => 0x24
  | 0x40 | 0x41 | 0x42 | 0x43 => 0x23
  | 0x48 | 0x49 => 0x21
  | 0x50 => 0x29
  | 0x60 => 0x25
  | _ => 0x28

/-- The code under which an operation reports what fails at its input. The code-flash controller has none in R122: it is the
code of the memory that the source leaves, where the controller verifies it (R477; log entry 123). -/
def inputLoc (code a : Nat) : Nat := if code = 0x58 then memLoc a else opLoc code

/-- The sources as the engine takes them, or the location at which one fails: checked (R123, R225), and of undefined
content where they changed since the issue (R237). -/
def takeSources (s : State) (who : Option Nat) (o : Op) (upset : Bool) (mem : Bool := false) :
    Except Nat (List Payload) × State :=
  match o with
  | .none => (.ok [], s)
  | .x code sel args data _ =>
    let srcs := opSources code sel args
    (srcs.zip (data ++ List.replicate srcs.length ⟨0, []⟩)).foldl (fun acc q =>
      match acc with
      | (.error l, s) => (.error l, s)
      | (.ok l, s) =>
        match engRead s q.1.1 q.1.2 (inputLoc code q.1.1) who upset mem with
        | (.error l, s) => (.error l, s)
        | (.ok p, s) =>
          if p = q.2 then (.ok (l ++ [p]), s)
          else (.ok (l ++ [freePayload s.freeCtr p.len]), { s with freeCtr := s.freeCtr + 1 })) (.ok [], s)

/-- A source buffer lies in a busy array: the engine waits (R479). -/
def srcBusy (s : State) (o : Op) : Bool := (opSources o.code o.sel o.args).any fun q => rangeBusy s q.1 q.2

/-- A source that fails ends the operation with CARRY_FAULT and its location. -/
def srcFault (s : State) (i t loc : Nat) : State := s.tkDone i t St.carryFault [] 0 loc

/-- An engine output, then the completion: a failed destination unit ends it with CARRY_FAULT at 0x0B (R591). -/
def deliverTo (s : State) (i t a : Nat) (p : Payload) (destUpset : Bool) (value : Nat) (results : List TWord := []) : State :=
  match engWrite s a p (some i) destUpset with
  | (true, s) => s.tkDone i t St.ok results value
  | (false, s) => s.tkDone i t St.carryFault [] 0 0x0B

/-- A fault check of R413 or R422 fails: counted once against T16. -/
def engineFault (s : State) (reg i : Nat) : State := rateEvent (s.incReg reg) 16 (some i)

/-! ## Keys with an invocation counter (R410-R412, R138) -/

structure KeyCtr where
  ivctr : Nat
  reslim : Nat
  limlog : Nat
  exhausted : Bool
  owner : Nat
  deriving Repr

def keyCtr (d : Durable) : KeyRef → KeyCtr
  | .slot n => let x := d.slot n; ⟨x.ivctr, x.reslim, x.limlog, x.exhausted, x.owner⟩
  | .session n => let c := d.sctx n; ⟨c.ivctr, c.reslim, c.limlog, c.exhausted, c.owner⟩

def setIvctr (s : State) (k : KeyRef) (n : Nat) : State :=
  match k with
  | .slot j => s.setSlot j { s.slot j with ivctr := n }
  | .session j => s.setSctx j { s.sctx j with ivctr := n }

/-- The key a SESH or KEYH names for its counter: a context that refers to a slot uses the slot's (R135). -/
def refOfWord (d : Durable) (w : TWord) : KeyRef :=
  if w.tag = Tag.keyh then .slot (kSlot w.data)
  else
    match (d.sctx (hIndex w.data)).slotRef with
    | some n => .slot n
    | none => .session (hIndex w.data)

/-- An advance for the key is admitted without its mark, or the engine's own waits for admission (R412). -/
def advancing (s : State) (k : KeyRef) : Bool :=
  let own := fun (c : Commit) => match c.purpose with | .advance _ j => j == k | _ => false
  s.tdl.waiting.any own ||
    s.tdl.admitted.any fun c => own c || c.intents.any fun x =>
      match x with | .keyAdvance w => refOfWord s.dur w == k | _ => false

/-- The word that names a key in an advance of the engine. -/
def wordOfRef (d : Durable) : KeyRef → TWord
  | .slot n => ⟨Tag.keyh, BitVec.ofNat 64 ((d.slot n).owner * 2 ^ 32 + n)⟩
  | .session n => handleWord (d.sctx n).owner (d.sctx n).gen n

/-- The engine's own advance (R412), for the key's owner. -/
def issueAdvance (s : State) (k : KeyRef) : State :=
  (s.incReg Reg.CIP_ADVANCES).devCommit [.keyAdvance (wordOfRef s.dur k)] (.advance (keyCtr s.dur k).owner k)

/-- After a value is taken: the limit reached commits EXHAUSTED (R138); near the reservation an advance is issued. -/
def afterTake (s : State) (k : KeyRef) : State :=
  let q := keyCtr s.dur k
  if 2 ^ q.limlog ≤ q.ivctr then
    s.devCommit [.effects [match k with | .slot n => .slotExhausted n | .session n => .ctxExhausted n]]
  else if q.reslim ≤ q.ivctr + 1024 ∧ ¬ advancing s k then issueAdvance s k
  else s

/-- A lane takes a counter value, or waits for the reservation (R410, R412), or finds the key at its limit. -/
def laneTake (s : State) (n : Nat) (l : Lane) : State :=
  let q := keyCtr s.dur l.ref
  let put := fun (s : State) (l : Lane) => { s with cip := { s.cip with lanes := sput n l s.cip.lanes } }
  if q.exhausted ∨ 2 ^ q.limlog ≤ q.ivctr then
    { s with cip := { s.cip with lanes := sdel n s.cip.lanes } }.tkDone l.inst l.ticket St.keyExhausted
  else if q.ivctr < q.reslim then
    afterTake (setIvctr (put s { l with c := some q.ivctr }) l.ref (q.ivctr + 1)) l.ref
  else
    let s := put s l
    if advancing s l.ref then s else issueAdvance s l.ref

/-- Lanes that wait for the reservation of a key, resumed in lane order at the advance's mark (R412). -/
def resumeKey (s : State) (k : KeyRef) : State :=
  s.cip.lanes.foldl (fun s p =>
    let l := sget (fun _ => p.2) s.cip.lanes p.1
    if l.ref = k ∧ l.c.isNone ∧ s.cip.lanes.any (·.1 == p.1) then
      let q := keyCtr s.dur k
      if q.ivctr < q.reslim ∨ q.exhausted ∨ 2 ^ q.limlog ≤ q.ivctr then laneTake s p.1 l else s
    else s) s

/-- The advance failed: every invocation that waits on it completes with its status (R412). -/
def advanceFailed (s : State) (k : KeyRef) (st : Word16) : State :=
  s.cip.lanes.foldl (fun s p =>
    if p.2.ref = k ∧ p.2.c.isNone then
      { s with cip := { s.cip with lanes := sdel p.1 s.cip.lanes } }.tkDone p.2.inst p.2.ticket st
    else s) s

/-! ## Lanes (R405-R407) -/

/-- Check 1 of R407. -/
def cipherArgs (o : Op) : Bool :=
  (o.sel == 1 || o.sel == 2) && decide (o.num 3 ≤ 65536) && decide (o.num 4 ≤ 65536) &&
    (if o.code = 0x21 then decide (28 ≤ o.num 4) && decide (o.num 4 - 28 ≤ o.num 6) else decide (o.num 4 + 28 ≤ o.num 6))

/-- A SEAL or OPEN is issued: its arguments are checked, and it waits for a lane in issue order (R405). -/
def cipherIssue (s : State) (i t : Nat) (o : Op) : State :=
  if cipherArgs o then { s with cip := { s.cip with queue := s.cip.queue ++ [(i, t)] } }
  else s.tkDone i t St.argInvalid

def lanesHeld (s : State) (i : Nat) : Nat := (s.cip.lanes.filter fun p => p.2.inst = i).length
def laneLimit (s : State) (i : Nat) : Nat := if i = 0 then 16 else s.limF i .lanes

/-- The next requester round-robin that has a request waiting and holds fewer lanes than its limit (R405, R17). -/
def nextRequester (s : State) : Option Nat :=
  ((List.range 64).map fun k => (s.cip.ptr + k) % 64).find? fun i =>
    s.cip.queue.any (·.1 == i) && decide (lanesHeld s i < laneLimit s i)

/-- The lowest free lane that LANE_EN permits. -/
def freeLane (s : State) : Option Nat :=
  (List.range 16).find? fun n => s.regBit Reg.CIP_LANE_EN n && !(s.cip.lanes.any (·.1 == n))

/-- Checks 3 to 7 of R407 on the key named: its status, and where OK the key, its reference and whether it is AES-256;
the last tells an unwrap that fails. -/
def cipherKey (s : State) (i : Nat) (w : TWord) : Word16 × KeyRef × List Byte × Bool × Bool :=
  let slot := fun (howner n : Nat) =>
    let x := s.slot n
    let st := slotCheck s i howner n aeadKind
    let st := if st = St.ok ∧ (x.exhausted ∨ 2 ^ x.limlog ≤ x.ivctr) then St.keyExhausted else st
    (st, KeyRef.slot n, x.aeadKey, x.kind == 2, true)
  if w.tag = Tag.keyh then slot (kOwner w.data) (kSlot w.data)
  else
    let k := hIndex w.data
    let c := s.sctx k
    let st := handleCheck s.dur i w.data
    if st ≠ St.ok then (st, .session k, [], true, true)
    else if ¬ c.keyPresent then (St.keyAbsent, .session k, [], true, true)
    else
      match c.slotRef with
      | some n => slot i n
      | none =>
        if ¬ shgReady s then (St.keyMode, .session k, [], true, true)
        else if c.exhausted ∨ 2 ^ c.limlog ≤ c.ivctr then (St.keyExhausted, .session k, [], true, true)
        else
          match unwrap s k c with
          | some b => (St.ok, .session k, b, true, true)
          | none => (St.ok, .session k, [], true, false)

/-- LANE_GRANT (R405-R407): the next requester's oldest request, its checks, and its key load; `busOk` is the key bus's
CRC check. -/
def laneGrant (s : State) (busOk : Bool) : State :=
  if ¬ slotsReady s ∨ s.pwr.flush ≠ 0 then s
  else
    match nextRequester s, freeLane s with
    | some i, some n =>
      match s.cip.queue.find? (·.1 == i) with
      | none => s
      | some (_, t) =>
        let o := (s.tk i t).op
        let busy := srcBusy s o
        let s := if busy then s else
          { s with cip := { s.cip with queue := s.cip.queue.erase (i, t), ptr := (i + 1) % 64 } }
        match if busy then none else some (takeSources s (some i) o false) with
        | none => s
        | some (.error l, s) => srcFault s i t l
        | some (.ok _, s) =>
          let (st, ref, key, long, wrapOk) := cipherKey s i (o.word 1)
          if st ≠ St.ok then s.tkDone i t st
          else if ¬ busOk then (busFailure s).tkDone i t St.slotBad
          else if ¬ wrapOk then (rateEvent (s.incReg Reg.SHG_BAD) 20 none).tkDone i t St.contextBad
          else
            let l : Lane := { inst := i, ticket := t, mode := o.sel, long := long, ref := ref, key := key }
            let s := s.setTk i t { s.tk i t with op := match o with | .x c v a d _ => .x c v a d 1 | o => o }
            let q := keyCtr s.dur ref
            laneTake (if q.ivctr < q.reslim then s else s.incReg Reg.CIP_RESWAIT) n l
    | _, _ => s

def execLaneGrant (busOk : Bool) (s : State) : Host.Outcome State Fault Refusal := done s (laneGrant s busOk)

/-- An output of raw bytes whose last 16 are an authentication tag: words that hold bytes of the tag are CHK (R426). -/
def tagPayload (l : List Byte) : Payload :=
  let p := rawPayload l
  { p with words := (List.range p.words.length).map fun k =>
      let w := p.words.getD k (rawW 0)
      if l.length ≤ 8 * k + 8 + 15 then { w with tag := Tag.chk } else w }

/-- A lane's computation ends (R408-R414, R416). -/
def laneDone (s : State) (n : Nat) (l : Lane) (e : EngineEnv) : State :=
  match l.c with
  | none => s
  | some c =>
    let i := l.inst
    let t := l.ticket
    let o := (s.tk i t).op
    let s := { s with cip := { s.cip with lanes := sdel n s.cip.lanes } }
    let s := s.statInc (0x140 + 16 * n + (if o.code = 0x20 then 0 else 4))
    if l.dead then (sealSpoil s o).tkDone i t St.keyAbsent
    else
      match takeSources s (some i) o e.upset e.memUpset with
      | (.error l, s) => srcFault s i t l
      | (.ok ps, s) =>
        let b := (ps.getD 0 ⟨0, []⟩).bytes
        let aad := b.take (o.num 3)
        let pay := b.drop (o.num 3)
        let lap := decide (o.num 2 < o.num 5 + o.num 6 ∧ o.num 5 < o.num 2 + b.length)
        let send := fun (s : State) (p : Payload) =>
          if lap then
            deliverTo { s with freeCtr := s.freeCtr + 1 } i t (o.num 5) (freePayload s.freeCtr p.len) e.destUpset p.len
          else deliverTo s i t (o.num 5) p e.destUpset p.len
        if e.fault then (sealSpoil (engineFault s Reg.CIP_FAULTS i) o).tkDone i t St.cipherFault
        else if o.code = 0x20 then
          let iv := leBytes 4 s.ivPrefix.toNat ++ leBytes 8 c
          send s (tagPayload (iv ++ genBytes (pay.length + 16) (Config.aeadByte l.mode l.key iv aad pay)))
        else
          let iv := pay.take 12
          let ct := pay.drop 12
          if Config.aeadOk l.mode l.key iv aad ct then
            send s (rawPayload (genBytes (pay.length - 28) (Config.aeadOpenByte l.mode l.key iv aad ct)))
          else ((s.incReg Reg.CIP_AUTHFAIL).statInc (0x140 + 16 * n + 8)).tkDone i t St.authFail

/-! ## The arbiters of the public-key and the hash engine (R17, R417, R425) -/

/-- The arbiters from which an operation needs a unit: 0 that of the ECC unit, 1 of the lattice unit, 2 of the hash engine.
One whose SEL names no algorithm needs none. -/
def unitsNeeded (o : Op) : List Nat :=
  match o.code with
  | 0x28 | 0x29 =>
    if o.sel = 8 then [0, 1] else if 1 ≤ o.sel ∧ o.sel ≤ 5 then [0] else if 6 ≤ o.sel ∧ o.sel ≤ 9 then [1] else []
  | 0x2A => if o.sel = 1 ∨ o.sel = 2 then [0] else if o.sel = 3 ∨ o.sel = 4 then [1] else []
  | 0x30 => [2]
  | _ => []

/-- The units of an arbiter. -/
def arbUnits (a : Nat) : List Nat := if a = 2 then [2, 3, 4, 5] else [a]

/-- A request holds a unit of an arbiter. -/
def Units.holds (u : Units) (a : Nat) (k : Nat × Nat) : Bool := u.held.any fun p => p.1 ∈ arbUnits a && p.2 == k

/-- A request holds every unit it needs. -/
def granted (s : State) (i t : Nat) : Bool :=
  (unitsNeeded (s.tk i t).op).all fun a => s.units.holds a (i, t)

/-- The requests that wait for a unit of an arbiter: instance, ticket and place in the order of issue. -/
def unitWaiters (s : State) (a : Nat) : List (Nat × Nat × Nat) :=
  (s.tickets.filter fun p =>
    p.2.used && !p.2.done && a ∈ unitsNeeded p.2.op && !(s.units.holds a (p.1 / 256, p.1 % 256))).map
      fun p => (p.1 / 256, p.1 % 256, p.2.no)

def Units.ptr (u : Units) (a : Nat) : Nat := match a with | 0 => u.ecc | 1 => u.lat | _ => u.hash
def Units.setPtr (u : Units) (a n : Nat) : Units :=
  match a with | 0 => { u with ecc := n } | 1 => { u with lat := n } | _ => { u with hash := n }

/-- The oldest of some requests. -/
def oldest (l : List (Nat × Nat × Nat)) : Option (Nat × Nat × Nat) :=
  l.foldl (fun m q => match m with | some p => if q.2.2 < p.2.2 then some q else some p | none => some q) none

/-- A free unit goes to the oldest request of the instance that is next round-robin (R17). -/
def grantUnit (s : State) (u a : Nat) : State :=
  if s.units.held.any (·.1 == u) then s
  else
    let w := unitWaiters s a
    match ((List.range 64).map fun k => (s.units.ptr a + k) % 64).find? fun i => w.any (·.1 == i) with
    | none => s
    | some i =>
      match oldest (w.filter (·.1 == i)) with
      | none => s
      | some (_, t, _) =>
        { s with units := ({ s.units with held := s.units.held ++ [(u, (i, t))] }).setPtr a ((i + 1) % 64) }

/-- Units of requests that have ended are free, and every free unit is granted. -/
def arbitrate (s : State) : State :=
  let live := fun (k : Nat × Nat) => (s.tk k.1 k.2).used && !(s.tk k.1 k.2).done
  let s := { s with units := { s.units with held := s.units.held.filter fun p => live p.2 } }
  [(0, 0), (1, 1), (2, 2), (3, 2), (4, 2), (5, 2)].foldl (fun s p => grantUnit s p.1 p.2) s

/-! ## The public-key engine (R417-R424) -/

/-- SIGN completes (R422), or waits on for the expander. -/
def signDone (s : State) (i t : Nat) (o : Op) (e : EngineEnv) : State :=
  if o.sel = 0 ∨ 8 < o.sel ∨ 65536 < o.num 3 ∨ o.num 5 < sigLen o.sel then s.tkDone i t St.argInvalid
  else if ¬ slotsReady s then s
  else
    match takeSources s (some i) o e.upset e.memUpset with
    | (.error l, s) => srcFault s i t l
    | (.ok ps, s) =>
      let w := (o.word 1).data
      let st := slotCheck s i (kOwner w) (kSlot w) (· == 0x10 + o.sel)
      if st ≠ St.ok then s.tkDone i t st
      else if e.busErr then (busFailure s).tkDone i t St.slotBad
      else
        let v := (s.slot (kSlot w)).v
        let msg := (ps.getD 0 ⟨0, []⟩).bytes
        let go := fun (s : State) (r : List Byte) =>
          if e.fault then (engineFault s Reg.PKE_FAULTS i).tkDone i t St.cipherFault
          else deliverTo (s.incReg Reg.PKE_SIGNS) i t (o.num 4)
            (rawPayload (signature o.sel v msg r)) e.destUpset (sigLen o.sel)
        if o.sel = 5 then go s []
        else
          match rngDraw s (signDraw o.sel) with
          | (.ok r, s) => go s r
          | (.wait, s) => s
          | (.fatal, s) => s.tkDone i t St.rngFatal

/-- VERIFY completes (R418, R419, R421). -/
def verifyDone (s : State) (i t : Nat) (o : Op) (e : EngineEnv) : State :=
  let byKey := (o.word 1).tag == Tag.keyh
  if o.sel = 0 ∨ 9 < o.sel ∨ 65536 < o.num 4 ∨ (o.sel ≠ 9 ∧ o.num 6 ≠ sigLen o.sel) ∨ (byKey ∧ o.num 2 ≠ 0) then
    s.tkDone i t St.argInvalid
  else if byKey ∧ ¬ slotsReady s then s
  else
    match takeSources s (some i) o e.upset e.memUpset with
    | (.error l, s) => srcFault s i t l
    | (.ok ps, s) =>
      let ps := if byKey then ⟨0, []⟩ :: ps else ps
      let w := (o.word 1).data
      let x := s.slot (kSlot w)
      let st := if byKey then slotCheck s i (kOwner w) (kSlot w) (fun k => k == 0x10 + o.sel || k == 0x40 + o.sel) else St.ok
      let pub := if ¬ byKey then (ps.getD 0 ⟨0, []⟩).bytes else if 0x41 ≤ x.kind then x.pubRec else pubKey x.kind x.v
      if st ≠ St.ok then s.tkDone i t st
      else if byKey ∧ x.kind < 0x41 ∧ e.busErr then (busFailure s).tkDone i t St.slotBad
      else if byKey ∧ 0x41 ≤ x.kind ∧ genBytes 32 (Config.hashByte 1 x.pubRec) ≠ x.v then s.tkDone i t St.slotBad
      else
        let s := s.incReg Reg.PKE_VERIFIES
        if sigVerify o.sel pub (ps.getD 1 ⟨0, []⟩).bytes (ps.getD 2 ⟨0, []⟩).bytes then
          s.tkDone i t St.ok
        else s.tkDone i t St.authFail

/-- The shared secret of an agreement, held under the ticket (R296). -/
def agreed (s : State) (i t : Nat) (secret : List Byte) : State :=
  (s.incReg Reg.PKE_AGREES).setTk i t { s.tk i t with secret := some secret }

/-- Whether a peer's encoded key is valid (R419). -/
def peerOk (sel curve : Nat) (b : List Byte) : Bool :=
  if sel = 3 then true
  else b.length == (if sel = 4 then 1184 else pubLen curve) && Config.keyOk (16 * sel + curve) b

/-- AGREE completes (R296, R424), or waits on for the expander. -/
def agreeDone (s : State) (i t : Nat) (o : Op) (e : EngineEnv) : State :=
  let own := if o.sel = 2 then pubLen (o.num 1) else 1088
  if o.sel = 0 ∨ 4 < o.sel ∨ (o.sel = 2 ∧ (o.num 1 = 0 ∨ 4 < o.num 1)) ∨ (o.sel = 3 ∧ o.num 3 ≠ 1088) ∨
      (o.sel = 4 ∧ o.num 3 ≠ 1184) ∨ ((o.sel = 2 ∨ o.sel = 4) ∧ o.num 5 < own) then s.tkDone i t St.argInvalid
  else if (o.sel = 1 ∨ o.sel = 3) ∧ ¬ slotsReady s then s
  else
    match takeSources s (some i) o e.upset e.memUpset with
    | (.error l, s) => srcFault s i t l
    | (.ok ps, s) =>
      let w := (o.word 1).data
      let x := s.slot (kSlot w)
      let peer := (ps.getD 0 ⟨0, []⟩).bytes
      let st := if o.sel = 1 then slotCheck s i (kOwner w) (kSlot w) (fun k => 0x21 ≤ k && k ≤ 0x24)
        else if o.sel = 3 then slotCheck s i (kOwner w) (kSlot w) (· == 0x30) else St.ok
      let curve := if o.sel = 1 then x.kind % 16 else o.num 1
      let size := if o.sel ≤ 2 ∧ (curve = 2 ∨ curve = 4) then 48 else 32
      if st ≠ St.ok then s.tkDone i t st
      else if (o.sel = 1 ∨ o.sel = 3) ∧ e.busErr then (busFailure s).tkDone i t St.slotBad
      else if ¬ peerOk o.sel curve peer then s.tkDone i t St.authFail
      else if o.sel = 1 ∨ o.sel = 3 then
        (agreed s i t (sharedSecret (privKey x.kind x.v) peer size)).tkDone i t St.ok
      else
        match rngDraw s size with
        | (.wait, s) => s
        | (.fatal, s) => s.tkDone i t St.rngFatal
        | (.ok r, s) =>
          let out := if o.sel = 2 then pubOf (0x20 + curve) r else capsule r peer
          deliverTo (agreed s i t (sharedSecret r peer size)) i t (o.num 4) (rawPayload out) e.destUpset out.length

/-! ## Hash, random, time -/

/-- Digest bytes of an algorithm (R425). -/
def digestLen (o : Op) : Option Nat :=
  match o.sel with
  | 1 => if o.num 3 = 0 then some 32 else none
  | 2 => if o.num 3 = 0 then some 48 else none
  | 3 => if o.num 3 = 0 then some 64 else none
  | 4 => if o.num 3 = 0 then some 32 else none
  | 5 | 6 => if 1 ≤ o.num 3 ∧ o.num 3 ≤ 64 then some (o.num 3) else none
  | _ => none

/-- A request of the hash engine is complete: counted (R430). -/
def hashCount (s : State) (n : Nat) : State :=
  let s := s.incReg Reg.HSH_REQS
  s.setReg64 Reg.HSH_BYTES_LO (s.reg64 Reg.HSH_BYTES_LO + n)

def hashDone (s : State) (i t : Nat) (o : Op) (e : EngineEnv) : State :=
  match digestLen o with
  | none => s.tkDone i t St.argInvalid
  | some n =>
    if 2 ^ 32 ≤ o.num 2 then s.tkDone i t St.argInvalid
    else
      match takeSources s (some i) o e.upset e.memUpset with
      | (.error l, s) => srcFault s i t l
      | (.ok ps, s) =>
        let m := (ps.getD 0 ⟨0, []⟩).bytes
        let d := genBytes n (Config.hashByte o.sel m)
        (hashCount s m.length).tkDone i t St.ok
          ((List.range 8).map fun k => ⟨Tag.chk, BitVec.ofNat 64 (getLe d (8 * k) 8)⟩) n

/-- RAND (R460), or its wait. -/
def randTry (s : State) (i t : Nat) (o : Op) (e : EngineEnv) : State :=
  let n := o.num 2
  if 1 < o.sel ∨ (o.sel = 0 ∧ (n ≠ 0 ∨ o.num 1 ≠ 0)) ∨ (o.sel = 1 ∧ (n = 0 ∨ 65536 < n ∨ (o.word 1).tag ≠ Tag.ptr)) then
    s.tkDone i t St.argInvalid
  else
    match rngDraw s (if o.sel = 0 then 8 else n) with
    | (.wait, s) => s
    | (.fatal, s) => s.tkDone i t St.rngFatal
    | (.ok b, s) =>
      if o.sel = 0 then s.tkDone i t St.ok [rawW (BitVec.ofNat 64 (leNat b))] 8
      else deliverTo s i t (o.num 1) (rawPayload b) e.destUpset n [intW 0]

/-- TIME completes with DEVTIME (R291). -/
def timeDone (s : State) (i t : Nat) : State :=
  s.tkDone i t St.ok [⟨Tag.time, s.kpr.devtime⟩] (b2n s.kpr.timeSet)

end Sys2Proof.Machine
end

