-- ==== Sys2Proof/Machine/Strata.lean ====
section
/-! DEFINITION. The evidence store (03, R74-R101, R590): volumes, strips, trailers, band seals, receipts and the read
path. -/

namespace Sys2Proof.Machine

open Sys2Proof

/-! ## Volumes (R74-R76) -/

abbrev stripBytes : Nat := 262144

/-- The quota of a volume in bands, as it limits appends (R343). -/
def quotaOf (s : State) (v : Nat) : Nat := s.limF v .vQuota

/-- The anchor of a volume (R76). -/
def anchorOf (s : State) (v gen : Nat) : List Byte :=
  genBytes 48 (Config.hashByte 2 (slice s.otp.serial 0 16 ++ [BitVec.ofNat 8 v] ++ zeros 11 ++ leBytes 4 gen))

def Vol.relCount (x : Vol) : Nat := match x.released with | some b => b + 1 | none => 0

/-- A strip can take no more records: a close reason has occurred for it, it has its trailer, or its band is
released. -/
def Vol.shut (x : Vol) (n : Nat) : Bool :=
  (x.reqs.any (·.1 == n)) || (x.strips.any fun t => t.num == n && t.closed.isSome) || (x.trailers.any (·.1 == n)) ||
    decide (n < x.strip) || decide (n / 64 < x.relCount)

/-- Where the next record of a volume starts if it fits: strip and offset (R81, R590). -/
def Vol.next (x : Vol) : Nat × Nat := if x.shut x.strip then (x.strip + 1, 0) else (x.strip, x.fill)

/-- Where a record of `n` bytes is placed (R81). -/
def Vol.place (x : Vol) (n : Nat) : Nat × Nat :=
  let (k, f) := x.next
  if f + n ≤ stripBytes then (k, f) else (k + 1, 0)

/-- Bands opened when the next position is a strip and an offset. -/
def bandsTo (strip fill : Nat) : Nat := strip / 64 + (if strip % 64 = 0 ∧ fill = 0 then 0 else 1)

/-- Unreleased bands, counting the open one (R100 USED). -/
def Vol.used (x : Vol) : Nat := bandsTo x.strip x.fill - x.relCount

/-- A strip of the volume is open: it holds a record and no close reason has occurred. -/
def Vol.isOpen (x : Vol) : Bool := decide (0 < x.fill) && !x.shut x.strip

/-- LAST_SEQ (R100). -/
def Vol.lastSeq (x : Vol) : Nat := x.nextSeq - 1

/-- Volume space for a record (R75, R76, R96). `rel` is the state whose released bands count, in which the receipts of
the same commit have released theirs. The last band of volume 0's quota takes only device records, types 0x0001-0x00FF,
whoever appends them. -/
def volumeSpace (s : State) (d rel : Durable) (v type len : Nat) : Bool :=
  let x := d.vol v
  let (k, f) := x.place (32 + len)
  let bands := k / 64 + 1 - (rel.vol v).relCount
  x.exist && (type == 0x000E || (s.dur.vol v).opened) &&
    (if v = 0 ∧ 0x100 ≤ type then decide (bands + 1 ≤ quotaOf s v)
     else decide (¬ (k % 64 = 0 ∧ f = 0) ∨ bands ≤ quotaOf s v))

/-- Appends to a volume are refused with VOLUME_FULL (R100, R128): even the shortest record of its owner finds no space,
or after a refusal the longest still finds none (log entry 22). -/
def refuses (s : State) (v : Nat) : Bool :=
  let x := s.dur.vol v
  x.exist && (!volumeSpace s s.dur s.dur v 0x100 0 || (x.full && !volumeSpace s s.dur s.dur v 0x100 4064))

/-! ## Records as bytes (R78, R81) -/

def Record.bytes (r : Record) : List Byte :=
  leBytes 2 r.type ++ [BitVec.ofNat 8 r.inst, BitVec.ofNat 8 r.fmt] ++ leBytes 2 (32 + r.body.len) ++ leBytes 2 r.flags ++
    leBytes 4 r.epoch ++ leBytes 4 r.tagLow.toNat ++ leBytes 8 r.time.toNat ++ leBytes 8 r.seq ++ r.body.bytes

/-- Strip bytes 0 to FILL - 1. -/
def stripContent (l : List Record) : List Byte :=
  l.foldl (fun acc r => acc ++ zeros (r.offset - acc.length) ++ r.bytes) []

/-! ## Closing strips (R85, R590) -/

/-- An admitted commit without a mark holds a record in a strip. -/
def stripPending (s : State) (v n : Nat) : Bool :=
  s.tdl.admitted.any fun c => c.effs.any fun e => match e with
    | .record w r => w == v && r.strip == n
    | _ => false

/-- Strips whose close reason has occurred and whose records all have marks or are aborted are closed now; a strip with
no record is not. -/
def settleVol (s : State) (v : Nat) : State :=
  let x := s.dur.vol v
  let ready := x.reqs.filter fun q => !stripPending s v q.1
  if ready = [] then s
  else
    let y := { x with
      reqs := x.reqs.filter fun q => stripPending s v q.1
      strips := x.strips.map fun t =>
        match t.closed, ready.find? (·.1 == t.num) with
        | none, some q => { t with closed := some q.2 }
        | _, _ => t }
    { s with dur := s.dur.setVol v y }

def settleStrips (s : State) : State := s.dur.vols.foldl (fun s p => settleVol s p.1) s

/-- A close reason occurs for the strip that takes a volume's records (R85): the first of them counts. -/
def closeReason (s : State) (v reason : Nat) : State :=
  let x := s.projected.vol v
  if x.exist ∧ x.isOpen then
    let y := s.dur.vol v
    settleVol { s with
      dur := s.dur.setVol v { y with
        reqs := y.reqs ++ [(x.strip, reason, s.kpr.devtime, (s.reg Reg.STAT_EPOCH).toNat)] } } v
  else s

def closeAll (s : State) (reason : Nat) : State :=
  (List.range 64).foldl (fun s v => closeReason s v reason) s

/-- STRIP_IDLE_CLOSE: 1 s of DEVTIME with no append to the volume. -/
def execStripIdleClose (v : Fin 64) (s : State) : Host.Outcome State Fault Refusal := done s (closeReason s v.val 2)

/-- Closed strips that await trailers (R128 SIGNQ). -/
def signQueue (s : State) : Nat :=
  (s.dur.vols.map fun p => (p.2.strips.filter fun t => t.closed.isSome).length).sum

/-! ## Trailers and seals (R86-R92) -/

/-- The root has a strip-signing pair (R89). -/
def stripRoot (s : State) : Option Nat := let r := rootOf s.mode; if 1 ≤ r ∧ r ≤ 3 then some r else none

/-- The trailer's bytes 0x0000-0x00DF (R86). -/
def trailerHead (x : Vol) (v : Nat) (t : Strip) (q : Nat × Word64 × Nat) (keyid : List Byte) : List Byte :=
  let l := x.records.filter (·.strip = t.num)
  let body := stripContent l
  let a := leBytes 4 0x53545250 ++ [1, BitVec.ofNat 8 v, BitVec.ofNat 8 q.1,
      BitVec.ofNat 8 (b2n (l.any fun r => r.flags % 2 == 1))] ++
    leBytes 8 t.num ++ leBytes 8 ((l.head?.map (·.seq)).getD 0) ++ leBytes 8 ((l.getLast?.map (·.seq)).getD 0) ++
    leBytes 4 l.length ++ leBytes 4 body.length ++ leBytes 4 q.2.2 ++ [BitVec.ofNat 8 (t.num % 64), 0, 0, 0] ++
    leBytes 8 q.2.1.toNat ++ slice (if t.num = 0 then x.anchor else x.prevHash) 0 48 ++
    genBytes 48 (Config.hashByte 2 body)
  a ++ genBytes 48 (Config.hashByte 2 a) ++ keyid ++ leBytes 2 0x60 ++ leBytes 2 0x0CED ++ leBytes 4 1

/-- STRIP_SIGNED (R86-R90): the lowest closed strip of a volume gets its trailer, where a strip key is in force and the
expander serves; `ok` is false where the trailer does not read back intact. -/
def stripSigned (s : State) (v : Nat) (ok : Bool) : State :=
  let x := s.dur.vol v
  match x.strips.find? (·.closed.isSome), stripRoot s with
  | some t, some r =>
    match t.closed with
    | none => s
    | some q =>
      if ¬ ok ∨ s.pwr.flush ≠ 0 then s
      else
        let key := pairValue s Lbl.strip r
        let h := trailerHead x v t q (keyId (pubKey 0x18 key))
        match hybridSign s key h with
        | (.ok g, s) =>
          let b := h ++ g ++ zeros 19
          let x := s.dur.vol v
          let y := { x with
            strips := x.strips.filter (·.num ≠ t.num), trailers := x.trailers ++ [(t.num, b)]
            prevHash := genBytes 48 (Config.hashByte 2 b) }
          { s.statInc 0x78 with dur := s.dur.setVol v y }
        | (_, s) => s
  | _, _ => s

def execStripSigned (v : Fin 64) (ok : Bool) (s : State) : Host.Outcome State Fault Refusal := done s (stripSigned s v.val ok)

/-- The next band of a volume to be sealed: its strip 63 has its trailer (R92). -/
def nextSeal (x : Vol) : Option Nat :=
  let b := (x.seals.getLast?.map (·.1 + 1)).getD 0
  if x.trailers.any (·.1 == 64 * b + 63) then some b else none

/-- The seal's bytes 0x0000-0x00CF. -/
def sealHead (s : State) (x : Vol) (v b : Nat) (keyid : List Byte) : List Byte :=
  let chains := ((List.range 64).map fun k =>
    slice ((x.trailers.find? (·.1 == 64 * b + k)).map (·.2) |>.getD []) 0x98 48).flatten
  let prev := if b = 0 then x.anchor else
    genBytes 48 (Config.hashByte 2 ((x.seals.find? (·.1 == b - 1)).map (·.2) |>.getD []))
  let a := leBytes 4 0x53424E44 ++ [1, BitVec.ofNat 8 v, 0, 0] ++ leBytes 8 b ++ leBytes 8 (64 * b) ++
    leBytes 8 s.kpr.devtime.toNat ++ leBytes 4 (s.reg Reg.STAT_EPOCH).toNat ++ zeros 4 ++ slice prev 0 48 ++
    genBytes 48 (Config.hashByte 2 chains)
  a ++ genBytes 48 (Config.hashByte 2 a) ++ keyid ++ leBytes 2 0x60 ++ leBytes 2 0x0CED ++ leBytes 4 1

/-- BAND_SEAL (R92). -/
def bandSeal (s : State) (v : Nat) : State :=
  let x := s.dur.vol v
  match nextSeal x, stripRoot s with
  | some b, some r =>
    if s.pwr.flush ≠ 0 then s
    else
      let key := pairValue s Lbl.strip r
      let h := sealHead s x v b (keyId (pubKey 0x18 key))
      match hybridSign s key h with
      | (.ok g, s) => { s with dur := s.dur.setVol v { s.dur.vol v with seals := x.seals ++ [(b, h ++ g ++ zeros 35)] } }
      | (_, s) => s
  | _, _ => s

def execBandSeal (v : Fin 64) (s : State) : Host.Outcome State Fault Refusal := done s (bandSeal s v.val)

/-! ## Receipts (R93, R94, R346) -/

/-- Volumes that a receipt of an issuer may release: its own; for the keeper also a retained one whose instance is not
Running. -/
def receiptVol (s : State) (d : Durable) (i : Nat) (b : List Byte) : Nat :=
  let v := getLe b 5 1
  if i = 0 ∧ v < 64 ∧ (d.vol v).retained ∧ (s.inst v).state ≠ 2 then v else i

/-- The key pair of a receipt-signer slot whose KEYID is the receipt's SIGNER. -/
def receiptKey (s : State) (signer : List Byte) : Option (List Byte) :=
  let base := s.regFld Reg.STR_RCPT 0 12
  let n := s.regFld Reg.STR_RCPT 16 7
  ((List.range n).map fun k => s.slot (base + k)).findSome? fun x =>
    if x.kind = 0x48 ∧ keyId x.pubRec = signer then some x.pubRec else none

/-- R94. -/
def receiptOk (s : State) (d : Durable) (i : Nat) (b : List Byte) : Bool :=
  let v := receiptVol s d i b
  let x := d.vol v
  let last := getLe b 0x20 8
  b.length == 3528 && getLe b 0 4 == 0x52435054 && getLe b 4 1 == 1 && getLe b 5 1 == v &&
    slice b 8 16 == slice s.otp.serial 0 16 && getLe b 0x18 8 == x.relCount && decide (getLe b 0x18 8 ≤ last) &&
    (match x.seals.find? (·.1 == last) with
     | some (_, q) => slice b 0x28 48 == slice q 0x88 48
     | none => false) &&
    decide (x.rcount < getLe b 0x60 8) &&
    (match receiptKey s (slice b 0x68 16) with
     | some pub => sigVerify 8 pub (b.take 0x78) (slice b 0x78 3405)
     | none => false)

/-! ## Reading evidence (R98-R101) -/

/-- The volume-state item (R100 OP 5). -/
def volState (s : State) (v : Nat) : List Byte :=
  let x := s.dur.vol v
  let l := [BitVec.ofNat 8 v, BitVec.ofNat 8 (b2n (refuses s v) + 2 * b2n x.isOpen + 4 * b2n x.retained), 0, 0] ++
    leBytes 4 x.gen ++ leBytes 4 (s.descF v .vQuota) ++ leBytes 4 x.used ++ leBytes 8 x.lastSeq ++ leBytes 8 x.next.1 ++
    leBytes 8 (match x.released with | some b => b | none => 0xFFFFFFFFFFFFFFFF) ++ leBytes 8 x.rcount ++ slice x.anchor 0 48
  l ++ zeros (128 - l.length)

/-- The items that a read names, in order: none for NOT_PRESENT. A record's item is padded to 8 bytes where another
follows it. -/
def strataItems (s : State) (op v count start : Nat) : Option (List Payload) :=
  let x := s.dur.vol v
  if x.gen = 0 then none
  else
    match op with
    | 1 =>
      let l := (x.records.filter fun r => decide (start ≤ r.seq ∧ r.seq < start + count))
      if l.any (·.seq == start) then
        some (l.map fun r => ⟨32 + r.body.len, packWords Tag.raw (r.bytes.take 32) ++ r.body.words⟩)
      else none
    | 2 => (x.trailers.find? (·.1 == start)).map fun t => [rawPayload t.2]
    | 3 => (x.seals.find? (·.1 == start)).map fun t => [rawPayload t.2]
    | 4 =>
      let (c, n) := sget (fun _ => (0, 0)) s.dur.ctrs (256 * v + start)
      some [rawPayload (leBytes 8 c.toNat ++ leBytes 8 n)]
    | _ => some [rawPayload (volState s v)]

/-- Whole items up to the first that does not fit, each at an 8-byte-aligned offset: with their offsets. -/
def fitItems (dlen : Nat) : Nat → List Payload → List (Nat × Payload)
  | _, [] => []
  | off, p :: ps => if off + p.len ≤ dlen then (off, p) :: fitItems dlen ((off + p.len + 7) / 8 * 8) ps else []

/-- The volume a requester reads: instances always their own (R98). -/
def readVol : Requester → Fin 64 → Nat
  | .inst i, _ => i.val
  | _, v => v.val

/-- The buffer lies in the requester's DRAM. -/
def readBuffer (s : State) (who : Requester) (a n : Nat) : Bool :=
  match who with
  | .inst i => decide (s.descF i.val .dramBase ≤ a ∧ a + n ≤ s.descF i.val .dramBase + 2 ^ 20 * s.limF i.val .dramSize)
  | .keeper => inKeeperData a n
  | .rom => true

/-- A read: its status and the items placed (R99). A malformed field answers INTENT_INVALID before the item is looked
for (log entry 104). -/
def strataRead (s : State) (op : Nat) (q : StrataReq) : Word16 × List (Nat × Payload) :=
  let v := readVol q.who q.volume
  if (op = 1 ∧ (q.count = 0 ∨ 256 < q.count)) ∨ (op ≠ 1 ∧ q.count ≠ 1) ∨ (op = 4 ∧ 255 < q.start) ∨
      ¬ readBuffer s q.who q.dest q.dlen then (St.intentInvalid, [])
  else
    match strataItems s op v q.count q.start with
    | none => (St.notPresent, [])
    | some l =>
      let f := fitItems q.dlen 0 l
      if f = [] then (St.intentInvalid, []) else (St.ok, f)

/-- Trailers rebuilt at start-up (R91): every strip that holds records without a trailer closes with reason 5, at the
DEVTIME of its rebuild. Its EPOCH is the epoch number of that moment, which the spec does not give (log entry 102). -/
def rebuildStrips (s : State) : State :=
  s.dur.vols.foldl (fun s p =>
    let x := s.dur.vol p.1
    let y := { x with
      reqs := []
      strips := x.strips.map fun t => { t with closed := some (5, s.kpr.devtime, (s.reg Reg.STAT_EPOCH).toNat) } }
    { s with dur := s.dur.setVol p.1 y }) s

end Sys2Proof.Machine
end

