-- ==== Sys2Proof/Machine/Ring.lean ====
section
/-! DEFINITION. The ring engine (10, R392-R401): rings, doorbells, and QPUT and QGET. -/

namespace Sys2Proof.Machine

open Sys2Proof

def State.ring (s : State) (r : Nat) : Ring := sget (fun _ => {}) s.rings r
def State.setRing (s : State) (r : Nat) (x : Ring) : State := { s with rings := sset (fun _ => {}) s.rings r x }

/-! ## Fields of RING.CFG and RING.IRQ -/

def Ring.en (x : Ring) : Bool := x.cfg.getLsbD 31
def Ring.outbound (x : Ring) : Bool := x.cfg.getLsbD 30
def Ring.inHost (x : Ring) : Bool := x.cfg.getLsbD 29
def Ring.owner (x : Ring) : Nat := fld x.cfg.toNat 23 6
def Ring.hnotify (x : Ring) : Bool := x.cfg.getLsbD 22
def Ring.eslots (x : Ring) : Nat := fld x.cfg.toNat 11 5
def Ring.lenOff (x : Ring) : Nat := fld x.cfg.toNat 5 6
def Ring.size (x : Ring) : Nat := 2 ^ fld x.cfg.toNat 0 5
def Ring.used (x : Ring) : Nat := (x.tail - x.head).toNat
def Ring.free (x : Ring) : Nat := x.size - x.used
/-- The address of slot count `c` (R393). -/
def Ring.slotAddr (x : Ring) (c : Word32) : Nat := x.base + 64 * (c.toNat % x.size)

/-- Ring `k` of a window (R376). -/
def windowRing (s : State) (w k : Nat) : Option Nat :=
  let (b, n) := ringRange s w
  if k < n ∧ b + k < 4096 then some (b + k) else none

/-- The offset of a ring in its owner's range. -/
def ringOffset (s : State) (i r : Nat) : Nat := r - (ringRange s i).1

/-- The function that carries a window exists on a link that is up (R384). -/
def fnLive (s : State) (f : Nat) : Bool :=
  s.host.width != 0 && (f == 0 || (s.host.vfEnable && decide (f ≤ s.host.numVfs)))

/-- Bus Master Enable of the function that carries a window (R385): the function exists, and it was not cleared (log
entry 20). -/
def busMaster (s : State) (f : Nat) : Bool := fnLive s f && !decide (f ∈ s.host.bmeOff)

/-- A word of the MSI-X table after reset: a vector's control word has its mask bit set (log entry 90). -/
def msixReset (k : Nat) : Word32 := if k % 4 = 3 then 1 else 0

/-- Word `k` of the MSI-X table of a window. -/
def msixWord (s : State) (w k : Nat) : Word32 := sget msixReset s.host.msix (64 * w + k)

/-- An MSI-X message of a function (R383, R398): pending while its vector is masked or the function may not send (log
entry 90). -/
def sendMsix (s : State) (f vec : Nat) : State :=
  if ¬ fnLive s f then s
  else if (msixWord s f (4 * vec + 3)).getLsbD 0 ∨ ¬ busMaster s f then
    if 16 * f + vec ∈ s.host.pba then s else { s with host := { s.host with pba := s.host.pba ++ [16 * f + vec] } }
  else { s with outbox := s.outbox ++ [.msix f vec] }

/-- A write of the MSI-X table: a vector that leaves its mask with a message pending sends it. -/
def msixWrite (s : State) (w k : Nat) (v : Word32) : State :=
  let s := { s with host := { s.host with msix := sset msixReset s.host.msix (64 * w + k) v } }
  let b := 16 * w + k / 4
  if k % 4 = 3 ∧ ¬ v.getLsbD 0 ∧ b ∈ s.host.pba then
    sendMsix { s with host := { s.host with pba := s.host.pba.erase b } } w (k / 4)
  else s

/-- The owner runs (R397). -/
def ownerRuns (s : State) (i : Nat) : Bool := if i = 0 then s.kpr.running else (s.inst i).state == 2

/-! ## States (R397) -/

/-- A waiting operation of a ring that leaves Active completes (R397, R401). -/
def failWaiters (s : State) (r : Nat) (st : Word16) : State :=
  let x := s.ring r
  x.waiters.foldl (fun s w => s.tkDone w.1 w.2 st) (s.setRing r { x with waiters := [] })

def stopRing (s : State) (r : Nat) (err : Word16) : State :=
  failWaiters (s.setRing r { s.ring r with st := 3, err := err }) r St.ringStopped

/-- A ring halts (R394, R399). -/
def haltRing (s : State) (r : Nat) (err : Word16) (at_ : Word32) : State :=
  failWaiters ((s.incReg Reg.RING_HALTS).setRing r { s.ring r with st := 2, err := err, haltAt := at_ }) r St.ringHalted

/-- Every Active or Halted ring that satisfies `p` is stopped. -/
def stopRings (s : State) (p : Ring → Bool) (err : Word16) : State :=
  s.rings.foldl (fun s q => if ((s.ring q.1).st = 1 ∨ (s.ring q.1).st = 2) ∧ p (s.ring q.1) then stopRing s q.1 err else s) s

def resumeRing (s : State) (r : Nat) : State :=
  let x := s.ring r
  if (x.st = 2 ∨ x.st = 3) ∧ ¬ (x.inHost ∧ ¬ busMaster s x.owner) then
    s.setRing r { x with st := 1, err := 0, haltAt := 0 }
  else s

def discardRing (s : State) (r : Nat) : State :=
  let x := s.ring r
  s.setRing r { x with head := x.tail, lens := [] }

/-- Interrupt source 16 + k of the owner (R398). -/
def ringIrq (s : State) (r : Nat) : State :=
  let x := s.ring r
  if fld x.irq.toNat 0 3 = 0 then s else s.raiseIrq x.owner (16 + ringOffset s x.owner r)

/-- Host-notify (R398): the pending bit, and the MSI-X message where it goes from 0 to 1. -/
def hostNotify (s : State) (r : Nat) : State :=
  let x := s.ring r
  if ¬ x.hnotify then s
  else
    let b := (x.owner, ringOffset s x.owner r)
    if b ∈ s.host.notify then s
    else
      sendMsix { s with host := { s.host with notify := s.host.notify ++ [b] } } x.owner (fld x.irq.toNat 16 4)

/-! ## Adding and taking entries (R393, R396, R399) -/

/-- The rule of R396 on a slot count. -/
def countOk (x : Ring) (p : Payload) (slots : Nat) : Bool :=
  if x.eslots = 0 then decide (1 ≤ slots ∧ slots ≤ 16) && (p.bytes.getD x.lenOff 0).toNat == slots
  else slots == x.eslots

/-- Entries put, the highest fill, and entries taken (R361). -/
def ringPutStat (s : State) (r : Nat) : State :=
  (s.statInc (ringStat r 0)).statMax (ringStat r 12) (s.ring r).used

/-- An entry goes onto a ring that has the space: a device ring's slots in memory, each with its check; a host-memory
ring's slots leave the device before its TAIL moves. -/
def ringPut (s : State) (r : Nat) (p : Payload) (slots : Nat) : State :=
  let x := s.ring r
  let chunk := fun k => (p.words.drop (8 * k)).take 8
  let s := (List.range slots).foldl (fun s k =>
    let a := x.slotAddr (x.tail + BitVec.ofNat 32 k)
    if x.inHost then { s with outbox := s.outbox ++ [.hostWrite x.owner a ((chunk k).map (·.data))] }
    else ((wrWords s a (chunk k)).breakResv a 64).newCheck a) s
  let s := s.setRing r { x with
    tail := x.tail + BitVec.ofNat 32 slots, lens := if x.inHost then x.lens else x.lens ++ [slots] }
  let s := ringPutStat s r
  let s := if ¬ x.outbound ∧ x.used = 0 then ringIrq s r else s
  if x.outbound then hostNotify s r else s

/-- Why a ring that is not Active refuses (R397). -/
def ringRefusal (x : Ring) : Option Word16 :=
  if x.st = 1 then none else if x.st = 2 then some St.ringHalted else some St.ringStopped

/-- The instance takes entries from producers outside it: it has not begun a quiesce (R351). -/
def ownerTakes (s : State) (i : Nat) : Bool := decide (i = 0 ∨ (s.inst i).state < 3)

/-- A producer inside the device adds an entry to an inbound device ring: whether it was taken. -/
def postRing (s : State) (r : Nat) (p : Payload) : Bool × State :=
  let x := s.ring r
  let n := (p.len + 63) / 64
  if ¬ ownerTakes s x.owner ∨ x.st ≠ 1 ∨ x.outbound ∨ x.inHost ∨ ¬ countOk x p n then (false, s)
  else if x.free < n then (false, s.statInc (ringStat r 8))
  else (true, ringPut s r p n)

/-- The oldest entry of a device ring, by its record: its words, those of failing units POISON, and whether one
failed. -/
def ringHeadEntry (s : State) (r : Nat) (who : Option Nat) : Option (Nat × List TWord × Bool × State) :=
  let x := s.ring r
  match x.lens with
  | [] => none
  | n :: ls =>
    let as := (List.range n).map fun k => x.slotAddr (x.head + BitVec.ofNat 32 k)
    let badOnes := as.filter s.isBad
    let s := badOnes.foldl (fun s a => unitFails s a 0x11 who) s
    let ws := (as.map fun a => s.rdWords a 8).flatten
    some (n, ws, !badOnes.isEmpty,
      (s.setRing r { s.ring r with head := x.head + BitVec.ofNat 32 n, lens := ls }).statInc (ringStat r 4))

/-- A port takes the oldest entry of an outbound device ring. -/
def takeRing (s : State) (r : Nat) : Option Payload × State :=
  let x := s.ring r
  if x.st ≠ 1 ∨ ¬ x.outbound ∨ x.inHost then (none, s)
  else
    match ringHeadEntry s r none with
    | some (n, ws, false, s) => (some ⟨64 * n, ws⟩, s)
    | some (_, _, true, s) => (none, s)
    | none => (none, s)

/-! ## Doorbells (R394) -/

def badDoorbell (s : State) : State := s.incReg Reg.RING_DBERR

def ringDoorbell (s : State) (w k : Nat) (v : Word32) : State :=
  match windowRing s w k with
  | none => badDoorbell s
  | some r =>
    let x := s.ring r
    if x.st ≠ 1 ∨ ¬ x.inHost ∨ (¬ x.outbound ∧ ¬ ownerRuns s x.owner) then badDoorbell s
    else if x.outbound then
      if (v - x.head).toNat ≤ x.used then s.setRing r { x with head := v }
      else haltRing s r St.doorbellOverrun x.head
    else
      let d := (v - x.tail).toNat
      if d = 0 then s
      else if d % x.eslots = 0 ∧ d ≤ x.free then
        let s := s.setRing r { x with tail := v }
        if x.used = 0 then ringIrq s r else s
      else haltRing s r St.doorbellOverrun x.tail

/-! ## QPUT and QGET (R293) -/

/-- The ring is bound to the issuer: in its range, and its own where it is enabled. -/
def ringBound (s : State) (i r : Nat) : Bool :=
  decide (r < 4096) && ringIn s i r && (!(s.ring r).en || (s.ring r).owner == i)

def ringWait (s : State) (i t r : Nat) : State :=
  let x := s.ring r
  if (i, t) ∈ x.waiters then s else s.setRing r { x with waiters := x.waiters ++ [(i, t)] }

def ringUnwait (s : State) (i t r : Nat) : State :=
  let x := s.ring r
  s.setRing r { x with waiters := x.waiters.erase (i, t) }

/-- QPUT. An entry for host memory is verified as it leaves (R399); one that fails there is not put. -/
def qputTry (s : State) (i t : Nat) (o : Op) (upset : Bool) : State :=
  let r := o.num 1
  let n := o.num 3
  let x := s.ring r
  if ¬ ringBound s i r ∨ (x.en ∧ ¬ x.outbound) ∨ n = 0 ∨ 16 < n then s.tkDone i t St.argInvalid
  else
    match ringRefusal x with
    | some st => s.tkDone i t st
    | none =>
      match if srcBusy s o then none else some (takeSources s (some i) o upset) with
      | none => ringWait s i t r
      | some (.error l, s) => srcFault (ringUnwait s i t r) i t l
      | some (.ok ps, s) =>
        let p := ps.getD 0 ⟨0, []⟩
        if ¬ countOk x p n then (ringUnwait s i t r).tkDone i t St.entryInvalid
        else if x.size < n ∨ x.free < n then
          if o.sel % 2 = 0 then (s.statInc (ringStat r 8)).tkDone i t St.ringFull else ringWait s i t r
        else
          match if x.inHost then egress s 0x30 (some i) else (true, s) with
          | (true, s) => (ringPut (ringUnwait s i t r) r p n).tkDone i t St.ok [] n
          | (false, s) => srcFault (ringUnwait s i t r) i t 0x30

/-- QGET, with what a read of host memory answers. Waiting QGETs come first, in their issue order. -/
def qgetTry (s : State) (i t : Nat) (o : Op) (h : HostFetch) (destUpset : Bool) : State :=
  let r := o.num 1
  let cap := o.num 3
  let x := s.ring r
  if ¬ ringBound s i r ∨ (x.en ∧ x.outbound) ∨ cap = 0 ∨ 16 < cap then s.tkDone i t St.argInvalid
  else
    match ringRefusal x with
    | some st => s.tkDone i t st
    | none =>
      if x.used = 0 ∨ (x.waiters ≠ [] ∧ x.waiters.head? ≠ some (i, t)) then
        if o.sel % 2 = 0 then s.tkDone i t St.ok [] 0 else ringWait s i t r
      else
        let s := ringUnwait s i t r
        if x.inHost then
          if cap < x.eslots then s.tkDone i t St.argInvalid
          else if h.err then haltRing (s.tkDone i t St.ringHalted) r St.ringHalted x.head
          else
            let ws := (List.range (8 * x.eslots)).map fun k => rawW (h.words.getD k 0)
            let s := (s.setRing r { s.ring r with head := x.head + BitVec.ofNat 32 x.eslots }).statInc (ringStat r 4)
            deliverTo s i t (o.num 2) ⟨64 * x.eslots, ws⟩ destUpset x.eslots
        else if cap < x.lens.headD 0 then s.tkDone i t St.argInvalid
        else
          match ringHeadEntry s r (some i) with
          | none => s.tkDone i t St.ok [] 0
          | some (n, ws, fail, s) =>
            if fail then
              (engWrite s (o.num 2) ⟨64 * n, ws⟩ (some i) destUpset).2.tkDone i t St.carryFault [] n 0x11
            else deliverTo s i t (o.num 2) ⟨64 * n, ws⟩ destUpset n

/-- The oldest operation of a kind that waits on a ring. -/
def ringWaiter (s : State) (r code : Nat) : Option (Nat × Nat) :=
  (s.ring r).waiters.find? fun w => (s.tk w.1 w.2).op.code == code

def execQputWaitSatisfied (r : Fin 4096) (s : State) : Host.Outcome State Fault Refusal :=
  done s (
    match ringWaiter s r.val 0x10 with
    | some (i, t) => qputTry s i t (s.tk i t).op false
    | none => s)

def execQgetWaitSatisfied (r : Fin 4096) (h : HostFetch) (s : State) : Host.Outcome State Fault Refusal :=
  done s (
    match ringWaiter s r.val 0x11 with
    | some (i, t) => if (s.ring r.val).used = 0 then s else qgetTry s i t (s.tk i t).op h false
    | none => s)

/-! ## The Strata read path (R53, R98-R101) -/

/-- The instance whose Strata read ring holds a requester's requests: the keeper's is instance 0 (log entry 111). -/
def readOwner : Requester → Option Nat
  | .inst i => some i.val
  | .keeper => some 0
  | .rom => none

/-- The entry at the head of a read ring is one that a read of `op` takes: it names that OP, or none of R98. -/
def readWaits (s : State) (i r op : Nat) : Bool :=
  let x := s.ring r
  let e := (s.rdByte (x.slotAddr x.head)).toNat
  ringIn s i r && x.owner == i && x.st == 1 && x.outbound && !x.inHost && x.lens != [] && (e == op || e == 0 || decide (5 < e))

/-- The request that a read command serves, and the state without it: the oldest entry of the requester's Strata read
ring, of one slot, with a PTR as its destination; the ROM's is the command's own. Outer none: no request of that OP
waits. Inner: the status and the location code of one that fails its check, or is malformed. -/
def readRequest (s : State) (op : Nat) (q : StrataReq) : Option (Except (Word16 × Nat) StrataReq × State) :=
  match readOwner q.who with
  | none => some (.ok q, s)
  | some i =>
    let r := s.descF i .rdRing
    if ¬ readWaits s i r op then none
    else
      match takeRing s r with
      | (none, s) => some (.error (St.carryFault, 0x11), s)
      | (some p, s) =>
        let b := p.bytes
        if p.poisoned then some (.error (St.carryFault, 0x22), s)
        else if p.len ≠ 64 ∨ getLe b 0 1 ≠ op ∨ (i = 0 ∧ 63 < getLe b 1 1) ∨ (p.words.getD 2 (rawW 0)).tag ≠ Tag.ptr then
          some (.error (St.intentInvalid, 0), s)
        else some (.ok { q with
          volume := Fin.ofNat 64 (getLe b 1 1), count := getLe b 2 2, start := getLe b 8 8, dest := getLe b 0x10 8
          dlen := getLe b 0x18 4 }, s)

/-- The items of a read are written one after the other. It stops at one whose unit fails as it is read from the evidence
flash (0x15), or whose destination unit fails its old check (0x0B): the count delivered and the location code. The address
that the flash's record names is free, for the store has none (log entry 13). -/
def readDeliver (s : State) (q : StrataReq) (who : Option Nat) : List (Nat × Payload) → Nat → Nat × Nat × State
  | [], n => (n, 0, s)
  | p :: ps, n =>
    if q.flash = some n then
      let a := (Config.freeWord s.freeCtr).toNat
      (n, 0x15, carryFault { s with freeCtr := s.freeCtr + 1 } 0x15 who a)
    else
      match engWrite s (q.dest + p.1) p.2 who q.upset with
      | (false, s) => (n, 0x0B, s)
      | (true, s) => readDeliver s q who ps (n + 1)

/-- A read is served. Its completion leaves through the outbox: the spec gives it no place. -/
def readServe (s : State) (op : Nat) (q : StrataReq) : State :=
  if ¬ s.kpr.replayDone then s
  else
    match readRequest s op q with
    | none => s
    | some (.error (st, loc), s) => { s with outbox := s.outbox ++ [.readCompletion q.who st 0 loc] }
    | some (.ok q, s) =>
      let (st, l) := strataRead s op q
      let (n, loc, s) := readDeliver s q (readOwner q.who) l 0
      { s with outbox := s.outbox ++ [.readCompletion q.who (if loc = 0 then st else St.carryFault) n loc] }

def execReadRecords (q : StrataReq) (s : State) : Host.Outcome State Fault Refusal := done s (readServe s 1 q)
def execReadTrailer (q : StrataReq) (s : State) : Host.Outcome State Fault Refusal := done s (readServe s 2 q)
def execReadSeal (q : StrataReq) (s : State) : Host.Outcome State Fault Refusal := done s (readServe s 3 q)
def execReadCounter (q : StrataReq) (s : State) : Host.Outcome State Fault Refusal := done s (readServe s 4 q)
def execReadVolumeState (q : StrataReq) (s : State) : Host.Outcome State Fault Refusal := done s (readServe s 5 q)

/-! ## Configuration by the keeper (R392, R403) -/

/-- The ring that RING.RSEL shows. -/
def rsel (s : State) : Nat := s.regFld Reg.RING_RSEL 0 12

/-- The rules of R392. -/
def ringRules (s : State) (r : Nat) (x : Ring) : Bool :=
  let bytes := 64 * x.size
  ringIn s x.owner r && (x.owner == 0 || (s.inst x.owner).state != 0) &&
    (if x.inHost then x.base % 4096 == 0 && (x.outbound || x.eslots != 0)
     else x.base % 64 == 0 &&
       (if x.owner = 0 then inKeeperData x.base bytes
        else decide (s.descF x.owner .dramBase ≤ x.base ∧
          x.base + bytes ≤ s.descF x.owner .dramBase + 2 ^ 20 * s.limF x.owner .dramSize)))

/-- A write of RING.CFG: fields but EN only while EN is 0; setting EN under the rules; clearing it disables the ring. -/
def ringCfg (s : State) (v : Word32) : State :=
  let r := rsel s
  let x := s.ring r
  if x.en then
    if v.getLsbD 31 then s
    else failWaiters (s.setRing r { x with cfg := x.cfg &&& 0x7FFFFFFF, st := 0, lens := [] }) r St.ringStopped
  else
    let es := if 16 < fld v.toNat 11 5 then x.eslots else fld v.toNat 11 5
    let sz := if fld v.toNat 0 5 = 0 ∨ 16 < fld v.toNat 0 5 then fld x.cfg.toNat 0 5 else fld v.toNat 0 5
    let cfg := (v &&& 0x7FC007E0) ||| BitVec.ofNat 32 (2048 * es + sz)
    let y := { x with cfg := cfg }
    if ¬ v.getLsbD 31 then s.setRing r y
    else if ringRules s r y then
      s.setRing r { y with
        cfg := cfg ||| 0x80000000, head := 0, tail := 0, lens := [], haltAt := 0
        err := if y.inHost ∧ ¬ busMaster s y.owner then St.ringStopped else 0
        st := if y.inHost ∧ ¬ busMaster s y.owner then 3 else 1 }
    else s.setReg Reg.RING_STATUS (s.reg Reg.RING_STATUS ||| 1)

def ringBase (s : State) (hi : Bool) (v : Word32) : State :=
  let r := rsel s
  let x := s.ring r
  if x.en then s
  else if hi then s.setRing r { x with base := x.base % 2 ^ 32 + 2 ^ 32 * v.toNat }
  else s.setRing r { x with base := x.base / 2 ^ 32 * 2 ^ 32 + v.toNat }

def ringIrqReg (s : State) (v : Word32) : State :=
  let r := rsel s
  if (s.ring r).en then s else s.setRing r { s.ring r with irq := v &&& 0x000F0007 }

def ringCtrl (s : State) (op : Nat) : State :=
  let r := rsel s
  match op with
  | 1 => discardRing s r
  | 2 => resumeRing s r
  | 3 => if (s.ring r).st = 1 ∨ (s.ring r).st = 2 then stopRing s r St.ringStopped else s
  | _ => s

/-- RING_ENABLE: the keeper writes RING.CFG with EN set and the fields as they stand. -/
def execRingEnable (s : State) : Host.Outcome State Fault Refusal :=
  done s (s.byKeeper fun s => ringCfg s ((s.ring (rsel s)).cfg ||| 0x80000000))
def execRingCtrlDiscard (s : State) : Host.Outcome State Fault Refusal := done s (s.byKeeper fun s => ringCtrl s 1)
def execRingCtrlResume (s : State) : Host.Outcome State Fault Refusal := done s (s.byKeeper fun s => ringCtrl s 2)
def execRingCtrlStop (s : State) : Host.Outcome State Fault Refusal := done s (s.byKeeper fun s => ringCtrl s 3)

/-- A write of RING.HIF (R381): the interfaces' enables. A PCIe endpoint disabled has its link down, and its configuration
space is at its reset values. -/
def hifWrite (s : State) (v : Word32) : State :=
  let s := s.setReg Reg.RING_HIF (v &&& 0x1F)
  if v.getLsbD 0 then s
  else stopRings { s with host := { s.host with width := 0, speed := 0, vfEnable := false, numVfs := 0, bmeOff := [] } }
    (·.inHost) St.ringStopped

def execHifEnableChange (v : Word32) (s : State) : Host.Outcome State Fault Refusal :=
  done s (s.byKeeper fun s => hifWrite s v)

end Sys2Proof.Machine
end

