-- ==== Sys2Proof/Machine/Air.lean ====
section
/-! DEFINITION. The Skerry air link and tag memory (05). Signal samples are in 0.01 dBm. -/

namespace Sys2Proof.Machine

open Sys2Proof

/-! ## Areas (R194-R197) -/

def Durable.area (d : Durable) (a : Nat) : Area := sget (fun _ => {}) d.areas a
def State.area (s : State) (a : Nat) : Area := s.dur.area a
def State.setArea (s : State) (a : Nat) (x : Area) : State :=
  { s with dur := { s.dur with areas := sset (fun _ => {}) s.dur.areas a x } }

/-- The newest valid shadow, and whether it stands in the second slot. -/
def Area.newestShadow (x : Area) : Option (ShadowSlot × Bool) :=
  if x.sh0.valid ∧ x.sh1.valid then some (if x.sh0.version < x.sh1.version then (x.sh1, true) else (x.sh0, false))
  else if x.sh0.valid then some (x.sh0, false)
  else if x.sh1.valid then some (x.sh1, true)
  else none

/-- The newest valid shadow, where it is newer than the committed content (R196). -/
def Area.shadow (x : Area) : Option ShadowSlot :=
  match x.newestShadow with
  | some (h, _) => if x.version < h.version then some h else none
  | none => none

/-- A shadow write takes the slot that does not hold the newest valid shadow (R203 step 1). -/
def Area.putShadow (x : Area) (f : ShadowSlot → ShadowSlot) : Area :=
  match x.newestShadow with
  | some (_, false) => { x with sh1 := f x.sh1 }
  | _ => { x with sh0 := f x.sh0 }

/-- The newest visible version and content. -/
def Area.newest (x : Area) : Nat × List TWord :=
  match x.shadow with
  | some h => (h.version, h.content)
  | none => (x.version, x.content)

/-- Bytes replaced within a content: the words that they touch become RAW (R215; log entry 16). -/
def overlay (l : List TWord) (off : Nat) (d : List Byte) : List TWord :=
  let b := wordsBytes l
  let b := b.take off ++ d ++ b.drop (off + d.length)
  l.mapIdx fun k w =>
    if off < 8 * k + 8 ∧ 8 * k < off + d.length then rawW (BitVec.ofNat 64 (getLe b (8 * k) 8)) else w

/-- A part of a content: whole words with their tags where it begins at one, else its bytes (log entry 16). -/
def contentPart (l : List TWord) (off n : Nat) : Payload :=
  if off % 8 = 0 then ⟨n, (l.drop (off / 8)).take ((n + 7) / 8)⟩ else rawPayload (slice (wordsBytes l) off n)

/-! ## Frames and replies -/

/-- The link runs (R164): in Workshop and in Service, Standby entry excepted. -/
def airEnabled (s : State) : Bool :=
  s.regBit Reg.AIR_CTRL 0 && (s.mode == Mode.workshop || (s.mode == Mode.service && decide (s.kpr.standby < 2)))
def readerRole (s : State) : Bool := s.regBit Reg.AIR_CTRL 1
def tagId (s : State) : Word64 := BitVec.ofNat 64 (s.reg64 Reg.AIR_TAGID_LO)
abbrev broadcast : Word64 := 0xFFFFFFFFFFFFFFFF

/-- The channel on which a reader transmits (R165). -/
def readerChannel (s : State) : Fin 4 := Fin.ofNat 4 (s.regFld Reg.AIR_CTRL 8 2)

/-- The uplink form of a reply (R188, R189). -/
def backscatter (s : State) (bs : Bool) : Bool :=
  bs || s.regBit Reg.AIR_CTRL 3 || s.air.txfail || s.pwr.flush != 0 ||
    decide (headroomUj s < ((s.reg Reg.AIR_TXBUDGET).toNat : Int))

/-- The header of a downlink frame with a LEN (R169), the associated data of a sealed payload (R171). -/
def downHeader (f : AirFrame) (len : Nat) : List Byte :=
  [f.cmd, f.flags] ++ leBytes 8 f.dest.toNat ++ [f.seq] ++ leBytes 2 len

/-- The header of an uplink frame (R170, R171). -/
def upHeader (id : Word64) (seq : Byte) (st : Word16) (len : Nat) : List Byte :=
  leBytes 8 id.toNat ++ [seq] ++ leBytes 2 st.toNat ++ leBytes 2 len

/-- A counter value of a key for the tag-memory service (R410, R412): none where it must wait, with the advance asked
for; a key at its limit is told by the flag. -/
def airCounter (s : State) (k : KeyRef) : Option Nat × Bool × State :=
  let q := keyCtr s.dur k
  if q.exhausted ∨ 2 ^ q.limlog ≤ q.ivctr then (none, true, s)
  else if q.ivctr < q.reslim then (some q.ivctr, false, afterTake (setIvctr s k (q.ivctr + 1)) k)
  else (none, false, if advancing s k then s else issueAdvance (s.incReg Reg.CIP_RESWAIT) k)

/-- The key of a reference, while it is there and may be used in the mode (R404, R139). -/
def airKey (s : State) : KeyRef → Option (List Byte)
  | .slot n => if aeadKind (s.slot n).kind ∧ (s.slot n).root = rootOf s.mode then some (s.slot n).aeadKey else none
  | .session n => if (s.sctx n).keyPresent then unwrap s n (s.sctx n) else none

/-- A sealed payload (R171): the IV under the device's own prefix, ciphertext, tag. -/
def airSeal (s : State) (key : List Byte) (c : Nat) (header payload : List Byte) : List Byte :=
  let iv := leBytes 4 s.ivPrefix.toNat ++ leBytes 8 c
  iv ++ genBytes (payload.length + 16) (Config.aeadByte 1 key iv header payload)

/-- A sealed payload opened with the IV that it carries, where its tag verifies. -/
def airUnseal (key header p : List Byte) : Option (List Byte) :=
  let iv := p.take 12
  let ct := p.drop 12
  if 28 ≤ p.length ∧ Config.aeadOk 1 key iv header ct then
    some (genBytes (ct.length - 16) (Config.aeadOpenByte 1 key iv header ct))
  else none

/-- An uplink frame leaves the tag (R170, R188), and is counted (R214). -/
def airPut (s : State) (seq : Byte) (st : Word16) (p : List Byte) (bs : Bool) : State :=
  let b := backscatter s bs
  let s := s.incReg Reg.AIR_TXFRAMES
  let s := if b then s.incReg Reg.AIR_BSREPLIES else s
  let s := if st = St.dwellShort then s.incReg Reg.AIR_DWELLSHORT else s
  let s := if st = St.pwWrong ∨ st = St.pwLocked then s.incReg Reg.AIR_PWFAIL else s
  { s with
    air := { s.air with bsLast := b }
    outbox := s.outbox ++ [.uplink { src := tagId s, seq := seq, status := st, payload := p } b s.air.channel] }

/-- A reply is sent, sealed where its command was (R171). It waits for a counter value, but for PENDING, whose moment is
fixed (R179) and which goes in clear then; a key that is gone or at its limit answers so in clear (log entry 60). -/
def airSend (s : State) (r : AirResult) : State :=
  match r.ref with
  | none => airPut s r.seq r.status r.payload r.bs
  | some k =>
    match airKey s k with
    | none => airPut s r.seq St.keyAbsent [] r.bs
    | some key =>
      match airCounter s k with
      | (some c, _, s) =>
        airPut s r.seq r.status (airSeal s key c (upHeader (tagId s) r.seq r.status (r.payload.length + 28)) r.payload) r.bs
      | (none, true, s) => airPut s r.seq St.keyExhausted [] r.bs
      | (none, false, s) =>
        if r.status = St.pending then airPut s r.seq r.status [] r.bs
        else { s with air := { s.air with due := s.air.due ++ [r] } }

/-- A result is kept for the link until it is collected (R179). -/
def keepResult (s : State) (r : AirResult) : State :=
  { s with air := { s.air with kept := (s.air.kept.filter (·.seq ≠ r.seq)) ++ [r] } }

/-- The result of a command that PENDING may have deferred (R179, R180). -/
def airResult (s : State) (deferred live stale : Bool) (r : AirResult) : State :=
  if ¬ live then s
  else if deferred then (if stale then s else keepResult s r)
  else airSend s r

/-! ## Ring entries (R182) -/

def airEntry (s : State) (peer : Word64) (cmd flags seq : Byte) (st : Word16) (rssi : Int) (p : List Byte) : Payload :=
  let slots := if p.length ≤ 32 then 1 else 1 + (p.length - 32 + 63) / 64
  let ch := if readerRole s then (readerChannel s).val else s.air.channel
  let l := leBytes 8 peer.toNat ++ [cmd, flags, seq, BitVec.ofNat 8 slots] ++ leBytes 2 st.toNat ++
    leBytes 2 p.length ++ leBytes 2 (BitVec.ofInt 16 rssi).toNat ++ [BitVec.ofNat 8 ch] ++ zeros 5 ++
    leBytes 8 s.kpr.devtime.toNat ++ p
  rawPayload (l ++ zeros (64 * slots - l.length))

/-- A binding of R181: valid, its instance and its rings. -/
def airBinding (s : State) (n : Nat) : Option (Nat × Nat × Nat) :=
  let w := (s.reg (Reg.AIR_BIND + 4 * n)).toNat
  if fld w 31 1 = 1 then some (fld w 25 6, fld w 12 12, fld w 0 12) else none

def airPost (s : State) (n : Nat) (p : Payload) : State :=
  match airBinding s n with
  | some (_, r, _) => (postRing s r p).2
  | none => s

/-! ## Leaving Active -/

/-- Bindings, unlocks, kept results end (R175, R179, R184); commands in progress complete unheard (R180, R202). -/
def dropLink (s : State) : State :=
  { s with air := { s.air with
      bound := [], unlocked := [], kept := [], apps := [], due := [], held := [], heldTx := [], sent := [], peers := []
      ops := s.air.ops.map fun o => { o with live := false } } }

def airIdle (s : State) : State :=
  { dropLink s with air := { (dropLink s).air with tstate := 0 } }

/-- Main loss (R189): no further command is accepted; replies already due are still sent, and the tag enters Idle once
none is. -/
def airClose (s : State) : State :=
  if s.air.due = [] then airIdle s
  else { s with air := { s.air with
      kept := [], apps := [], held := [], ops := s.air.ops.map fun o => { o with live := false } } }

/-! ## Dwell (R199-R201) -/

/-- Sums of R199 over the sixteen samples: the sum, and 680 times the slope per sample. -/
def sampleSums (l : List Int) : Int × Int :=
  (l.sum, ((List.range 16).map fun (k : Nat) => (2 * (k : Int) - 15) * l.getD k 0).sum)

/-- 272 times RSSI_now in 0.01 dBm. -/
def rssi272 (l : List Int) : Int := 17 * (sampleSums l).1 + 3 * (sampleSums l).2

def floorCdb (s : State) : Int := 10 * ((s.reg Reg.AIR_FLOOR).setWidth 16).toInt

/-- The predicted dwell in µs, the cap in ms; 0 before sixteen samples. -/
def dwellUs (s : State) : Nat :=
  let l := s.air.samples
  let n := (sampleSums l).2
  let cap := 1000 * s.regFld Reg.AIR_DWELL_CAP 0 16
  let m := rssi272 l - 272 * floorCdb s
  if l.length < 16 ∨ m ≤ 0 then 0
  else if 0 ≤ n then cap
  else min cap (m.toNat * 85000 / (544 * (-n).toNat))

/-- T_c in µs (R200). -/
def commitEstimate (s : State) : Nat :=
  (if s.tdl.times.length < 64 then 1000 else s.tdl.times.foldl max 0) + 100 * s.tdl.admitted.length

/-- The reply time in µs, `len` payload bytes (R174, R201). -/
def replyTime (s : State) (bs : Bool) (len : Nat) : Nat :=
  30 + (if backscatter s bs then 608 + 32 * len else 152 + 8 * len)

/-- The gate of R201. -/
def dwellShort (s : State) (bs : Bool) (len : Nat) (shadow : Bool) : Bool :=
  s.mode == Mode.service &&
    decide (dwellUs s < (if shadow then 600 else commitEstimate s) + replyTime s bs len + 2000)

/-! ## READ, WRITE and PWD (R196-R211) -/

/-- The access code of R195 is met. -/
def accessMet (s : State) (code a : Nat) (sealed : Bool) : Bool :=
  let u := decide (a ∈ s.air.unlocked)
  match code with
  | 0 => true
  | 1 => u
  | 2 => sealed
  | 3 => sealed && u
  | _ => false

def lockOf (s : State) (a : Nat) : Option LockHolder := (s.air.locks.find? (·.1 == a)).map (·.2)
def takeLock (s : State) (a : Nat) (h : LockHolder) : State :=
  { s with air := { s.air with locks := sput a h s.air.locks } }
def dropLock (s : State) (a : Nat) : State := { s with air := { s.air with locks := sdel a s.air.locks } }

/-- A command of the field may take an area's lock: it is free, or the fold that holds it has been admitted (R205,
R211). -/
def fieldMay (s : State) (a : Nat) : Bool :=
  match lockOf s a with
  | none => !decide (a ∈ s.air.folds)
  | some .fold => !decide (a ∈ s.air.folds)
  | some _ => false

/-- An instance's commit takes the lock of an area beside those that hold it so (R209). -/
def lockFor (s : State) (id a : Nat) : State :=
  match lockOf s a with
  | none => takeLock s a (.commits [id])
  | some (.commits l) => takeLock s a (.commits (l ++ [id]))
  | some _ => s

/-- The locks that a commit of an instance holds end (R209). -/
def freeLocks (s : State) (id : Nat) : State :=
  { s with air := { s.air with locks := s.air.locks.filterMap fun l =>
      match l.2 with
      | .commits ids => if ids.filter (· ≠ id) = [] then none else some (l.1, .commits (ids.filter (· ≠ id)))
      | _ => some l } }

/-- Field writes go to shadows (R203). -/
def shadowMode (s : State) : Bool := !s.kpr.replayDone || s.mode == Mode.workshop

/-- The command ends: it is taken out, its lock is released, and it answers. -/
def opEnd (s : State) (o : FieldOp) (st : Word16) (p : List Byte) : State :=
  let s := dropLock { s with air := { s.air with ops := s.air.ops.filter (·.id ≠ o.id) } } o.area
  airResult s o.deferred o.live o.stale ⟨o.seq, st, p, o.ref, o.bs⟩

/-- R202: the tag has left Active before the reply. -/
def linkLost (s : State) (o : FieldOp) (version : Nat) : State :=
  if o.live then s
  else airPost s 0 (airEntry s s.air.reader (if o.pwd then 0x12 else 0x11) 0 o.seq St.linkLost 0
    ([BitVec.ofNat 8 o.area] ++ leBytes 8 version))

/-- A command of the field as it now stands. -/
def setOp (s : State) (o : FieldOp) : State :=
  { s with air := { s.air with ops := s.air.ops.map fun q => if q.id = o.id then o else q } }

/-- The command of the field that holds an area's lock. -/
def opOn (s : State) (a : Nat) : Option FieldOp := s.air.ops.find? fun o => o.area == a && o.stage != 0

/-- The lock is held: dwell, version, then the commit or the shadow (R197, R201, R203, R207). -/
def opGo (s : State) (o : FieldOp) : State :=
  let x := s.area o.area
  let (v, c) := x.newest
  let len := (if o.pwd then 1 else 8) + (if o.ref.isSome then 28 else 0)
  let shadow := !o.pwd && shadowMode s
  let s := setOp { s with air := { s.air with dwell := dwellUs s } } { o with stage := 1 }
  if dwellShort s o.bs len shadow then opEnd s o St.dwellShort []
  else if o.pwd ∧ x.limit ≤ x.attempts then opEnd s o St.pwLocked [0]
  else if o.pwd then
    s.behalfCommit x.owner [.pwAttempt (BitVec.ofNat 64 o.area) 0] (.pwIncr o.area)
  else if o.expected ≠ 0 ∧ o.expected ≠ v then opEnd s o St.versionConflict []
  else if shadow then
    (setOp s { o with stage := 3 }).setArea o.area (x.putShadow fun h => { h with valid := false })
  else
    s.behalfCommit x.owner
      [.area (BitVec.ofNat 64 o.area) (BitVec.ofNat 64 v) ⟨x.size, overlay c o.offset o.data⟩] (.areaWrite o.area)

/-- A field command that wants its area's lock (R209, R211), or waits for it; a write also waits for a pending fold
(R205). -/
def opStart (s : State) (o : FieldOp) : State :=
  let o := { o with id := s.air.nextOp }
  let s := { s with air := { s.air with ops := s.air.ops ++ [o], nextOp := s.air.nextOp + 1 } }
  if fieldMay s o.area then opGo (takeLock s o.area .field) o else s

/-- AREA_LOCK_GRANT (R211): the oldest waiting command of the field takes a free lock. -/
def areaLockGrant (s : State) (a : Nat) : State :=
  match s.air.ops.find? fun o => o.area == a && o.stage == 0 with
  | some o => if fieldMay s a then opGo (takeLock s a .field) o else s
  | none => s

def execAreaLockGrant (a : Fin 64) (s : State) : Host.Outcome State Fault Refusal := done s (areaLockGrant s a.val)

/-- The shadow write is done (R203 steps 3 to 5). Where its flag does not read back intact the write has not happened,
and nothing answers it (R204). -/
def shadowDone (s : State) (a : Nat) (intact : Bool) : State :=
  match s.air.ops.find? fun o => o.area == a && o.stage == 3 with
  | none => s
  | some o =>
    let x := s.area a
    let (v, c) := x.newest
    let s := s.setArea a (x.putShadow fun _ => ⟨intact, v + 1, overlay c o.offset o.data⟩)
    if intact then opEnd (linkLost s o (v + 1)) o St.ok (leBytes 8 (v + 1))
    else opEnd s { o with live := false } St.ok []

def execShadowWriteComplete (a : Fin 64) (intact : Bool) (s : State) : Host.Outcome State Fault Refusal :=
  done s (shadowDone s a.val intact)

/-- The mark of a field write (R197, R202). -/
def areaMarked (s : State) (a : Nat) : State :=
  match opOn s a with
  | some o =>
    if o.stage = 1 ∧ ¬ o.pwd then opEnd (linkLost s o (s.area a).version) o St.ok (leBytes 8 (s.area a).version) else s
  | none => s

/-- Attempts that an area's password still has. -/
def Area.left (x : Area) : List Byte := [BitVec.ofNat 8 (x.limit - x.attempts)]

/-- The password matched, and its reset is committed or refused: the area is unlocked for this link (R207). -/
def pwOk (s : State) (o : FieldOp) : State :=
  let x := s.area o.area
  let s := if o.live then { s with air := { s.air with unlocked := o.area :: s.air.unlocked.filter (· ≠ o.area) } } else s
  opEnd (linkLost s o x.version) o St.ok x.left

/-- The marks of the commits of a PWD (R207): the comparison follows the increment. -/
def pwMarked (s : State) (a : Nat) : State :=
  match opOn s a with
  | none => s
  | some o =>
    let x := s.area a
    if o.stage = 2 then pwOk s o
    else if BitVec.ofNat 64 (leNat o.data) = x.password then
      (setOp s { o with stage := 2 }).behalfCommit x.owner [.pwAttempt (BitVec.ofNat 64 a) 1] (.pwReset a)
    else opEnd (linkLost s o x.version) o (if x.attempts = x.limit then St.pwLocked else St.pwWrong) x.left

/-- The field's commit is refused: the increment's status is the answer, the reset's makes no difference to it
(R207). -/
def fieldRefused (s : State) (a : Nat) (st : Word16) : State :=
  match opOn s a with
  | some o =>
    if o.stage = 2 then pwOk s o else opEnd s o st (if o.pwd ∧ st = St.pwLocked then (s.area a).left else [])
  | none => s

/-- FOLD_SHADOWS (R205): in Service, with replay done and Breakwater ready. A fold takes the area's lock as a field write
does; an area whose lock is held is left to a later event. -/
def foldShadows (s : State) : State :=
  if s.mode ≠ Mode.service ∨ ¬ s.admits then s
  else
    s.dur.areas.foldl (fun s p =>
      match p.2.shadow with
      | some h =>
        if p.1 ∈ s.air.folds ∨ (lockOf s p.1).isSome then s
        else
          (takeLock { s with air := { s.air with folds := s.air.folds ++ [p.1] } } p.1 .fold).behalfCommit p.2.owner
            [.fold p.1 h.version h.content] (.fold p.1)
      | none => s) s

def execFoldShadows (s : State) : Host.Outcome State Fault Refusal := done s (foldShadows s)

/-- A fold is admitted: what waits for it may go on (R205). -/
def foldAdmitted (s : State) (a : Nat) : State :=
  { s with air := { s.air with folds := s.air.folds.filter (· ≠ a) } }

/-- A fold ends: its area's lock is free, unless a command of the field has it by now (R205, R209). -/
def foldEnd (s : State) (a : Nat) : State :=
  let s := foldAdmitted s a
  if lockOf s a = some .fold then dropLock s a else s

/-- A READ's answer (R195, R196). A count that a reply of 256 bytes (R170) cannot carry answers AREA_RANGE. -/
def airReadNow (s : State) (sealed : Bool) (p : List Byte) : Word16 × List Byte :=
  let a := getLe p 0 1
  let x := s.area a
  let (v, c) := x.newest
  let off := getLe p 1 2
  let n := getLe p 3 2
  if 63 < a ∨ x.size = 0 then (St.areaAbsent, [])
  else if ¬ accessMet s x.read a sealed then (St.accessDenied, [])
  else if x.size < off + n ∨ (if sealed then 220 else 248) < n then (St.areaRange, [])
  else (St.ok, leBytes 8 v ++ slice (wordsBytes c) off n)

/-- The context's key bound to a peer (R184), while the context stands and its key is there. -/
def boundKey (s : State) (peer : Word64) : Option (KeyRef × List Byte) :=
  match s.air.bound.find? (·.1 == peer) with
  | none => none
  | some (_, h) =>
    let k := refOfWord s.dur ⟨Tag.sesh, h⟩
    if handleCheck s.dur 0 h ≠ St.ok then none else (airKey s k).map fun b => (k, b)

/-- The payload of a frame and the key that seals its reply. Outer none: it must wait for a counter value, which opening
takes too (R410). Inner none: a sealed payload does not open under the context bound to the link (R171, R176). -/
def airOpen (s : State) (f : AirFrame) : Option (Option (List Byte × Option KeyRef)) × State :=
  if ¬ f.flags.getLsbD 0 then (some (some (f.payload, none)), s)
  else
    match boundKey s s.air.reader with
    | none => (some none, s)
    | some (k, key) =>
      match airCounter s k with
      | (none, true, s) => (some none, s)
      | (none, false, s) => (none, s)
      | (some _, _, s) => (some ((airUnseal key (downHeader f f.payload.length) f.payload).map fun p => (p, some k)), s)

/-- A READ, WRITE or PWD frame that reached the tag, with its payload opened (R178, R196-R211). What READ answers is
verified as it leaves (R121 0x33). -/
def airServe (s : State) (h : HeldFrame) (p : List Byte) (ref : Option KeyRef) : State :=
  let bs := h.f.flags.getLsbD 1
  let ans := fun (s : State) (st : Word16) (d : List Byte) => airResult s h.deferred true h.stale ⟨h.f.seq, st, d, ref, bs⟩
  let a := getLe p 0 1
  let x := s.area a
  let sealed := ref.isSome
  let o : FieldOp := { seq := h.f.seq, pwd := false, ref := ref, area := a, offset := 0, expected := 0, data := []
                       bs := bs, deferred := h.deferred, stale := h.stale }
  if h.f.cmd = 0x10 then
    match airReadNow s sealed p with
    | (st, d) =>
      if st ≠ St.ok then ans s st d
      else
        match egress s 0x33 (some x.owner) with
        | (true, s) => ans s st d
        | (false, s) => ans s St.carryFault []
  else if h.f.cmd = 0x11 then
    let d := p.drop 11
    let off := getLe p 1 2
    if 63 < a ∨ x.size = 0 then ans s St.areaAbsent []
    else if ¬ accessMet s x.write a sealed then ans s St.accessDenied []
    else if x.size < off + d.length then ans s St.areaRange []
    else opStart s { o with offset := off, expected := getLe p 3 8, data := d }
  else if 63 < a ∨ x.size = 0 then ans s St.areaAbsent []
  else if x.password = 0 then ans s St.accessDenied []
  else if x.limit ≤ x.attempts then ans s St.pwLocked [0]
  else if ¬ sealed ∧ ¬ x.openClear then ans s St.pwClearRefused []
  else opStart s { o with pwd := true, data := slice p 1 8 }

/-! ## Link commands in Active or Ready (R175, R177-R179) -/

def setTstate (s : State) (n : Nat) : State := { s with air := { s.air with tstate := n } }

/-- An operation in progress under a SEQ. -/
def airBusy (s : State) (q : Byte) : Bool :=
  (s.air.ops.any fun o => o.live && o.seq == q) || (s.air.apps.any fun a => a.seq == q) ||
    (s.air.held.any fun h => h.f.seq == q) || s.air.due.any fun r => r.seq == q

/-- Whether a reply can be sealed now. -/
def airCanSeal (s : State) : Option KeyRef → Bool
  | none => true
  | some k => let q := keyCtr s.dur k; q.exhausted || decide (2 ^ q.limlog ≤ q.ivctr ∨ q.ivctr < q.reslim)

/-- DESELECT, HALT, GET_RESULT and PING. A kept result goes out sealed where its own command was, or GET_RESULT was. -/
def airLinkCmd (s : State) (f : AirFrame) (p : List Byte) (ref : Option KeyRef) : State :=
  let bs := f.flags.getLsbD 1
  let ans := fun (s : State) (st : Word16) (d : List Byte) => airSend s ⟨f.seq, st, d, ref, bs⟩
  if f.cmd = 0x04 then setTstate (dropLink (ans s St.ok [])) 1
  else if f.cmd = 0x05 then setTstate (dropLink (ans s St.ok [])) 3
  else if f.cmd = 0x06 then
    let q := p.getD 0 0
    match s.air.kept.find? (·.seq == q) with
    | some r =>
      let r := { r with seq := f.seq, bs := bs, ref := r.ref.or ref }
      if airCanSeal s r.ref then airSend { s with air := { s.air with kept := s.air.kept.filter (·.seq ≠ q) } } r
      else ans s St.pending []
    | none => ans s (if airBusy s q then St.pending else St.cmdUnknown) []
  else if p.length ≤ 32 then ans s St.ok (p ++ leBytes 2 (BitVec.ofInt 16 f.rssi).toNat)
  else s

/-- A frame for the device itself is opened and served; one that does not open answers ACCESS_DENIED (R176, R195). READ
and PWD answer STARTING before the replay, in clear, for no counter value is to be had yet (R198; log entry 60). -/
def airService (s : State) (h : HeldFrame) : State :=
  let f := h.f
  let bs := f.flags.getLsbD 1
  if (f.cmd = 0x10 ∨ f.cmd = 0x12) ∧ ¬ s.kpr.replayDone then airSend s ⟨f.seq, St.starting, [], none, bs⟩
  else
    match airOpen s f with
    | (none, s) => { s with air := { s.air with held := s.air.held ++ [h] } }
    | (some none, s) => airResult s h.deferred true h.stale ⟨f.seq, St.accessDenied, [], none, bs⟩
    | (some (some (p, ref)), s) => if f.cmd.toNat < 0x10 then airLinkCmd s f p ref else airServe s h p ref

/-! ## Reception in tag role (R172, R175-R177) -/

/-- A frame that the tag takes: enabled, in tag role, no main loss, its FCS good, addressed to it or broadcast. -/
def airRx (s : State) (f : AirFrame) (code : Byte) (act : State → State) : State :=
  if ¬ airEnabled s ∨ readerRole s ∨ s.pwr.flush ≠ 0 ∨ f.cmd ≠ code then s
  else if ¬ f.fcsOk ∨ 256 < f.payload.length ∨ (f.dest ≠ tagId s ∧ f.dest ≠ broadcast) then s.incReg Reg.AIR_FCSERR
  else act (s.incReg Reg.AIR_RXFRAMES)

def onChannel (s : State) (f : AirFrame) : Bool := f.channel.val == s.air.channel
def toMe (s : State) (f : AirFrame) : Bool := f.dest == tagId s && onChannel s f

def airReplyTo (s : State) (f : AirFrame) (st : Word16) (p : List Byte) : State :=
  airSend s ⟨f.seq, st, p, none, f.flags.getLsbD 1⟩

/-- A command with a SEQ already used drops what is kept for it, and what would be kept of an operation in progress
(R179). -/
def sameSeq (s : State) (q : Byte) : State :=
  { s with air := { s.air with
      kept := s.air.kept.filter (·.seq ≠ q)
      ops := s.air.ops.map fun o => if o.seq = q then { o with stale := true } else o
      held := s.air.held.map fun h => if h.f.seq = q then { h with stale := true } else h
      apps := s.air.apps.filter (·.seq ≠ q) } }

def execAirWake (f : AirFrame) (s : State) : Host.Outcome State Fault Refusal :=
  done s (airRx s f 0x01 fun s =>
    let id := BitVec.ofNat 64 (getLe f.payload 0 8)
    let latched := { s with air := { s.air with tstate := 1, reader := id, channel := f.channel.val } }
    if f.dest ≠ broadcast ∨ f.payload.length ≠ 8 then s
    else match s.air.tstate with
      | 0 => latched
      | 1 => if id ≠ s.air.reader then latched else s
      | 3 =>
        if id ≠ s.air.reader then latched
        else if f.flags.getLsbD 2 then setTstate s 1 else s
      | _ => s)

/-- The identification response is a frame sent, and a reply in backscatter where it takes that form (R185, R190; log entry
60). -/
def execAirIdent (f : AirFrame) (s : State) : Host.Outcome State Fault Refusal :=
  done s (airRx s f 0x02 fun s =>
    let n := getLe f.payload 0 1
    if s.air.tstate = 1 ∧ onChannel s f ∧ f.dest = broadcast ∧ f.payload.length = 9 ∧ n ≤ 64 ∧
        fld (tagId s).toNat 0 n = getLe f.payload 1 8 then
      let b := backscatter s (f.flags.getLsbD 1)
      let s := s.incReg Reg.AIR_TXFRAMES
      let s := if b then s.incReg Reg.AIR_BSREPLIES else s
      { s with
        air := { s.air with bsLast := b }
        outbox := s.outbox ++ [.identResponse (tagId s) (s.reg Reg.KPR_ID_REV) b s.air.channel] }
    else s)

/-- SELECT. No context is bound before it: a sealed one does not open. -/
def execAirSelect (f : AirFrame) (s : State) : Host.Outcome State Fault Refusal :=
  done s (airRx s f 0x03 fun s =>
    if s.air.tstate = 1 ∧ toMe s f then
      if f.flags.getLsbD 0 then airReplyTo s f St.accessDenied []
      else
        let b := backscatter s (f.flags.getLsbD 1)
        airReplyTo (setTstate s 2) f St.ok (leBytes 4 (s.reg Reg.KPR_ID_REV).toNat ++ [BitVec.ofNat 8 (b2n b)])
    else s)

/-- A frame for the device itself in the states in which it acts. -/
def airServed (s : State) (f : AirFrame) (code : Byte) (states : List Nat) : State :=
  airRx s f code fun s => if s.air.tstate ∈ states ∧ toMe s f then airService (sameSeq s f.seq) { f := f } else s

def execAirDeselect (f : AirFrame) (s : State) : Host.Outcome State Fault Refusal := done s (airServed s f 0x04 [2])
def execAirHalt (f : AirFrame) (s : State) : Host.Outcome State Fault Refusal := done s (airServed s f 0x05 [1, 2])

/-- GET_RESULT: its own SEQ may be that of the command it asks for, whose result it then collects. -/
def execGetResult (f : AirFrame) (s : State) : Host.Outcome State Fault Refusal :=
  done s (airRx s f 0x06 fun s =>
    if s.air.tstate = 2 ∧ toMe s f then
      airService (if f.seq = f.payload.getD 0 0 then s else sameSeq s f.seq) { f := f }
    else s)

def execAirPing (f : AirFrame) (s : State) : Host.Outcome State Fault Refusal := done s (airServed s f 0x07 [1, 2])
def execAirRead (f : AirFrame) (s : State) : Host.Outcome State Fault Refusal := done s (airServed s f 0x10 [2])
def execAirWrite (f : AirFrame) (s : State) : Host.Outcome State Fault Refusal := done s (airServed s f 0x11 [2])
def execAirPwd (f : AirFrame) (s : State) : Host.Outcome State Fault Refusal := done s (airServed s f 0x12 [2])

/-- APP (R181): the frame goes to the inbound ring of its binding, with its payload as it came: a context bound to the link
opens and seals the device's own frames only (R184), and a program those of its applications (log entry 120). -/
def execAirApp (f : AirFrame) (s : State) : Host.Outcome State Fault Refusal :=
  done s (airRx s f 0x20 fun s =>
    if s.air.tstate = 2 ∧ toMe s f then
      let s := sameSeq s f.seq
      let n := getLe f.payload 0 1
      let ref := if f.flags.getLsbD 0 then (boundKey s s.air.reader).map (·.1) else none
      if 15 < n ∨ (airBinding s n).isNone then airSend s ⟨f.seq, St.accessDenied, [], ref, f.flags.getLsbD 1⟩
      else
        let s := { s with air := { s.air with
          apps := s.air.apps ++ [{ b := n, seq := f.seq, bs := f.flags.getLsbD 1, ref := ref }] } }
        airPost s n (airEntry s s.air.reader f.cmd f.flags f.seq 0 f.rssi f.payload)
    else s)

/-- A code not listed (R177). -/
def execUnknownCommand (f : AirFrame) (s : State) : Host.Outcome State Fault Refusal :=
  done s (if f.cmd ∈ ([1, 2, 3, 4, 5, 6, 7, 0x10, 0x11, 0x12, 0x20] : List Byte) then s
    else airRx s f f.cmd fun s =>
      if s.air.tstate ≠ 0 ∧ toMe s f then airReplyTo s f St.cmdUnknown [] else s)

def execActiveTimeout (s : State) : Host.Outcome State Fault Refusal :=
  done s (if s.air.tstate = 2 then setTstate (dropLink s) 1 else s)

def execFieldLoss (s : State) : Host.Outcome State Fault Refusal :=
  done s (
    let t := if s.air.tstate ≠ 0 then airIdle s else s
    { t with air := { t.air with field := false } })

/-- The response window of a command in progress ends (R179): PENDING, for a field command, for an APP frame, for a sealed
frame that waits to be opened, and for a result that waits to be sealed. -/
def windowExpiry (s : State) (q : Byte) : State :=
  match s.air.ops.find? (fun o => o.live && o.seq == q && !o.deferred),
      s.air.apps.find? (fun a => a.seq == q && !a.deferred),
      s.air.held.find? (fun h => h.f.seq == q && !h.deferred && decide (0x10 ≤ h.f.cmd.toNat)),
      s.air.due.find? (·.seq == q) with
  | some o, _, _, _ => airSend (setOp s { o with deferred := true }) ⟨q, St.pending, [], o.ref, o.bs⟩
  | none, some a, _, _ =>
    let s := { s with air := { s.air with apps := s.air.apps.map fun b => if b = a then { a with deferred := true } else b } }
    airSend s ⟨q, St.pending, [], a.ref, a.bs⟩
  | none, none, some h, _ =>
    let s := { s with air := { s.air with held := s.air.held.map fun g => if g = h then { h with deferred := true } else g } }
    airSend s ⟨q, St.pending, [], none, h.f.flags.getLsbD 1⟩
  | none, none, none, some r =>
    let s := { s with air := { s.air with due := s.air.due.filter (·.seq ≠ q) } }
    airPut (keepResult s r) q St.pending [] r.bs
  | none, none, none, none => s

def execResultWindowExpiry (q : Byte) (s : State) : Host.Outcome State Fault Refusal :=
  done s (if s.air.tstate ≠ 2 then s else windowExpiry s q)

/-- APP_REPLY (R183): an entry of the outbound ring of a binding. Its data is verified as it leaves (R121 0x33). -/
def appReply (s : State) (b : Nat) : State :=
  match airBinding s b with
  | none => s
  | some (_, _, r) =>
    if readerRole s then s
    else
      match takeRing s r with
      | (none, s) => s
      | (some p, s) =>
        let e := p.bytes
        let q := e.getD 0x0A 0
        match s.air.apps.find? fun a => a.b == b && a.seq == q with
        | some a =>
          if airEnabled s ∧ s.air.tstate = 2 ∧ getLe e 0 8 = s.air.reader.toNat then
            let s := { s with air := { s.air with apps := s.air.apps.filter (· ≠ a) } }
            match if p.poisoned then (false, s) else egress s 0x33 none with
            | (true, s) => airResult s a.deferred true false
                ⟨q, BitVec.ofNat 16 (getLe e 0x0C 2), slice e 0x20 (min 256 (getLe e 0x0E 2)), none, a.bs⟩
            | (false, s) => airResult s a.deferred true false ⟨q, St.carryFault, [], a.ref, a.bs⟩
          else s.incReg Reg.AIR_DROPPED
        | none => s.incReg Reg.AIR_DROPPED

def execAppReply (b : Fin 16) (s : State) : Host.Outcome State Fault Refusal := done s (appReply s b.val)

/-! ## ENABLE, signal, wait mode -/

/-- ENABLE is set by the keeper (R163, R164, R191), with the outcome of the self-test. In the modes of R164 only the bit
changes. -/
def airEnable (s : State) (testOk : Bool) : State :=
  let s := s.setReg Reg.AIR_CTRL (s.reg Reg.AIR_CTRL ||| 1)
  if s.mode ≠ Mode.workshop ∧ s.mode ≠ Mode.service then s
  else { s with air := { s.air with roleLocked := true, txfail := if readerRole s then s.air.txfail else !testOk } }

def airDisable (s : State) : State :=
  let s := airIdle (s.setReg Reg.AIR_CTRL (s.reg Reg.AIR_CTRL &&& ~~~1))
  { s with air := { s.air with waiting := false } }

def execAirEnable (testOk : Bool) (s : State) : Host.Outcome State Fault Refusal :=
  done s (s.byKeeper fun s => airEnable s testOk)
def execAirDisable (s : State) : Host.Outcome State Fault Refusal := done s (s.byKeeper fun s => airDisable s)

/-- A keeper write of AIR.CTRL (R163, R214): ROLE under its rule, then the other fields, then ENABLE. The self-test of
an ENABLE written so is the environment's, and drawn. -/
def airCtrl (s : State) (v : Word32) : State :=
  let old := s.reg Reg.AIR_CTRL
  let role := if old.getLsbD 0 ∨ s.air.roleLocked then old &&& 2 else v &&& 2
  let s := s.setReg Reg.AIR_CTRL ((v &&& 0x318) ||| role ||| (old &&& 1))
  let s := if v.getLsbD 4 then s else { s with air := { s.air with waiting := false } }
  if v.getLsbD 0 ∧ ¬ old.getLsbD 0 then
    airEnable { s with freeCtr := s.freeCtr + 1 } (Config.pick s.freeCtr % 2 == 0)
  else if ¬ v.getLsbD 0 ∧ old.getLsbD 0 then airDisable s
  else s

/-- READER_SIGNAL_SAMPLE (R199): FIELD shows the carrier; in Service the last sixteen samples are kept. -/
def execReaderSignalSample (x : Int) (s : State) : Host.Outcome State Fault Refusal :=
  done s (
    if ¬ airEnabled s ∨ readerRole s then s
    else
      let s := { s with air := { s.air with field := decide (floorCdb s < x) } }
      if s.mode ≠ Mode.service then s
      else
        let l := s.air.samples ++ [x]
        let l := l.drop (l.length - 16)
        let s := { s with air := { s.air with samples := l } }
        let (_, n) := sampleSums l
        let lev := BitVec.ofInt 16 (rssi272 l / 2720)
        let slope := BitVec.ofInt 16 (2 * n / 85)
        let s := { s with air := { s.air with dwell := dwellUs s } }
        if l.length < 16 then s else s.setReg Reg.AIR_RSSI (slope ++ lev))

/-- Wait mode's probes run: with the link, and in Standby (R164). -/
def waitRuns (s : State) : Bool := airEnabled s || (s.regBit Reg.AIR_CTRL 0 && s.mode == Mode.standby)

/-- WAIT_MODE_ENTRY (R192): HOLD has passed with no tag selected. -/
def execWaitModeEntry (s : State) : Host.Outcome State Fault Refusal :=
  done s (if readerRole s ∧ waitRuns s ∧ s.regBit Reg.AIR_CTRL 4 then
    { s with air := { s.air with waiting := true } } else s)

/-- WAIT_PROBE (R192, R193): `loss` is the return loss in 0.01 dB. -/
def execWaitProbe (loss : Nat) (other : Bool) (s : State) : Host.Outcome State Fault Refusal :=
  done s (
    if ¬ s.air.waiting ∨ ¬ waitRuns s ∨ ¬ readerRole s then s
    else
      let s := { s with outbox := s.outbox ++ [.probe (s.regFld Reg.AIR_CTRL 8 2)] }
      if other then s
      else
        let base := s.regFld Reg.AIR_WAITBASE 0 16
        let hit := !s.air.probes.isEmpty && decide (s.regFld Reg.AIR_WAIT 0 16 < max loss base - min loss base)
        let l := s.air.probes ++ [loss]
        let l := l.drop (l.length - 64)
        let s := { s with air := { s.air with probes := l } }
        let s := s.setReg Reg.AIR_WAITBASE (BitVec.ofNat 32 (l.sum / l.length % 65536))
        if hit then wakeSource { s with air := { s.air with waiting := false, invStack := [] } } 3 else s)

/-! ## Reader role (R181, R187) -/

/-- A reader's frame leaves, and is counted. -/
def airDown (s : State) (f : AirFrame) : State :=
  { s.incReg Reg.AIR_TXFRAMES with outbox := s.outbox ++ [.downlink f] }

/-- A command leaves for a tag, and its reply is awaited on the inbound ring of the same binding. -/
def airCommand (s : State) (b : Nat) (f : AirFrame) (ref : Option KeyRef) : State :=
  let s := airDown s f
  { s with air := { s.air with sent := sput b { peer := f.dest, cmd := f.cmd, seq := f.seq, ref := ref } s.air.sent } }

/-- The entry that a binding sends next, sealed where its command is the device's own and its peer is bound (R171, R184; log
entry 120). It waits for a counter value; one that cannot be sealed, or that fails its carry check as it leaves (R121
0x33), ends with its status. -/
def readerSend (s : State) (b r : Nat) : State :=
  let x := s.ring r
  let k := boundKey s (BitVec.ofNat 64 (leNat (s.rdBytes (x.slotAddr x.head) 8)))
  let flags := s.rdByte (x.slotAddr x.head + 9)
  let cmd := s.rdByte (x.slotAddr x.head + 8)
  let wants := flags.getLsbD 0 && decide (cmd.toNat < 0x20) && k.isSome && x.lens != []
  match if wants then k.map (fun k => airCounter s k.1) else none with
  | some (none, false, s) => { s with air := { s.air with heldTx := s.air.heldTx.filter (· ≠ b) ++ [b] } }
  | c =>
    match takeRing s r with
    | (none, s) => s
    | (some p, s) =>
      let e := p.bytes
      let f : AirFrame := {
        channel := readerChannel s, cmd := e.getD 8 0, flags := e.getD 9 0, dest := BitVec.ofNat 64 (getLe e 0 8)
        seq := e.getD 0x0A 0, payload := slice e 0x20 (min 256 (getLe e 0x0E 2)) }
      let ends := fun (s : State) (st : Word16) => airPost s b (airEntry s f.dest f.cmd 0 f.seq st 0 [])
      match if p.poisoned then (false, s) else egress s 0x33 none with
      | (false, s) => ends s St.carryFault
      | (true, s) =>
        match c, k with
        | some (none, true, _), _ => ends s St.keyExhausted
        | some (some _, _, _), some (ref, key) =>
          if 228 < f.payload.length then ends s St.entryInvalid
          else
            match airCounter s ref with
            | (some n, _, s) =>
              airCommand s b { f with payload := airSeal s key n (downHeader f (f.payload.length + 28)) f.payload } (some ref)
            | (none, _, s) => ends s St.keyExhausted
        | _, _ => airCommand s b f none

/-- READER_COMMAND_SEND: an entry of the outbound ring of a binding is transmitted. -/
def readerCommandSend (s : State) (b : Nat) : State :=
  match airBinding s b with
  | none => s
  | some (_, _, r) =>
    if ¬ readerRole s ∨ ¬ airEnabled s ∨ s.pwr.flush ≠ 0 ∨ s.air.sent.any (·.1 == b) then s else readerSend s b r

def execReaderCommandSend (b : Fin 16) (s : State) : Host.Outcome State Fault Refusal := done s (readerCommandSend s b.val)

/-- What a reply tells the reader of its tag's state (R175): the state after the command where it was answered OK, and
Active for a command that acts there alone. -/
def peerState (old : Nat) (cmd : Byte) (st : Word16) : Nat :=
  if st ≠ St.ok then old
  else if cmd = 0x04 then 1 else if cmd = 0x05 then 3 else if cmd = 0x07 then old else 2

/-- A reader hears a reply of a tag. A tag that has left Active has no binding (R184). -/
def heard (s : State) (f : UplinkFrame) (cmd : Byte) (bs : Bool) : State :=
  let old := ((s.air.peers.find? (·.1 == f.src)).map (·.2)).getD {}
  let new : AirPeer := ⟨f.rssi, bs, peerState old.tstate cmd f.status⟩
  { s.incReg Reg.AIR_RXFRAMES with air := { s.air with
      peers := (s.air.peers.filter (·.1 ≠ f.src)) ++ [(f.src, new)]
      bound := if f.status = St.ok ∧ (cmd = 0x04 ∨ cmd = 0x05) then s.air.bound.filter (·.1 ≠ f.src) else s.air.bound } }

/-- READER_REPLY_RECEIVED: posted to the inbound ring of the same binding. The reply to a sealed command is opened; one that
does not open is posted without its payload, as AUTH_FAIL (log entry 120). -/
def replyReceived (s : State) (b : Nat) (f : UplinkFrame) : State :=
  match s.air.sent.find? (·.1 == b) with
  | some (_, c) =>
    if f.src ≠ c.peer ∨ f.seq ≠ c.seq then s
    else
      let old := ((s.air.peers.find? (·.1 == f.src)).map (·.2)).getD {}
      let post := fun (s : State) (st : Word16) (p : List Byte) => airPost s b (airEntry s c.peer c.cmd 0 c.seq st f.rssi p)
      let s := { s with air := { s.air with sent := sdel b s.air.sent } }
      match c.ref.bind (airKey s), f.payload.isEmpty with
      | some key, false =>
        match airUnseal key (upHeader f.src f.seq f.status f.payload.length) f.payload with
        | some p => post (heard s f c.cmd old.bs) f.status p
        | none => post (s.incReg Reg.AIR_RXFRAMES) St.authFail []
      | _, _ => post (heard s f c.cmd old.bs) f.status (if c.ref.isSome then [] else f.payload)
  | none => s

def execReaderReplyReceived (b : Fin 16) (f : UplinkFrame) (s : State) : Host.Outcome State Fault Refusal :=
  done s (replyReceived s b.val f)

/-- READER_REPLY_TIMEOUT: no reply starts within the window. The tag is no longer known to be there. -/
def execReaderReplyTimeout (b : Fin 16) (s : State) : Host.Outcome State Fault Refusal :=
  done s (
    match s.air.sent.find? (·.1 == b.val) with
    | some (_, c) =>
      let s := { s with air := { s.air with sent := sdel b.val s.air.sent, peers := s.air.peers.filter (·.1 ≠ c.peer) } }
      airPost s b.val (airEntry s c.peer c.cmd 0 c.seq St.linkLost 0 [])
    | none => s)

/-- The SELECT of an identified tag (R187): posted to binding 0 where its reply is valid. -/
def airSelectTag (s : State) (replies : List UplinkFrame) (id : Word64) : State :=
  let s := airDown s { channel := readerChannel s, cmd := 0x03, flags := 0, dest := id, seq := 0, payload := [] }
  match replies.find? fun r => r.src == id && r.payload.length == 5 with
  | some r => airPost (heard s r 0x03 (r.payload.getD 4 0 != 0)) 0 (airEntry s id 0x03 0 r.seq r.status r.rssi r.payload)
  | none => s

/-- INVENTORY_ROUND: one pass of the loop of R187. An empty stack begins an inventory. -/
def inventoryRound (s : State) (r : IdentReply) (replies : List UplinkFrame) : State :=
  if ¬ airEnabled s ∨ ¬ readerRole s ∨ s.air.waiting ∨ ¬ s.regBit Reg.AIR_INV 16 then s
  else
    let stack := if s.air.invStack = [] then [(0, 0)] else s.air.invStack
    match stack with
    | [] => s
    | (plen, pre) :: rest =>
      let s := airDown s {
        channel := readerChannel s, cmd := 0x02, flags := 0, dest := broadcast
        seq := 0, payload := BitVec.ofNat 8 plen :: leBytes 8 pre.toNat }
      let go := fun (s : State) (st : List (Nat × Word64)) (n : Nat) =>
        { s with air := { s.air with invStack := st, retries := n } }
      let bitOf := fun (c : Fin 64) => (1#64) <<< c.val
      if r.silent then go s rest 0
      else
        let s := s.incReg Reg.AIR_RXFRAMES
        match r.collided with
        | [] =>
          if r.fcsOk then airSelectTag (go s rest 0) replies r.id
          else if s.air.retries < 3 then go s stack (s.air.retries + 1)
          else go s rest 0
        | [c] =>
          airSelectTag (airSelectTag (go s rest 0) replies (r.id &&& ~~~(bitOf c))) replies (r.id ||| bitOf c)
        | c0 :: cs =>
          let c := cs.foldl (fun a b => if b.val < a.val then b else a) c0
          let low := r.id &&& (bitOf c - 1)
          go s ((c.val + 1, low) :: (c.val + 1, low ||| bitOf c) :: rest) 0

def execInventoryRound (r : IdentReply) (l : List UplinkFrame) (s : State) : Host.Outcome State Fault Refusal :=
  done s (inventoryRound s r l)

/-! ## AIRX (R184, R302) -/

/-- The peer is valid: in tag role only the latched reader, while the tag is Active; in reader role a tag that has been
heard (log entry 120). -/
def airPeer (s : State) (p : Word64) : Bool :=
  if readerRole s then s.air.peers.any fun q => q.1 == p else s.air.tstate == 2 && p == s.air.reader

/-- BIND (R184). -/
def airxBind (s : State) (i t : Nat) (h peer : Word64) : State :=
  let c := s.sctx (hIndex h)
  let st := handleCheck s.dur i h
  if st ≠ St.ok then s.tkDone i t st
  else if c.kind ≠ 1 then s.tkDone i t St.argInvalid
  else if ¬ c.keyPresent then s.tkDone i t St.keyAbsent
  else if ¬ airPeer s peer then s.tkDone i t St.linkLost
  else
    { s with air := { s.air with bound := (s.air.bound.filter fun (q : Word64 × Word64) => q.1 ≠ peer) ++ [(peer, h)] } }.tkDone
      i t St.ok (List.replicate 4 (intW 0))

/-- LINK (R302). A reader has no slope and no dwell of its own: the spec states none, and they are free. -/
def airxLink (s : State) (i t : Nat) (peer : Word64) : State :=
  let int := fun (x : Int) => intW (BitVec.ofInt 64 x)
  let signed := fun (lo : Nat) => int (BitVec.ofNat 16 (s.regFld Reg.AIR_RSSI lo 16)).toInt
  if ¬ airPeer s peer then s.tkDone i t St.linkLost
  else if readerRole s then
    let x := ((s.air.peers.find? fun q => q.1 == peer).map (·.2)).getD {}
    { s with freeCtr := s.freeCtr + 2 }.tkDone i t St.ok [int (x.tstate + 256 * b2n x.bs), int x.rssi,
      intW (Config.freeWord s.freeCtr), intW (Config.freeWord (s.freeCtr + 1))]
  else
    s.tkDone i t St.ok [int (s.air.tstate + 256 * b2n s.air.bsLast), signed 0, signed 16, int (dwellUs s)]

def airx (s : State) (i t : Nat) (o : Op) : State :=
  let peer := fun k => (o.word k).data
  match o.sel with
  | 1 => airxBind s i t (o.word 1).data (peer 2)
  | 2 =>
    if (s.air.bound.any fun (q : Word64 × Word64) => q.1 == peer 1) = true then
      { s with air := { s.air with bound := s.air.bound.filter fun (q : Word64 × Word64) => q.1 ≠ peer 1 } }.tkDone i t St.ok (List.replicate 4 (intW 0))
    else s.tkDone i t St.linkLost
  | 3 => airxLink s i t (peer 1)
  | 4 =>
    if ¬ readerRole s then s.tkDone i t St.roleRefused
    else if 1 < o.num 1 then s.tkDone i t St.argInvalid
    else
      let s := { s with air := { s.air with invStack := [], retries := 0 } }
      (s.setReg Reg.AIR_INV (BitVec.ofNat 32 (65536 * o.num 1 + s.regFld Reg.AIR_INV 0 16))).tkDone i t St.ok
        (List.replicate 4 (intW 0))
  | 5 =>
    let x := s.area (o.num 1)
    let (v, c) := x.newest
    if readerRole s then s.tkDone i t St.roleRefused
    else if ¬ s.kpr.replayDone then s
    else if 63 < o.num 1 then s.tkDone i t St.argInvalid
    else if x.size = 0 then s.tkDone i t St.areaAbsent
    else if x.size < o.num 2 + o.num 3 then s.tkDone i t St.areaRange
    else
      deliverTo s i t (o.num 4) (contentPart c (o.num 2) (o.num 3)) false (o.num 3)
        [intW (BitVec.ofNat 64 v), intW 0, intW 0, intW 0]
  | _ => s.tkDone i t St.argInvalid

/-- A main loss has closed the link, and no reply is due any more (R189). -/
def airClosed (s : State) : State := if s.pwr.flush ≠ 0 ∧ s.air.due = [] ∧ s.air.tstate ≠ 0 then airIdle s else s

/-- What waited for a counter value goes on at the advance's mark (R412). -/
def airResume (s : State) : State :=
  let held := s.air.held
  let due := s.air.due
  let tx := s.air.heldTx
  let s := { s with air := { s.air with held := [], due := [], heldTx := [] } }
  let s := due.foldl airSend (held.foldl airService s)
  airClosed (tx.foldl readerCommandSend s)

/-- An advance failed (R412): what waits for a value of its key is answered with its status, in clear. -/
def airFailed (s : State) (k : KeyRef) (st : Word16) : State :=
  let mine := fun (f : AirFrame) => f.flags.getLsbD 0 && (boundKey s s.air.reader).any fun q => q.1 == k
  let held := s.air.held.filter fun h => mine h.f
  let due := s.air.due.filter fun r => r.ref == some k
  let s := { s with air := { s.air with
    held := s.air.held.filter fun h => !mine h.f, due := s.air.due.filter fun r => r.ref != some k } }
  let s := held.foldl (fun s h =>
    airResult s h.deferred true h.stale ⟨h.f.seq, st, [], none, h.f.flags.getLsbD 1⟩) s
  airClosed (due.foldl (fun s r => airPut s r.seq st [] r.bs) s)

def execReservationResume (k : KeyRef) (s : State) : Host.Outcome State Fault Refusal := done s (airResume (resumeKey s k))

end Sys2Proof.Machine
end

