-- ==== Sys2Proof/Machine/Port.lean ====
section
/-! DEFINITION. What the card bus and the vehicle ports share (14, R511-R515): bindings, entries, and posting to rings. Ports
are numbered as `Ports` says. -/

namespace Sys2Proof.Machine

open Sys2Proof

/-- The register that binds a port. -/
def portBindReg (k : Nat) : Nat :=
  if k < 5 then Reg.CRD_BIND + 4 * k
  else if k < 7 then Reg.ISO_BIND + 0x40 * (k - 5)
  else if k < 9 then Reg.CAN_BIND + 0x40 * (k - 7)
  else if k = 9 then Reg.SNS_BIND
  else Reg.GNS_BIND

/-- A binding that keeps the rule of R512: its instance, its inbound and its outbound ring. -/
def portBinding (s : State) (k : Nat) : Option (Nat × Nat × Nat) :=
  let w := (s.reg (portBindReg k)).toNat
  let i := fld w 25 6
  let ok := fun r => ringIn s i r && (s.ring r).owner == i && (s.ring r).eslots == 0 && (s.ring r).lenOff == 0
  if fld w 31 1 = 1 ∧ ok (fld w 12 12) ∧ ok (fld w 0 12) then some (i, fld w 12 12, fld w 0 12) else none

/-- The port runs: for bound instances in Service, for the keeper in Workshop (R511). -/
def portRuns (s : State) (k : Nat) : Bool :=
  s.kpr.standby == 0 &&
    match portBinding s k with
    | some (i, _, _) => s.mode == Mode.service || (s.mode == Mode.workshop && i == 0)
    | none => false

/-- The port's mode allows it whatever its binding. -/
def portMode (s : State) : Bool := s.kpr.standby == 0 && (s.mode == Mode.service || s.mode == Mode.workshop)

def State.pbuf (s : State) (k : Nat) : PortBuf := sget (fun _ => {}) s.ports.bufs k
def State.setPbuf (s : State) (k : Nat) (x : PortBuf) : State :=
  { s with ports := { s.ports with bufs := sset (fun _ => {}) s.ports.bufs k x } }

/-- Entries that the buffer of a port still takes: four a port, the card bus being one, and 64 a CAN controller. -/
def bufRoom (s : State) (k : Nat) : Bool :=
  if k < 5 then decide (((List.range 5).map fun b => (s.pbuf b).held.length).sum < 4)
  else if k = 7 ∨ k = 8 then decide ((s.pbuf k).held.length < 64)
  else decide ((s.pbuf k).held.length < 4)

/-- The slots of an entry with `n` payload bytes (R513). -/
def entrySlots (n : Nat) : Nat := if n ≤ 32 then 1 else 1 + (n - 32 + 63) / 64

/-- An entry of R513. -/
def portEntry (kind : Nat) (st : Word16) (corr : Word32) (op unit : Nat) (arg : Word32) (time arg2 : Word64)
    (data : List Byte) : Payload :=
  let n := entrySlots data.length
  let l := [BitVec.ofNat 8 n, BitVec.ofNat 8 kind] ++ leBytes 2 st.toNat ++ leBytes 4 corr.toNat ++
    [BitVec.ofNat 8 op, BitVec.ofNat 8 unit] ++ leBytes 2 data.length ++ leBytes 4 arg.toNat ++ leBytes 8 time.toNat ++
    leBytes 8 arg2.toNat ++ data
  rawPayload (l ++ zeros (64 * n - l.length))

/-- An entry posted after a drop carries PORT_OVERRUN and the count in its ARG2 (R515). -/
def overrun (e : Payload) (n : Nat) : Payload :=
  let b := e.bytes
  rawPayload (b.take 2 ++ leBytes 2 St.portOverrun.toNat ++ slice b 4 20 ++ leBytes 8 n ++ b.drop 32)

/-- An entry goes onto the port's ring, if it has room. -/
def postNow (s : State) (k : Nat) (e : Payload) : Bool × State :=
  match portBinding s k with
  | none => (true, s)
  | some (_, r, _) =>
    let d := (s.pbuf k).dropped
    match postRing s r (if d = 0 then e else overrun e d) with
    | (true, s) => (true, s.setPbuf k { s.pbuf k with dropped := 0 })
    | (false, s) => (false, s)

/-- The overrun counter of a port, where it has one. -/
def overrunReg (k : Nat) : Option Nat :=
  if k < 5 then some Reg.CRD_OVERRUN
  else if k = 7 ∨ k = 8 then some (Reg.CAN_OVERRUN + 0x40 * (k - 7))
  else none

/-- A port posts an entry: to its ring, else into its buffer, else it is dropped and counted. A port whose binding breaks
R512 posts and counts nothing. -/
def postEntry (s : State) (k : Nat) (e : Payload) : State :=
  if (portBinding s k).isNone then s
  else
    let try1 := if (s.pbuf k).held = [] then postNow s k e else (false, s)
    match try1 with
    | (true, s) => s
    | (false, s) =>
      if bufRoom s k then s.setPbuf k { s.pbuf k with held := (s.pbuf k).held ++ [e] }
      else
        let s := s.setPbuf k { s.pbuf k with dropped := (s.pbuf k).dropped + 1 }
        match overrunReg k with
        | some a => s.incReg a
        | none => s

/-- Held entries go onto the ring, the oldest first, as long as it has room. -/
def drainBuf (k : Nat) : Nat → State → State
  | 0, s => s
  | n + 1, s =>
    match (s.pbuf k).held with
    | [] => s
    | e :: l =>
      match postNow s k e with
      | (true, s) => drainBuf k n (s.setPbuf k { s.pbuf k with held := l })
      | (false, _) => s

/-! ## Requests (R513, R514) -/

/-- The outbound ring of a port holds a request. -/
def reqWaits (s : State) (k : Nat) : Bool :=
  match portBinding s k with
  | some (_, _, r) => portRuns s k && (s.ring r).st == 1 && (s.ring r).outbound && !(s.ring r).inHost && (s.ring r).lens != []
  | none => false

/-- The OP of the next request. -/
def reqOp (s : State) (k : Nat) : Nat :=
  match portBinding s k with
  | some (_, _, r) => (s.rdByte ((s.ring r).slotAddr (s.ring r).head + 8)).toNat
  | none => 0

/-- The completion of a request. -/
def complete (s : State) (q : PortReq) (st : Word16) (arg : Word32 := 0) (arg2 : Word64 := 0) (data : List Byte := []) : State :=
  postEntry s q.bind (portEntry 2 st q.corr q.op q.unit arg s.kpr.devtime arg2 data)

/-- The next request is taken. One that fails its check, or holds a POISON word, completes with CARRY_FAULT, and nothing of
it is sent (R514, R123, R225): what named it is open where its first slot failed. A LEN beyond the entry is answered with ARG_INVALID by the
caller. -/
def takeReq (s : State) (k : Nat) : Option PortReq × State :=
  match portBinding s k with
  | none => (none, s)
  | some (_, _, r) =>
    match ringHeadEntry s r none with
    | none => (none, s)
    | some (n, ws, bad, s) =>
      let c := s.freeCtr
      let b := if (ws.getD 0 (rawW 0)).tag = Tag.poison then (freePayload c 64).bytes
        else Payload.bytes ⟨64 * n, ws⟩
      let q : PortReq := {
        bind := k, op := getLe b 8 1, unit := getLe b 9 1
        corr := BitVec.ofNat 32 (getLe b 4 4), arg := BitVec.ofNat 32 (getLe b 12 4)
        arg2 := BitVec.ofNat 64 (getLe b 24 8)
        data := if getLe b 10 2 ≤ 64 * n - 32 then slice b 32 (getLe b 10 2) else zeros 1024 }
      if bad || ws.any (·.tag == Tag.poison) then (none, complete { s with freeCtr := c + 1 } q St.carryFault) else (some q, s)

/-- A request's data goes to the pins, where it is verified once more (R121 0x34-0x37). One that fails there completes with
CARRY_FAULT, and nothing is sent (R514). -/
def transmit (s : State) (q : PortReq) (loc : Nat) (f : State → State) : State :=
  match egress s loc ((portBinding s q.bind).map (·.1)) with
  | (true, s) => f s
  | (false, s) => complete s q St.carryFault

/-- An event of a port that runs. -/
def event (s : State) (k : Nat) (st : Word16) (op unit : Nat) (arg : Word32) (time arg2 : Word64) (data : List Byte := []) : State :=
  if portRuns s k then postEntry s k (portEntry 3 st 0 op unit arg time arg2 data) else s

/-- A withdrawal record in the volume of a port's instance, and the completion with OUTCOME_UNKNOWN once its commit is
marked or has failed (R530). -/
def withdrawal (s : State) (q : PortReq) (rca : Nat) (block : Word32) (cid : Word128) (arg2 : Word64) : State :=
  let v := match portBinding s q.bind with | some (i, _, _) => i | none => 0
  let e := portEntry 2 St.outcomeUnknown q.corr q.op q.unit 0 s.kpr.devtime arg2 []
  s.devCommit [.devRec v 0x0008 ([BitVec.ofNat 8 rca, 0, 0, 0] ++ leBytes 4 block.toNat ++ leBytes 16 cid.toNat)]
    (.portPost q.bind e)

end Sys2Proof.Machine
end

