-- ==== Sys2Proof/Machine/Protect.lean ====
section
/-! DEFINITION. The ranges of R22 and the protection sets: what decides an access (R305, R329-R331). -/

namespace Sys2Proof.Machine

/-! ## Ranges and rights -/

/-- The ranges of R22, numbered as the fields of MPU.DMAP from its low end. -/
def rangeOf (a : Nat) : Option Nat :=
  if a < 0x40000 then some 0
  else if 0x10000000 ≤ a ∧ a < 0x10800000 then some 1
  else if 0x20000000 ≤ a ∧ a < 0x21000000 then some 2
  else if 0x21000000 ≤ a ∧ a < 0x22000000 then some 3
  else if 0x28000000 ≤ a ∧ a < 0x28100000 then some 4
  else if 0x40000000 ≤ a ∧ a < 0x41A00000 then some 5
  else if 0x100000000 ≤ a ∧ a < 0x1C0000000 then some 6
  else if 0x1C0000000 ≤ a ∧ a < 0x1CE000000 then some 7
  else none

/-- The right an access needs (R329). -/
inductive Right where
  | r | w | rw | x
  deriving DecidableEq, Repr

/-- Whether rights (bit 0 R, bit 1 W, bit 2 X) grant what an access needs. -/
def grants (bits : Nat) : Right → Bool
  | .r => bits.testBit 0
  | .w => bits.testBit 1
  | .rw => bits.testBit 0 && bits.testBit 1
  | .x => bits.testBit 2

/-- Ranges reached at level K only; ROM is not written at any level (R22). -/
def rangePermits (rng : Nat) (level : Fin 3) (rt : Right) : Bool :=
  (level == 2 || rng == 1 || rng == 2 || rng == 3 || rng == 6) && !(rng == 0 && (rt == .w || rt == .rw))

/-- A region's words (R334). -/
def MpuSet.region (m : MpuSet) (n : Nat) : Word32 × Word32 := sget (fun _ => (0, 0)) m.rgn n
def rgnBase (r : Word32 × Word32) : Nat := r.1.toNat / 64 * 64 + 2 ^ 32 * fld r.2.toNat 0 8
def rgnSize (r : Word32 × Word32) : Nat := 2 ^ fld r.2.toNat 8 6
def rgnEn (r : Word32 × Word32) : Bool := r.2.getLsbD 31
def rgnMin (r : Word32 × Word32) : Nat := fld r.2.toNat 24 2
def rgnRights (r : Word32 × Word32) : Nat := fld r.2.toNat 20 3

/-- The deciding region of a byte: the highest-numbered one that matches (R329). -/
def deciding (m : MpuSet) (a : Nat) : Option (Word32 × Word32) :=
  (((List.range 16).reverse.map m.region).find? fun r =>
    rgnEn r && decide (rgnBase r ≤ a ∧ a < rgnBase r + rgnSize r))

/-- The set in force for an access of an instance at a level (R305). -/
def setFor (s : State) (i : Nat) (level : Fin 3) : MpuSet := s.mpuSet (if level = 2 then 0 else i)

/-- One byte: none when the access is permitted, else the DETAIL (R332 steps 3 and 4). -/
def byteDenied (s : State) (i : Nat) (level : Fin 3) (a : Nat) (rt : Right) : Option Nat :=
  match rangeOf a with
  | none => some 1
  | some rng =>
    if ¬ rangePermits rng level rt then some 1
    else
      match deciding (setFor s i level) a with
      | some r => if rgnMin r ≤ level.val ∧ grants (rgnRights r) rt then none else some 4
      | none =>
        if level = 0 then some 3
        else if grants (fld (setFor s i level).dmap.toNat (3 * rng) 3) rt then none else some 5

/-- A part of a wider access: device registers are not reached by one (DETAIL 8, the width of R27, which R332 checks
before the rights). -/
def partDenied (s : State) (i : Nat) (level : Fin 3) (a : Nat) (rt : Right) : Option Nat :=
  if rangeOf a = some 5 then some 8 else byteDenied s i level a rt

/-- A range of bytes, part by part: the lowest failing byte with its DETAIL (R331). Parts begin at multiples of 64. -/
def rangeDenied (s : State) (i : Nat) (level : Fin 3) (a n : Nat) (rt : Right) : Option (Nat × Nat) :=
  (a :: (unitsOf a n).tail).findSome? fun b => (partDenied s i level b rt).map fun d => (d, b)

/-- What the device reads with the keeper's rights is readable at level K (R305, R307, R340). -/
def keeperReads (s : State) (a n : Nat) : Bool := (rangeDenied s 0 2 a n .r).isNone

end Sys2Proof.Machine
end

