-- ==== Sys2Proof/Machine/Inst.lean ====
section
/-! DEFINITION. Instances (09, R335-R362): the commands of INS.CMD, what each commit of theirs does at its mark, the
quiesce, and the epoch boundary. -/

namespace Sys2Proof.Machine

open Sys2Proof

/-! ## Descriptors (R340-R343) -/

def isel (s : State) : Nat := s.regFld Reg.INS_ISEL 0 6

/-- The end of a command: its status, and BUSY clear. -/
def insEnd (s : State) (st : Word16) : State := { s with ins := { s.ins with busy := none, held := 0, stat := st } }

/-- The 256 bytes of a descriptor. -/
def descFieldsOk (d : List Byte) : Bool :=
  let g := descGet d
  let zero := fun o n => (slice d o n).all (· == 0)
  let base := g .dramBase
  let fin := base + 2 ^ 20 * g .dramSize
  let area := fun top size => decide (base + g .contexts * (64 * size) ≤ top ∧ top ≤ fin)
  decide (g .model ≤ 1 ∧ 1 ≤ g .contexts ∧ g .contexts ≤ 64 ∧ g .share ≤ 12000 ∧ 1 ≤ g .lanes ∧ g .lanes ≤ 16 ∧
    g .ctimeout ≤ 1000 ∧ 2 ≤ g .ringCount ∧ g .ringBase + g .ringCount ≤ 4096 ∧
    g .ringBase ≤ g .rdRing ∧ g .rdRing < g .ringBase + g .ringCount ∧ g .ksBase + g .ksCount ≤ 4096 ∧
    g .vQuota ≤ 8192 ∧ g .sQuota ≤ 1048576 ∧ 1 ≤ g .dramSize ∧ g .dramSize ≤ 3072 ∧ base % 2 ^ 20 = 0 ∧
    0x100000000 ≤ base ∧ fin ≤ 0x1C0000000 ∧ 1 ≤ g .dsSize ∧ 1 ≤ g .rsSize ∧ g .ringLvl ≤ 6 ∧ g .imgBase % 8 = 0 ∧
    g .imgLen % 8 = 0 ∧ g .imgLen ≤ 2 ^ 28 ∧ base ≤ g .imgBase ∧ g .imgBase + g .imgLen ≤ fin) &&
    area (g .dsTop) (g .dsSize) && area (g .rsTop) (g .rsSize) &&
    ((List.range 16).all fun k => decide (fld (g .irqLvl) (4 * k) 4 ≤ 6)) &&
    zero 0x12 2 && zero 0x3C 4 && zero 0x59 7 && zero 0x9C 100

/-- The entry table, read with the keeper's rights (R340 ETAB): its words, or the status of one that may not stand. -/
def etab (s : State) (d : List Byte) : Except Word16 (List TWord) × State :=
  let a := descGet d .eTab
  let n := 8 * descGet d .contexts
  if a % 8 ≠ 0 ∨ ¬ inKeeperData a n ∨ ¬ keeperReads s a n then (.error St.descriptorInvalid, s)
  else
    match engRead s a n 0x28 none false with
    | (.error _, s) => (.error St.carryFault, s)
    | (.ok p, s) => (if p.words.all (·.tag == Tag.code) then .ok p.words else .error St.descriptorInvalid, s)

/-- Words that must be tagged PTR; IMGBASE is INT, and every other INT or RAW (R340). -/
def descTagsOk (l : List TWord) : Bool :=
  (List.range 32).all fun k =>
    let t := (l.getD k (rawW 0)).tag
    if k ∈ [4, 5, 6, 8, 9] then t == Tag.ptr else t == Tag.int || (t == Tag.raw && k != 18)

/-- A descriptor with another value in a field. -/
def descPut (d : List Byte) (f : DescField) (v : Nat) : List Byte :=
  d.take f.at.1 ++ leBytes f.at.2 v ++ d.drop (f.at.1 + f.at.2)

/-- The fields that STAGE may change (R343). -/
def stageable : List DescField :=
  [.share, .lanes, .ctimeout, .ringCount, .ksCount, .vQuota, .sQuota, .dramSize, .irqLvl, .ringLvl]

/-- Every field outside R343 is unchanged. -/
def stageOk (old new : List Byte) : Bool :=
  (stageable.foldl (fun d f => descPut d f 0) old) == (stageable.foldl (fun d f => descPut d f 0) new)

/-- Instances whose values the totals count. -/
def holders (s : State) : List Nat := (List.range 64).filter fun i => i = 0 ∨ (s.inst i).state ≠ 0

def disjoint (a n b m : Nat) : Bool := decide (n = 0 ∨ m = 0 ∨ a + n ≤ b ∨ b + m ≤ a)

/-- Check 3: ranges disjoint from every other instance's, and the shares. -/
def resourcesOk (s : State) (i : Nat) (d : List Byte) : Bool :=
  let g := descGet d
  let others := (holders s).filter (· ≠ i)
  (others.all fun j =>
    let (rb, rn) := if j = 0 then ringRange s 0 else (s.descF j .ringBase, s.totF j .ringCount)
    disjoint (g .ringBase) (g .ringCount) rb rn &&
      (j == 0 || (disjoint (g .ksBase) (g .ksCount) (s.descF j .ksBase) (s.totF j .ksCount) &&
        disjoint (g .dramBase) (2 ^ 20 * g .dramSize) (s.descF j .dramBase) (2 ^ 20 * s.totF j .dramSize)))) &&
    decide ((others.map fun j => s.totF j .share).sum + g .share ≤ 12000)

/-- Checks 4 and 5: the sum of a quota over every holder. -/
def totalOk (s : State) (i : Nat) (f : DescField) (v lim : Nat) : Bool :=
  decide ((((holders s).filter (· ≠ i)).map fun j => s.totF j f).sum + v ≤ lim)

/-- The use of each resource (R342). -/
def ringUse (s : State) (i : Nat) : Nat :=
  let (b, n) := (s.descF i .ringBase, s.descF i .ringCount)
  ((List.range n).filter fun k =>
    decide ((s.ring (b + k)).used ≠ 0 ∨ b + k = s.descF i .rdRing) ||
      (List.range 16).any fun q => match airBinding s q with
        | some (o, r, r') => o == i && (r == b + k || r' == b + k)
        | none => false).foldl (fun m k => max m (k + 1)) 0

def slotUse (s : State) (i : Nat) : Nat :=
  ((List.range (s.descF i .ksCount)).filter fun k => decide ((s.slot (s.descF i .ksBase + k)).kind ≠ 0)).foldl
    (fun m k => max m (k + 1)) 0

def dramUse (s : State) (i : Nat) : Nat :=
  let base := s.descF i .dramBase
  let fin := base + 2 ^ 20 * s.descF i .dramSize
  let regions := (s.mpuSet i).rgn.filterMap fun p =>
    let r := p.2
    if r.2.getLsbD 31 then
      some (r.1.toNat / 64 * 64 + 2 ^ 32 * fld r.2.toNat 0 8 + 2 ^ fld r.2.toNat 8 6)
    else none
  let rings := s.rings.filterMap fun p =>
    if p.2.en ∧ p.2.owner = i ∧ ¬ p.2.inHost then some (p.2.base + 64 * p.2.size) else none
  let ends := regions ++ rings ++ [s.descF i .dsTop, s.descF i .rsTop, s.descF i .imgBase + s.descF i .imgLen]
  ((ends.filter fun e => decide (base < e ∧ e ≤ fin)).map fun e => (e - base + 2 ^ 20 - 1) / 2 ^ 20).foldl max 0

/-- Unreleased bands that contain a record, as VUSED counts them. -/
def volUse (s : State) (i : Nat) : Nat := let x := s.projected.vol i; if x.records = [] then 0 else x.used

/-- Check 6. -/
def useOk (s : State) (i : Nat) (d : List Byte) (fresh : Bool) : Bool :=
  let g := descGet d
  decide (volUse s i ≤ g .vQuota ∧ shgHeld s i ≤ g .sQuota) &&
    (fresh || i == 0 || decide (ringUse s i ≤ g .ringCount ∧ slotUse s i ≤ g .ksCount ∧ dramUse s i ≤ g .dramSize))

/-- Check 7: the volume of a new instance (R345). -/
def volumeRetained (s : State) (i : Nat) : Bool :=
  let x := s.projected.vol i
  x.records != [] && x.retained && x.fromMigrated

/-- Check 2 on the keeper's own descriptor (R335): only the quotas may differ from the one in force. -/
def keeperDescOk (old new : List Byte) : Bool :=
  decide (4 ≤ descGet new .vQuota ∧ descGet new .vQuota ≤ 8192 ∧ descGet new .sQuota ≤ 1048576) &&
    descPut (descPut new .vQuota 0) .sQuota 0 == descPut (descPut (slice old 0 256) .vQuota 0) .sQuota 0

/-- Check 2 (R340, R343). -/
def descForm (s : State) (i : Nat) (fresh : Bool) (p : Payload) : Word16 × State :=
  let d := p.bytes
  let old := (s.inst i).desc
  if ¬ descTagsOk p.words then (St.descriptorInvalid, s)
  else if i = 0 then (if keeperDescOk old d then St.ok else St.descriptorInvalid, s)
  else if ¬ descFieldsOk d then (St.descriptorInvalid, s)
  else
    match etab s d with
    | (.error st, s) => (st, s)
    | (.ok _, s) => (if fresh ∨ stageOk old d then St.ok else St.descriptorInvalid, s)

/-- The descriptor that INS.DESC names: its bytes, or the status of checks 2 to 7. `fresh`: CREATE and RESTORE. The device
reads it with the keeper's rights (R340). -/
def readDesc (s : State) (i : Nat) (fresh : Bool) : Except Word16 (List Byte) × State :=
  let a := s.reg64 Reg.INS_DESC_LO % 2 ^ 40
  if a % 8 ≠ 0 ∨ ¬ inKeeperData a 256 ∨ ¬ keeperReads s a 256 then (.error St.descriptorInvalid, s)
  else
    match engRead s a 256 0x28 none false with
    | (.error _, s) => (.error St.carryFault, s)
    | (.ok p, s) =>
      let d := p.bytes
      let (form, s) := descForm s i fresh p
      let st :=
        if form ≠ St.ok then form
        else if i ≠ 0 ∧ ¬ resourcesOk s i d then St.resourceOvercommit
        else if ¬ totalOk s i .vQuota (descGet d .vQuota) 8192 then St.quotaOvercommit
        else if ¬ totalOk s i .sQuota (descGet d .sQuota) 1048576 then St.contextOvercommit
        else if ¬ useOk s i d fresh then St.resizeBelowUse
        else if fresh ∧ volumeRetained s i then St.volumeRetained
        else St.ok
      (if st = St.ok then .ok d else .error st, s)

/-! ## Volumes of instances (R76, R345) -/

/-- The volume-opened record's body. -/
def openedBody (v gen quota : Nat) (image : List Byte) : List Byte :=
  [BitVec.ofNat 8 v, 0, 0, 0] ++ leBytes 4 gen ++ leBytes 4 quota ++ slice image 0 48

/-- What a CREATE or a RESTORE does to the volume: the retained one goes on, or a new one is opened with its record. -/
def volumeIntents (s : State) (i : Nat) (d : List Byte) : List Eff × List Intent :=
  let x := s.projected.vol i
  if x.records ≠ [] then ([.unretain i], [])
  else
    let g := x.gen + 1
    let q := descGet d .vQuota
    ([.newVol i g (anchorOf s i g)],
      if q = 0 then [] else [.devRec i 0x000E (openedBody i g q (slice d 0x60 48))])

/-! ## The commands (R336, R337) -/

/-- States in which a command is permitted. -/
def insFrom (op st : Nat) : Bool :=
  match op with
  | 1 | 12 | 13 => st == 0
  | 2 | 3 => st == 1
  | 4 => st == 2
  | 5 => st == 4 || st == 5
  | 6 | 10 => st == 4
  | 7 => st == 1 || st == 4 || st == 6
  | 8 | 9 => decide (1 ≤ st ∧ st ≤ 4)
  | 11 => st == 5 || st == 6
  | _ => false

/-- A command's commit: the record of its change of state, and beside it what else the commit carries. -/
def insCommit (s : State) (i op new : Nat) (effs : List Eff) (more : List Intent := []) : State :=
  let old := (s.inst i).state
  s.devCommit ([.effects (.instState i new :: effs)] ++ [.devRec 0 0x000C [BitVec.ofNat 8 i, BitVec.ofNat 8 old, BitVec.ofNat 8 new, 0]] ++ more)
    (.instCmd i op new)

/-- INSTALL (R347). -/
def insInstall (s : State) (i : Nat) : State :=
  let a := s.descF i .imgBase
  let n := s.descF i .imgLen
  match engRead s a n 0x28 none false with
  | (.error _, s) => insEnd s St.carryFault
  | (.ok p, s) =>
    let d := (s.inst i).desc
    let h := genBytes 48 (Config.hashByte 2 p.bytes)
    if h ≠ slice d 0x60 48 then insEnd s St.imageMismatch
    else
      let s := (List.range (n / 8)).foldl (fun s k => s.wrTag (a + 8 * k) Tag.code) (s.breakResv a n)
      insEnd ((newChecks s a n).modInst i fun x => { x with
        installed := true, measImage := h, measDesc := genBytes 48 (Config.hashByte 2 d) }) St.ok

/-- Every ring of an instance's range is empty. -/
def ringsEmpty (s : State) (i : Nat) : Bool :=
  s.rings.all fun p => !(p.2.owner == i && p.2.en) || p.2.used == 0

def instCtxs (s : State) (i : Nat) : List (Nat × Ctx) := s.ctxs.filter fun p => p.1 / 64 = i

/-- The contexts and slots that REMOVE and SAVE give up (R355, R366). -/
def giveUp (s : State) (i : Nat) : List Eff :=
  ((s.dur.shg.filter fun p => p.2.kind ≠ 0 ∧ p.2.owner = i).map fun p => Eff.ctxFree p.1 (nextGen p.2.gen)) ++
    ((List.range (s.descF i .ksCount)).filter fun k => decide ((s.slot (s.descF i .ksBase + k)).kind ≠ 0)).map fun k =>
      Eff.slot (s.descF i .ksBase + k) {}

/-- The commands but those of migration: after the check of the state. -/
def insLocal (s : State) (i op : Nat) : State :=
  let x := s.inst i
  match op with
  | 1 =>
    match readDesc s i true with
    | (.error st, s) => insEnd s st
    | (.ok d, s) =>
      let (e, r) := volumeIntents s i d
      insCommit (s.modInst i fun x => { x with desc := d }) i 1 1 (.desc i d :: e) r
  | 2 => insInstall s i
  | 3 =>
    if ¬ x.installed then insEnd s St.instanceState
    else if s.mode ≠ Mode.service then insEnd s St.modeRefused
    else
      match etab s x.desc with
      | (.error st, s) => insEnd s st
      | (.ok ws, s) => insCommit (s.modInst i fun x => { x with entries := ws }) i 3 2 []
  | 4 => insCommit s i 4 3 []
  | 5 => if s.mode ≠ Mode.service then insEnd s St.modeRefused else insCommit s i 5 2 []
  | 6 => insCommit s i 6 1 []
  | 7 => insCommit s i 7 0 (.retain i (x.state == 6) :: .desc i [] :: giveUp s i)
  | 8 =>
    match readDesc s i false with
    | (.error st, s) => insEnd s st
    | (.ok d, s) => insEnd (s.modInst i fun x => { x with staged := some d }) St.ok
  | 9 => insEnd (s.modInst i fun x => { x with staged := none }) St.ok
  | _ =>
    if ¬ ringsEmpty s i then insEnd s St.ringsNotEmpty
    else if x.staged.isSome ∨ (instCtxs s i).any (fun p => p.2.run == .held) then insEnd s St.instanceState
    else insCommit s i 10 5 []

/-! ## Quiesce (R351-R353) -/

/-- The inbound rings of an instance, and the entries they hold. -/
def inbound (s : State) (i : Nat) : List Ring :=
  (s.rings.filter fun p => p.2.en ∧ p.2.owner = i ∧ ¬ p.2.outbound).map (·.2)

def Ring.entries (x : Ring) : Nat := if x.inHost then x.used / max 1 x.eslots else x.lens.length

/-- The drain window ends early where every inbound ring is empty and every context has executed YIELD (R351). -/
def drainCheck (s : State) (i : Nat) : State :=
  let x := s.inst i
  if x.state = 3 ∧ x.drain ∧ (inbound s i).all (fun r => r.used == 0) ∧ (instCtxs s i).all (fun p => p.2.yielded) then
    closeIssue s i true
  else s

/-- DRAIN_WINDOW_END; the window does not run in Standby (R372). -/
def execDrainWindowEnd (i : Fin 64) (s : State) : Host.Outcome State Fault Refusal :=
  done s (if (s.inst i.val).state = 3 ∧ (s.inst i.val).drain ∧ s.mode ≠ Mode.standby then closeIssue s i.val true else s)

/-- Nothing of the instance is under way: its contexts have stopped, its tickets have completed, its commits have
ended. -/
def instQuiet (s : State) (i : Nat) : Bool :=
  (instCtxs s i).all (fun p => p.2.run != .running) &&
    s.tickets.all (fun p => !(p.1 / 256 == i && p.2.used && !p.2.done)) &&
    (s.tdl.waiting ++ s.tdl.admitted).all fun c => c.src != i && c.purpose != .instCmd i 4 4

/-- QUIESCE_COMPLETE (R351 steps 5 and 6). -/
def quiesceComplete (s : State) (i : Nat) : State :=
  let x := s.inst i
  if i = 0 ∨ x.state ≠ 3 ∨ x.drain ∨ ¬ instQuiet s i then s
  else
    let s := closeReason s i 4
    let s := s.modInst i fun x => { x with left := ((inbound s i).map (·.entries)).sum }
    s.devCommit (stateIntents i 3 4) (.instCmd i 4 4)

def execQuiesceComplete (i : Fin 64) (s : State) : Host.Outcome State Fault Refusal := done s (quiesceComplete s i.val)

/-! ## Marks -/

/-- A context as START makes it (R348, R35, R245, R246). -/
def entryCtx (s : State) (d : List Byte) (entry : TWord) (c : Nat) : Ctx :=
  let g := descGet d
  let acc := g .model == 1
  let rev := intW ((s.reg Reg.KPR_ID_REV).setWidth 64)
  let dbase := ptrW (BitVec.ofNat 64 (g .dBase))
  let area := fun top size => let t := top - c * (64 * size); ({ top := t, size := 64 * size, atop := t } : Stk)
  { run := .running, acc := acc, dbase := g .dBase
    r := {
      level := 1, mask := 0, pc := entry.data.toNat
      ds := { area (g .dsTop) (g .dsSize) with items := if acc then [] else [rev] }
      rs := area (g .rsTop) (g .rsSize)
      acc := if acc then rev else rawW 0
      x0 := if acc then dbase else rawW 0
      x1 := if acc then dbase else rawW 0 } }

/-- An instance without its contexts and tickets. -/
def clearInst (s : State) (i : Nat) : State :=
  { s with ctxs := s.ctxs.filter fun p => p.1 / 64 ≠ i, tickets := s.tickets.filter fun p => p.1 / 256 ≠ i }

/-- Registers that bind rings of an instance to the air link and the ports: AIR.BINDn (R182) and those of R512. -/
def bindRegs : List Nat := (List.range 16).map (Reg.AIR_BIND + 4 * ·) ++ (List.range 11).map portBindReg

/-- The rings of an instance are emptied and unbound (R355): their configuration, and every binding that names its
instance. -/
def unbindRings (s : State) (i : Nat) : State :=
  let s := bindRegs.foldl (fun s a =>
    let w := s.reg a
    if w.getLsbD 31 ∧ fld w.toNat 25 6 = i then s.setReg a (w &&& 0x7FFFFFFF) else s) s
  s.rings.foldl (fun s p => if p.2.owner = i ∧ p.2.cfg ≠ 1 then s.setRing p.1 {} else s) s

/-- The entries that RESET discards (R400): those of the inbound rings and of the outbound device rings. -/
def discardRings (s : State) (i : Nat) : State :=
  s.rings.foldl (fun s p => if p.2.en ∧ p.2.owner = i ∧ ¬ (p.2.outbound ∧ p.2.inHost) then discardRing s p.1 else s) s

/-- The DRAM range becomes zero words tagged RAW, under the root in use. -/
def zeroDram (s : State) (base n : Nat) : State :=
  let out := fun (a : Nat) => !(decide (base ≤ a ∧ a < base + n))
  let s := { s with
    mem := s.mem.filter fun p => out p.1
    tags := s.tags.filter fun p => out (8 * p.1)
    checks := s.checks.filter fun p => out (64 * p.1)
    eras := s.eras.filter fun p => out (64 * p.1) }
  if rootOf s.mode = 2 then s
  else { s with eras := (List.range (n / 64)).foldl (fun m k => sset (fun _ => 2) m (base / 64 + k) (rootOf s.mode)) s.eras }

def setState (s : State) (i st : Nat) : State := s.modInst i fun x => { x with state := st }

/-- The command in progress was the one marked. -/
def insDone (s : State) (i op : Nat) : State := if s.ins.busy = some (i, op) then insEnd s St.ok else s

/-- A command's commit of the instance itself is marked (R337). -/
def localMarked (s : State) (i op st : Nat) : State :=
  let x := s.inst i
  let s := setState s i st
  match op, st with
  | 1, _ => insDone s i 1
  | 3, _ =>
    let s := clearInst s i
    let s := (List.range (descGet x.desc .contexts)).foldl (fun s c => 
      s.setCtx (ctxKey i c) (entryCtx s x.desc (x.entries.getD c (rawW 0)) c)) s
    insDone (s.modInst i fun x => { x with closed := false, stopping := false, irq := [] }) i 3
  | 4, 3 =>
    let s := (instCtxs s i).foldl (fun s p => s.setCtx p.1 { p.2 with yielded := false }) s
    let s := (s.modInst i fun x => { x with drain := true, stopping := false }).raiseIrq i 2
    if (s.inst i).zeroDrain then closeIssue (s.modInst i fun x => { x with zeroDrain := false }) i true else s
  | 4, _ => insDone (s.modInst i fun x => { x with stopping := false }) i 4
  | 5, _ =>
    let s := (instCtxs s i).foldl (fun s p => s.setCtx p.1 { p.2 with run := .running }) s
    insDone (s.modInst i fun x => { x with closed := false, snap := none }) i 5
  | 6, _ => insDone (discardRings (clearInst s i) i) i 6
  | 7, _ =>
    let s := unbindRings (clearInst s i) i
    let s := zeroDram s (descGet x.desc .dramBase) (2 ^ 20 * descGet x.desc .dramSize)
    insDone ((s.setMpu i {}).setInst i {}) i 7
  | _, _ => s

/-! ## Epochs (R356-R362) -/

def epochNumber (s : State) : Nat := (s.reg Reg.STAT_EPOCH).toNat

/-- The epoch limit's raise is asked for and has no mark yet. -/
def limitAsked (s : State) : Bool :=
  (s.tdl.waiting ++ s.tdl.admitted).any fun c => c.intents.any fun x => match x with
    | .effects l => l.any fun e => match e with | .epochLimit _ => true | _ => false
    | _ => false

/-- Fewer than 256 numbers remain: the raise of the limit (R356). -/
def limitRaise (s : State) : State :=
  if s.dur.epochLimit < epochNumber s + 256 ∧ ¬ limitAsked s then
    s.devCommit [.effects [.epochLimit (epochNumber s + 1024)]]
  else s

/-- Fields of the frame whose quantity no command brings (R361): the largest rail difference, the busy
time of each lane, and the pages programmed and longest page program of each die. -/
def blindFields : List Nat :=
  [0x90] ++ (List.range 16).map (0x14C + 16 * ·) ++ (List.range 4).map (0x244 + 32 * ·) ++
    (List.range 4).map (0x250 + 32 * ·)

/-- What such a field holds is open. -/
def blindValue (c o : Nat) : Nat :=
  (Config.analog (0x2000000 + o) c).toNat + (if o % 32 = 4 then 65536 * (Config.analog (0x2000001 + o) c).toNat else 0)

/-- The frame is published and the counting frame starts anew (R358 step 1, R361). -/
def publishFrame (s : State) (prolonged : Bool) : State :=
  let g := fun k => sget (fun _ => 0) s.stat k
  let put := fun (m : List (Nat × Nat)) k v => sset (fun _ => 0) m k v
  let e := s.kpr.devtime.toNat
  let flags := g 0x20 % 2 + (if e - g 0x10 < s.ins.epochLen * 1000000000 then 2 else 0) + (if prolonged then 4 else 0)
  let m := put (put (put (put s.stat 0x08 (epochNumber s)) 0x0C s.ins.epochLen) 0x18 e) 0x20 flags
  let m := put m 0x54 (if g 0x54 = 0 then s.pwr.vhold else g 0x54)
  let m := (List.range 64).foldl (fun m i =>
    put (put m (instStat i 0) (if i = 0 then (if s.kpr.running then 2 else 0) else (s.inst i).state)) (instStat i 1) (s.descF i .model)) m
  let m := blindFields.foldl (fun m o => put m o (blindValue s.freeCtr o)) m
  { s with
    statPub := m
    freeCtr := s.freeCtr + 1
    stat := put (put [] 0x10 (if prolonged then g 0x10 else e)) 0x20 (if s.kpr.timeSet then 0 else 1) }

/-- Staged descriptors take effect, and source 1 is raised at each instance concerned (R344). -/
def applyStaged (s : State) : State :=
  s.insts.foldl (fun s p =>
    match p.2.staged with
    | some d => (s.modInst p.1 fun x => { x with desc := d, staged := none }).raiseIrq p.1 1
    | none => s) s

/-- The commit that keeps the applied descriptors (R344): those that the metadata area does not hold yet. -/
def keepDescs (s : State) : State :=
  let p := s.projected
  let l := (holders s).filter fun i => decide ((s.inst i).desc ≠ sget (fun _ => []) p.descs i)
  if l = [] then s else s.devCommit [.effects (l.map fun i => .desc i (s.inst i).desc)] .descApply

/-- The volume-opened records not made yet are asked for again (R76). -/
def reopen (s : State) : State :=
  s.dur.vols.foldl (fun s p =>
    let asked := (s.tdl.waiting ++ s.tdl.admitted).any fun c => c.intents.any fun x => match x with
      | .devRec v t _ => v == p.1 && t == 0x000E
      | _ => false
    if p.2.exist ∧ ¬ p.2.opened ∧ ¬ asked ∧ s.descF p.1 .vQuota ≠ 0 then
      s.devCommit [.devRec p.1 0x000E (openedBody p.1 p.2.gen (s.descF p.1 .vQuota) (slice (s.inst p.1).desc 0x60 48))]
    else s) s

/-- The greatest `m` with `m^100 ≤ n`, below 2^`k`. -/
def root100 : Nat → Nat → Nat → Nat
  | 0, _, m => m
  | k + 1, n, m => if (m + 2 ^ k) ^ 100 ≤ n then root100 k n (m + 2 ^ k) else root100 k n m

/-- The patrol interval in hours for a mean temperature in 0.1 °C (R500). -/
def patrolHours (t : Int) : Nat :=
  if t ≤ 950 then 5760
  else if t ≤ 1250 then root100 14 (720 ^ 100 * 2 ^ (1250 - t).toNat) 0
  else root100 14 (720 ^ 100 / 2 ^ (t - 1250).toNat) 0

/-- Steps 1 and 2 (R358): the frame, the number and the length of the epoch that begins, and the staged descriptors. -/
def epochRoll (s : State) : State :=
  let pro := decide (s.dur.epochLimit ≤ epochNumber s + 1)
  let s := publishFrame s pro
  let s := if pro then s else s.setReg Reg.STAT_EPOCH (BitVec.ofNat 32 (epochNumber s + 1))
  let len := max 1 (s.regFld Reg.STAT_CTRL 0 12)
  applyStaged ({ s with ins := { s.ins with epochLen := len } }.setReg64 Reg.STAT_NEXT_LO
    ((s.kpr.devtime.toNat / (len * 1000000000) + 1) * (len * 1000000000)))

/-- Step 4 (R358): the failure count of the source restarts, the transmitter's self-test ends (R191), a measurement is asked
for where R115 permits, and the patrol's interval follows the mean temperature (R500). -/
def epochSelf (s : State) (meanTempDc : Int) (testOk : Bool) : State :=
  { s.setReg Reg.EVF_PATROL ((s.reg Reg.EVF_PATROL &&& 0xFFFF) ||| BitVec.ofNat 32 (65536 * patrolHours meanTempDc)) with
    rng := { s.rng with epfail := 0 }
    air := { s.air with txfail := !testOk }
    pwr := { s.pwr with want := s.pwr.want || (s.pwr.flush == 0 && s.tdl.waiting.isEmpty) } }

/-- What the boundary commits: the applied descriptors (R344), volume-opened records (R76), in Standby neither (R65), the
raise of the epoch limit (R356), and the pending flags (R556). -/
def epochCommits (s : State) : State :=
  let asleep := s.mode == Mode.standby
  let s := if asleep then s else reopen (keepDescs (closeAll s 1))
  let s := limitRaise s
  if s.tmp.pendFlags ≠ 0 ∧ ¬ asleep then s.devCommit [] .none (s.pwr.flush != 0) else s

/-- An epoch boundary (R358, R556, R65). `testOk`: the outcome of the transmitter's self-test (R191). -/
def epochBoundary (s : State) (meanTempDc : Int) (testOk : Bool) : State :=
  if ¬ s.pwr.up ∨ s.kpr.devtime.toNat < s.reg64 Reg.STAT_NEXT_LO then s
  else
    let s := epochSelf (epochCommits (epochRoll s)) meanTempDc testOk
    (List.range 64).foldl (fun s i => if (s.inst i).state = 2 then s.raiseIrq i 0 else s) s

def execEpochBoundary (meanTempDc : Int) (testOk : Bool) (s : State) : Host.Outcome State Fault Refusal :=
  done s (epochBoundary s meanTempDc testOk)

/-- The epoch ends at once: DEVTIME was restored (R57). -/
def epochNow (s : State) : State := s.setReg64 Reg.STAT_NEXT_LO 0

/-- A context without its reservation, in the bundle under way too. -/
def Ctx.noResv (c : Ctx) : Ctx :=
  { c with
    r := { c.r with resv := none }
    bundle := c.bundle.map fun b => { b with regs0 := { b.regs0 with resv := none } } }

/-- TIME_SLICE_END (R349): a whole slice of 100 µs of core time counts against the instance whose context ran, and the
context is descheduled, which breaks its reservation (R277), but at level K (R306). Which context runs next is the sender's
choice (log entry 122). -/
def execTimeSliceEnd (i c : Fin 64) (s : State) : Host.Outcome State Fault Refusal :=
  done s (
    let k := ctxKey i.val c.val
    let x := s.ctx k
    if i ≠ 0 ∧ x.run = .running ∧ x.waiting.isNone then
      let t := s.statInc64 (instStat i.val 8) 100
      t.setCtx k { (if x.r.level = 2 then x else x.noResv) with since := none }
    else s)

end Sys2Proof.Machine
end

