-- ==== Sys2Proof/Machine/Migrate.lean ====
section
/-! DEFINITION. Migration (09, R363-R370), and the commands of INS.CMD as a whole with what their commits do. The layout
of the data of sections 2, 3, 6, 7, 8 and 9 of an image is not in the spec: two constants of no body stand for it. -/

namespace Sys2Proof.Config

/-- The data of a section of an image's plaintext (R368), and what reading it gives. -/
opaque migWrite : Nat → Machine.Snapshot → List Byte
opaque migRead : Nat → List Byte → Machine.Snapshot → Option Machine.Snapshot

end Sys2Proof.Config

namespace Sys2Proof.Machine

open Sys2Proof

/-! ## The snapshot (R365, R368) -/

/-- What FREEZE fixes. Shingle contexts are numbered by their index, slots and rings by their place in the range. -/
def snapshot (s : State) (i : Nat) : Snapshot :=
  let x := s.inst i
  let g := descGet x.desc
  let v := s.projected.vol i
  { desc := x.desc, mpu := s.mpuSet i
    ctxs := (instCtxs s i).map fun p => (p.1 % 64, p.2)
    tickets := (s.tickets.filter fun p => p.1 / 256 = i).map fun p => (p.1 % 256, p.2)
    dram := s.rdWords (g .dramBase) (2 ^ 17 * g .dramSize)
    ctrs := (List.range 256).map fun k => (sget (fun _ => (0, 0)) s.dur.ctrs (256 * i + k)).1
    shg := s.dur.shg.filter fun p => p.2.kind ≠ 0 ∧ p.2.owner = i
    slots := ((List.range (g .ksCount)).map fun k => (k, s.slot (g .ksBase + k))).filter fun p => p.2.kind ≠ 0
    rings := ((List.range (g .ringCount)).map fun k => (k, s.ring (g .ringBase + k))).filter fun p => p.2.en
    volGen := v.gen, lastSeq := v.lastSeq
    chain := slice (v.trailers.getLast?.map (·.2) |>.getD []) 0x98 48 }

/-! ## Plaintext (R368) -/

/-- A section: type, four zero bytes, length, data. -/
def section_ (t : Nat) (d : List Byte) : List Byte := leBytes 4 t ++ zeros 4 ++ leBytes 8 d.length ++ d

def dramUnits : Nat → List TWord → List Byte
  | 0, _ => []
  | n + 1, l => wordsBytes (l.take 8) ++ tagBytes (l.take 8) ++ dramUnits n (l.drop 8)

def unitTag (b : List Byte) (k : Nat) : Word4 := BitVec.ofNat 4 ((b.getD (64 + k / 2) 0).toNat / 16 ^ (k % 2))

def readUnits : Nat → List Byte → List TWord
  | 0, _ => []
  | n + 1, b =>
    ((List.range 8).map fun k => (⟨unitTag b k, BitVec.ofNat 64 (getLe b (8 * k) 8)⟩ : TWord)) ++ readUnits n (b.drop 68)

def plaintext (q : Snapshot) : List Byte :=
  section_ 1 q.desc ++ section_ 2 (Config.migWrite 2 q) ++ section_ 3 (Config.migWrite 3 q) ++
    section_ 4 (dramUnits (q.dram.length / 8) q.dram) ++ section_ 5 (q.ctrs.map fun c => leBytes 8 c.toNat).flatten ++
    section_ 6 (Config.migWrite 6 q) ++ section_ 7 (Config.migWrite 7 q) ++ section_ 8 (Config.migWrite 8 q) ++
    section_ 9 (Config.migWrite 9 q)

/-- The nine sections of a plaintext, where it has that structure. -/
def sections : Nat → Nat → List Byte → Option (List (List Byte))
  | 0, _, b => if b = [] then some [] else none
  | n + 1, t, b =>
    let len := getLe b 8 8
    if b.length < 16 + len ∨ getLe b 0 4 ≠ t ∨ getLe b 4 4 ≠ 0 then none
    else (sections n (t + 1) (b.drop (16 + len))).map fun l => slice b 16 len :: l

def readPlaintext (b : List Byte) : Option Snapshot :=
  match sections 9 1 b with
  | none => none
  | some l =>
    let d := fun k => l.getD (k - 1) []
    let q : Snapshot := {
      desc := d 1, dram := readUnits ((d 4).length / 68) (d 4)
      ctrs := (List.range 256).map fun k => BitVec.ofNat 64 (getLe (d 5) (8 * k) 8) }
    [2, 3, 6, 7, 8, 9].foldl (fun acc k => acc.bind fun q => Config.migRead k (d k) q)
      (if (d 1).length = 256 ∧ (d 5).length = 2048 ∧ (d 4).length % 68 = 0 then some q else none)

/-! ## The image (R367, R368) -/

/-- The key and public key of the migration pair (R437), and the attestation pair of the root in use. -/
def migValue (s : State) : List Byte := pairValue s Lbl.migrate 2
def attValue (s : State) : List Byte := pairValue s Lbl.attest (rootOf s.mode)

def chunkIv (k : Nat) : List Byte := zeros 4 ++ leBytes 8 k
def chunkAad (hdr : List Byte) (k : Nat) (last : Bool) : List Byte :=
  genBytes 48 (Config.hashByte 2 hdr) ++ leBytes 8 k ++ [if last then 1 else 0]

/-- A chunk of a body under its key. -/
def sealChunk (key hdr p : List Byte) (k : Nat) (last : Bool) : List Byte :=
  leBytes 4 p.length ++ genBytes (p.length + 16) (Config.aeadByte 1 key (chunkIv k) (chunkAad hdr k last) p)

/-- A chunk opened: its plaintext, where its length and its tag are right. -/
def openChunk (key hdr c : List Byte) (k : Nat) (last : Bool) : Option (List Byte) :=
  let n := getLe c 0 4
  let ct := c.drop 4
  if ct.length = n + 16 ∧ n ≤ 65536 ∧ Config.aeadOk 1 key (chunkIv k) (chunkAad hdr k last) ct then
    some (genBytes n (Config.aeadOpenByte 1 key (chunkIv k) (chunkAad hdr k last) ct))
  else none

/-- The image of a SAVE for an offer (R367), or why the expander gives none. -/
def buildImage (s : State) (i : Nat) (q : Snapshot) (off : List Byte) : Draw × State :=
  match rngDraw s 32 with
  | (.ok r, s) =>
    let body := plaintext q
    let n := (body.length + 65535) / 65536
    let peer := slice off 0x40 1184
    let key := kdf Lbl.body (sharedSecret r peer 32) (slice off 0x20 32) 32
    let hdr := leBytes 4 0x4D494752 ++ [1, BitVec.ofNat 8 i, off.getD 5 0, BitVec.ofNat 8 (descGet q.desc .model)] ++
      slice s.otp.serial 0 16 ++ slice off 8 16 ++ leBytes 4 (s.reg Reg.KPR_ID_REV).toNat ++ leBytes 4 n ++
      leBytes 8 s.dur.migctr ++ slice off 0x20 32 ++ slice q.desc 0x60 48 ++ leBytes 8 body.length ++ capsule r peer ++
      keyId (pubKey 0x18 (attValue s))
    match hybridSign s (attValue s) hdr with
    | (.ok g, s) =>
      (.ok (hdr ++ g ++ zeros 3 ++ ((List.range n).map fun k =>
        sealChunk key hdr (slice body (65536 * k) (min 65536 (body.length - 65536 * k))) k (k + 1 == n)).flatten), s)
    | x => x
  | x => x

/-! ## Offers (R364, R366) -/

/-- The length of a DER certificate with a two-byte length. -/
def derLen (b : List Byte) : Nat := 4 + 256 * (b.getD 2 0).toNat + (b.getD 3 0).toNat

/-- The certificates of the chain installed in Personalise, from the anchor down. -/
def installed (s : State) : List Byte := (s.otp.certs.filter fun p => p.1 % 128 < 4).map (·.2) |>.flatten

/-- An offer's own checks (R366 check 1). -/
def offerOk (s : State) (b : List Byte) : Bool :=
  let cert := slice b 0x4E0 (derLen (b.drop 0x4E0))
  let st := b.drop (0x4E0 + cert.length)
  let e := 0xC8 + 104 * getLe st 0xC0 4
  let id := slice st e 16
  getLe b 0 4 == 0x4F464652 && getLe b 4 1 == 1 && getLe b 6 2 == 0 && decide (getLe b 5 1 < 64) && getLe b 0x1C 4 == 0 &&
    Config.chainOk 0x30 (slice b 0x40 1184) (installed s ++ cert) && getLe st 0 4 == 0x41545354 &&
    slice st 0x38 32 == slice b 0x20 32 && slice st 8 16 == slice b 8 16 &&
    Config.chainOk 0x12 id (installed s ++ cert) &&
    sigVerify 8 (Config.chainKey id (installed s ++ cert)) (slice st 0 (e + 0x18)) (slice st (e + 0x18) 3405)

/-- The bytes of an offer in a buffer: what follows it there is not part of it. -/
def offerOf (b : List Byte) : List Byte :=
  let at_ := 0x4E0 + derLen (b.drop 0x4E0)
  b.take (at_ + 0xC8 + 104 * getLe b (at_ + 0xC0) 4 + 0x18 + 3405)

/-- Bytes of the migration buffer that INS.MIG names, to the end of the keeper data area but at most 64 KiB. -/
def migBuffer (s : State) : Option (List Byte) × State :=
  let a := s.reg64 Reg.INS_MIG_LO % 2 ^ 40
  let n := min 65536 (0x1CE000000 - a)
  if ¬ inKeeperData a n ∨ n = 0 then (some [], s)
  else
    match engRead s a n 0x28 none false with
    | (.ok p, s) => (some p.bytes, s)
    | (.error _, s) => (none, s)

def migRing (s : State) : Nat := s.regFld Reg.INS_MIG_RING 0 12

/-- The next 1,024 bytes go onto the migration ring, where it takes them. -/
def migPut (s : State) (b : List Byte) : Bool × State :=
  let r := migRing s
  let x := s.ring r
  if x.st ≠ 1 ∨ ¬ x.outbound ∨ x.owner ≠ 0 ∨ x.free < 16 then (false, s)
  else (true, ringPut s r (rawPayload (slice b 0 1024)) 16)

def putAll : Nat → State → List Byte → Bool × State
  | 0, s, _ => (true, s)
  | n + 1, s, b =>
    match migPut s b with
    | (true, s) => putAll n s (b.drop 1024)
    | r => r

/-- A command waits for the expander (R460). -/
def insHold (s : State) (stage : Nat) : State := { s with ins := { s.ins with held := stage } }

/-- The offer's mark: the offer goes onto the migration ring. -/
def offerMarked (s : State) (i : Nat) : State :=
  match sget (fun _ => none) s.dur.offers i with
  | none => insEnd s St.migOfferInvalid
  | some nonce =>
    let pub := pubKey 0x30 (migValue s)
    let cert := sget (fun _ => []) s.otp.certs 0x30
    match signedStatement s nonce with
    | (.ok st, s) =>
      let b := leBytes 4 0x4F464652 ++ [1, BitVec.ofNat 8 i, 0, 0] ++ slice s.otp.serial 0 16 ++
        leBytes 4 (s.reg Reg.KPR_ID_REV).toNat ++ zeros 4 ++ slice nonce 0 32 ++ pub ++ cert ++ st
      match putAll ((b.length + 1023) / 1024) s b with
      | (true, s) => insEnd s St.ok
      | (false, s) => insEnd s ((ringRefusal (s.ring (migRing s))).getD St.ringFull)
    | (.wait, s) => insHold s 2
    | (.fatal, s) => insEnd s St.rngFatal

/-- OFFER (R364): its nonce is drawn and committed. -/
def insOffer (s : State) (i : Nat) : State :=
  match rngDraw s 32 with
  | (.ok n, s) => (insHold s 0).devCommit [.effects [.offer i (some n)]] (.instCmd i 12 0)
  | (.wait, s) => insHold s 1
  | (.fatal, s) => insEnd s St.rngFatal

/-- The image of a SAVE is made for the offer in `ins.image`, and streams from then on. -/
def saveBuild (s : State) (i : Nat) : State :=
  match (s.inst i).snap with
  | none => insEnd s St.migImageInvalid
  | some q =>
    match buildImage s i q s.ins.image with
    | (.ok im, s) => { s with ins := { s.ins with image := im, sent := 0, chunks := 0, held := 0 } }
    | (.wait, s) => insHold s 3
    | (.fatal, s) => insEnd s St.rngFatal

/-- SAVE (R366). In Migrated it is repeated with the same offer only. -/
def insSave (s : State) (i : Nat) : State :=
  match migBuffer s with
  | (none, s) => insEnd s St.carryFault
  | (some b, s) =>
    let x := s.inst i
    if ¬ offerOk s b ∨ (x.state = 6 ∧ offerOf b ≠ x.saved) then insEnd s St.migOfferInvalid
    else if getLe b 0x19 1 < fld (s.reg Reg.KPR_ID_REV).toNat 8 8 then insEnd s St.imageNewer
    else if x.snap.isNone then insEnd s St.migImageInvalid
    else
      let s := { s with ins := { s.ins with image := offerOf b } }
      if x.state = 6 then saveBuild s i
      else insCommit s i 11 6 (.migctr (s.dur.migctr + 1) :: .retain i true :: giveUp s i)

/-- A command that waits for the expander goes on. -/
def insResume (s : State) : State :=
  match s.ins.busy, s.ins.held with
  | some (i, _), 1 => insOffer s i
  | some (i, _), 2 => offerMarked s i
  | some (i, _), 3 => saveBuild s i
  | _, _ => s

/-- SAVE_IMAGE_STREAM (R366): the next entry of the image. -/
def saveStream (s : State) : State :=
  match s.ins.busy with
  | some (i, 11) =>
    if (s.inst i).state ≠ 6 ∨ s.ins.image = [] ∨ s.ins.held ≠ 0 then s
    else
      match migPut s (s.ins.image.drop s.ins.sent) with
      | (false, s) => s
      | (true, s) =>
        let n := s.ins.sent + 1024
        let s := { s with ins := { s.ins with sent := n, chunks := (n - 4656) / 65556 } }
        if s.ins.image.length ≤ n then
          insEnd { s with ins := { s.ins with image := [], sent := 0, chunks := getLe s.ins.image 0x2C 4 } } St.ok
        else s
  | _ => s

def execSaveImageStream (s : State) : Host.Outcome State Fault Refusal := done s (saveStream s)

/-! ## RESTORE (R369) -/

/-- Where the words of an image are to point: the ranges of source and target, the new owner, the new index of each
Shingle context, and the source and target slot ranges. -/
structure Rebase where
  base : Nat
  size : Nat
  target : Nat
  owner : Nat
  index : List (Nat × (Nat × Nat))
  ksOld : Nat
  ksNew : Nat

def Rebase.addr (b : Rebase) (a : Nat) : Nat := if b.base ≤ a ∧ a < b.base + b.size then a - b.base + b.target else a

/-- The top of an area may be the end of the range. -/
def Rebase.top (b : Rebase) (a : Nat) : Nat := if b.base ≤ a ∧ a ≤ b.base + b.size then a - b.base + b.target else a

def Rebase.word (b : Rebase) (w : TWord) : TWord :=
  if w.tag = Tag.ptr ∨ w.tag = Tag.code then ⟨w.tag, BitVec.ofNat 64 (b.addr w.data.toNat)⟩
  else if w.tag = Tag.sesh then
    match b.index.find? (·.1 == hIndex w.data) with
    | some (_, k, g) => handleWord b.owner g k
    | none => ⟨w.tag, BitVec.ofNat 64 (w.data.toNat % 2 ^ 32 + 2 ^ 32 * b.owner)⟩
  else if w.tag = Tag.keyh then
    ⟨w.tag, BitVec.ofNat 64 (2 ^ 32 * b.owner + (kSlot w.data - b.ksOld + b.ksNew) % 4096)⟩
  else w

def Rebase.stk (b : Rebase) (k : Stk) : Stk :=
  { k with top := b.top k.top, atop := b.top k.atop, items := k.items.map b.word, holes := k.holes.map b.addr }

def Rebase.regs (b : Rebase) (r : CpuRegs) : CpuRegs :=
  { r with
    pc := b.addr r.pc, ds := b.stk r.ds, rs := b.stk r.rs, acc := b.word r.acc, x0 := b.word r.x0, x1 := b.word r.x1
    loops := r.loops.map fun l => { l with start := b.addr l.start }, resv := none }

def Rebase.shadow (b : Rebase) : Shadow → Shadow
  | .call a => .call (b.addr a)
  | .gate a ds rs l m x0 x1 n => .gate (b.addr a) (b.stk ds) (b.stk rs) l m (b.word x0) (b.word x1) n
  | .exc a l f r e => .exc (b.addr a) l (b.addr f) (b.regs r) e

def Rebase.ctx (b : Rebase) (c : Ctx) : Ctx :=
  { c with
    r := b.regs c.r, shadow := c.shadow.map b.shadow, staging := [], bundle := none, since := none, dbase := b.addr c.dbase }

def Rebase.ticket (b : Rebase) (t : Ticket) : Ticket :=
  { t with results := t.results.map b.word, block := t.block.map b.addr, op := .none }

/-- Free Shingle contexts for those of an image: old index, new index, generation. -/
def takeMany : List (Nat × ShgCtx) → Durable → Option (List (Nat × (Nat × Nat)) × Durable)
  | [], d => some ([], d)
  | p :: l, d =>
    match takeFree d with
    | none => none
    | some (k, d) => (takeMany l d).map fun q => ((p.1, k, (d.sctx k).gen) :: q.1, q.2)

/-- A context of an image under its new index, rewrapped for it. -/
def moveCtx (kek : List Byte) (b : Rebase) (idx : List (Nat × (Nat × Nat))) (p : Nat × ShgCtx) : List (Nat × ShgCtx) :=
  match idx.find? (·.1 == p.1) with
  | none => []
  | some (_, k, g) =>
    [(k, { p.2 with
      owner := b.owner, gen := g, provisional := false, area := p.2.area.map b.word
      slotRef := p.2.slotRef.map fun n => n - b.ksOld + b.ksNew
      wrapped := p.2.wrapped.map fun w => wrapSession kek (sessionPlain (w.plain.take 32) k g b.owner p.2.limlog) })]

/-- The image's checks 1 to 3: the snapshot it carries, or the status. -/
def imageCheck (s : State) (i : Nat) (certs : List Byte) (m : MigImage) : Except Word16 Snapshot :=
  let h := m.header
  let hdr := h.take 0x4E0
  let id := slice h 0x4D0 16
  if h.length ≠ 4656 ∨ getLe h 0 4 ≠ 0x4D494752 ∨ getLe h 4 1 ≠ 1 ∨ slice h 0x18 16 ≠ slice s.otp.serial 0 16 ∨
      getLe h 6 1 ≠ i ∨ some (slice h 0x38 32) ≠ (sget (fun _ => none) s.dur.offers i).map (fun n => slice n 0 32) then
    .error St.migOfferInvalid
  else if getLe h 0x2A 2 ≠ 0x8128 ∨ fld (s.reg Reg.KPR_ID_REV).toNat 8 8 < getLe h 0x29 1 then .error St.imageNewer
  else
    let key := kdf Lbl.body (sharedSecret (privKey 0x30 (migValue s)) (slice h 0x90 1088) 32) (slice h 0x38 32) 32
    let n := m.chunks.length
    let ps := (List.range n).map fun k => openChunk key hdr (m.chunks.getD k []) k (k + 1 == n)
    let body := (ps.map fun p => p.getD []).flatten
    if Config.chainOk 0x12 id (installed s ++ certs) ∧
        sigVerify 8 (Config.chainKey id (installed s ++ certs)) hdr (slice h 0x4E0 3405) ∧ n = getLe h 0x2C 4 ∧
        ps.all (·.isSome) ∧ body.length = getLe h 0x88 8 then
      match readPlaintext body with
      | some q => .ok q
      | none => .error St.migImageInvalid
    else .error St.migImageInvalid

/-- The target descriptor fits the image's (R369). -/
def restoreFits (d : List Byte) (q : Snapshot) : Bool :=
  ([.model, .contexts, .dramSize, .ksCount, .ringCount, .ringBase].all fun f => descGet d f == descGet q.desc f) &&
    slice d 0x60 48 == slice q.desc 0x60 48

/-- RESTORE (R369). -/
def insRestore (s : State) (i : Nat) (m : MigImage) : State :=
  if (sget (fun _ => none) s.dur.offers i).isNone then insEnd s St.instanceState
  else
    match readDesc s i true with
    | (.error st, s) => insEnd s st
    | (.ok d, s) =>
      match migBuffer s with
      | (none, s) => insEnd s St.carryFault
      | (some certs, s) =>
        match imageCheck s i certs m with
        | .error st => insEnd s st
        | .ok q =>
          if ¬ restoreFits d q then insEnd s St.descriptorInvalid
          else if descGet d .sQuota < q.shg.length then insEnd s St.resizeBelowUse
          else
            match takeMany q.shg s.dur with
            | none => insEnd s St.tableFull
            | some (idx, dur) =>
              let b : Rebase := {
                base := descGet q.desc .dramBase, size := 2 ^ 20 * descGet q.desc .dramSize, target := descGet d .dramBase
                owner := i, index := idx, ksOld := descGet q.desc .ksBase, ksNew := descGet d .ksBase }
              let q' := { q with
                desc := d, ctxs := q.ctxs.map fun p => (p.1, b.ctx p.2), tickets := q.tickets.map fun p => (p.1, b.ticket p.2)
                dram := q.dram.map b.word }
              let (e, r) := volumeIntents s i d
              let effs := (q.shg.map (moveCtx (shgWrapKey s dur.wrapgen) b idx)).flatten.map (fun p => Eff.ctxPut p.1 p.2) ++
                ((List.range 256).map fun k => Eff.counter i k (q.ctrs.getD k 0) 0) ++
                q.slots.map fun p => Eff.slot (b.ksNew + p.1) { p.2 with owner := i }
              let s := { s with dur := dur, ins := { s.ins with chunks := m.chunks.length } }
              insCommit (s.modInst i fun x => { x with desc := d, snap := some q' }) i 13 4
                (.offer i none :: .desc i d :: e ++ effs) r

/-- The sections take their places at the mark. -/
def restoreMarked (s : State) (i : Nat) : State :=
  match (s.inst i).snap with
  | none => s
  | some q =>
    let base := descGet q.desc .dramBase
    let s := zeroDram s base (2 ^ 20 * descGet q.desc .dramSize)
    let s := wrWords s base q.dram
    let s := (s.setMpu i q.mpu)
    let s := q.ctxs.foldl (fun s p => s.setCtx (ctxKey i p.1) p.2) s
    let s := q.tickets.foldl (fun s p => s.setTk i p.1 p.2) s
    let s := q.rings.foldl (fun s p =>
      s.setRing (descGet q.desc .ringBase + p.1) { p.2 with
        cfg := (p.2.cfg &&& 0xE07FFFFF) ||| BitVec.ofNat 32 (2 ^ 23 * i), waiters := [] }) s
    s.modInst i fun x => { x with
      installed := true, measImage := slice q.desc 0x60 48, measDesc := genBytes 48 (Config.hashByte 2 q.desc)
      closed := true, snap := none }

/-! ## Commands as a whole -/

/-- A command written to INS.CMD (R336, R374). -/
def insCmd (s : State) (op : Nat) (img : MigImage := ⟨[], []⟩) : State :=
  let i := isel s
  if s.ins.busy.isSome ∨ op = 0 ∨ 13 < op then s
  else
    let s := { s with ins := { s.ins with busy := some (i, op), chunks := if op = 11 ∨ op = 13 then 0 else s.ins.chunks } }
    if (i = 0 ∧ op ≠ 8) ∨ ¬ (i = 0 ∨ insFrom op (s.inst i).state) then insEnd s St.instanceState
    else
      match op with
      | 11 => insSave s i
      | 12 => insOffer s i
      | 13 => insRestore s i img
      | _ => insLocal s i op

/-- The commit of a command, or of a halt, is marked. -/
def insMarked (s : State) (i op st : Nat) : State :=
  match op with
  | 10 => insDone ((setState s i 5).modInst i fun x => { x with snap := some (snapshot s i) }) i 10
  | 11 =>
    let s := unbindRings (clearInst (setState s i 6) i) i
    if s.ins.busy = some (i, 11) then saveBuild (s.modInst i fun x => { x with saved := s.ins.image }) i else s
  | 12 => if s.ins.busy = some (i, 12) then offerMarked s i else s
  | 13 => insDone (restoreMarked (setState s i 4) i) i 13
  | _ => localMarked s i op st

/-- The commit of a command could not be made: the command ends with its status and has changed nothing (R337). -/
def insFailed (s : State) (i op : Nat) (st : Word16) : State :=
  let s := match op with
    | 1 => if (s.inst i).state = 0 then s.setInst i {} else s
    | 13 => if (s.inst i).state = 0 then s.setInst i {} else s
    | 4 => s.modInst i fun x => { x with zeroDrain := false }
    | _ => s
  if s.ins.busy = some (i, op) then insEnd { s with ins := { s.ins with image := [] } } st else s

def execCreateInst (s : State) : Host.Outcome State Fault Refusal := done s (s.byKeeper fun s => insCmd s 1)
def execInstallImage (s : State) : Host.Outcome State Fault Refusal := done s (s.byKeeper fun s => insCmd s 2)
def execStartInst (s : State) : Host.Outcome State Fault Refusal := done s (s.byKeeper fun s => insCmd s 3)
def execQuiesce (s : State) : Host.Outcome State Fault Refusal := done s (s.byKeeper fun s => insCmd s 4)
def execResumeInst (s : State) : Host.Outcome State Fault Refusal := done s (s.byKeeper fun s => insCmd s 5)
def execResetInst (s : State) : Host.Outcome State Fault Refusal := done s (s.byKeeper fun s => insCmd s 6)
def execRemoveInst (s : State) : Host.Outcome State Fault Refusal := done s (s.byKeeper fun s => insCmd s 7)
def execStage (s : State) : Host.Outcome State Fault Refusal := done s (s.byKeeper fun s => insCmd s 8)
def execUnstage (s : State) : Host.Outcome State Fault Refusal := done s (s.byKeeper fun s => insCmd s 9)
def execFreeze (s : State) : Host.Outcome State Fault Refusal := done s (s.byKeeper fun s => insCmd s 10)
def execSave (s : State) : Host.Outcome State Fault Refusal := done s (s.byKeeper fun s => insCmd s 11)
def execOffer (s : State) : Host.Outcome State Fault Refusal := done s (s.byKeeper fun s => insCmd s 12)
def execRestore (img : MigImage) (s : State) : Host.Outcome State Fault Refusal :=
  done s (s.byKeeper fun s => insCmd s 13 img)

end Sys2Proof.Machine
end

