-- ==== Sys2Proof/Machine/Tideline.lean ====
section
/-! DEFINITION. The commit (03, R102-R119): its checks, admission, mark, apply and applied mark, its failures, and what
each kind of commit does at its mark. -/

namespace Sys2Proof.Machine

open Sys2Proof

/-! ## Credentials (R454, R559) -/

/-- A signer's twin chains verify up to a chain position, and its hybrid signature over the message verifies. -/
def credVerify (s : State) (pos : Nat) (signer certs msg sig : List Byte) : Bool :=
  let ca := sget (fun _ => []) s.otp.certs pos ++ sget (fun _ => []) s.otp.certs (pos + 128)
  Config.chainOk pos signer (ca ++ certs) && sigVerify 8 (Config.chainKey signer certs) msg sig

/-- A clear authorisation (R559). The source is raised while it is not armed, or its window holds half its count. -/
def clearCheck (s : State) (src : Nat) (b : List Byte) : Word16 :=
  if b.length < 0x48 + 3405 ∨ getLe b 0 4 ≠ 0x434C5246 ∨ getLe b 4 1 ≠ 1 ∨ getLe b 5 1 ≠ src ∨ getLe b 6 2 ≠ 0 ∨
      slice b 8 16 ≠ slice s.otp.serial 0 16 ∨ slice b 0x18 32 ≠ slice s.tmp.wnonce 0 32 then St.credentialInvalid
  else if ¬ credVerify s 0x40 (slice b 0x38 16) (b.drop (0x48 + 3405)) (b.take 0x48) (slice b 0x48 3405) then
    St.credentialInvalid
  else
    let raised := if tKind src = .rate then
        decide (rateCount s src ≤ 2 * (sget (fun _ => []) s.tmp.win src).length)
      else !s.tmp.armed.getLsbD src
    if raised then St.tamperActive else St.ok

/-! ## The checks of R103 on one intent -/

/-- The field holds an area's lock, its fold included (R205, R210). -/
def areaLocked (s : State) (a : Nat) : Bool :=
  match lockOf s a with
  | some .field | some .fold => true
  | _ => false

/-- Checks 3 to 5: on the commit itself. `i` issues it. -/
def checkForm (s : State) (d : Durable) (i : Nat) : Intent → Word16
  | .append type fmt body =>
    if 0xFFFF < type.toNat ∨ 255 < fmt.toNat ∨ 4064 < body.len then St.intentInvalid else St.ok
  | .counter idx inc =>
    if 255 < idx.toNat ∨ inc = 0 ∨ 2 ^ 32 ≤ inc.toNat then St.intentInvalid
    else if 2 ^ 64 ≤ (sget (fun _ => (0, 0)) d.ctrs (256 * i + idx.toNat)).1.toNat + inc.toNat then St.intentInvalid
    else St.ok
  | .ctxUpdate _ _ st area =>
    if (st.tag ≠ Tag.raw ∧ st.tag ≠ Tag.int) ∨
        area.words.any (fun w => !(decide (w.tag ∈ [Tag.raw, Tag.int, Tag.dec, Tag.time, Tag.stat, Tag.sesh]))) then
      St.intentInvalid
    else St.ok
  | .stlSwitch g =>
    if i ≠ 0 ∨ 1 < g.toNat then St.intentInvalid else St.ok
  | .area a _ c =>
    let x := d.area a.toNat
    if a.toNat < 64 then
      if s.mode = Mode.workshop then St.modeRefused
      else if x.size = 0 ∨ c.len ≠ x.size then St.intentInvalid else St.ok
    else
      let y := d.area (a.toNat - 64)
      let n := getLe c.bytes 0 2
      if 127 < a.toNat ∨ i ≠ 0 ∨ c.len ≠ 16 ∨ (n ≠ 0 ∧ (n % 32 ≠ 0 ∨ 1024 < n)) ∨ (n ≠ 0 ∧ y.size ≠ 0 ∧ n ≠ y.size) ∨
          15 < getLe c.bytes 5 1 then St.intentInvalid
      else St.ok
  | .pwAttempt a op => if 63 < a.toNat ∨ 1 < op.toNat ∨ (d.area a.toNat).size = 0 then St.intentInvalid else St.ok
  | .clearFlag src _ =>
    if i ≠ 0 ∨ s.mode ≠ Mode.workshop ∨ 23 < src.toNat then St.intentInvalid else St.ok
  | _ => St.ok

/-- Check 4: the record types that a program may append (R83). -/
def checkType : Intent → Word16
  | .append type _ _ => if type.toNat = 6 ∨ 0x100 ≤ type.toNat then St.ok else St.typeReserved
  | _ => St.ok

/-- Check 5: a source word lost before the issue (R225). -/
def checkCarry : Intent → Word16
  | .append _ _ p | .ctxUpdate _ _ _ p | .area _ _ p | .clearFlag _ p => if p.poisoned then St.carryFault else St.ok
  | _ => St.ok

/-- Check 6: handles. -/
def checkHandle (d : Durable) (i : Nat) : Intent → Word16
  | .ctxUpdate h _ _ _ | .ctxFree h => handleCheck d i h
  | .keyAdvance w => if w.tag = Tag.sesh then handleCheck d i w.data else St.ok
  | _ => St.ok

/-- Check 7: the key that an advance names. A slot whose zeroisation is admitted before its mark is refused with KEY_MODE
(R447), one that is empty with KEY_ABSENT. -/
def checkKey (s : State) (d : Durable) (i : Nat) : Intent → Word16
  | .keyAdvance w =>
    let q := keyCtr d (refOfWord d w)
    match refOfWord d w with
    | .slot n =>
      let x := d.slot n
      if x.kind = 0 then (if (s.slot n).kind = 0 then St.keyAbsent else St.keyMode)
      else if ¬ aeadKind x.kind ∨ (i ≠ 0 ∧ (x.owner ≠ i ∨ ¬ keySlotIn s i n)) ∨ x.root ≠ rootOf s.mode then St.keyMode
      else if q.exhausted then St.keyExhausted else St.ok
    | .session k =>
      if ¬ (d.sctx k).keyPresent then St.keyAbsent else if q.exhausted then St.keyExhausted else St.ok
  | _ => St.ok

/-- Check 8: base versions, and with it the locks (R208, R210), the seal of a switch's target (R156) and the
authorisation of a clear (R559). The device's own field commits hold their lock. -/
def checkBase (s : State) (d : Durable) (i : Nat) (own : Bool) : Intent → Word16
  | .ctxUpdate h base _ _ => if (d.sctx (hIndex h)).version = base.toNat then St.ok else St.versionConflict
  | .stlSwitch g =>
    if g.toNat = d.stlActive ∨ (d.stlHome g.toNat).sealed then St.ok else St.genUnsealed
  | .area a base _ =>
    if a.toNat < 64 then
      if ¬ own ∧ areaLocked s a.toNat then St.busyField
      else if (d.area a.toNat).newest.1 = base.toNat then St.ok else St.versionConflict
    else if areaLocked s (a.toNat - 64) then St.busyField
    else if (d.area (a.toNat - 64)).newest.1 = base.toNat then St.ok else St.versionConflict
  | .pwAttempt a op =>
    let x := d.area a.toNat
    if ¬ own ∧ areaLocked s a.toNat then St.busyField
    else if x.limit ≤ x.attempts ∧ (op = 0 ∨ (¬ own ∧ ¬ (i = 0 ∧ s.mode = Mode.workshop))) then St.pwLocked
    else St.ok
  | .clearFlag src c => clearCheck s src.toNat c.bytes
  | _ => St.ok

/-- The first failure of a check over the intents in slot order. -/
def firstFail (l : List Intent) (f : Intent → Word16) : Option Word16 :=
  l.findSome? fun x => if f x = St.ok then none else some (f x)

/-! ## Absolute results (R79-R81, R96, R102) -/

/-- A record placed in a volume. `dev`: a device record. -/
def placeRecord (s : State) (d : Durable) (v : Nat) (dev : Bool) (num : Nat) (type fmt : Nat) (body : Payload) : Record :=
  let x := d.vol v
  let (k, f) := x.place (32 + body.len)
  { type := type, inst := v, fmt := fmt, flags := b2n dev * 2 + b2n (!s.kpr.timeSet)
    epoch := (s.reg Reg.STAT_EPOCH).toNat, tagLow := BitVec.ofNat 32 num, time := s.kpr.devtime, seq := x.nextSeq
    body := body, strip := k, offset := f }

/-- The class of the cost table at which a result of the device is priced: that of the store it writes, the metadata
area's small entries as a counter (log entry 21). -/
def effCode : Eff → Nat
  | .record _ _ => 1
  | .ctxUpdate _ _ _ _ _ | .ctxFree _ _ | .ctxPut _ _ | .ctxExhausted _ => 3
  | .ctxLimit _ _ | .slotLimit _ _ | .slotExhausted _ | .slot _ _ | .slotsZero | .wrapgen _ => 4
  | .stlSwitch _ => 5
  | .areaMeta _ _ | .areaContent _ _ _ | .shadowClear _ => 6
  | .attempts _ _ => 7
  | .sticky _ _ => 8
  | _ => 2

/-- Bytes of a resolved result (R110). -/
def effSize : Eff → Nat
  | .record _ r => 32 + r.body.len
  | .ctxUpdate _ _ _ _ _ => 256
  | .areaContent _ _ c => 8 + 8 * c.length
  | .desc _ d => d.length
  | .slot _ _ => 64
  | _ => 16

/-- The state of resolving a commit: the projected state, the state whose released bands count (R96), results, the first
SEQ appended by a program, the cost classes and the journal bytes of the intents so far, the volume of the first append
that finds no space, whether a receipt is not valid or a counter would pass its end, and the records of the device that
found no space with their volumes (R97). -/
structure Resolve where
  d : Durable
  rel : Durable
  effs : List Eff := []
  first : Nat := 0
  codes : List Nat := []
  bytes : Nat := 0
  full : Option Nat := none
  badReceipt : Bool := false
  overflow : Bool := false
  lost : Nat := 0
  devFull : List Nat := []

/-- The first failure of checks 9 and 10, and a counter that would pass its end (R102, R103). -/
def Resolve.err (r : Resolve) : Word16 :=
  if r.overflow then St.intentInvalid
  else if r.full.isSome then St.volumeFull
  else if r.badReceipt then St.receiptInvalid
  else 0

/-- One more intent with its results: a 64-byte header and the results, rounded up to a multiple of 64 (R110). -/
def Resolve.add (r : Resolve) (code : Nat) (l : List Eff) : Resolve :=
  { r with
    d := l.foldl applyHome (l.foldl applyEff r.d), effs := r.effs ++ l, codes := r.codes ++ [code]
    bytes := r.bytes + 64 + ((l.map effSize).sum + 63) / 64 * 64 }

/-- A device record where it finds space, with its volume where it does not (R96, R97). -/
def devRecEff (s : State) (num : Nat) (r : Resolve) (v type : Nat) (body : List Byte) : List Eff × List Nat :=
  let p := rawPayload body
  if volumeSpace s r.d r.rel v type p.len then
    ([.record v (placeRecord s r.d v true num type (Config.devFormat type).toNat p)], [])
  else ([], [v])

/-- A device record of a commit, left out where it finds no space (R97). -/
def addDevRec (s : State) (num : Nat) (r : Resolve) (v type : Nat) (body : List Byte) : Resolve :=
  match devRecEff s num r v type body with
  | ([], full) => { r with lost := r.lost + 1, devFull := r.devFull ++ full }
  | (l, _) => r.add 1 l

/-- What the receipts of a commit that pass R94 release (R96): the state with their bands released. -/
def receiptsOf (s : State) (i : Nat) (d : Durable) (l : List Intent) : Durable :=
  l.foldl (fun d it =>
    match it with
    | .append type _ body =>
      let b := body.bytes
      let v := receiptVol s d i b
      if type.toNat = 6 ∧ receiptOk s d i b then
        applyHome (applyEff d (.rcount v (getLe b 0x60 8))) (.release v (getLe b 0x20 8))
      else d
    | _ => d) d

/-- A result that is made absolute only here: the commit number of a counter, and the next wrap generation (R139). -/
def Resolve.absolute (r : Resolve) (num : Nat) : Eff → Eff
  | .counter i k v 0 => .counter i k v num
  | .wrapgen 0 => .wrapgen (r.d.wrapgen + 1)
  | e => e

/-- One intent's absolute result (R102). -/
def resolveIntent (s : State) (i num : Nat) (r : Resolve) (it : Intent) : Resolve :=
  match it with
  | .append type fmt body =>
    let isR := type.toNat == 6
    let b := body.bytes
    let v := if isR then receiptVol s r.d i b else i
    let good := isR && receiptOk s r.d i b
    if ¬ volumeSpace s r.d r.rel v type.toNat body.len then { r with full := r.full.or (some v) }
    else if isR && !good then { r with badReceipt := true }
    else
      let rec_ := placeRecord s r.d v false num type.toNat fmt.toNat body
      let r := { r with first := if r.first = 0 then rec_.seq else r.first }
      r.add 1 (.record v rec_ :: (if good then [.rcount v (getLe b 0x60 8), .release v (getLe b 0x20 8)] else []))
  | .counter idx inc =>
    let c := (sget (fun _ => (0, 0)) r.d.ctrs (256 * i + idx.toNat)).1
    if 2 ^ 64 ≤ c.toNat + inc.toNat then { r with overflow := true }
    else r.add 2 [.counter i idx.toNat (c + inc) num]
  | .ctxUpdate h _ st area =>
    let k := hIndex h
    r.add 3 [.ctxUpdate k st.data (area.words.take 16) ((r.d.sctx k).version + 1) s.kpr.devtime]
  | .ctxFree h => r.add 3 [.ctxFree (hIndex h) (nextGen (r.d.sctx (hIndex h)).gen)]
  | .keyAdvance w =>
    let k := refOfWord r.d w
    let q := keyCtr r.d k
    let lim := min (q.ivctr + 4096) (2 ^ q.limlog)
    r.add 4 [match k with | .slot n => .slotLimit n lim | .session n => .ctxLimit n lim]
  | .stlSwitch g => r.add 5 (if g.toNat = r.d.stlActive then [] else [.stlSwitch g.toNat])
  | .area a _ c =>
    r.add 6 [if a.toNat < 64 then .areaContent a.toNat ((r.d.area a.toNat).newest.1 + 1) c.words
      else .areaMeta (a.toNat - 64) c.bytes]
  | .pwAttempt a op => r.add 7 [.attempts a.toNat (if op = 0 then (r.d.area a.toNat).attempts + 1 else 0)]
  | .clearFlag src c =>
    let (l, full) := devRecEff s num r 0 0x0005 ([BitVec.ofNat 8 src.toNat, 0, 0, 0] ++ slice c.bytes 0x38 16)
    { r.add 8 (.sticky (BitVec.ofNat 24 (2 ^ src.toNat)) false :: l) with
      lost := r.lost + full.length, devFull := r.devFull ++ full }
  | .fold a v c => r.add 6 [.areaContent a v c, .shadowClear a]
  | .devRec v type body => addDevRec s num r v type body
  | .effects l => l.foldl (fun r e => r.add (effCode e) [r.absolute num e]) r

/-- A commit of the device with a device record carries first the count of records lost, where it fits (R97), and every
commit of the device the pending flags (R556). -/
def resolveAll (s : State) (c : Commit) (d : Durable) (num : Nat) : Resolve :=
  let i := if c.src = 64 then 0 else c.src
  let r : Resolve := { d := d, rel := receiptsOf s i d c.intents }
  let hasRec := c.intents.any fun x => match x with | .devRec _ _ _ => true | _ => false
  let r := if c.src = 64 ∧ hasRec ∧ 0 < d.devrecLost ∧ volumeSpace s d d 0 0x000D 4 then
      (addDevRec s num r 0 0x000D (leBytes 4 d.devrecLost)).add 2 [.devLost 0]
    else r
  let r := c.intents.foldl (resolveIntent s i num) r
  if c.src = 64 ∧ s.tmp.pendFlags ≠ 0 then r.add 8 [.sticky s.tmp.pendFlags true] else r

/-- The commit's last record carries LAST (R78). -/
def markLast (l : List Eff) : List Eff :=
  match l.reverse.findIdx? (fun e => match e with | .record _ _ => true | _ => false) with
  | some k =>
    let j := l.length - 1 - k
    l.modify j fun e => match e with | .record v r => .record v { r with flags := r.flags + 4 } | e => e
  | none => l

/-! ## Costs and journal pages (R110, R117) -/

/-- The mark cost and the cost of each intent, those that the commit engine adds included (R117). -/
def commitCost (s : State) (r : Resolve) : Nat := costOf s 0 + (r.codes.map (costOf s)).sum

/-- The intent pages of a commit (R110). -/
def intentPages (r : Resolve) : Nat := (r.bytes + 16383) / 16384

def journalFree (s : State) (n : Nat) : Bool := decide (s.tdl.pages.length + n + 1 ≤ 16384)

/-! ## Ends of a commit -/

def storeShut (s : State) (c : Commit) : Bool := (s.dur.sealed || s.tdl.sealing) && c.purpose != .sealRec

def devRecs (c : Commit) : Nat :=
  (c.intents.filter fun x => match x with | .devRec _ _ _ => true | _ => false).length

/-- Step 3 of Standby entry (R63): every open strip closes for reason 3. -/
def standbyRecorded (s : State) : State :=
  settleStrips (closeAll { s with kpr := { s.kpr with standby := 3 } } 3)

/-- What a commit is for is done at its mark. -/
def purposeMarked (s : State) (c : Commit) : State :=
  match c.purpose with
  | .tamper t l => if resets s t l ∧ s.pwr.flush = 0 then tamperReset s t else s
  | .instCmd i op st => insMarked s i op st
  | .keyCmd _ _ => { s with key := { s.key with cmd := none, stat := St.ok } }
  | .pubLoad _ => pubFail s St.ok
  | .areaWrite a => areaMarked s a
  | .pwIncr a | .pwReset a => pwMarked s a
  | .fold a => foldEnd s a
  | .sealRec => { s with tdl := { s.tdl with sealing := false } , dur := { s.dur with sealed := true } }
  | .terminal => destroyAll s 1
  | .portPost k e => postEntry s k e
  | .standby => standbyRecorded s
  | _ => s

/-- The event of a device commit that could not be made (R97, R505), or the status of a command that it served. -/
def purposeFailed (s : State) (c : Commit) (st : Word16) : State :=
  let lose := fun (s : State) =>
    { s with dur := { s.dur with devrecLost := s.dur.devrecLost + devRecs c } }
  match c.purpose with
  | .tamper t l => let s := lose s; if resets s t l ∧ s.pwr.flush = 0 then tamperReset s t else s
  | .instCmd i op _ => insFailed s i op st
  | .advance _ k => airFailed (advanceFailed s k st) k st
  | .keyCmd _ _ => keyFail s st
  | .pubLoad _ => pubFail s st
  | .areaWrite a | .pwIncr a | .pwReset a => fieldRefused s a st
  | .fold a => foldEnd s a
  | .sealRec => { lose s with tdl := { s.tdl with sealing := false }, dur := { (lose s).dur with sealed := true } }
  | .terminal => destroyAll (lose s) 1
  | .portPost k e => postEntry (lose s) k e
  | .standby => standbyRecorded (lose s)
  | _ => lose s

/-- The results of the device that a commit carries as such. -/
def devEffs (c : Commit) : List Eff := (c.intents.map fun x => match x with | .effects l => l | _ => []).flatten

/-- A volume exists from its creation on, also where the commit of its volume-opened record fails (R76). -/
def keepVolumes (s : State) (c : Commit) : State :=
  { s with dur := (devEffs c).foldl (fun d e =>
      match e with
      | .newVol v g a => if (d.vol v).gen < g then applyEff d (.newVol v g a) else d
      | _ => d) s.dur }

/-- A commit ends without effect, with a status. One of the device's own that meets the sealed store has its event take
full effect all the same (R97, R505). -/
def commitFails (s : State) (c : Commit) (st : Word16) : State :=
  let s := freeLocks (keepVolumes s c) c.id
  let s := match c.ticket with
    | some t => ((s.tkDone c.src t st).statInc (instStat c.src 0x18))
    | none => s
  let s := if st = St.holdupLow then
      let s := (s.incReg Reg.BRK_REFUSED).statInc 0x48
      if c.src = 64 then s else s.statInc (instStat c.src 0x38)
    else s
  let s := if c.intents.any (fun x => match x with | .clearFlag _ _ => true | _ => false) ∧
      st = St.credentialInvalid then credFailure s none else s
  if c.src = 64 ∧ st = St.storeSealed then
    let s := { s with dur := { (devEffs c).foldl applyEff s.dur with devrecLost := s.dur.devrecLost + devRecs c } }
    match c.purpose with
    | .tamper t l => if resets s t l ∧ s.pwr.flush = 0 then tamperReset s t else s
    | .instCmd i op st => insMarked s i op st
    | .keyCmd _ _ | .pubLoad _ | .advance _ _ => purposeFailed s c st
    | _ => purposeMarked s c
  else purposeFailed s c st

/-- The first refusal of an append for want of space after a release commits a volume-full record and raises source 3 of the
instance (R96, R350). -/
def volumeFullRec (s : State) (v : Nat) : State :=
  let x := s.dur.vol v
  if x.full ∨ ¬ x.exist then s
  else (({ s with dur := s.dur.setVol v { x with full := true } }).devRecord 0x000A
    ([BitVec.ofNat 8 v, 0, 0, 0] ++ leBytes 4 (quotaOf s v))).raiseIrq v 3

/-! ## Validation and admission (R103, R104, R106, R109, R116, R119) -/

/-- A ZEROISE of a slot for which an advance is admitted without its mark (R447). -/
def zeroiseLate (s : State) (c : Commit) : Bool :=
  match c.purpose with
  | .keyCmd n false => s.tdl.admitted.any fun a => a.intents.any fun x =>
      match x with | .keyAdvance w => refOfWord s.dur w == .slot n | _ => false
  | _ => false

/-- The state-dependent checks: 2 and 6 to 10. -/
def checkState (s : State) (c : Commit) (d : Durable) : Option Word16 :=
  let i := if c.src = 64 then 0 else c.src
  let own := c.ticket.isNone
  if storeShut s c then some St.storeSealed
  else
    (firstFail c.intents (checkHandle d i)).or <|
    (firstFail c.intents (checkKey s d i)).or <|
    (if zeroiseLate s c then some St.keyMode else none).or <|
    (firstFail c.intents (checkBase s d i own)).or <|
    let r := resolveAll s c d 0
    if r.err = 0 then none else some r.err

/-- Validation of an instance's commit after check 1: checks 2 to 10. -/
def validate (s : State) (c : Commit) : Option Word16 :=
  let d := s.projected
  if storeShut s c then some St.storeSealed
  else if c.intents = [] ∨ 8 < c.intents.length then some St.intentInvalid
  else
    (firstFail c.intents (checkForm s d c.src)).or <|
    (if (resolveAll s c d 0).overflow then some St.intentInvalid else none).or <|
    (firstFail c.intents checkType).or <|
    (firstFail c.intents checkCarry).or <| checkState s c d

/-- Areas whose locks an instance's commit takes at validation (R209). -/
def lockAreas (c : Commit) : List Nat :=
  c.intents.filterMap fun x => match x with
    | .area a _ _ => some (a.toNat % 64)
    | .pwAttempt a _ => some a.toNat
    | _ => none

/-- A commit of an instance is issued (R106 steps 1 and 2): validated, then waiting for admission, or refused. -/
def commitIssue (s : State) (i t : Nat) (intents : List Intent) (dl : Deliver) : State :=
  let c : Commit := { id := s.tdl.nextId, src := i, ticket := some t, deliver := dl, intents := intents }
  match validate s c with
  | some st =>
    let r := resolveAll s c s.projected 0
    let s := commitFails s c st
    match st == St.volumeFull, r.full with
    | true, some v => volumeFullRec s v
    | _, _ => s
  | none =>
    if s.pwr.low then commitFails s c St.holdupLow
    else
      let s := (lockAreas c).foldl (fun s a => lockFor s c.id a) s
      s.enqueue c

def unqueue (s : State) (c : Commit) : State :=
  { s with tdl := { s.tdl with waiting := s.tdl.waiting.filter (·.id ≠ c.id) } }

/-- Waiting commits that complete with a status, as long as they wait. -/
def failEach (s : State) (l : List Commit) (st : Word16) : State :=
  l.foldl (fun s c => if s.tdl.waiting.any (·.id == c.id) then commitFails (unqueue s c) c st else s) s

/-- Breakwater's admission (R116, R119) and the journal's (R110). -/
def fits (s : State) (c : Commit) : Bool :=
  let r := resolveAll s c s.projected s.tdl.next
  journalFree s (intentPages r) &&
    (if c.reserve then decide (commitCost s r ≤ energyUj s)
     else decide (commitCost s r + inflightUj s + reserveUj s ≤ energyUj s))

/-- The oldest waiting commit of a requester; the device's raises go before its other commits. -/
def headOf (s : State) (src : Nat) : Option Commit :=
  if src = 64 then (s.tdl.waiting.find? fun c => c.src = 64 ∧ c.reserve).or (s.tdl.waiting.find? (·.src == 64))
  else s.tdl.waiting.find? (·.src == src)

/-- A strip that the next record does not fit closes as full (R81, R85). -/
def fullStrips (s : State) (d : Durable) (l : List Eff) : State :=
  (l.foldl (fun (acc : State × Durable) e =>
    match e with
    | .record v r =>
      let x := acc.2.vol v
      let s := if x.isOpen ∧ r.strip ≠ x.strip then
          let y := acc.1.dur.vol v
          { acc.1 with
            dur := acc.1.dur.setVol v { y with
              reqs := y.reqs ++ [(x.strip, 0, s.kpr.devtime, (s.reg Reg.STAT_EPOCH).toNat)] } }
        else acc.1
      (s, applyEff acc.2 e)
    | e => (acc.1, applyHome (applyEff acc.2 e) e)) (s, d)).1

/-- Admission of a commit that fits (R104-R106 step 3). A device record that finds no space in a volume is a refusal of
R96. -/
def admitCommit (s : State) (c : Commit) : State :=
  let d := s.projected
  let num := s.tdl.next
  let r := resolveAll s c d num
  let effs := markLast r.effs
  let pages := intentPages r
  let c' := { c with
    num := num, effs := effs, cost := commitCost s r, codes := r.codes, pages := pages
    firstSeq := r.first, time := s.kpr.devtime, lost := r.lost }
  let s := unqueue s c
  let s := fullStrips s d effs
  let s := { s with
    tdl := { s.tdl with
      next := num + 1, admitted := s.tdl.admitted ++ [c']
      pages := s.tdl.pages ++ List.replicate pages [num] } }
  let s := (s.statInc 0x44).statInc 0x74 pages
  let s := (settleStrips s).statMax 0x4C ((s.kpr.devtime - c.issued).toNat / 1000)
  let s := match c.purpose with | .fold a => foldAdmitted s a | _ => s
  r.devFull.foldl volumeFullRec s

/-- The commit is the last that the device makes (R45). -/
def Commit.last (c : Commit) : Bool :=
  match c.purpose with
  | .terminal => true
  | .tamper _ l => l == 5
  | _ => false

/-- A waiting commit can be ended or admitted now: its second checks fail, it fits, or it is a raise that does not fit
even the whole energy (R97, R119). -/
def Commit.ready (s : State) (c : Commit) : Bool :=
  (checkState s c s.projected).isSome || (s.kpr.brkReady && fits s c) ||
    (s.kpr.brkReady && c.reserve && decide (energyUj s < commitCost s (resolveAll s c s.projected s.tdl.next)))

/-- The second checks of a waiting commit and its admission (R103, R106 step 3). -/
def admitOrFail (s : State) (c : Commit) : State :=
  match checkState s c s.projected with
  | some st =>
    let r := resolveAll s c s.projected 0
    let s := commitFails (unqueue s c) c st
    match st == St.volumeFull, r.full with
    | true, some v => volumeFullRec s v
    | _, _ => s
  | none => if fits s c then admitCommit s c else commitFails (unqueue s c) c St.holdupLow

/-- COMMIT_ADMISSION (R53, R103, R109): the next requester, round-robin, whose oldest commit fits, or fails its second
checks. A raise that does not fit even so is lost (R97, R119). The records of a start-up or of a change of mode go
before every other commit, and none follows the last one before Terminated (R45); with the capacitance low every commit
fails (R55). -/
def admission (s : State) : State :=
  let first := s.tdl.waiting.find? fun c => match c.purpose with | .startup => true | .transition _ => true | _ => false
  if ¬ s.kpr.replayDone ∨ s.tdl.admitted.any Commit.last then s
  else if s.pwr.low then
    match s.tdl.waiting with
    | c :: _ => commitFails (unqueue s c) c St.holdupLow
    | [] => s
  else if ¬ s.kpr.records ∧ ¬ s.terminated then s
  else
    match first with
    | some c => if c.ready s then admitOrFail s c else s
    | none =>
      match ((List.range 65).map fun k => (s.tdl.ptr + k) % 65).findSome? fun src => (headOf s src).bind fun c =>
          if c.ready s then some c else none with
      | none => s
      | some c => admitOrFail { s with tdl := { s.tdl with ptr := (c.src + 1) % 65 } } c

def execCommitAdmission (s : State) : Host.Outcome State Fault Refusal := done s (admission (flushSample s))

/-- COMMIT_ADMISSION_TIMEOUT (R54, R103 checks 11 and 12): the commit's timeout has run out. It does not run in Standby
(R372). -/
def execCommitAdmissionTimeout (id : Nat) (s : State) : Host.Outcome State Fault Refusal :=
  done s (
    match s.tdl.waiting.find? (·.id == id) with
    | none => s
    | some c =>
      if ¬ s.kpr.brkReady ∨ c.reserve ∨ s.mode = Mode.standby then s
      else
        let full := !journalFree s (intentPages (resolveAll s c s.projected s.tdl.next))
        commitFails (unqueue s c) c (if full then St.journalBusy else St.holdupLow))

/-! ## Mark, apply, applied mark (R105-R107, R110, R118) -/

/-- The cost learned from a measured share (R118). The sixteenth of the difference is rounded down, and an entry stays
at the largest value of its field (log entry 107). -/
def learn (s : State) (k m : Nat) : State :=
  let old := costOf s k
  let new := max m (old - (old - m) / 16)
  s.setReg (costReg s k) (BitVec.ofNat 32 (min new 0xFFFFFF))

/-- Tickets of a commit at its mark (R291). -/
def commitDone (s : State) (c : Commit) : State :=
  match c.ticket with
  | none => s
  | some t =>
    let s := s.statInc (instStat c.src 0x14)
    match c.deliver with
    | .commit =>
      s.tkDone c.src t St.ok [intW (BitVec.ofNat 64 c.num), intW (BitVec.ofNat 64 c.firstSeq)] c.intents.length
    | .cstore =>
      let v := (c.effs.findSome? fun e => match e with | .ctxUpdate _ _ _ v _ => some v | _ => none).getD 0
      s.tkDone c.src t St.ok [intW (BitVec.ofNat 64 v)]
    | .cfree => s.tkDone c.src t St.ok

/-- A committed clear of flags (R558): one whose source has raised since, so that the raise's commit is not marked yet, stays
pending (R564). -/
def clearFlags (s : State) (m : BitVec 24) : State :=
  let raised := (s.tdl.waiting ++ s.tdl.admitted).foldl (fun (r : BitVec 24) c =>
    match c.purpose with | .tamper t _ => r ||| BitVec.ofNat 24 (2 ^ t) | _ => r) 0
  let m := m &&& ~~~(raised &&& s.tmp.pendFlags)
  { s with tmp := { s.tmp with sticky := s.tmp.sticky &&& ~~~m, pendFlags := s.tmp.pendFlags &&& ~~~m } }

/-- What a result brings beside the durable state, at the mark: flags, lanes whose slot is zeroised (R447), the active
list generation (R157), statistics. -/
def effHook (s : State) (src : Nat) : Eff → State
  | .sticky m true => { s with tmp := { s.tmp with pendFlags := s.tmp.pendFlags &&& ~~~m } }
  | .sticky m false => clearFlags s m
  | .slot n x =>
    let s := { s with key := { s.key with bad := s.key.bad.filter (· ≠ n) } }
    if x.kind = 0 then
      { s with cip := { s.cip with
          lanes := s.cip.lanes.map fun l => if l.2.ref = .slot n then (l.1, { l.2 with dead := true }) else l } }
    else s
  | .stlSwitch _ => { s with stl := { s.stl with releasing := true } }
  | .record v r => if src = 64 then s else
    (s.statInc (instStat v 0x1C)).statInc64 (instStat v 0x20) (32 + r.body.len)
  | .ctxUpdate _ _ _ _ _ => if src = 64 then s else s.statInc (instStat src 0x28)
  | _ => s

/-- The intent-phase energy of one commit is shared among its intents in proportion to the table as it stands, each
share rounded down, and each use of an entry updates it (R118; log entry 107); then its mark's energy. -/
def learnCommit (s : State) (codes : List Nat) (markUj intentUj : Nat) : State :=
  let total := (codes.map (costOf s)).sum
  let shares := codes.map fun k => (k, if total = 0 then 0 else intentUj * costOf s k / total)
  learn (shares.foldl (fun s p => learn s p.1 p.2) s) 0 markUj

/-- One commit becomes visible (R107). In Terminated no key comes back into a slot (R70). -/
def markVisible (s : State) (c : Commit) : State :=
  let d := c.effs.foldl applyEff s.dur
  let s := { s with
    dur := { d with slots := if s.terminated then [] else d.slots, devrecLost := d.devrecLost + c.lost }
    tdl := { s.tdl with
      admitted := s.tdl.admitted.filter (·.id ≠ c.id)
      marked := s.tdl.marked ++ [{ c with before := some ⟨s.dur, s.tdl.lastMarked, s.tdl.lastTime⟩ }], lastMarked := c.num
      lastTime := if c.effs.any (fun e => match e with | .record _ _ => true | _ => false) then c.time else s.tdl.lastTime
      times := (s.tdl.times ++ [(s.kpr.devtime - c.issued).toNat / 1000]).drop (s.tdl.times.length - 63) } }
  let s := c.effs.foldl (fun s e => effHook s c.src e) s
  settleStrips (commitDone (freeLocks s c.id) c)

/-- The mark of the commit resets the device. -/
def Commit.resets (s : State) (c : Commit) : Bool :=
  match c.purpose with
  | .tamper t l => Machine.resets s t l && s.pwr.flush == 0
  | _ => false

/-- COMMIT_MARK (R105-R107, R118): one mark page carries the marks of the first `count` admitted commits. All of them
become visible as its program completes, and each has its energy measured; then what they are for is done, a device
reset last. -/
def commitMark (s : State) (count : Nat) (markUj intentUj : List Nat) : State :=
  let cs := s.tdl.admitted.take (max 1 count)
  if cs = [] then s
  else
    let s := { s with tdl := { s.tdl with pages := s.tdl.pages ++ [cs.map fun (c : Commit) => c.num] } }
    let s := (s.statInc 0x70 cs.length).statInc 0x74
    let s := cs.zipIdx.foldl (fun s p => learnCommit s p.1.codes (markUj.getD p.2 0) (intentUj.getD p.2 0)) s
    let s := cs.foldl markVisible s
    let s := (cs.filter fun c => !c.resets s).foldl purposeMarked s
    match cs.find? fun c => c.resets s with
    | some c => purposeMarked s c
    | none => s

def execCommitMark (count : Nat) (markUj intentUj : List Nat) (s : State) : Host.Outcome State Fault Refusal :=
  done s (commitMark s count markUj intentUj)

/-- COMMIT_APPLY (R106 step 6). After a main loss it goes on only while the usable energy exceeds the reserve (R111
step 4). -/
def commitApply (s : State) : State :=
  match s.tdl.marked with
  | [] => s
  | c :: cs =>
    if s.pwr.flush ≠ 0 ∧ energyUj s ≤ reserveUj s then s
    else { s with
      dur := c.effs.foldl applyHome s.dur
      tdl := { s.tdl with marked := cs, applied := s.tdl.applied ++ [{ c with before := none }], lastApplied := c.num } }

def execCommitApply (s : State) : Host.Outcome State Fault Refusal := done s (commitApply (flushSample s))

/-- APPLIED_MARK (R106 step 7, R110): the applied marks so far are durable; pages all of whose commits have theirs are
free. -/
def appliedMark (s : State) : State :=
  let live := (s.tdl.admitted ++ s.tdl.marked).map (·.num)
  { s with tdl := { s.tdl with
      applied := [], pages := s.tdl.pages.filter fun p => p.any fun n => decide (n ∈ live) } }

def execAppliedMark (s : State) : Host.Outcome State Fault Refusal := done s (appliedMark s)

/-! ## Failures (R108) -/

/-- An admitted commit fails: it completes with JOURNAL_FAULT, every later one without a mark with COMMIT_ABORTED. -/
def journalFault (s : State) (c : Commit) : State :=
  let after := s.tdl.admitted.filter fun d => decide (c.num < d.num)
  let gone := c.num :: after.map (·.num)
  let s := { s with tdl := { s.tdl with
    admitted := s.tdl.admitted.filter fun d => decide (d.num < c.num)
    pages := s.tdl.pages.filter fun p => p.any fun n => !decide (n ∈ gone) } }
  let s := commitFails s c St.journalFault
  settleStrips (after.foldl (fun s d => commitFails s d St.commitAborted) s)

/-- JOURNAL_PROGRAM_FAILURE: a page with intents of commit `n`, or with the marks of the first `n` admitted commits,
fails to program. It counts once against every commit whose intents or mark it carries, page by page; a page that
carries only applied marks counts against none. -/
def journalFailure (s : State) (page : Option (Fin 3)) (n : Nat) : State :=
  let s := { s.incReg Reg.TDL_PFAIL with tdl := { s.tdl with pfail := s.tdl.pfail + 1 } }
  let key := match page with | some k => k.val | none => 3
  let hit := match page with
    | some k => s.tdl.admitted.filter fun (c : Commit) => c.num == n && decide (k.val < c.pages)
    | none => s.tdl.admitted.take n
  let ids := hit.map fun (c : Commit) => c.id
  let s := { s with tdl := { s.tdl with
    admitted := s.tdl.admitted.map fun c =>
      if c.id ∈ ids then { c with failed := sset (fun _ => 0) c.failed key (sget (fun _ => 0) c.failed key + 1) } else c } }
  match s.tdl.admitted.find? (fun c => decide (c.id ∈ ids ∧ 3 ≤ sget (fun _ => 0) c.failed key)) with
  | some c => journalFault s c
  | none => s

def execJournalProgramFailure (page : Option (Fin 3)) (n : Nat) (s : State) : Host.Outcome State Fault Refusal :=
  done s (journalFailure s page n)

/-! ## Main loss (R111) -/

/-- MAIN_LOSS: VMAIN has been below 4.5 V for 20 µs. -/
def mainLoss (s : State) : State :=
  if ¬ s.pwr.up ∨ s.pwr.flush ≠ 0 then s
  else
    let s := flopStop s
    let s := { s with
      pwr := { s.pwr with flush := 1, measuring := false }
      ctxs := s.ctxs.map fun p => (p.1, if p.2.bundle.isNone ∧ p.2.run = .running then { p.2 with run := .stopped } else p.2) }
    let s := airClose (stopRings s (fun _ => true) St.ringStopped)
    if s.tmp.pendFlags ≠ 0 then s.devCommit [] .none true else s

def execMainLoss (s : State) : Host.Outcome State Fault Refusal := done s (mainLoss s)

/-- SHORT_DIP: counted in the statistics frame. -/
def execShortDip (s : State) : Host.Outcome State Fault Refusal :=
  done s (if s.pwr.up ∧ s.pwr.flush = 0 then s.statInc 0x40 else s)

/-- FLUSH_MARKS_WRITTEN: every admitted commit has its mark. -/
def execFlushMarksWritten (s : State) : Host.Outcome State Fault Refusal :=
  done s (if s.pwr.flush = 1 ∧ s.tdl.admitted = [] then { s with pwr := { s.pwr with flush := 2 } } else s)

/-- What the loss of power leaves: the durable state, the one-time cells and the battery-backed roots (R111, R432). -/
def powerLoss (s : State) : State :=
  { deviceReset s 0 with
    kpr := {
      trigger := s.kpr.trigger, terminalCause := s.kpr.terminalCause
      prev := if s.mode = Mode.starting then s.kpr.prev else s.mode }
    pwr := {}
    tmp := {} }

/-- DEVICE_STOP (R111 step 5): never before every admitted commit has its mark. That all of them are applied, that the
energy has fallen to the reserve or that 20 ms have passed is the sender's (log entry 14). -/
def execDeviceStop (s : State) : Host.Outcome State Fault Refusal :=
  done s (if s.pwr.flush = 2 ∧ s.tdl.admitted = [] then powerLoss s else s)

end Sys2Proof.Machine
end

