-- ==== Sys2Proof/Machine/Flash.lean ====
section
/-! DEFINITION. What FLOP does (13, R471-R493), the retention stress (R491), and the evidence flash: patrol, refresh,
retirement and the store seal (R496-R507). -/

namespace Sys2Proof.Machine

open Sys2Proof

/-! ## Keeper images (R487) -/

/-- Where a boot block lies: BOOT_A, or BOOT_B. -/
def bootBase (b : Bool) : Nat := 0x10000000000 + (if b then 0x100000 else 0)

/-- The bytes of a boot block that its signature covers. -/
def imageSigned (s : State) (b : Bool) : List Byte :=
  s.rdBytes (bootBase b) (0x40 + min (getLe (s.rdBytes (bootBase b) 64) 8 4) 0x100000)

/-- The bytes of a boot block that its image takes, with the signature. -/
def imageLen (s : State) (b : Bool) : Nat :=
  let h := s.rdBytes (bootBase b) 64
  min (0x40 + getLe h 8 4 + getLe h 12 4) 0x100000

/-- The units of an image that fail their check as the block is read (R477). -/
def imageFaults (s : State) (b : Bool) : List Nat :=
  (s.checks.map (64 * ·.1)).filter fun a => decide (bootBase b ≤ a ∧ a < bootBase b + imageLen s b)

/-- A word of an image reads as POISON. -/
def imagePoison (s : State) (b : Bool) : Bool :=
  s.tags.any fun p => p.2 == Tag.poison && decide (bootBase b ≤ 8 * p.1 ∧ 8 * p.1 < bootBase b + imageLen s b)

/-- A boot block holds a keeper image that verifies (R487). One that is delivered as POISON in part does not. -/
def imageOk (s : State) (b : Bool) : Bool :=
  let h := s.rdBytes (bootBase b) 64
  let n := getLe h 8 4
  let m := getLe h 12 4
  let e := getLe h 16 4
  getLe h 0 4 == 0x4B454550 && getLe h 4 4 == 1 && n != 0 && n % 32 == 0 && decide (0x40 + n + m ≤ 0x100000) &&
    e % 4 == 0 && decide (e < n) && slice h 20 44 == zeros 44 && imageFaults s b == [] && !imagePoison s b &&
    sigVerify 9 (sget (fun _ => []) s.otp.certs 0x50) (imageSigned s b) (s.rdBytes (bootBase b + 0x40 + n) m)

/-- The units of an image that fail as it is read are reported once (R123, R477). -/
def imageRead (s : State) (b : Bool) : State := (imageFaults s b).foldl (fun s a => unitFails s a 0x14 none) s

/-! ## Critical decisions wait (R41, R561) -/

/-- No critical decision is evaluated: the first seed is missing (R41), the random source keeps requests waiting, or a
tamper response holds decisions back (R561). -/
def decisionBlocked (s : State) : Bool :=
  !s.kpr.seedDone || s.tmp.deferred || decide (s.kpr.devtime < s.tmp.fastUntil) || s.rng.waiting

/-! ## The issue of a FLOP (R481) -/

/-- The array of the inactive boot block. -/
def inactiveArray (s : State) : Nat := if s.kpr.bootsel then 2 else 3

def flopRange (a n : Nat) : Bool :=
  decide ((0x20000000 ≤ a ∧ a + n ≤ 0x21000000) ∨ (0x21000000 ≤ a ∧ a + n ≤ 0x22000000) ∨
    (0x28100000 ≤ a ∧ a + n ≤ 0x28200000))

/-- Check 1. -/
def flopArgs (o : Op) : Bool :=
  match o.sel with
  | 1 | 2 =>
    o.num 1 % 32 == 0 && o.num 3 % 32 == 0 && o.num 3 != 0 && flopRange (o.num 1) (o.num 3) && (o.word 2).tag == Tag.ptr
  | 3 | 4 => o.num 1 % 65536 == 0 && flopRange (o.num 1) 65536 && o.num 2 == 0 && o.num 3 == 0
  | 5 => o.num 1 == 0 && o.num 2 == 0 && o.num 3 == 0
  | _ => false

/-- The array that a FLOP makes busy. A swap verifies the inactive block. -/
def flopArray (s : State) (o : Op) : Nat :=
  if o.sel = 5 then inactiveArray s else (arrayOf s (o.num 1)).getD 0

def flopCode (sel : Nat) : Nat := if sel = 3 then 2 else if sel = 4 then 3 else if sel = 5 then 0 else 1

/-- The sectors of a range of cells. -/
def sectorsOf (pa n : Nat) : List Nat :=
  (List.range (sectorOf (pa + n - 1) - sectorOf pa + 1)).map fun k => sectorOf pa + k

/-- CFL.LAST after a FLOP, and its ticket. -/
def flopEnd (s : State) (i t sel pulses value : Nat) (st : Word16) (loc : Nat := 0) : State :=
  (s.setReg Reg.CFL_LAST (BitVec.ofNat 32 (65536 * st.toNat + 256 * pulses + sel % 8))).tkDone i t st [] value loc

/-- The checks of R481 in order, then the operation begins. `pc`: the bundle that issues it; none where the operation
waited outside its engine. Nothing happens while a source lies in a busy array (R479), or while the decision of a swap
is held back (R41, R561). -/
def flopStart (s : State) (i t : Nat) (pc : Option Nat) (upset : Bool) : State :=
  let o := (s.tk i t).op
  let sel := o.sel
  let k := flopArray s o
  let fail := fun (s : State) st loc => flopEnd s i t sel 0 0 st loc
  if ¬ flopArgs o then fail s St.argInvalid 0
  else if sel ≠ 5 ∧ k = inactiveArray s ∧ s.cfl.swapped then fail s St.swapPending 0
  else if (pc.bind fun a => arrayOf s a) = some k then fail s St.selfBank 0
  else if arrayBusy s k then fail s St.bankBusy 0
  else if sel = 5 then
    if 64 ≤ s.otp.swapCtr then fail s St.swapExhausted 0
    else if s.rng.fatal then fail s St.rngFatal 0
    else if decisionBlocked s then s
    else
      match rngDraw s 1 with
      | (.ok _, s) =>
        let s := imageRead (s.setTk i t { s.tk i t with op := .x 0x58 5 o.args [] 1 }) (!s.kpr.bootsel)
        { s with cfl := { s.cfl with
            busy := sset (fun _ => { op := 0, inst := 0, ticket := 0, sel := 0 }) s.cfl.busy k
              { op := 0, inst := i, ticket := t, sel := 5, first := imageOk s (!s.kpr.bootsel) } } }
      | (.wait, s) => s
      | (.fatal, s) => fail s St.rngFatal 0
  else
    let pa := phys s (o.num 1)
    let n := if sel ≤ 2 then o.num 3 else 65536
    if sel ≤ 2 ∧ rangeBusy s (o.num 2) n then s
    else
      match takeSources s (some i) o false upset with
      | (.error l, s) => fail s St.carryFault l
      | (.ok ps, s) =>
        let p := ps.getD 0 ⟨0, []⟩
        if sel ≤ 2 ∧ (sectorsOf pa n).any (fun j => (s.sector j).efail) then fail s St.eraseFail 0
        else if sel ≤ 2 ∧ (List.range (n / 32)).any (fun j => s.written (pa + 32 * j)) then fail s St.notErased 0
        else
          let s := s.setTk i t { s.tk i t with op := .x 0x58 sel o.args [p] 1 }
          { s with cfl := { s.cfl with
              busy := sset (fun _ => { op := 0, inst := 0, ticket := 0, sel := 0 }) s.cfl.busy k
                { op := flopCode sel, inst := i, ticket := t, sel := sel, addr := pa, len := n
                  src := p.words.map (flopWord (sel == 1)) } } }

/-! ## The end of a FLOP (R482-R484, R486, R489, R493) -/

/-- The core address of a cell, for CFL.FADDR. -/
def cellAddr (pa : Nat) : Nat := if 0x10000000000 ≤ pa then 0x28100000 + pa % 0x100000 else pa

def flopBlame (s : State) (pa : Nat) : State := s.setReg64 Reg.CFL_FADDR_LO (cellAddr pa)

/-- The units of a program, one after the other: with the pulses each took; the last of them fails where `ok` is
false. Ends with the status, the bytes programmed, and the unit that stopped it. A written other half whose check fails
ends it too (R477). -/
def flopUnits (r : FlopRun) (env : FlopEnv) (n : Nat) : Nat → State → Word16 × Nat × State
  | 0, s => (St.ok, 32 * n, s)
  | m + 1, s =>
    let j := n - (m + 1)
    let pa := r.addr + 32 * j
    if s.written (otherHalf pa) ∧ s.isBad pa then
      (St.carryFault, 32 * j, unitFails (flopBlame s pa) pa 0x14 (some r.inst))
    else if ¬ env.ok ∧ j + 1 = min n (max 1 env.pulses.length) then
      let x := (s.sector (sectorOf pa)).pulsed 16
      let s := (flopBlame s pa).setSector (sectorOf pa) { x with pfail := true }
      (St.programFail, 32 * j, freeUnit s pa)
    else flopUnits r env n m (progUnit s pa (unitWords r.src j) (env.pulses.getD j 1))

/-- The second evaluation of a decision: what the unit finds now, or the opposite where it fails (R39). -/
def secondVerdict (faithful v : Bool) : Bool := v == faithful

/-- The sectors that a start-up margin-reads: the active boot block and the information array (R495). -/
def bootSectors (s : State) : List Nat :=
  ((List.range 16).map fun k => (if s.kpr.bootsel then 528 else 512) + k) ++ (List.range 5).map (544 + ·)

/-- A sector is past its limit of R494. -/
def pastLimit (s : State) (j : Nat) : Bool :=
  let x := s.sector j
  decide (x.mstamp + (if x.wear ∨ 16 < x.topped then 8760 else 17520) < s.cfl.stress / (3600 * 2 ^ 32))

/-- The margin read of a start-up (R495). How many units it tops up is open. -/
def startMargin (s : State) : State :=
  if ¬ (bootSectors s).any (pastLimit s) then s
  else
    (bootSectors s).foldl (fun s j =>
      let n := Config.pick s.freeCtr % 2049
      let s := (s.setReg Reg.CFL_MARGIN (BitVec.ofNat 32 (65536 * n + n))).setSector j
        { s.sector j with mstamp := s.cfl.stress / (3600 * 2 ^ 32), topped := n }
      { s with freeCtr := s.freeCtr + 1 }) s

/-- FLOP_COMPLETE. Standby entry stops a program or a margin read after the units that `r` names (R484). -/
def flopComplete (s : State) (k : Nat) (env : FlopEnv) : State :=
  match s.cfl.busy.find? (·.1 == k) with
  | none => s
  | some (_, r) =>
    let s := { s with cfl := { s.cfl with busy := s.cfl.busy.filter (·.1 ≠ k) } }
    let s := s.setReg Reg.CFL_CORR (s.reg Reg.CFL_CORR + BitVec.ofNat 32 env.corrected)
    let top := env.pulses.foldl max 0
    let fin := fun (s : State) st value loc => flopEnd s r.inst r.ticket r.sel top value st loc
    let n := r.len / 32
    let stopped := decide (s.kpr.standby ≠ 0 ∧ env.pulses.length < n ∧ env.ok)
    match r.sel with
    | 1 | 2 =>
      let m := if stopped then env.pulses.length else n
      match flopUnits r env m m s with
      | (st, v, s) => fin s (if stopped ∧ st = St.ok then St.flopStopped else st) v (if st = St.carryFault then 0x14 else 0)
    | 3 =>
      let s := eraseSector s r.addr top env.ok
      if env.ok then fin s St.ok 65536 0 else fin (flopBlame s r.addr) St.eraseFail 0 0
    | 4 =>
      if stopped then fin s St.flopStopped (32 * env.pulses.length) 0
      else
        let j := sectorOf r.addr
        let s := s.setReg Reg.CFL_MARGIN (BitVec.ofNat 32 (65536 * (env.weak % 65536) + env.topped % 65536))
        let s := s.setSector j { s.sector j with mstamp := s.cfl.stress / (3600 * 2 ^ 32), topped := env.topped }
        if env.ok then fin s St.ok 65536 0
        else
          let u := r.addr + env.failAddr % 65536 / 32 * 32
          fin (freeCell (flopBlame s u) u) St.programFail 65536 0
    | _ =>
      let v2 := secondVerdict env.second (imageOk s (!s.kpr.bootsel))
      if r.first ≠ v2 then fin (tamperRaise s 15 3) St.decisionMismatch 0 0
      else if ¬ v2 then fin s St.imageInvalid 0 0
      else
        fin { s with
          otp := { s.otp with swapCtr := min 64 (s.otp.swapCtr + 1) }
          cfl := { s.cfl with swapped := true } } St.ok 0 0

def execFlopComplete (k : Fin 4) (r : FlopEnv) (s : State) : Host.Outcome State Fault Refusal := done s (flopComplete s k.val r)

/-! ## Retention (R491) -/

/-- 2^(`32` + t/100) for a temperature `t` in 0.1 °C above 105 °C, rounded down. -/
def stressRate (t : Int) : Nat :=
  let e := 3200 + t
  if e ≤ 0 then 0 else root100 40 (2 ^ min e.toNat 4000) 0

/-- RETENTION_STRESS_UPDATE: a second of DEVTIME with VMAIN present. -/
def stressUpdate (s : State) : State :=
  if ¬ s.pwr.up ∨ s.pwr.flush ≠ 0 then s
  else
    let t := max (max (dieTemp s 0) (dieTemp s 1)) (max (dieTemp s 2) (dieTemp s 3))
    { s with cfl := { s.cfl with stress := s.cfl.stress + stressRate (t - 1050) } }

def execRetentionStressUpdate (s : State) : Host.Outcome State Fault Refusal := done s (stressUpdate s)

/-- A keeper write to CFL.RSADD. -/
def rsadd (s : State) (h : Nat) : State :=
  { s with cfl := { s.cfl with stress := s.cfl.stress + h * 3600 * 2 ^ 32 } }

def execRsadd (h : Word16) (s : State) : Host.Outcome State Fault Refusal :=
  done s (s.byKeeper fun s => rsadd s h.toNat)

/-! ## The evidence flash (R496-R507). Blocks are numbered die by die. -/

/-- The use of a block at manufacture: the parts of R496 in its order, dealt over the dies in turn. -/
def blkUse (b : Nat) : Nat :=
  let q := b % 10880 * 4 + b / 10880
  if q < 32768 then 1 else if q < 32832 then 2 else if q < 33293 then 3 else if q < 33498 then 4
  else if q < 33506 then 5 else if q < 36553 then 0 else 6

def blkNew (b : Nat) : Blk := { use := blkUse b }
def State.blk (s : State) (b : Nat) : Blk := sget blkNew s.evf.blocks b
def State.setBlk (s : State) (b : Nat) (x : Blk) : State :=
  { s with evf := { s.evf with blocks := sset blkNew s.evf.blocks b x } }

def Blk.holds (x : Blk) : Bool := decide (1 ≤ x.use ∧ x.use ≤ 4)

def refreshAt (s : State) : Nat := s.regFld Reg.EVF_THRESH 0 8
def retireAt (s : State) : Nat := s.regFld Reg.EVF_THRESH 8 8

/-- The frame field of a block's die. -/
def dieStat (b off : Nat) : Nat := 0x240 + 32 * (b / 10880) + off

/-- PATROL_READ (R498, R500, R501, R506): a block read in full, with its worst codeword. An uncorrectable codeword is
counted, and recorded once, under the block's number. Whether hard decision still corrects more than 120 bits, and so
whether the read needs a retry, is open (log entry 109). -/
def patrolRead (s : State) (b maxCb : Nat) (uncorr : Bool) : State :=
  let x := s.blk b
  if ¬ s.kpr.replayDone ∨ ¬ x.holds ∨ s.pwr.flush ≠ 0 then s
  else
    let s := s.setBlk b { x with maxcb := if uncorr then 255 else maxCb, seen := s.kpr.devtime }
    let s := (s.statInc (dieStat b 0) 256).statMax (dieStat b 12) maxCb
    let again := uncorr || decide (120 < maxCb ∧ Config.pick s.freeCtr % 2 = 1)
    let s := if again then { s with freeCtr := s.freeCtr + 1 }.incReg Reg.EVF_RETRIES else s
    let s := if uncorr then carryFault (s.incReg Reg.EVF_UNCORR) 0x15 none b else s
    let s := if refreshAt s ≤ maxCb ∧ s.evf.spare = 0 then { s with evf := { s.evf with noRefresh := true } } else s
    let v := if b ∈ s.evf.visited then s.evf.visited else s.evf.visited ++ [b]
    let all := 33498
    let full := decide (all ≤ v.length)
    let s := { s with evf := { s.evf with visited := if full then [] else v, catchup := s.evf.catchup && !full } }
    s.setReg Reg.EVF_PATROL ((s.reg Reg.EVF_PATROL &&& 0xFFFF0000) |||
      BitVec.ofNat 32 (if full then 0 else 10000 * v.length / all))

def execPatrolRead (b : Fin 43520) (maxCb : Byte) (uncorr : Bool) (s : State) : Host.Outcome State Fault Refusal :=
  done s (patrolRead s b.val maxCb.toNat uncorr)

/-- PATROL_LATE (R500): the block's interval has passed. -/
def execPatrolLate (b : Fin 43520) (s : State) : Host.Outcome State Fault Refusal :=
  done s (if s.kpr.replayDone ∧ (s.blk b.val).holds then { s with evf := { s.evf with late := true } } else s)

/-- The first block of a use, from a place on. -/
def findUse (s : State) (use start : Nat) : Option Nat :=
  ((List.range 43520).map fun k => (start + k) % 43520).find? fun b => (s.blk b).use == use

/-- The pool is filled from the margin reserve (R504). -/
def refillPool (s : State) : State :=
  if s.evf.spare < 3047 ∧ 0 < s.evf.margin then
    match findUse s 6 s.freeCtr with
    | some b =>
      let s := s.setBlk b { s.blk b with use := 0 }
      { s with evf := { s.evf with spare := s.evf.spare + 1, margin := s.evf.margin - 1 } }
    | none => s
  else s

/-- The seal is decided (R505 step 1): waiting commits complete with STORE_SEALED, and open strips close for reason
6. -/
def sealDecide (s : State) : State :=
  if s.dur.sealed ∨ s.tdl.sealing ∨ 217 < s.evf.spare then s
  else
    let s := { s with tdl := { s.tdl with sealing := true } }
    closeAll (failEach s s.tdl.waiting St.storeSealed) 6

/-- The block is retired (R503). -/
def retireBlk (s : State) (b : Nat) : State :=
  let s := (s.setBlk b { s.blk b with use := 7 }).incReg Reg.EVF_RETIRES
  { (s.statInc (dieStat b 20)) with evf := { s.evf with retired := s.evf.retired + 1 } }

/-- The content of a block moves to a block of the pool, chosen freely. -/
def relocate (s : State) (b : Nat) : Option State :=
  match findUse s 0 (Config.pick s.freeCtr % 43520) with
  | none => none
  | some n =>
    let s := { s with freeCtr := s.freeCtr + 1, evf := { s.evf with spare := s.evf.spare - 1 } }
    some (s.setBlk n { s.blk n with use := (s.blk b).use, maxcb := 0, seen := s.kpr.devtime })

/-- REFRESH_SWITCH (R502, R503): a block with a codeword at the refresh threshold, or an uncorrectable one, moves, and is
erased and returned to the pool or retired. -/
def refreshSwitch (s : State) (b : Nat) (eraseOk : Bool) : State :=
  let x := s.blk b
  if ¬ x.holds ∨ ¬ s.kpr.replayDone ∨ s.pwr.flush ≠ 0 ∨ x.maxcb < refreshAt s then s
  else
    match relocate s b with
    | none => { s with evf := { s.evf with noRefresh := true } }
    | some s =>
      let s := (s.incReg Reg.EVF_REFRESHES).statInc (dieStat b 24)
      let s := if retireAt s ≤ x.maxcb ∨ ¬ eraseOk then retireBlk s b
        else
          let s := (s.setBlk b { use := 0, ecount := min (x.ecount + 1) 65535 }).statInc (dieStat b 8)
          { s with evf := { s.evf with spare := s.evf.spare + 1 } }
      sealDecide (refillPool s)

def execRefreshSwitch (b : Fin 43520) (eraseOk : Bool) (s : State) : Host.Outcome State Fault Refusal :=
  done s (refreshSwitch s b.val eraseOk)

/-- NAND_PROGRAM_FAILURE (R503): a page program of the block fails or takes too long; its content moves and it
retires. -/
def nandFail (s : State) (b : Nat) : State :=
  if ¬ (s.blk b).holds ∨ ¬ s.pwr.up then s
  else
    match relocate s b with
    | none => s
    | some s => sealDecide (refillPool (retireBlk s b))

def execNandProgramFailure (b : Fin 43520) (s : State) : Host.Outcome State Fault Refusal := done s (nandFail s b.val)

/-- STORE_SEAL_RECORD (R505 step 4). -/
def execStoreSealRecord (s : State) : Host.Outcome State Fault Refusal :=
  done s (
    let asked := (s.tdl.waiting ++ s.tdl.admitted).any fun c => c.purpose == .sealRec
    if s.tdl.sealing ∧ ¬ asked ∧ s.tdl.admitted = [] ∧ signQueue s = 0 then
      s.devCommit [.devRec 0 0x000B (leBytes 4 (s.evf.spare * 10000 / 43520))] .sealRec true
    else s)

end Sys2Proof.Machine
end

