-- ==== Sys2Proof/Machine/Modes.lean ====
section
/-! DEFINITION. Critical decisions, transitions, start-up, Standby and Breakwater's measurement (02; R115 of 03; R464 of
12). -/

namespace Sys2Proof.Machine

open Sys2Proof

/-! ## The device nonce and the keeper -/

/-- The device nonce is drawn anew (R49). -/
def redrawNonce (s : State) : State :=
  let (b, s) := rngBytes s 32
  { s with kpr := { s.kpr with dnonce := b } }

/-- The keeper's context as it starts: at level K, without masks, with the revision on its data stack (R35). Its stacks
lie at the top of the tagged SRAM, which is the model's choice. -/
def keeperCtx (s : State) (pc : Nat) : Ctx :=
  { run := .running
    r := {
      level := 2, mask := 0, pc := pc
      ds := { top := 0x10800000, size := 0x10000, atop := 0x10800000
              items := [intW ((s.reg Reg.KPR_ID_REV).setWidth 64)] }
      rs := { top := 0x107F0000, size := 0x10000, atop := 0x107F0000 } } }

/-- The keeper starts at an address; its tickets stay. -/
def startKeeper (s : State) (pc : Nat) : State :=
  { (s.setCtx 0 (keeperCtx s pc)) with kpr := { s.kpr with running := true }, escQ := [] }

/-- The keeper data area becomes zero under the line key of the new mode (R43). -/
def clearKeeperData (s : State) : State :=
  let out := fun (a : Nat) => !(decide (0x1C0000000 ≤ a ∧ a < 0x1CE000000))
  { s with
    mem := s.mem.filter fun p => out p.1
    tags := s.tags.filter fun p => out (8 * p.1)
    checks := s.checks.filter fun p => out (64 * p.1) }

/-- The mode changes; the working copies of the key slots are loaded again (R442). -/
def setMode (s : State) (m : Word4) : State :=
  { s with kpr := { s.kpr with mode := m }, key := { s.key with loaded := false } }

/-- The ROM's mode-entry point (R43), an aligned address of the ROM. -/
def romEntry : Nat := Config.modeEntry % 0x10000 * 4

/-! ## Credentials (R47, R48) -/

def inSram (a n : Nat) : Bool := decide (0x10000000 ≤ a ∧ a + n ≤ 0x10800000)

/-- The address in KPR.MODE_CRED. -/
def credAddr (s : State) : Nat := s.reg64 Reg.KPR_MODE_CRED_LO % 2 ^ 40

/-- The bytes that a transition credential takes, as far as they lie in the tagged SRAM. -/
def credLen (s : State) : Nat := 0xDA8 + min 12288 (getLe (s.rdBytes (credAddr s + 0x50) 4) 0 4)

/-- The units of a transition credential that fail their check. -/
def credFaults (s : State) : List Nat :=
  if inSram (credAddr s) (credLen s) then (unitsOf (credAddr s) (credLen s)).filter s.isBad else []

/-- They are reported once, as the device reads the credential (R121 0x12, R123). -/
def credRead (s : State) : State := (credFaults s).foldl (fun s a => unitFails s a 0x12 none) s

/-- The transition credential passes R47 for a KIND and a chain position. One of which a unit fails, or is POISON, does
not (R123). -/
def credOk (s : State) (kind pos : Nat) : Bool :=
  let a := credAddr s
  let h := s.rdBytes a 0xDA8
  let n := getLe h 0x50 4
  inSram a (0xDA8 + n) && credFaults s == [] && !s.poisonIn a (credLen s) && getLe h 0 4 == 0x54524E43 && getLe h 4 1 == 1 && getLe h 5 1 == kind && getLe h 6 2 == 0 &&
    decide (n ≤ 12288) && getLe h 0x54 4 == 0 && slice h 0xDA5 3 == zeros 3 &&
    slice h 8 16 == slice s.otp.serial 0 16 && slice h 0x18 32 == slice s.kpr.dnonce 0 32 &&
    credVerify s pos (slice h 0x40 16) (s.rdBytes (a + 0xDA8) n) (h.take 0x58) (slice h 0x58 3405) &&
    (!s.kpr.timeSet || decide (s.kpr.devtime.toNat < getLe h 0x38 8))

/-- The end of a credential's validity, where it has one. -/
def credEnd (s : State) : Option Word64 :=
  let n := getLe (s.rdBytes (credAddr s + 0x38) 8) 0 8
  if n = 2 ^ 64 - 1 then none else some (BitVec.ofNat 64 n)

/-- The request of a ROM service as the buffer holds it. -/
def svcRequest (s : State) : List Byte :=
  (List.range s.host.svcLen).map fun k =>
    BitVec.ofNat 8 ((sget (fun _ => (0 : Word32)) s.host.svcBuf (k / 4)).toNat / 256 ^ (k % 4))

/-- A measurement of a boot block (R451 MKEEPER). -/
def measureBoot (s : State) (b : Bool) : List Byte := genBytes 48 (Config.hashByte 2 (imageSigned s b))

/-- The Recovery-exit authorisation passes R48. -/
def exitOk (s : State) (b : List Byte) : Bool :=
  let n := getLe b 0x68 4
  decide (0x70 + n ≤ b.length) && getLe b 0 4 == 0x52584954 && getLe b 4 1 == 1 && slice b 5 3 == zeros 3 && getLe b 0x6C 4 == 0 &&
    slice b 8 16 == slice s.otp.serial 0 16 && slice b 0x18 32 == slice s.kpr.dnonce 0 32 &&
    slice b 0x38 48 == measureBoot s s.kpr.bootsel &&
    sigVerify 9 (sget (fun _ => []) s.otp.certs 0x50) (b.take 0x70) (slice b 0x70 n)

/-- Recovery is pending, or the settings are used up (R474). -/
def recoveryPending (s : State) : Bool := decide (s.otp.rpClear < s.otp.rpSet ∨ 1024 ≤ s.otp.rpSet)

/-! ## Evaluation (R39, R42) -/

/-- Every certificate that PERSO_CLOSE needs is there (R454), the tag identifier, and the three roots. -/
def persoReady (s : State) : Bool :=
  let has := fun p => s.otp.certs.any (·.1 == p)
  [0x00, 0x11, 0x12, 0x13, 0x21, 0x22, 0x23, 0x30, 0x40, 0x41].all (fun p => has p && has (p + 128)) && has 0x50 &&
    s.otp.tagged && rootGood s 1 && rootGood s 2 && rootGood s 3

/-- What one decision unit finds. The start-up mode follows from what has been read, whatever it is; its two evaluations
differ only where a unit reads wrongly. A Recovery exit whose active image does not verify ends with IMAGE_INVALID (log
entry 108). -/
def evaluate (s : State) (d : Decision) : Word16 :=
  let when := fun (b : Bool) (st : Word16) => if b then St.ok else st
  match d with
  | .workshop =>
    if s.mode ≠ Mode.service then St.modeRefused
    else if ¬ credOk s 1 0x40 then St.credentialInvalid
    else when (activeInsts s = []) St.instancesActive
  | .service _ => when (s.mode == Mode.workshop) St.modeRefused
  | .standby => when (s.mode == Mode.service && s.reg Reg.TMP_PEND == 0) St.modeRefused
  | .decommission => when (credOk s 2 0x41) St.credentialInvalid
  | .startup => when (imageOk s s.kpr.bootsel) St.imageInvalid
  | .persoBegin => when (s.mode == Mode.blank && !s.otp.persoBegun) St.modeRefused
  | .persoClose => if ¬ persoReady s then St.modeRefused else when (imageOk s false) St.imageInvalid
  | .imageSwap => when (imageOk s (!s.kpr.bootsel)) St.imageInvalid
  | .recoveryExit =>
    if ¬ exitOk s (svcRequest s) then St.credentialInvalid else when (imageOk s s.kpr.bootsel) St.imageInvalid
  | .startMode _ => St.ok
  | .wake => when (s.mode == Mode.standby) St.modeRefused

/-! ## Ends of requests -/

/-- A transition request completes. -/
def modeEnd (s : State) (st : Word16) : State := { s with kpr := { s.kpr with modeStat := st, decision := none } }

/-- The bytes of a response in the service buffer. -/
def bufWords (b : List Byte) : List (Nat × Word32) :=
  (List.range ((b.length + 3) / 4)).foldl (fun m k => sset (fun _ => 0) m k (BitVec.ofNat 32 (getLe b (4 * k) 4))) []

/-- A ROM service completes (R382): its response in the buffer, its length in SVC_LEN. -/
def svcEnd (s : State) (code : Byte) (st : Word16) (resp : List Byte := []) : State :=
  { s with
    kpr := { s.kpr with decision := none }
    host := { s.host with
      svcHeld := false, svcStat := st, svcCode := code, svcLen := resp.length
      svcBuf := if resp = [] then s.host.svcBuf else bufWords resp } }

/-- The service code of a decision that a ROM service asked for. -/
def Decision.code : Decision → Byte
  | .persoBegin => 0x01
  | .persoClose => 0x06
  | .imageSwap => 0x13
  | _ => 0x14

/-- The request carried a credential, against which the nonce was checked (R49). -/
def Decision.credential : Decision → Bool
  | .workshop | .decommission | .recoveryExit => true
  | _ => false

/-- A decision is refused with a status (R40, R42); the mode stays. -/
def decisionRefused (s : State) (d : Decision) (st : Word16) : State :=
  let s := { s with kpr := { s.kpr with decision := none } }
  let s := if d = .standby then { s with kpr := { s.kpr with standby := 0, waking := false } } else s
  let s := if d.credential ∧ st ≠ St.rngFatal then redrawNonce s else s
  let s := if st = St.credentialInvalid then credFailure s none else s
  match d with
  | .service 0 | .workshop | .standby | .decommission => modeEnd s st
  | .service _ | .startup | .startMode _ | .wake => s
  | _ => svcEnd s d.code st

/-! ## Effects of decisions -/

/-- Service to Workshop (R42-R46, R49, R560). -/
def enterWorkshop (s : State) : State :=
  let notAfter := credEnd s
  let s := { s with otp := { s.otp with lcWorkshop := min 1024 (s.otp.lcWorkshop + 1) } }
  let s := redrawNonce (clearKeeperData (clearLanes s))
  let s := setMode { s with shg := { s.shg with cache := [] }, air := { s.air with roleLocked := false } } Mode.workshop
  let (w, s) := rngBytes s 32
  let s := { s with tmp := { s.tmp with wnonce := w }, kpr := { s.kpr with notAfter := notAfter } }
  let s := startKeeper (modeEnd s St.ok) romEntry
  s.devCommit [transitionRec Mode.service Mode.workshop 0] (.transition 0)

/-- Workshop to Service. -/
def leaveWorkshop (s : State) (trigger : Nat) : State :=
  let s := setMode (clearKeeperData (clearLanes s)) Mode.service
  let s := { s with
    tmp := { s.tmp with wnonce := [] }
    air := { s.air with roleLocked := false }
    kpr := { s.kpr with notAfter := none, decision := none, modeStat := if trigger = 0 then St.ok else s.kpr.modeStat } }
  (startKeeper s romEntry).devCommit [transitionRec Mode.workshop Mode.service trigger] (.transition trigger)

/-- The signed terminal statement, with the nonce of the request (R72, R453). Its mode is Terminated, its cause 1, its
pair that of the root in use. -/
def terminalStatement (s : State) (nonce : List Byte) : List Byte × State :=
  let v := attValue s
  let t := { s with kpr := { s.kpr with mode := Mode.terminated, terminalCause := 1 } }
  let m := statementBody t nonce true true ++ keyId (pubKey 0x18 v) ++ leBytes 4 1 ++ zeros 4
  match hybridSign s v m with
  | (.ok g, s) => (m ++ g, s)
  | (_, s) => ([], s)

/-- A decommission (R45, R70, R72): the statement first, then the record, and at its end the zeroisation. -/
def decommission (s : State) : State :=
  let (st, s) := terminalStatement s s.kpr.dnonce
  let s := redrawNonce { s with otp := { s.otp with statement := st } }
  let s := modeEnd s St.ok
  s.devCommit [transitionRec s.mode Mode.terminated 8] .terminal

/-- Step 1 of Standby entry is past its decision (R63): the air link goes to Idle (R175). -/
def standbyAgreed (s : State) : State := airIdle { s with kpr := { s.kpr with standby := 2, decision := none } }

/-- The keeper's first bundle in a boot block's view. -/
def imageEntry (s : State) : Nat := 0x28000040 + getLe (s.rdBytes (bootBase s.kpr.bootsel) 64) 16 4

/-- IMAGE_OK, once the image is accepted or not (R51 step 7, R495). -/
def setImage (s : State) (good : Bool) : State :=
  let s := startMargin s
  { s with kpr := { s.kpr with imageOk := good, decision := none } }

/-- The start-up mode, once both units have decided it (R38, R51 step 7, R52, R62, R70). -/
def startMode (s : State) (good : Bool) : State :=
  if s.otp.terminal then setMode s Mode.terminated
  else if ¬ s.otp.persoBegun then setMode s Mode.blank
  else if ¬ s.otp.persoClosed then setMode s Mode.personalise
  else if recoveryPending s ∨ ¬ good then
    let t := if recoveryPending s then (if s.kpr.trigger = 4 ∨ s.kpr.trigger = 6 then s.kpr.trigger else 9) else 5
    let s := { s with
      kpr := { s.kpr with trigger := t }
      otp := { s.otp with
        lcRecovery := min 1024 (s.otp.lcRecovery + 1)
        lcFatal := if s.otp.fatalPending then min 1024 (s.otp.lcFatal + 1) else s.otp.lcFatal
        fatalPending := false } }
    setMode s Mode.recovery
  else
    let t := if s.kpr.trigger = 2 ∨ s.kpr.trigger = 3 then s.kpr.trigger else 9
    let s := setMode { s with kpr := { s.kpr with trigger := t } } Mode.service
    startKeeper s (imageEntry s)

/-- A root is drawn (R431). -/
def newRoot (s : State) (r : Nat) : State := let (b, s) := rngBytes s 32; setRoot s r b

/-- The personalisation area is erased (R472). -/
def eraseArea (s : State) : State :=
  { ((s.setReg Reg.AIR_TAGID_LO 0).setReg Reg.AIR_TAGID_HI 0) with
    otp := { s.otp with certs := [], tagged := false }, ivPrefix := 0 }

/-- The device acts on a decision on which both units agree. -/
def decisionAct (s : State) (d : Decision) : State :=
  match d with
  | .workshop => enterWorkshop s
  | .service t => leaveWorkshop s t
  | .standby => standbyAgreed s
  | .decommission => decommission s
  | .startup | .startMode _ => s
  | .wake => wakeNow s
  | .persoBegin =>
    let s := setMode (eraseArea { s with otp := { s.otp with persoBegun := true } }) Mode.personalise
    let n := Config.pick s.freeCtr % 12
    (svcEnd { s with freeCtr := s.freeCtr + 1 } 0x01 St.ok).devCommit [transitionRec Mode.blank Mode.personalise n]
      (.transition n)
  | .persoClose =>
    let s := zeroRoot { s with otp := { s.otp with persoClosed := true } } 0
    deviceReset { (svcEnd s 0x06 St.ok) with kpr := { s.kpr with trigger := 2 } } 5
  | .imageSwap =>
    svcEnd { s with
      otp := { s.otp with swapCtr := min 64 (s.otp.swapCtr + 1) }
      cfl := { s.cfl with swapped := true } } 0x13 St.ok
  | .recoveryExit =>
    let s := redrawNonce s
    let c := if s.otp.rpClear < s.otp.rpSet then s.otp.rpClear + 1 else s.otp.rpClear
    deviceReset { (svcEnd s 0x14 St.ok) with
      otp := { s.otp with rpClear := c }, kpr := { s.kpr with trigger := 3 } } 6

/-! ## Both evaluations (R39-R41, R561) -/

/-- The boot block whose image a decision is about. -/
def Decision.image (s : State) : Decision → Option Bool
  | .startup | .recoveryExit => some s.kpr.bootsel
  | .persoClose => some false
  | .imageSwap => some (!s.kpr.bootsel)
  | _ => none

/-- The first evaluation, with what it reads of a boot block or of a credential. -/
def firstEvaluation (s : State) (d : Decision) : State :=
  let s := match d.image s with | some b => imageRead s b | none => s
  let s := if d = .workshop ∨ d = .decommission then credRead s else s
  { s with kpr := { s.kpr with decision := some (d, some (evaluate s d)) } }

/-- A decision is asked for: refused where the random source has failed (R462), held back where decisions wait, else
evaluated a first time after the delay's draw. -/
def decisionBegin (s : State) (d : Decision) : State :=
  if s.rng.fatal then decisionRefused s d St.rngFatal
  else if decisionBlocked s then { s with kpr := { s.kpr with decision := some (d, none) } }
  else
    match rngDraw s 1 with
    | (.ok _, s) => firstEvaluation s d
    | (.wait, s) => { s with kpr := { s.kpr with decision := some (d, none) } }
    | (.fatal, s) => decisionRefused s d St.rngFatal

/-- The image has been accepted or not: the start-up mode is decided, twice like every lifecycle decision (R39, R51 step
7). -/
def imageDecided (s : State) (good : Bool) : State := decisionBegin (setImage s good) (.startMode good)

/-- The kind of a decision in T15's value. -/
def Decision.kind : Decision → Word32
  | .startup | .persoClose => 2
  | .imageSwap => 3
  | _ => 1

/-- A switch between Service and Workshop waits until a command of the key store has completed (R447). -/
def Decision.waits (s : State) : Decision → Bool
  | .workshop | .service _ => s.key.cmd.isSome
  | _ => false

/-- DECISION_SECOND_EVALUATION. `second`: the unit reads its inputs rightly. -/
def decisionSecond (s : State) (second : Bool) : State :=
  match s.kpr.decision with
  | some (d, some v1) =>
    if d.waits s then s else
    let v2 := secondVerdict second (evaluate s d == St.ok)
    if (v1 == St.ok) ≠ v2 then
      tamperRaise (if d = .startup then imageDecided s false else decisionRefused s d St.decisionMismatch) 15 d.kind
    else
      match d with
      | .startup => imageDecided s v2
      | .startMode good => startMode { s with kpr := { s.kpr with decision := none } } good
      | d => if v2 then decisionAct { s with kpr := { s.kpr with decision := none } } d else decisionRefused s d v1
  | _ => s

def execDecisionSecondEvaluation (second : Bool) (s : State) : Host.Outcome State Fault Refusal :=
  done s (decisionSecond s second)

/-- DECISION_DEFERRED_START: a decision that waits begins, the keeper's or the ROM's first, else one of a swap by
FLOP. -/
def decisionDeferred (s : State) : State :=
  match s.kpr.decision with
  | some (d, none) => if decisionBlocked s ∧ ¬ s.rng.fatal then s else decisionBegin s d
  | _ =>
    match s.tickets.find? fun p => p.2.used && !p.2.done && p.2.op.code == 0x58 && p.2.op.sel == 5 && p.2.op.stage == 0 with
    | some p => flopStart s (p.1 / 256) (p.1 % 256) none false
    | none => s

def execDecisionDeferredStart (s : State) : Host.Outcome State Fault Refusal := done s (decisionDeferred s)

/-! ## Requests of the keeper (R42, R50, R61) -/

/-- The keeper may write KPR.MODE_REQ with effect. -/
def reqReady (s : State) : Bool := s.kpr.running && s.kpr.decision.isNone && s.kpr.standby == 0

def reqMode (s : State) (from_ : Word4 → Bool) (d : Decision) : State :=
  if ¬ reqReady s then s
  else if from_ s.mode then decisionBegin s d
  else modeEnd s St.modeRefused

def reqWorkshop (s : State) : State := reqMode s (· == Mode.service) .workshop
def reqService (s : State) : State := reqMode s (· == Mode.workshop) (.service 0)
def reqDecommission (s : State) : State := reqMode s (fun _ => true) .decommission

/-- A request for Standby closes X-slot issue at once, and the operations that wait outside their engines end (R63 step 1,
R353). -/
def reqStandby (s : State) : State :=
  if reqReady s ∧ s.mode = Mode.service then
    decisionBegin ((List.range 64).foldl endWaits { s with kpr := { s.kpr with standby := 1 } }) .standby
  else reqMode s (fun _ => false) .standby

/-- A write to KPR.MODE_REQ (R50, R61). -/
def modeReq (s : State) (v : Word32) : State :=
  if fld v.toNat 8 8 = 0xA5 then (if reqReady s then deviceReset s 2 else s)
  else
    match fld v.toNat 0 4 with
    | 2 => reqWorkshop s
    | 3 => reqService s
    | 4 => reqStandby s
    | 15 => reqDecommission s
    | _ => reqMode s (fun _ => false) .workshop

def execModeReqWorkshop (s : State) : Host.Outcome State Fault Refusal := done s (reqWorkshop s)
def execModeReqService (s : State) : Host.Outcome State Fault Refusal := done s (reqService s)
def execModeReqStandby (s : State) : Host.Outcome State Fault Refusal := done s (reqStandby s)
def execModeReqDecommission (s : State) : Host.Outcome State Fault Refusal := done s (reqDecommission s)

/-- MODE_REQ_REFUSED: a target that R42 permits from no mode, by a request of the keeper. -/
def execModeReqRefused (target : Word4) (s : State) : Host.Outcome State Fault Refusal :=
  done s (modeReq s (target.setWidth 32))

def execDeviceResetRequest (s : State) : Host.Outcome State Fault Refusal := done s (modeReq s 0xA500)

/-- WORKSHOP_INACTIVITY_EXPIRY and CREDENTIAL_WITHDRAWAL (R49). -/
def execWorkshopInactivityExpiry (s : State) : Host.Outcome State Fault Refusal :=
  done s (if s.mode = Mode.workshop ∧ s.kpr.decision.isNone then decisionBegin s (.service 10) else s)

def execCredentialWithdrawal (s : State) : Host.Outcome State Fault Refusal :=
  done s (
    match s.kpr.notAfter with
    | some n =>
      if s.mode = Mode.workshop ∧ s.kpr.timeSet ∧ n < s.kpr.devtime ∧ s.kpr.decision.isNone then decisionBegin s (.service 11)
      else s
    | none => s)

/-! ## Standby (R63-R67) -/

/-- Commits of a requester that wait for admission complete when a bound expires (R353). -/
def boundExpiry (s : State) (p : Nat → Bool) : State :=
  (s.tdl.waiting.filter fun c => p c.src && c.src != 64).foldl (fun s c =>
    if s.tdl.waiting.any (·.id == c.id) then
      let page := !journalFree s (intentPages (resolveAll s c s.projected s.tdl.next))
      commitFails (unqueue s c) c (if page then St.journalBusy else St.holdupLow)
    else s) s

/-- QUIESCE_BOUND_EXPIRY: of an instance's quiesce (R351 step 4), or of Standby entry (R63 step 2). -/
def execQuiesceBoundExpiry (who : Option (Fin 64)) (s : State) : Host.Outcome State Fault Refusal :=
  done s (
    match who with
    | some i => if (s.inst i.val).state = 3 ∧ ¬ (s.inst i.val).drain then boundExpiry s (· == i.val) else s
    | none => if s.kpr.standby = 2 then boundExpiry s (fun _ => true) else s)

/-- No ticket, no commit and no command of the key store is outstanding (R63 step 2, R447). -/
def deviceQuiet (s : State) : Bool :=
  s.tickets.all (fun p => !(p.2.used && !p.2.done)) && s.tdl.waiting == [] && s.tdl.admitted == [] && s.key.cmd.isNone

/-- STANDBY_DRAIN_END: tickets and commits have completed, and the transition record is issued (R63 step 2, R45). -/
def execStandbyDrainEnd (s : State) : Host.Outcome State Fault Refusal :=
  done s (
    if s.kpr.standby = 2 ∧ deviceQuiet s then s.devCommit [transitionRec Mode.service Mode.standby 0] .standby
    else s)

/-- STANDBY_STRIPS_SIGNED: steps 4 and 5 of R63; a wake event latched meanwhile wakes at once (R66). -/
def execStandbyStripsSigned (s : State) : Host.Outcome State Fault Refusal :=
  done s (
    if s.kpr.standby = 3 ∧ signQueue s = 0 then
      let s := modeEnd { s with kpr := { s.kpr with mode := Mode.standby, standby := 4, running := false } } St.ok
      if s.kpr.waking then decisionBegin s .wake else s
    else s)

/-- WAKE_EVENT: 0 host, 1 CAN, 2 PPS, 3 air, 4 card, 5 tamper (R50). In Standby it begins the decision on the wake; one
that arrives while the wake is under way is latched (R67). -/
def execWakeEvent (src : Fin 6) (s : State) : Host.Outcome State Fault Refusal :=
  done s (let t := wakeSource s src.val; if t.kpr.decision = some (.wake, none) then decisionDeferred t else t)

/-! ## Power-up (R51, R55-R60, R563) -/

/-- POWER_ON: steps 1 to 4. The roots are lost where VBAT or the way to them was interrupted; a failed test of lid loop
or mesh raises T12 or T11. -/
def powerOn (s : State) (vbatKept : Bool) (env : PowerEnv) (loopOk meshOk : Bool) : State :=
  if s.pwr.up then s
  else
    let full := decide (16000 ≤ env.vholdMv)
    let s := holdVhold s env.vholdMv
    let s := { s with
      kpr := { s.kpr with monOk := true, cause := 0, devtime := s.tdl.lastTime, timeSet := false }
      pwr := { s.pwr with up := true, charged := full, reached := full, want := true }
      tdl := { s.tdl with unread := (env.marksLost, env.appliedLost) }
      tmp := { s.tmp with on := true, armed := 0x1FFFFEF }
      roots := if vbatKept ∧ loopOk ∧ meshOk then s.roots else [] }
    let s := if loopOk then s else tamperRaise s 12 0
    if meshOk then s
    else tamperRaise { s with freeCtr := s.freeCtr + 1 } 11 ((Config.freeWord s.freeCtr).setWidth 32)

def execPowerOn (vbatKept : Bool) (env : PowerEnv) (loopOk meshOk : Bool) (s : State) : Host.Outcome State Fault Refusal :=
  done s (powerOn s vbatKept env loopOk meshOk)

/-- RESET_N_LOW (R576): between 100 ns and 1 µs it may or may not reset. -/
def resetN (s : State) (ns : Nat) : State :=
  if ¬ s.pwr.up ∨ s.pwr.flush ≠ 0 ∨ ns < 100 then s
  else if 1000 ≤ ns then deviceReset s 1
  else
    let n := Config.pick s.freeCtr
    let s := { s with freeCtr := s.freeCtr + 1 }
    if n % 2 = 0 then s else deviceReset s 1

def execResetNLow (ns : Nat) (s : State) : Host.Outcome State Fault Refusal := done s (resetN s ns)

/-! ## Services that may wait (R53, R68, R460) -/

/-- READ_EVIDENCE (R68, R98, R99). It waits for the replay (R53). -/
def svcEvidence (s : State) (req : List Byte) : State :=
  let op := getLe req 0 1
  let v := getLe req 1 1
  if req.length ≠ 64 ∨ op = 0 ∨ 5 < op ∨ 63 < v then svcEnd s 0x10 St.argInvalid
  else if ¬ s.kpr.replayDone then { s with host := { s.host with svcHeld := true } }
  else
    let q : StrataReq := { who := .rom, volume := Fin.ofNat 64 v, count := getLe req 2 2, start := getLe req 8 8
                           dest := 0, dlen := min (getLe req 0x18 4) 16383 }
    match strataRead s op q with
    | (st, l) =>
      svcEnd s 0x10 st (l.foldl (fun acc p => acc ++ zeros (p.1 - acc.length) ++ p.2.bytes) [])

/-- ATTEST (R450, R453). A statement waits while the expander does. -/
def svcAttest (s : State) (req : List Byte) : State :=
  if req.length ≠ 32 then svcEnd s 0x11 St.argInvalid
  else if s.terminated then
    svcEnd s 0x11 St.ok (if s.otp.statement = [] then unsignedStatement s req else s.otp.statement)
  else
    match signedStatement s req with
    | (.ok st, s) => svcEnd s 0x11 St.ok st
    | (.wait, s) => { s with host := { s.host with svcHeld := true } }
    | (.fatal, s) => svcEnd s 0x11 St.rngFatal

/-- The public keys of R455, after the serial number. -/
def keygenResponse (s : State) : List Byte :=
  slice s.otp.serial 0 16 ++ ([1, 2, 3].map fun r => slice (pubKey 0x18 (pairValue s Lbl.attest r)) 0 2049).flatten ++
    ([1, 2, 3].map fun r => slice (pubKey 0x18 (pairValue s Lbl.strip r)) 0 2049).flatten ++
    slice (pubKey 0x30 (migValue s)) 0 1184

/-- PERSO_KEYGEN (R431, R455, R472): it waits while the expander does not serve its four draws (R461). The new IV prefix is
not zero (R411); a draw of zero counts as 1 (log entry 126). -/
def svcKeygen (s : State) : State :=
  if s.rng.fatal then svcEnd s 0x03 St.rngFatal
  else if 2 ^ 24 < s.rng.q + 4 ∧ ¬ s.rng.seedReady then { s with host := { s.host with svcHeld := true } }
  else
    let s := newRoot (newRoot (newRoot (eraseArea s) 1) 2) 3
    let (p, s) := rngBytes s 4
    let s := { s with ivPrefix := BitVec.ofNat 32 (max 1 (leNat p)) }
    svcEnd s 0x03 St.ok (keygenResponse s)

/-- A service that waits goes on. -/
def svcResume (s : State) : State :=
  if ¬ s.host.svcHeld then s
  else if s.host.svcCode = 0x10 then svcEvidence s (svcRequest s)
  else if s.host.svcCode = 0x03 then svcKeygen { s with host := { s.host with svcHeld := false } }
  else svcAttest s (svcRequest s)

/-! ## Replay (R113, R114) -/

/-- The durable state when the marks of the last commits do not read back intact: that before the first of them. What is
written outside the journal stays as it is: the standing-list generations and the areas' shadow slots. -/
def rolledBack (now before : Durable) : Durable :=
  { durAfterReset before with
    stl0 := now.stl0, stl1 := now.stl1
    areas := before.areas.map fun p =>
      let y := sget (fun _ => {}) now.areas p.1
      (p.1, { p.2 with sh0 := y.sh0, sh1 := y.sh1 }) }

/-- The commits whose marks are not found intact are discarded, the last ones only (R114): nothing of them takes effect,
and DEVTIME, while it is unset, runs from the last record that is left (R56). -/
def dropMarks (s : State) : State :=
  let keep := s.tdl.marked.length - s.tdl.unread.1
  match s.tdl.marked.drop keep with
  | [] => s
  | c :: cs =>
    let b := c.before.getD ⟨s.dur, s.tdl.lastMarked, s.tdl.lastTime⟩
    let dur := rolledBack s.dur b.dur
    { s with
      dur := dur
      insts := instsAfterReset dur
      kpr := { s.kpr with
        devtime := if s.kpr.timeSet then s.kpr.devtime else s.kpr.devtime - s.tdl.lastTime + b.lastTime }
      tdl := { s.tdl with
        marked := s.tdl.marked.take keep, lastMarked := b.lastMarked, lastTime := b.lastTime
        lost := s.tdl.lost ++ (c :: cs).map fun (c : Commit) => c.num } }

/-- Keys whose counters have restarted at their limits are committed EXHAUSTED (R138, R445). -/
def spentKeys (s : State) : State :=
  let l :=
    (s.dur.slots.filter fun p => aeadKind p.2.kind && !p.2.exhausted && decide (2 ^ p.2.limlog ≤ p.2.ivctr)).map
      (fun p => Eff.slotExhausted p.1) ++
    (s.dur.shg.filter fun p => p.2.kind != 0 && p.2.wrapped.isSome && !p.2.exhausted && decide (2 ^ p.2.limlog ≤ p.2.ivctr)).map
      fun p => Eff.ctxExhausted p.1
  if l = [] then s else s.devCommit [.effects l]

/-- REPLAY_COMPLETE (R113): what has a mark is applied, once more where its applied mark is not found intact, and what
has none has no effect; trailers are rebuilt (R91), the catch-up pass of the patrol begins (R501), and what waited for
the replay goes on. -/
def replayComplete (s : State) : State :=
  if ¬ s.pwr.up ∨ s.kpr.replayDone ∨ s.pwr.flush ≠ 0 then s
  else
    let s := dropMarks s
    let q := s.tdl.marked ++ s.tdl.applied
    let home := s.tdl.pages.flatten.eraseDups.filter fun n => decide (n ∉ q.map (·.num) ∧ n ∉ s.tdl.lost)
    let s := { s with
      kpr := { s.kpr with replayDone := true }
      dur := s.tdl.marked.foldl (fun d c => c.effs.foldl applyHome d) s.dur
      tdl := { s.tdl with
        replayed := q.length + min s.tdl.unread.2 home.length, discarded := s.tdl.lost.length
        lost := [], marked := [], applied := [], pages := [], unread := (0, 0), lastApplied := s.tdl.lastMarked }
      evf := { s.evf with catchup := true } }
    svcResume (keyResume (spentKeys (limitRaise (rebuildStrips s))))

def execReplayComplete (s : State) : Host.Outcome State Fault Refusal := done s (replayComplete s)

/-- A ticket put before those of later requests. -/
def insertNo (p : Nat × Ticket) : List (Nat × Ticket) → List (Nat × Ticket)
  | [] => [p]
  | q :: l => if p.2.no ≤ q.2.no then p :: q :: l else q :: insertNo p l

/-- The RANDs that wait for the source are tried again in their order (R461, R462). -/
def randResume (s : State) : State :=
  let waits := s.tickets.filter fun p => p.2.used && !p.2.done && p.2.op.code == 0x50
  (waits.foldr insertNo []).foldl (fun s p => randTry s (p.1 / 256) (p.1 % 256) p.2.op {}) s

/-- Step 6 of R51: the roots are checked (R434), the boot twin is chosen (R489). -/
def rootsChecked (s : State) : State :=
  if s.otp.terminal then s
  else if ¬ s.otp.persoBegun then (if rootGood s 0 then s else newRoot s 0)
  else if ¬ s.otp.persoClosed then
    let bad := !rootGood s 0 || [1, 2, 3].any fun r => (s.root r).bits != [] && !rootGood s r
    if bad then newRoot (zeroRoot (zeroRoot (zeroRoot s 1) 2) 3) 0 else s
  else if rootGood s 1 ∧ rootGood s 2 ∧ rootGood s 3 then s
  else
    let s := tamperRaise s 12 0
    { s with kpr := { s.kpr with terminalCause := 2 } }

/-- The first seed (R464) and what it releases: steps 5 to 7 of R51. -/
def seeded (s : State) : State :=
  let s := redrawNonce { s with kpr := { s.kpr with seedDone := true } }
  let s := rootsChecked { s with kpr := { s.kpr with bootsel := s.otp.swapCtr % 2 == 1 } }
  if s.terminated then s
  else
    let (n, s) := rngBytes s 32
    let s := { s with kpr := { s.kpr with
      startNonce := n, mrom := genBytes 48 (Config.hashByte 2 (genBytes 0x40000 Config.romByte))
      mkeeper := measureBoot s s.kpr.bootsel } }
    decisionBegin s .startup

/-- A block of 4,096 samples that the two tests have judged (R461-R464). A passing block's seed replaces the one in the
buffer (log entry 125); the 16 that pass first after a start-up give none. -/
def blockTested (s : State) (l : List Bool) (rep prop : Bool) : State :=
  match rngBlock s rep prop with
  | (true, s) =>
    let s := if s.kpr.seedDone then s else
      { s with otp := { s.otp with rpSet := min 1024 (s.otp.rpSet + 1) }, kpr := { s.kpr with trigger := 6 } }
    let s := svcResume (insResume (keyResume (randResume s)))
    let s := if (s.kpr.decision.map (·.2)) = some none then decisionDeferred s else s
    tamperRaise s 21 (BitVec.ofNat 32 s.rng.lastfail)
  | (false, s) =>
    if rep || prop then s
    else if s.kpr.seedDone then
      let s := putSeed s l
      if s.rng.waiting then svcResume (insResume (keyResume (randResume (reseed s)))) else s
    else
      let n := s.rng.passes + 1
      let s := { s with rng := { s.rng with passes := n } }
      if 17 ≤ n then seeded (instantiate (putSeed s l)) else s

/-- RAW_BLOCK_TESTED (R458, R459): the samples are given in two halves. -/
def rawBlock (s : State) (first last : BitVec 2048) : State :=
  if ¬ s.pwr.up ∨ s.rng.fatal ∨ s.rng.restarting then s
  else
    let l := rawSamples first last
    blockTested s l (repetitionFails l) (proportionFails l)

def execRawBlockTested (first last : BitVec 2048) (s : State) : Host.Outcome State Fault Refusal :=
  done s (rawBlock s first last)

/-- The records of step 13 (R51, R339): the power interruption, the transition, one for each instance put back to
Building. A device without its volume 0 creates it here, with 4 bands (R75, R76); that record's image identity is zero,
for the keeper is not an installed image (log entry 103). -/
def startupIntents (s : State) : List (List Intent) :=
  let fresh := !(s.projected.vol 0).exist
  let a := anchorOf s 0 1
  let power := Intent.devRec 0 0x0001
    (leBytes 8 s.tdl.lastTime.toNat ++ leBytes 8 s.tdl.lastMarked ++ leBytes 4 s.tdl.replayed ++ leBytes 4 s.tdl.discarded)
  let moved := (List.range 64).filter fun i =>
    decide (i ≠ 0 ∧ 2 ≤ sget (fun _ => 0) s.dur.states i ∧ sget (fun _ => 0) s.dur.states i ≤ 5)
  (if fresh then [[.effects [.newVol 0 1 a], .devRec 0 0x000E (openedBody 0 1 4 [])]] else []) ++ [[power]] ++
    (if s.mode = Mode.starting then [] else [[transitionRec s.kpr.prev s.mode s.kpr.trigger]]) ++
    moved.map fun i => stateIntents i (sget (fun _ => 0) s.dur.states i) 1

/-- The mode is set, or never will be: the source failed before its first seed (R464), or the two decisions on the
start-up mode disagree (R40). -/
def modeSettled (s : State) : Bool :=
  s.mode != Mode.starting || s.rng.fatal || (s.kpr.seedDone && s.kpr.decision.isNone)

/-- STARTUP_RECORDS_COMMIT: once replay and Breakwater are ready, and the mode is settled. -/
def startupRecords (s : State) : State :=
  if s.kpr.records ∨ ¬ s.kpr.replayDone ∨ ¬ s.kpr.brkReady ∨ s.terminated ∨ ¬ modeSettled s then s
  else
    let s := (startupIntents s).foldl (fun s l => s.devCommit l .startup) s
    { s with kpr := { s.kpr with records := true, trigger := 9 } }

def execStartupRecordsCommit (s : State) : Host.Outcome State Fault Refusal := done s (startupRecords s)

/-! ## Breakwater's measurement (R55, R115) -/

/-- The capacitance condition of R55: T04, and every waiting commit completes with HOLDUP_LOW. -/
def brkLow (s : State) (v : Word32) : State :=
  let again := s.pwr.low
  let s := { s with pwr := { s.pwr with low := true }, kpr := { s.kpr with brkReady := false } }
  let s := failEach s s.tdl.waiting St.holdupLow
  if again then s
  else tamperRaise { s with tmp := { s.tmp with armed := s.tmp.armed &&& ~~~0x10 } } 4 v

/-- CAPACITANCE_MEASUREMENT_START. -/
def measureStart (s : State) : State :=
  if s.pwr.up ∧ s.pwr.flush = 0 ∧ s.pwr.charged ∧ ¬ s.pwr.measuring ∧ (s.pwr.want ∨ s.regBit Reg.BRK_CTRL 8) ∧
      (s.tdl.waiting = [] ∨ ¬ s.kpr.brkReady) then
    let s := s.setReg Reg.BRK_CTRL (s.reg Reg.BRK_CTRL &&& ~~~0x100)
    { s with pwr := { s.pwr with measuring := true, want := false } }
  else s

def execCapacitanceMeasurementStart (s : State) : Host.Outcome State Fault Refusal := done s (measureStart s)

/-- CAPACITANCE_MEASURED after `cycles` MON cycles of 31.25 ns: C_meas = 0.1 A × t / 0.5 V, kept in whole µF, rounded down
(log entry 105). -/
def measured_ (s : State) (cycles : Nat) : State :=
  if ¬ s.pwr.measuring then s
  else
    let c := cycles / 160
    let s := holdVhold s 15500
    let s := { s with pwr := { s.pwr with measuring := false, cmeas := c, charged := false } }
    let s := s.setReg Reg.BRK_MEAS (BitVec.ofNat 32 cycles)
    let s := { s with stat := sset (fun _ => 0) s.stat 0x50 c }
    if c < s.regFld Reg.BRK_CAP_MIN 0 16 then brkLow s (0x80000000 ||| BitVec.ofNat 32 c)
    else { s with
      pwr := { s.pwr with low := false }
      kpr := { s.kpr with brkReady := true }
      tmp := { s.tmp with armed := s.tmp.armed ||| 0x10 } }

def execCapacitanceMeasured (cycles : Nat) (s : State) : Host.Outcome State Fault Refusal := done s (measured_ s cycles)

/-- BRK_MEASURE: the keeper asks for a measurement (R126). -/
def execBrkMeasure (s : State) : Host.Outcome State Fault Refusal :=
  done s (if s.kpr.running then s.setReg Reg.BRK_CTRL (s.reg Reg.BRK_CTRL ||| 0x100) else s)

/-- VHOLD_CHARGED: VHOLD reaches 16 V. The first time, Breakwater measures again where the capacitance condition stands
(R55). -/
def execVholdCharged (s : State) : Host.Outcome State Fault Refusal :=
  done s (
    if s.pwr.up ∧ s.pwr.flush = 0 ∧ ¬ s.pwr.measuring then
      let s := holdVhold s 16000
      { s with pwr := { s.pwr with
        charged := true, reached := true, want := s.pwr.want || (s.pwr.low && !s.pwr.reached) } }
    else s)

/-- VHOLD_CHARGE_TIMEOUT: VHOLD has not reached 15 V 2 s after t0. -/
def execVholdChargeTimeout (s : State) : Host.Outcome State Fault Refusal :=
  done s (
    if s.pwr.up ∧ ¬ s.kpr.brkReady ∧ ¬ s.pwr.charged ∧ s.pwr.vhold < 15000 then brkLow s (BitVec.ofNat 32 s.pwr.vhold)
    else s)

end Sys2Proof.Machine
end

