-- ==== Sys2Proof/Machine/Rom.lean ====
section
/-! DEFINITION. The ROM services of window 0 (R68, R382, R453-R455, R472, R487, R488). -/

namespace Sys2Proof.Machine

open Sys2Proof

/-- The modes in which a service is offered. -/
def svcModes (code : Nat) : Option (List Word4) :=
  match code with
  | 0x01 => some [Mode.blank]
  | 0x02 | 0x03 | 0x04 | 0x05 | 0x06 => some [Mode.personalise]
  | 0x10 | 0x12 | 0x13 | 0x14 | 0x15 => some [Mode.recovery]
  | 0x11 => some [Mode.recovery, Mode.terminated]
  | _ => none

/-- A service is in progress: its decision waits, or it waits itself. -/
def svcBusy (s : State) : Bool :=
  s.host.svcHeld ||
  match s.kpr.decision with
  | some (d, _) => d.svc
  | none => false

/-- PERSO_TAGID. -/
def svcTagid (s : State) (req : List Byte) : State :=
  if req.length ≠ 8 then svcEnd s 0x02 St.argInvalid
  else if s.otp.tagged then svcEnd s 0x02 St.notErased
  else
    let s := s.setReg64 Reg.AIR_TAGID_LO (getLe req 0 8)
    svcEnd { s with otp := { s.otp with tagged := true } } 0x02 St.ok

/-- The chain positions of R454. -/
def certPlace (p : Nat) : Bool :=
  p == 0x50 || decide (p % 128 ∈ [0x00, 0x01, 0x02, 0x03, 0x11, 0x12, 0x13, 0x21, 0x22, 0x23, 0x30, 0x40, 0x41])

/-- PERSO_CERT (R454). -/
def svcCert (s : State) (req : List Byte) : State :=
  let p := getLe req 0 1
  let der := req.drop 4
  if req.length ≤ 4 ∨ slice req 1 3 ≠ zeros 3 ∨ ¬ certPlace p ∨ (p = 0x50 ∧ der.length ≠ 60) ∨
      (p ≠ 0x50 ∧ ¬ Config.certParses der) then svcEnd s 0x04 St.argInvalid
  else if s.otp.certs.any (·.1 == p) then svcEnd s 0x04 St.notErased
  else svcEnd { s with otp := { s.otp with certs := sset (fun _ => []) s.otp.certs p der } } 0x04 St.ok

/-- A boot block is erased, sector by sector. -/
def eraseBlock (s : State) (b : Bool) : State :=
  (List.range 16).foldl (fun s k => eraseSector s (bootBase b + 65536 * k) 1 true) s

/-- The words of an image segment as the ROM programs them: CODE within the image, else RAW (R488). -/
def segmentWords (off imglen : Nat) (d : List Byte) : List TWord :=
  (List.range (d.length / 8)).map fun k =>
    let w := BitVec.ofNat 64 (getLe d (8 * k) 8)
    let a := off + 8 * k
    if 0x40 ≤ a ∧ a < 0x40 + imglen then codeW w else rawW w

/-- PERSO_IMAGE and IMAGE_WRITE (R488). -/
def svcImage (s : State) (code : Byte) (b : Bool) (req : List Byte) (env : FlopEnv) : State :=
  let off := getLe req 0 8
  let d := req.drop 8
  let base := bootBase b
  let header := s.written base && s.written (base + 32)
  if req.length ≤ 8 ∨ off % 32 ≠ 0 ∨ d.length % 32 ≠ 0 ∨ 0x100000 < off + d.length ∨ (0x40 ≤ off ∧ ¬ header) then
    svcEnd s code St.argInvalid
  else if code = 0x12 ∧ s.cfl.swapped then svcEnd s code St.swapPending
  else if off = 0 ∧ ¬ env.ok ∧ env.pulses = [] then svcEnd (eraseSector s base 32 false) code St.eraseFail
  else
    let s := if off = 0 then eraseBlock s b else s
    let n := d.length / 32
    if (List.range n).any (fun j => s.written (base + off + 32 * j)) then svcEnd s code St.notErased
    else
      let imglen := if off = 0 then getLe d 8 4 else getLe (s.rdBytes base 64) 8 4
      let r : FlopRun := { op := 1, inst := 0, ticket := 0, sel := 2, addr := base + off, len := d.length
                           src := segmentWords off imglen d }
      match flopUnits r env n n s with
      | (st, _, s) => svcEnd s code st

/-- A service runs in a mode that offers it. -/
def svcRun (s : State) (code : Byte) (req : List Byte) (env : FlopEnv) : State :=
  match code.toNat with
  | 0x01 => decisionBegin s .persoBegin
  | 0x02 => svcTagid s req
  | 0x03 => svcKeygen s
  | 0x04 => svcCert s req
  | 0x05 => svcImage s code false req env
  | 0x06 => decisionBegin s .persoClose
  | 0x10 => svcEvidence s req
  | 0x11 => svcAttest s req
  | 0x12 => svcImage s code (!s.kpr.bootsel) req env
  | 0x13 => if 64 ≤ s.otp.swapCtr then svcEnd s code St.swapExhausted else decisionBegin s .imageSwap
  | 0x14 => if 1024 ≤ s.otp.rpSet then svcEnd s code St.modeRefused else decisionBegin s .recoveryExit
  | _ => svcEnd s code St.ok s.kpr.dnonce

/-- A write of SVC_CMD (R382, R71): ignored during start-up (R58) and while a service is in progress. -/
def svcCmd (s : State) (code : Byte) (env : FlopEnv := {}) : State :=
  if ¬ s.pwr.up ∨ s.mode = Mode.starting ∨ svcBusy s then s
  else
    let s := { s with host := { s.host with svcCode := code } }
    if s.terminated ∧ code ≠ 0x11 then svcEnd s code St.terminated
    else
      match svcModes code.toNat with
      | none => svcEnd s code St.argInvalid
      | some ms => if s.mode ∈ ms then svcRun s code (svcRequest s) env else svcEnd s code St.modeRefused

/-- The host writes a request and its length, then the code. -/
def svcCall (s : State) (code : Byte) (req : List Byte) (env : FlopEnv := {}) : State :=
  if ¬ s.pwr.up ∨ s.mode = Mode.starting ∨ svcBusy s then s
  else svcCmd { s with host := { s.host with svcBuf := bufWords req, svcLen := req.length } } code env

def execPersoBegin (req : List Byte) (s : State) : Host.Outcome State Fault Refusal := done s (svcCall s 0x01 req)
def execPersoTagid (req : List Byte) (s : State) : Host.Outcome State Fault Refusal := done s (svcCall s 0x02 req)
def execPersoKeygen (req : List Byte) (s : State) : Host.Outcome State Fault Refusal := done s (svcCall s 0x03 req)
def execPersoCert (req : List Byte) (s : State) : Host.Outcome State Fault Refusal := done s (svcCall s 0x04 req)
def execPersoImage (req : List Byte) (r : FlopEnv) (s : State) : Host.Outcome State Fault Refusal :=
  done s (svcCall s 0x05 req r)
def execPersoClose (req : List Byte) (s : State) : Host.Outcome State Fault Refusal := done s (svcCall s 0x06 req)
def execReadEvidence (req : List Byte) (s : State) : Host.Outcome State Fault Refusal := done s (svcCall s 0x10 req)
def execAttest (req : List Byte) (s : State) : Host.Outcome State Fault Refusal := done s (svcCall s 0x11 req)
def execImageWrite (req : List Byte) (r : FlopEnv) (s : State) : Host.Outcome State Fault Refusal :=
  done s (svcCall s 0x12 req r)
def execImageSwap (req : List Byte) (s : State) : Host.Outcome State Fault Refusal := done s (svcCall s 0x13 req)
def execRecoveryExit (req : List Byte) (s : State) : Host.Outcome State Fault Refusal := done s (svcCall s 0x14 req)
def execNonce (req : List Byte) (s : State) : Host.Outcome State Fault Refusal := done s (svcCall s 0x15 req)

/-- SVC_CODE_UNKNOWN: any other code completes with ARG_INVALID; a code of the table is the service itself. -/
def execSvcCodeUnknown (code : Byte) (s : State) : Host.Outcome State Fault Refusal := done s (svcCmd s code)

end Sys2Proof.Machine
end

