-- ==== Sys2Proof/Machine/Views.lean ====
section
/-! DEFINITION. What a register reads as: the register bank, and the views of typed state (the register maps of every
chapter). -/

namespace Sys2Proof.Machine

open Sys2Proof

/-! ## The published frame (R359-R361) -/

/-- A 32-bit word of the published frame. Before the first boundary it reads zero. -/
def frameWord (m : List (Nat × Nat)) (off : Nat) : Word32 :=
  let g := fun k => sget (fun _ => 0) m k
  let o := off % 64
  if m = [] then 0
  else if off = 0 then 0x53544146
  else if off = 4 then 1
  else if off = 0x88 then (if g 0x88 = 0 then 0 else BitVec.ofInt 32 (g 0x88 - 100000))
  else if off = 0x14 ∨ off = 0x1C then BitVec.ofNat 32 (g (off - 4) / 2 ^ 32)
  else if 0x1000 ≤ off ∧ off < 0x2000 then
    if o = 0 then BitVec.ofNat 32 (g off + 256 * g (off + 1))
    else if o = 0x0C ∨ o = 0x24 then BitVec.ofNat 32 (g (off - 4) / 2 ^ 32)
    else BitVec.ofNat 32 (g off)
  else BitVec.ofNat 32 (g off)

/-- The lower word of a 64-bit field of the frame. -/
def frameLower (off : Nat) : Bool :=
  off == 0x10 || off == 0x18 || (decide (0x1000 ≤ off ∧ off < 0x2000) && (off % 64 == 0x08 || off % 64 == 0x20))

/-! ## The views, block by block; none where the bank holds the register. `o` is the offset in the block -/

abbrev n32 (n : Nat) : Word32 := BitVec.ofNat 32 n

/-- A status register with a busy bit. -/
def statBusy (st : Word16) (busy : Bool) : Word32 := n32 (65536 * st.toNat + b2n busy)

/-- The words of a quantity of two registers at `lo`. -/
def wide (o lo v : Nat) : Word32 := if o = lo then n32 v else n32 (v / 2 ^ 32)

/-- R50. -/
def viewKpr (s : State) (o : Nat) : Option Word32 :=
  let k := s.kpr
  if o = 0x20 then some (n32 (256 * rootOf k.mode + k.mode.toNat))
  else if o = 0x28 then some (statBusy k.modeStat (k.decision.isSome || k.standby != 0))
  else if o = 0x2C then some (n32 (64 * b2n k.bootsel + 32 * b2n k.timeSet + 16 * b2n k.brkReady + 8 * b2n k.replayDone +
    4 * b2n k.imageOk + 2 * b2n k.seedDone + b2n k.monOk))
  else if o = 0x30 then some (n32 s.otp.lcWorkshop)
  else if o = 0x34 then some (n32 s.otp.lcRecovery)
  else if o = 0x38 then some (n32 s.otp.lcFatal)
  else if o = 0x3C then some (k.cause.setWidth 32)
  else if 0x50 ≤ o ∧ o < 0x70 then some (n32 (getLe k.dnonce (o - 0x50) 4))
  else none

/-- Contexts of an instance that are not stopped, and its ticket entries in use. -/
def activeCtxs (s : State) (i : Nat) : Nat := (s.ctxs.filter fun p => p.1 / 64 = i ∧ p.2.run ≠ .stopped).length
def ticketsUsed (s : State) (i : Nat) : Nat := (s.tickets.filter fun p => p.1 / 256 = i ∧ p.2.used).length

/-- The state code of an instance; the keeper is Running while it runs. -/
def instState (s : State) (i : Nat) : Nat := if i = 0 then (if s.kpr.running then 2 else 0) else (s.inst i).state

/-- R374. -/
def viewIns (s : State) (o : Nat) : Option Word32 :=
  let i := isel s
  let x := s.inst i
  if o = 0x08 then some (statBusy s.ins.stat s.ins.busy.isSome)
  else if o = 0x14 then some (n32 (65536 * activeCtxs s i + 512 * b2n (sget (fun _ => none) s.dur.offers i).isSome +
    256 * b2n x.staged.isSome + 128 * b2n x.installed + instState s i))
  else if o = 0x18 then some (n32 (65536 * (x.left % 65536) + ticketsUsed s i))
  else if o = 0x28 then some (n32 (65536 * (s.ins.chunks % 65536) + s.regFld Reg.INS_MIG_RING 0 12))
  else if o = 0x2C ∨ o = 0x30 then some (wide o 0x2C s.dur.migctr)
  else none

/-- R403. -/
def viewRing (s : State) (o : Nat) : Option Word32 :=
  let x := s.ring (rsel s)
  if o = 0x04 then some x.cfg
  else if o = 0x08 ∨ o = 0x0C then some (wide o 0x08 (if x.inHost then x.base else x.base % 2 ^ 40))
  else if o = 0x10 then some x.irq
  else if o = 0x14 then some x.head
  else if o = 0x18 then some x.tail
  else if o = 0x1C then some (n32 (65536 * x.err.toNat + x.st))
  else if o = 0x48 then
    some (n32 (256 * (if s.host.vfEnable then s.host.numVfs else 0) + 16 * s.host.width.toNat + s.host.speed.toNat))
  else none

/-- The Breakwater registers. Before the first measurement since the reset ENERGY and RESERVE read as they are reset
(R126). -/
def viewBrk (s : State) (o : Nat) : Option Word32 :=
  if o = 0x00 then some (n32 (65536 * min 255 s.tdl.waiting.length + 4 * b2n s.pwr.low + 2 * b2n (s.pwr.flush != 0) +
    b2n s.kpr.brkReady))
  else if o = 0x04 then some (n32 (vLow s))
  else if o = 0x08 then some (n32 s.pwr.cmeas)
  else if o = 0x18 then some (n32 (energyUj s))
  else if o = 0x1C then some (n32 (inflightUj s))
  else if o = 0x20 then some (n32 (if s.pwr.cmeas = 0 then 0 else reserveUj s))
  else none

/-- The Tideline registers. The live journal pages are known once replay has scanned the journal (R113, R127). -/
def viewTdl (s : State) (o : Nat) : Option Word32 :=
  if o = 0x00 then some (n32 (65536 * min 65535 s.tdl.admitted.length + 2 * b2n (s.kpr.replayDone && decide (16384 ≤ s.tdl.pages.length)) +
    b2n s.kpr.replayDone))
  else if o = 0x08 ∨ o = 0x0C then some (wide o 0x08 s.tdl.lastMarked)
  else if o = 0x10 ∨ o = 0x14 then some (wide o 0x10 s.tdl.lastApplied)
  else if o = 0x18 then some (n32 (if s.kpr.replayDone then s.tdl.pages.length else 0))
  else if o = 0x1C then some (n32 s.tdl.replayed)
  else if o = 0x20 then some (n32 s.tdl.discarded)
  else none

/-- The spare fraction in units of 0.01 % (R505), and the bands of no volume. -/
def spareFraction (s : State) : Nat := s.evf.spare * 10000 / 43520
def bandsFree (s : State) : Nat := 8192 - (s.dur.vols.map fun p => p.2.used).sum

/-- The Strata registers; the volume is that of STR.VSEL. The queue for signing is built at the rebuild of R91. -/
def viewStr (s : State) (o : Nat) : Option Word32 :=
  let v := s.regFld Reg.STR_VSEL 0 6
  let x := s.dur.vol v
  if o = 0x00 then some (n32 (256 * (if s.kpr.replayDone then signQueue s else 0) + b2n s.dur.sealed))
  else if o = 0x04 then some (n32 (spareFraction s))
  else if o = 0x08 then some (n32 (bandsFree s))
  else if o = 0x0C then some (n32 s.dur.devrecLost)
  else if o = 0x14 then some (n32 (s.descF v .vQuota))
  else if o = 0x18 then some (n32 x.used)
  else if o = 0x1C then some (n32 (b2n (refuses s v) + 2 * b2n x.isOpen))
  else if o = 0x20 ∨ o = 0x24 then some (wide o 0x20 x.lastSeq)
  else if o = 0x28 ∨ o = 0x2C then some (wide o 0x28 x.next.1)
  else if o = 0x30 ∨ o = 0x34 then
    some (wide o 0x30 (match x.released with | some b => b | none => 0xFFFFFFFFFFFFFFFF))
  else if o = 0x38 ∨ o = 0x3C then some (wide o 0x38 x.rcount)
  else none

/-- R161. -/
def viewShg (s : State) (o : Nat) : Option Word32 :=
  let i := s.regFld Reg.SHG_ISEL 0 6
  if o = 0x00 then some (n32 (2 * b2n s.shg.rebuilt + b2n (shgReady s)))
  else if o = 0x04 then some (n32 (shgUsed s))
  else if o = 0x18 then some (n32 (s.descF i .sQuota))
  else if o = 0x1C then some (n32 (shgHeld s i))
  else if o = 0x20 then some (n32 s.dur.wrapgen)
  else none

/-- Occupied entries of a generation: its working copy once loaded, else its durable home. -/
def stlCount (s : State) (k : Nat) : Nat :=
  (if s.stlLoaded k then s.stlGen k else s.dur.stlHome k).entries.length

/-- R162. -/
def viewStl (s : State) (o : Nat) : Option Word32 :=
  if o = 0x00 then some (n32 (64 * b2n s.stl.loaded1 + 32 * b2n s.stl.loaded0 + 16 * b2n s.dur.stl1.sealed +
    8 * b2n s.dur.stl0.sealed + 4 * b2n (stlSwitching s) + s.dur.stlActive))
  else if o = 0x04 then some (n32 (stlCount s 0))
  else if o = 0x08 then some (n32 (stlCount s 1))
  else if o = 0x44 then
    some (n32 (65536 * s.stl.stat.toNat + 256 * s.stl.moves + b2n s.stl.busy.isSome))
  else none

/-- Valid shadows of an area that are not folded yet. -/
def Area.shadows (x : Area) : Nat := ([x.sh0, x.sh1].filter fun h => h.valid && decide (x.version < h.version)).length

/-- AIR.AINFO of an area (R214). -/
def areaInfo (s : State) (a : Nat) : Nat :=
  let x := s.area a
  if x.size = 0 then 0
  else
    let lock := match lockOf s a with | none => 0 | some (.commits _) => 2 | some _ => 1
    2 ^ 31 + 2 ^ 30 * b2n (decide (x.limit ≤ x.attempts)) + 2 ^ 28 * lock + 2 ^ 26 * x.shadows + 2 ^ 25 * b2n x.openClear +
      2 ^ 19 * (x.owner % 64) + 2 ^ 16 * (x.write % 8) + 2 ^ 13 * (x.read % 8) + 512 * (x.limit % 16) +
      32 * (x.attempts % 16) + (x.size / 32 - 1) % 32

/-- R214. -/
def viewAir (s : State) (o : Nat) : Option Word32 :=
  let a := s.regFld Reg.AIR_ASEL 0 6
  if o = 0x04 then
    some (n32 (256 * b2n (s.pwr.flush != 0) + 128 * b2n s.air.txfail + 64 * b2n s.air.bsLast +
      32 * b2n (airEnabled s && readerRole s && !s.air.waiting) + 16 * b2n s.air.field +
      8 * b2n (s.dur.areas.any fun p => decide (0 < p.2.shadows)) + s.air.tstate))
  else if o = 0x10 ∨ o = 0x14 then some (wide o 0x10 s.air.reader.toNat)
  else if o = 0x1C then some (n32 s.air.dwell)
  else if o = 0x28 then some (n32 (commitEstimate s))
  else if o = 0x44 then some (n32 (areaInfo s a))
  else if o = 0x48 ∨ o = 0x4C then some (wide o 0x48 (s.area a).newest.1)
  else none

/-- R427. -/
def viewCip (s : State) (o : Nat) : Option Word32 :=
  if o = 0x00 then some (n32 ((s.cip.lanes.map fun p => 2 ^ p.1).sum))
  else if o = 0x04 then some s.ivPrefix
  else if o = 0x24 then
    let thr := 2 ^ 21 * b2n (s.regFld Reg.PWR_GOV 0 2 != 0)
    match s.cip.lanes.find? (·.1 == s.regFld Reg.CIP_LSEL 0 4) with
    | some (_, l) => some (n32 (2 ^ 26 * l.inst + 2 ^ 23 * l.mode + 2 ^ 22 * b2n l.long + thr + 1))
    | none => some (n32 thr)
  else none

/-- Requests of the public-key engine that wait for a unit. -/
def pkeQueued (s : State) : Nat :=
  (s.tickets.filter fun q => q.2.used && !q.2.done && decide (0x28 ≤ q.2.op.code ∧ q.2.op.code ≤ 0x2A) &&
    !granted s (q.1 / 256) (q.1 % 256)).length

/-- Whether a unit is held. -/
def unitBusy (s : State) (u : Nat) : Bool := s.units.held.any (·.1 == u)

/-- R429. -/
def viewPke (s : State) (o : Nat) : Option Word32 :=
  if o = 0x00 then some (n32 (65536 * min 65535 (pkeQueued s) + 2 * b2n (unitBusy s 1) + b2n (unitBusy s 0)))
  else if o = 0x18 then some (statBusy s.pke.stat s.pke.busy.isSome)
  else none

/-- R469. -/
def viewKey (s : State) (o : Nat) : Option Word32 :=
  let n := s.regFld Reg.KEY_SSEL 0 12
  let x := s.slot n
  if o = 0x00 then
    some (n32 (256 * ((List.range 4).map fun r => 2 ^ r * b2n (rootGood s r)).sum + b2n s.key.loaded))
  else if 0x04 ≤ o ∧ o < 0x14 then some (n32 (getLe s.otp.serial (o - 4) 4))
  else if o = 0x18 ∨ o = 0x1C then some (wide o 0x18 x.attr)
  else if o = 0x20 then
    let bad := decide (n ∈ s.key.bad)
    some (n32 (2 * b2n bad + b2n (x.kind != 0 && !bad && x.root == rootOf s.mode)))
  else if o = 0x38 then some (statBusy s.key.stat s.key.cmd.isSome)
  else if o = 0x54 then some (statBusy s.key.attStat s.key.att)
  else none

/-- R468. -/
def viewRng (s : State) (o : Nat) : Option Word32 :=
  let r := s.rng
  if o = 0x00 then some (n32 (32 * b2n r.fatal + 16 * b2n r.waiting + 8 * b2n (decide (2 ^ 16 ≤ r.q)) + 4 * b2n r.restarting +
    2 * b2n r.seedReady + b2n s.kpr.seedDone))
  else if o = 0x04 then some (n32 r.epfail)
  else if o = 0x08 then some (n32 r.q)
  else if o = 0x1C then some (n32 r.lastfail)
  else none

/-- Hours of equivalent stress (R491). -/
def stressHours (s : State) : Nat := s.cfl.stress / (3600 * 2 ^ 32)

/-- R494. A swap keeps the information array busy beside the block it verifies. -/
def viewCfl (s : State) (o : Nat) : Option Word32 :=
  let x := s.sector (s.regFld Reg.CFL_SSEL 0 10)
  if o = 0x00 then
    some (n32 (64 * b2n s.cfl.swapped + 32 * b2n (s.cfl.sectors.any fun p => p.2.wear) +
      16 * b2n (s.cfl.sectors.any fun p => p.2.efail || p.2.pfail) + 8 * b2n (s.cfl.busy.any fun p => p.2.sel == 5) +
      4 * b2n (arrayBusy s (inactiveArray s)) + 2 * b2n (arrayBusy s 1) + b2n (arrayBusy s 0)))
  else if o = 0x04 then some (n32 s.otp.swapCtr)
  else if o = 0x18 then some (n32 (2 ^ 31 * b2n x.wear + 2 ^ 30 * b2n x.efail + 2 ^ 29 * b2n x.pfail + 2 ^ 23 * x.epulses + x.ecount))
  else if o = 0x1C then some (n32 (65536 * x.b34 + x.b12))
  else if o = 0x20 then some (n32 (65536 * x.b816 + x.b57))
  else if o = 0x24 then some (n32 x.mstamp)
  else if o = 0x28 then some (n32 (stressHours s))
  else none

/-- The block that EVF.BSEL selects. -/
def bselBlock (s : State) : Nat := 10880 * s.regFld Reg.EVF_BSEL 14 2 + s.regFld Reg.EVF_BSEL 0 14

/-- R508. The age of a block counts DEVTIME. -/
def viewEvf (s : State) (o : Nat) : Option Word32 :=
  let x := s.blk (bselBlock s)
  if o = 0x00 then some (n32 (16 * b2n s.evf.noRefresh + 8 * b2n s.evf.late + 4 * b2n s.evf.catchup +
    2 * b2n (decide (spareFraction s < 200)) + b2n s.kpr.replayDone))
  else if o = 0x04 then some (n32 (65536 * s.evf.margin + s.evf.spare))
  else if o = 0x08 then some (n32 s.evf.retired)
  else if o = 0x1C then some (n32 (2 ^ 29 * x.use + 2 ^ 21 * min 255 x.maxcb + x.ecount))
  else if o = 0x20 then
    some (n32 (65536 * (x.tprog % 65536) + min 65535 ((s.kpr.devtime.toNat - x.seen.toNat) / 3600000000000)))
  else none

/-- The card-bus registers. -/
def viewCrd (s : State) (o : Nat) : Option Word32 :=
  let c := sget (fun _ => ({} : Card)) s.ports.crd.cards (s.regFld Reg.CRD_CSEL 0 4)
  if o = 0x04 then
    some (n32 (65536 * (((s.ports.crd.cards.filter fun p => p.2.state ≠ 0).map fun p => 2 ^ p.1).sum) +
      16 * s.ports.crd.det.toNat + s.ports.crd.pen.toNat))
  else if o = 0x34 then
    some (n32 (2 ^ 29 * c.state + 2 ^ 25 * c.slot + 2 ^ 24 * b2n (c.status.getLsbD 27) + 2 ^ 23 * b2n (c.status.getLsbD 26)))
  else if 0x38 ≤ o ∧ o < 0x48 then some (n32 (c.cid.toNat / 2 ^ (8 * (o - 0x38))))
  else none

/-- The registers of the ISO/IEC 7816-3 ports. -/
def viewIso (s : State) (o : Nat) : Option Word32 :=
  let p := o / 0x40
  let x := sget (fun _ => ({} : IsoPort)) s.ports.iso p
  if o = 0x40 * p ∧ p < 2 then
    some (s.reg (Reg.ISO_CTRL + 0x40 * p) ||| n32 (8 * b2n (s.pwr.viocHi == some true)))
  else if o = 0x40 * p + 4 ∧ p < 2 then some (n32 (256 * x.proto + 16 * x.state + b2n x.present))
  else none

/-- The state of a CAN controller (R537). -/
def canState (s : State) (c : Nat) : Nat :=
  let x := sget (fun _ => ({} : CanCtl)) s.ports.can c
  if ¬ s.regBit (Reg.CAN_CTRL + 0x40 * c) 0 then 3
  else if x.busOff then 2
  else if 127 < x.tec ∨ 127 < x.recv then 1
  else 0

/-- The CAN registers. -/
def viewCan (s : State) (o : Nat) : Option Word32 :=
  let c := o / 0x40
  let x := sget (fun _ => ({} : CanCtl)) s.ports.can c
  if o = 0x40 * c + 4 ∧ c < 2 then some (n32 (2 ^ 24 * min 255 x.tec + 65536 * min 255 x.recv + canState s c))
  else none

def viewSns (s : State) (o : Nat) : Option Word32 :=
  if o = 0x04 ∨ o = 0x08 then some (sget (fun _ => ({} : PulseIn)) s.ports.pulse ((o - 4) / 4)).count
  else none

def viewGns (s : State) (o : Nat) : Option Word32 :=
  let x := s.ports.gnss
  if o = 0x0C ∨ o = 0x10 then some (wide o 0x0C (x.pps.getD 0).toNat)
  else if o = 0x14 then some x.offset
  else if o = 0x20 then some (n32 (65536 * x.stat.toNat + 4 * x.source + 2 * b2n x.locked))
  else none

/-- R566. -/
def viewTmp (s : State) (o : Nat) : Option Word32 :=
  if o = 0x00 then some (n32 (2 ^ 24 * s.queued + 128 * b2n s.tmp.deferred + b2n s.tmp.on))
  else if o = 0x04 then some ((s.dur.sticky ||| s.tmp.sticky).setWidth 32)
  else if o = 0x34 then some ((Config.analog Reg.TMP_RAILDIFF s.freeCtr).setWidth 32)
  else if 0x40 ≤ o ∧ o < 0x60 then some (n32 (getLe s.tmp.wnonce (o - 0x40) 4))
  else if 0x100 ≤ o ∧ o < 0x160 then
    let t := (o - 0x100) / 4
    some ((s.reg (Reg.TMP_RESP + 4 * t) &&& 0xFF000007) ||| n32 (65536 * effLevel s t + 256 * floorNow s t))
  else none

/-- R334; the set is that of MPU.ISEL. -/
def viewMpu (s : State) (o : Nat) : Option Word32 :=
  let m := s.mpuSet (s.regFld Reg.MPU_ISEL 0 6)
  if o = 0x04 then some m.dmap
  else if o = 0x10 then some m.gateLoLatch
  else if o = 0x14 then some m.gateHi
  else if o = 0x20 then some (n32 (65536 * (s.ctxs.filter fun p => p.2.run = .held).length))
  else if 0x100 ≤ o ∧ o < 0x180 then
    let n := (o - 0x100) / 8
    let r := sget (fun _ => ((0 : Word32), (0 : Word32))) m.rgn n
    if o % 8 = 0 then some (sget (fun _ => r.1) m.rgnLo n) else some r.2
  else none

/-- R585. -/
def viewPwr (s : State) (o : Nat) : Option Word32 :=
  let p := s.pwr
  if o = 0x00 then some (n32 (32 * b2n p.vbatLow + 16 * b2n (p.up && !p.charged && p.flush == 0) + 8 * b2n (p.flush != 0) +
    4 * b2n p.viocOk + 2 * b2n p.viohOk + b2n (p.up && p.flush == 0)))
  else if o = 0x04 then some ((Config.analog Reg.PWR_VMAIN s.freeCtr).setWidth 32)
  else if o = 0x0C then some ((Config.analog Reg.PWR_POWER s.freeCtr).setWidth 32)
  else none

/-- R357, R360, R374. -/
def viewStat (s : State) (o : Nat) : Option Word32 :=
  if o = 0x10 then
    some (n32 (2 * b2n (s.regFld Reg.STAT_CTRL 0 12 != s.ins.epochLen) + sget (fun _ => 0) s.stat 0x20 % 2))
  else if 0x20000 ≤ o ∧ o < 0x40000 then some (frameWord s.statPub (o - 0x20000))
  else none

/-- R430. -/
def viewHsh (s : State) (o : Nat) : Option Word32 :=
  if o = 0 then some (n32 (((List.range 4).map fun k => 2 ^ k * b2n (unitBusy s (2 + k))).sum)) else none

/-- The view of a register, by its block (R26). -/
def view (s : State) (a : Nat) : Option Word32 :=
  let o := a % 0x100000
  match a / 0x100000 with
  | 0 => viewKpr s o | 1 => viewIns s o | 2 => viewRing s o | 3 => viewBrk s o | 4 => viewTdl s o
  | 5 => viewStr s o | 6 => viewShg s o | 7 => viewStl s o | 8 => viewAir s o | 9 => viewCip s o
  | 10 => viewPke s o | 11 => viewKey s o | 12 => viewRng s o | 13 => viewCfl s o | 14 => viewEvf s o
  | 15 => viewCrd s o | 16 => viewIso s o | 17 => viewCan s o | 18 => viewSns s o | 19 => viewGns s o
  | 20 => viewTmp s o | 21 => viewMpu s o | 23 => viewPwr s o | 24 => viewStat s o | 25 => viewHsh s o
  | _ => none

/-- The value of a register (R7, R29): a view of typed state, or what the bank holds; an offset that holds no register
reads as zero. -/
def regRead (s : State) (a : Nat) : Word32 :=
  match view s a with
  | some v => v
  | none => s.reg a

/-! ## Wide quantities (R30) -/

/-- The key of an agent's latched upper half. Contexts come first, then the three host interfaces. -/
def latchKey (ag : Nat ⊕ Nat) (a : Nat) : Nat :=
  (match ag with | .inl c => c | .inr p => 4096 + p) * 0x2000000 + a

/-- The lower registers of quantities wider than 32 bits: the pairs that the register maps name LO and HI. -/
def lowers : List Nat :=
  [Reg.KPR_MODE_CRED_LO, Reg.INS_DESC_LO, Reg.INS_MIG_LO, Reg.INS_MIGCTR_LO, Reg.RING_BASE_LO, Reg.TDL_MARKED_LO,
    Reg.TDL_APPLIED_LO, Reg.STR_VSEQ_LO, Reg.STR_VSTRIP_LO, Reg.STR_VREL_LO, Reg.STR_VRCPT_LO, Reg.AIR_TAGID_LO,
    Reg.AIR_READER_LO, Reg.AIR_AVER_LO, Reg.PKE_PUB_ADDR_LO, Reg.KEY_SATTR_LO, Reg.KEY_ARG_LO, Reg.KEY_ATT_ADDR_LO] ++
  [Reg.CFL_FADDR_LO, Reg.GNS_TSET_LO, Reg.GNS_PPS_LO, Reg.MPU_GATE_LO, Reg.MPU_FATAL_ADDR_LO, Reg.STAT_NEXT_LO,
    Reg.HSH_BYTES_LO]

/-- Whether a register is the lower one of a wide quantity. -/
def isLower (a : Nat) : Bool :=
  decide (a ∈ lowers) || (decide (0x1500100 ≤ a ∧ a < 0x1500180) && a % 8 == 0) ||
    (decide (0x1820000 ≤ a ∧ a < 0x1840000) && frameLower (a - 0x1820000))

/-- What an agent's load of a register returns: the half latched for it, if its last read was of the lower one. -/
def regLoad (s : State) (ag : Nat ⊕ Nat) (a : Nat) : Word32 :=
  match s.latch.find? fun p => p.1 == latchKey ag a with
  | some p => p.2
  | none => regRead s a

/-- What a read of a register does beside (R30): the upper half `hi` of a wide quantity is latched for the agent; a
latched half is used up. -/
def latchRead (s : State) (ag : Nat ⊕ Nat) (a : Nat) (hi : Word32) : State :=
  let drop := fun (l : List (Nat × Word32)) k => l.filter fun q => q.1 ≠ k
  let l := drop s.latch (latchKey ag a)
  if isLower a then { s with latch := (latchKey ag (a + 4), hi) :: drop l (latchKey ag (a + 4)) }
  else { s with latch := l }

/-- A read of an RC field clears it, and leaves what hardware adds in that cycle (R7, R8). -/
def rcClear (s : State) (a : Nat) (added : Word32) : State :=
  match regDesc a with
  | some d => if d.rc then s.setReg a added else s
  | none => s

end Sys2Proof.Machine
end

