-- ==== Sys2Proof/Machine/Host.lean ====
section
/-! DEFINITION. The host side (10, R376-R401): windows, doorbells, push and pop ports, the local bus, the QSPI target and
the PCIe functions. -/

namespace Sys2Proof.Machine

open Sys2Proof

/-- Interfaces in the order of R401. -/
def ifaceIdx : Iface → Nat
  | .pcie => 0 | .lbus => 1 | .qspi => 2

/-- The interface is enabled and reaches a window (R381, R384, R570). -/
def reaches (s : State) (p : Iface) (w : Nat) : Bool :=
  s.pwr.up && s.regBit Reg.RING_HIF (ifaceIdx p) &&
    (match p with
     | .pcie => fnLive s w
     | _ => s.pwr.viohOk)

/-! ## Ports (R395) -/

def portKey (p : Iface) (w : Nat) : Nat := 64 * ifaceIdx p + w
def State.hport (s : State) (p : Iface) (w : Nat) : HostPort := sget (fun _ => {}) s.host.ports (portKey p w)
def State.setHport (s : State) (p : Iface) (w : Nat) (x : HostPort) : State :=
  { s with host := { s.host with ports := sset (fun _ => {}) s.host.ports (portKey p w) x } }

/-- The windows serve more than identity (R58, R380). -/
def serving (s : State) : Bool := s.mode != Mode.starting && !s.terminated

def pushEnd (s : State) (p : Iface) (w : Nat) (st : Word16) : State :=
  s.setHport p w { s.hport p w with pushStat := st }

/-- A write of PUSH (R395, R396, R397). -/
def pushWrite (s : State) (p : Iface) (w : Nat) (v : Word32) : State :=
  let n := fld v.toNat 0 5
  let port := s.hport p w
  match windowRing s w (fld v.toNat 16 10) with
  | none => pushEnd s p w St.argInvalid
  | some r =>
    let x := s.ring r
    if (x.en ∧ (x.outbound ∨ x.inHost)) ∨ n = 0 ∨ 16 < n then pushEnd s p w St.argInvalid
    else if x.en ∧ ¬ ownerRuns s x.owner then pushEnd s p w St.instanceQuiescing
    else
      match ringRefusal x with
      | some st => pushEnd s p w st
      | none =>
        if (List.range n).any fun k => decide (k ∈ port.stagingBad) then pushEnd s p w St.carryFault
        else
          let g := fun k => (sget (fun _ => (0 : Word32)) port.staging k).setWidth 64
          let d : Payload := ⟨64 * n, (List.range (8 * n)).map fun k => rawW (g (2 * k) ||| g (2 * k + 1) <<< 32)⟩
          if ¬ countOk x d n then pushEnd s p w St.entryInvalid
          else if x.size < n ∨ x.free < n then pushEnd (s.statInc (ringStat r 8)) p w St.ringFull
          else pushEnd (ringPut s r d n) p w St.ok

/-- A write of POP: the oldest entry of an outbound device ring, POISON where a slot fails its check. -/
def popWrite (s : State) (p : Iface) (w : Nat) (v : Word32) : State :=
  let fin := fun (s : State) st n => s.setHport p w { s.hport p w with popStat := st, popped := n }
  match windowRing s w (fld v.toNat 16 10) with
  | none => fin s St.argInvalid 0
  | some r =>
    let x := s.ring r
    if x.en ∧ (¬ x.outbound ∨ x.inHost) then fin s St.argInvalid 0
    else
      match ringRefusal x with
      | some st => fin s st 0
      | none =>
        match ringHeadEntry s r none with
        | none => fin s St.ok 0
        | some (n, ws, fail, s) =>
          let s := s.setHport p w { s.hport p w with popBuf := ws }
          fin s (if fail then St.carryFault else St.ok) n

/-- A write of RCTL: on a ring of the window that is Halted or Stopped. -/
def rctlWrite (s : State) (w k op : Nat) : State :=
  match windowRing s w k with
  | none => s
  | some r =>
    if (s.ring r).st = 2 ∨ (s.ring r).st = 3 then
      if op = 1 then discardRing s r else if op = 2 then resumeRing s r else s
    else s

/-- A write to the staging buffer is a partial store: where the slot's old check fails, the slot becomes POISON and is
recorded with the interface's ingress code (R121, R591). A POISON slot takes no partial store (R220). -/
def stageWrite (s : State) (p : Iface) (w o : Nat) (v : Word32) (upset : Bool) : State :=
  let x := s.hport p w
  let slot := o / 16
  if slot ∈ x.stagingBad then s
  else if upset then
    carryFault (s.setHport p w { x with stagingBad := x.stagingBad ++ [slot] }) (ifaceIdx p + 1) none (0x6000 + 64 * slot)
  else s.setHport p w { x with staging := sset (fun _ => 0) x.staging o v }

/-! ## Doorbells (R58, R394, R401) -/

/-- A doorbell write: held during start-up; a wake event in Standby. -/
def doorbell (s : State) (w k : Nat) (v : Word32) : State :=
  if s.terminated then s
  else if s.mode = Mode.starting then { s with host := { s.host with heldDb := s.host.heldDb ++ [(w, k, v)] } }
  else ringDoorbell (wakeSource s 0) w k v

/-- HELD_DOORBELL_RELEASE (R58). -/
def heldRelease (s : State) : State :=
  if s.mode = Mode.starting then s
  else s.host.heldDb.foldl (fun s d => doorbell s d.1 d.2.1 d.2.2) { s with host := { s.host with heldDb := [] } }

/-! ## The published frame (R359-R362) -/

/-- The frame view of a window (R362), and window 0's tamper registers (R566). -/
def frameView (s : State) (w off : Nat) : Word32 :=
  if off < 0x140 then frameWord s.statPub (off - 0x100)
  else if off < 0x180 then frameWord s.statPub (0x1000 + 64 * w + (off - 0x140))
  else if w = 0 then
    if off < 0x5C0 then frameWord s.statPub (0x40 + (off - 0x180))
    else if off = 0x800 then regRead s Reg.TMP_STICKY
    else if off = 0x804 then regRead s Reg.TMP_PEND
    else if off = 0x808 then regRead s Reg.TMP_LAST
    else 0
  else
    let k := (off - 0x180) / 16
    if k < min (ringRange s w).2 232 then frameWord s.statPub (0x10000 + 16 * ((ringRange s w).1 + k) + (off - 0x180) % 16) else 0

/-! ## Reads of a window (R376-R380) -/

/-- The state word (R377). -/
def stateWord (s : State) (w : Nat) : Word32 :=
  let halted := s.rings.any fun p => ringIn s w p.1 && p.2.st == 2
  let st := if w = 0 then (if s.kpr.running then 2 else 0) else (s.inst w).state
  BitVec.ofNat 32 (st % 8 + 16 * b2n s.kpr.timeSet + 32 * b2n s.kpr.replayDone + 64 * b2n s.dur.sealed + 128 * b2n halted)

/-- A ring's shadow (R393). -/
def shadowWord (s : State) (w off : Nat) : Word32 :=
  match windowRing s w ((off - 0x2000) / 16) with
  | none => 0
  | some r =>
    let x := s.ring r
    match off / 4 % 4 with
    | 0 => x.head
    | 1 => x.tail
    | 2 => BitVec.ofNat 32 (65536 * x.err.toNat + x.st)
    | _ => x.haltAt

/-- The 32-bit word at an offset of a window, as an interface sees it. -/
def winWord (s : State) (p : Iface) (w off : Nat) : Word32 :=
  let x := s.hport p w
  let notify := fun lo n => BitVec.ofNat 32 (((s.host.notify.filter fun b => b.1 = w ∧ lo ≤ b.2 ∧ b.2 < lo + n).map fun b => 2 ^ (b.2 - lo)).sum)
  let rom := fun (_ : Unit) =>
    if off = 0x64 then BitVec.ofNat 32 (65536 * s.host.svcStat.toNat + 256 * s.host.svcCode.toNat + b2n (svcBusy s))
    else if off = 0x68 then BitVec.ofNat 32 (s.host.svcLen % 16384)
    else if 0x8000 ≤ off ∧ off < 0xC000 then sget (fun _ => 0) s.host.svcBuf ((off - 0x8000) / 4)
    else 0
  if off = 0 ∨ off = 4 then regRead s (Reg.KPR_ID_REV + off)
  else if w = 0 ∧ 0x20 ≤ off ∧ off < 0x50 ∧ ¬ s.terminated then regRead s off
  else if s.terminated then (if w = 0 then rom () else 0)
  else if s.mode = Mode.starting then 0
  else if off = 0x10 then stateWord s w
  else if off = 0x14 then regRead s Reg.STAT_EPOCH
  else if off = 0x18 then s.kpr.devtime.setWidth 32
  else if off = 0x1C then (s.kpr.devtime >>> 32).setWidth 32
  else if 0x100 ≤ off ∧ off < 0x1000 then frameView s w off
  else if 0x2000 ≤ off ∧ off < 0x6000 then shadowWord s w off
  else if off = 0x6404 then BitVec.ofNat 32 (65536 * x.pushStat.toNat)
  else if off = 0x640C then BitVec.ofNat 32 (65536 * x.popStat.toNat + 16 * x.popped)
  else if 0x6800 ≤ off ∧ off < 0x6C00 then
    let d := (x.popBuf.getD ((off - 0x6800) / 8) (rawW 0)).data
    if off / 4 % 2 = 0 then d.setWidth 32 else (d >>> 32).setWidth 32
  else if 0x7000 ≤ off ∧ off < 0x7100 ∧ p = .pcie then msixWord s w ((off - 0x7000) / 4)
  else if off = 0x7800 ∧ p = .pcie then
    BitVec.ofNat 32 (((s.host.pba.filter fun q => q / 16 = w).map fun q => 2 ^ (q % 16)).sum)
  else if 0x7C00 ≤ off ∧ off < 0x7C80 then notify (8 * (off - 0x7C00)) 32
  else if w = 0 then rom ()
  else 0

/-- The lower words of the window's wide quantities: DEVTIME, and the 64-bit fields of the frame view (R30, R362). -/
def winLower (off : Nat) : Bool := off == 0x18 || off == 0x110 || off == 0x118 || off == 0x148 || off == 0x160

/-- The 32-bit word that a read of a window returns to an interface: the upper half latched for it, where there is one. -/
def winRead (s : State) (p : Iface) (w off : Nat) : Word32 :=
  if 4 ≤ off ∧ winLower (off - 4) then
    match s.latch.find? fun q => q.1 == latchKey (.inr (ifaceIdx p)) (65536 * w + off) with
    | some q => q.2
    | none => winWord s p w off
  else winWord s p w off

/-- What a read does beside: the upper half is latched for the interface, and a latched half is used up (R30). -/
def winLatch (s : State) (p : Iface) (w off : Nat) : State :=
  let key := fun o => latchKey (.inr (ifaceIdx p)) (65536 * w + o)
  if winLower off then
    { s with latch := (key (off + 4), winWord s p w (off + 4)) :: s.latch.filter fun q => q.1 ≠ key (off + 4) }
  else if 4 ≤ off ∧ winLower (off - 4) then { s with latch := s.latch.filter fun q => q.1 ≠ key off }
  else s

/-- The slot of the pop buffer that a read at an offset of a window meets. -/
def popSlot (off : Nat) : Option Nat := if 0x6800 ≤ off ∧ off < 0x6C00 then some ((off - 0x6800) / 64) else none

/-- A slot of the pop buffer fails its check as it leaves (R121 0x30-0x32): its eight words are POISON from then on, and
what this read answers is free. -/
def popFails (s : State) (p : Iface) (w k : Nat) : Word32 × State :=
  let x := s.hport p w
  ((Config.freeWord s.freeCtr).setWidth 32,
    { s with freeCtr := s.freeCtr + 1 }.setHport p w { x with
      popBuf := x.popBuf.take (8 * k) ++ List.replicate 8 poisonW ++ x.popBuf.drop (8 * k + 8) })

/-- What a read by an interface returns: a slot of the pop buffer is verified as it leaves. -/
def readOut (s : State) (p : Iface) (w off : Nat) : Word32 × State :=
  match if off < 65536 ∧ serving s then popSlot off else none with
  | none => (winRead s p w off, s)
  | some k =>
    match egress s (0x30 + ifaceIdx p) none with
    | (true, s) => (winRead s p w off, s)
    | (false, s) => popFails s p w k

/-- A read by an interface: the word leaves the device. -/
def hostRead (s : State) (p : Iface) (a : Nat) : State :=
  let (v, s) := readOut s p (a / 65536) (a % 65536)
  winLatch { s with outbox := s.outbox ++ [.hostRead p a v] } p (a / 65536) (a % 65536)

/-- `HIRQ_N` is driven low (R391). -/
def hirqLow (s : State) : Bool := s.regBit Reg.RING_HIF 4 && s.host.notify != []

/-! ## Writes of a window -/

/-- A write of a 32-bit word by an interface (R376, R379, R380). -/
def winWrite (s : State) (p : Iface) (w off : Nat) (v : Word32) : State :=
  if 0x1000 ≤ off ∧ off < 0x2000 then doorbell s w ((off - 0x1000) / 4) v
  else
    let rom := fun (_ : Unit) =>
      if off = 0x60 then svcCmd s (v.setWidth 8)
      else if svcBusy s then s
      else if off = 0x68 then { s with host := { s.host with svcLen := fld v.toNat 0 14 } }
      else if 0x8000 ≤ off ∧ off < 0xC000 then
        { s with host := { s.host with svcBuf := sset (fun _ => 0) s.host.svcBuf ((off - 0x8000) / 4) v } }
      else s
    if s.mode = Mode.starting then s
    else if s.terminated then (if w = 0 then rom () else s)
    else if 0x6000 ≤ off ∧ off < 0x6400 then stageWrite s p w ((off - 0x6000) / 4) v false
    else if off = 0x6400 then pushWrite s p w v
    else if off = 0x6408 then popWrite s p w v
    else if off = 0x6410 then rctlWrite s w (fld v.toNat 16 10) (fld v.toNat 0 2)
    else if 0x7000 ≤ off ∧ off < 0x7100 ∧ p = .pcie then msixWrite s w ((off - 0x7000) / 4) v
    else if 0x7C00 ≤ off ∧ off < 0x7C80 then
      let lo := 8 * (off - 0x7C00)
      { s with host := { s.host with
          notify := s.host.notify.filter fun b => !(b.1 == w && decide (lo ≤ b.2) && decide (b.2 < lo + 32) && v.getLsbD (b.2 - lo)) } }
    else if w = 0 then rom ()
    else s

/-! ## The commands of the windows -/

def onWindow (s : State) (p : Iface) (w : Nat) (f : State → State) : State := if reaches s p w then f s else s

def execDoorbell (p : Iface) (w : Fin 64) (k : Fin 1024) (v : Word32) (s : State) : Host.Outcome State Fault Refusal :=
  done s (onWindow s p w.val fun s => doorbell s w.val k.val v)

def execHeldDoorbellRelease (s : State) : Host.Outcome State Fault Refusal := done s (heldRelease s)

def execPush (p : Iface) (w : Fin 64) (v : Word32) (s : State) : Host.Outcome State Fault Refusal :=
  done s (onWindow s p w.val fun s => if serving s then pushWrite s p w.val v else s)

def execPop (p : Iface) (w : Fin 64) (v : Word32) (s : State) : Host.Outcome State Fault Refusal :=
  done s (onWindow s p w.val fun s => if serving s then popWrite s p w.val v else s)

def execRctlDiscard (p : Iface) (w : Fin 64) (k : Fin 1024) (s : State) : Host.Outcome State Fault Refusal :=
  done s (onWindow s p w.val fun s => if serving s then rctlWrite s w.val k.val 1 else s)

def execRctlResume (p : Iface) (w : Fin 64) (k : Fin 1024) (s : State) : Host.Outcome State Fault Refusal :=
  done s (onWindow s p w.val fun s => if serving s then rctlWrite s w.val k.val 2 else s)

def execStagingBufferWrite (p : Iface) (w : Fin 64) (o : Fin 256) (v : Word32) (upset : Bool) (s : State) :
    Host.Outcome State Fault Refusal :=
  done s (onWindow s p w.val fun s => if serving s then stageWrite s p w.val o.val v upset else s)

/-! ## Local bus and QSPI (R387-R391): window n at n × 0x1_0000 -/

/-- An aligned address of a window. -/
def winAddr (a : Nat) : Bool := a % 4 == 0 && decide (a < 0x400000)

def execLocalBusRead (a : Nat) (s : State) : Host.Outcome State Fault Refusal :=
  done s (if reaches s .lbus 0 && winAddr a then hostRead s .lbus a else s)

def execLocalBusWrite (a : Nat) (v : Word32) (s : State) : Host.Outcome State Fault Refusal :=
  done s (if reaches s .lbus 0 && winAddr a then winWrite s .lbus (a / 65536) (a % 65536) v else s)

/-- The addresses of `n` words from an address to the end of its window. -/
def qspiAddrs (a n : Nat) : List Nat := (List.range (min n ((65536 - a % 65536) / 4))).map fun k => a + 4 * k

/-- The bytes of the words that a QSPI read has put out. -/
def readBytes : List Out → List Byte
  | [] => []
  | .hostRead .qspi _ v :: l => leBytes 4 v.toNat ++ readBytes l
  | _ :: l => readBytes l

/-- A read of `n` words, of which those past the window's end read 0xFF; and with QCRC set the CRC over the address, most
significant byte first as it is sent, and the data (R389, R391). -/
def qspiRead (s : State) (a n : Nat) : State :=
  if reaches s .qspi 0 && winAddr a then
    let old := s.outbox.length
    let s := (qspiAddrs a n).foldl (fun s a => hostRead s .qspi a) s
    let more := n - (qspiAddrs a n).length
    let s := { s with outbox := s.outbox ++ (List.range more).map fun k => Out.hostRead .qspi (a + 4 * (n - more + k)) 0xFFFFFFFF }
    let crc := crc16 ([BitVec.ofNat 8 (a / 65536), BitVec.ofNat 8 (a / 256), BitVec.ofNat 8 a] ++ readBytes (s.outbox.drop old))
    if s.regBit Reg.RING_HIF 3 then { s with outbox := s.outbox ++ [Out.qspiCrc crc] } else s
  else s

/-- A write: applied whole, or discarded whole. -/
def qspiWrite (s : State) (a : Nat) (d : List Byte) (crcOk : Bool) : State :=
  if reaches s .qspi 0 && winAddr a then
    let mark := fun (s : State) (b : Byte) => { s with host := { s.host with qstat := s.host.qstat ||| b } }
    if s.regBit Reg.RING_HIF 3 ∧ ¬ crcOk then mark (s.incReg Reg.RING_QCRCERR) 2
    else if d.length % 4 ≠ 0 ∨ 1024 < d.length then mark s 4
    else (qspiAddrs a (d.length / 4)).foldl (fun s b =>
      winWrite s .qspi (b / 65536) (b % 65536) (BitVec.ofNat 32 (getLe d (b - a) 4))) s
  else s

def execRead1 (a n : Nat) (s : State) : Host.Outcome State Fault Refusal := done s (qspiRead s a n)
def execRead4 (a n : Nat) (s : State) : Host.Outcome State Fault Refusal := done s (qspiRead s a n)
def execWrite1 (a : Nat) (d : List Byte) (crcOk : Bool) (s : State) : Host.Outcome State Fault Refusal :=
  done s (qspiWrite s a d crcOk)
def execWrite4 (a : Nat) (d : List Byte) (crcOk : Bool) (s : State) : Host.Outcome State Fault Refusal :=
  done s (qspiWrite s a d crcOk)

/-- QSPI_STATUS (R391): bits 1 to 3 clear. -/
def execQspiStatus (s : State) : Host.Outcome State Fault Refusal :=
  done s (
    if reaches s .qspi 0 then
      let b : Byte := s.host.qstat ||| (if s.host.notify = [] then 0 else 0x80)
      { s with outbox := s.outbox ++ [.qspiStatus b], host := { s.host with qstat := 0 } }
    else s)

/-- QSPI_READ_TIMEOUT (R390). -/
def execQspiReadTimeout (s : State) : Host.Outcome State Fault Refusal :=
  done s (if reaches s .qspi 0 then { s with host := { s.host with qstat := s.host.qstat ||| 8 } } else s)

/-! ## PCIe functions (R383-R386) -/

/-- The host-memory rings of a window's owner. -/
def stopHostRings (s : State) (p : Nat → Bool) : State := stopRings s (fun x => x.inHost && p x.owner) St.ringStopped

/-- FUNCTION_LEVEL_RESET. -/
def flr (s : State) (f : Nat) : State :=
  if ¬ reaches s .pcie f then s
  else
    let all := f == 0
    let hit := fun w => all || w == f
    let s := stopHostRings (s.incReg Reg.RING_FLRCNT) hit
    { s with host := { s.host with
        msix := s.host.msix.filter fun q => !hit (q.1 / 64)
        pba := s.host.pba.filter fun q => !hit (q / 16)
        bmeOff := s.host.bmeOff.filter fun w => !hit w
        vfEnable := s.host.vfEnable && !all
        numVfs := if all then 0 else s.host.numVfs } }

def execFunctionLevelReset (f : Fin 64) (s : State) : Host.Outcome State Fault Refusal := done s (flr s f.val)

/-- BUS_MASTER_DISABLE (R385). -/
def execBusMasterDisable (f : Fin 64) (s : State) : Host.Outcome State Fault Refusal :=
  done s (
    if reaches s .pcie f.val then
      let s := { s with host := { s.host with
        bmeOff := if f.val ∈ s.host.bmeOff then s.host.bmeOff else s.host.bmeOff ++ [f.val] } }
      stopHostRings s (· == f.val)
    else s)

/-- PCIE_LINK_STATE_CHANGE: the negotiated width and speed; with the link down no host memory is reached. -/
def linkChange (s : State) (width speed : Word4) : State :=
  if ¬ s.pwr.up ∨ ¬ s.regBit Reg.RING_HIF 0 then s
  else if width = 0 ∨ speed = 0 then
    stopHostRings { s with host := { s.host with width := 0, speed := 0, vfEnable := false, numVfs := 0, bmeOff := [] } }
      (fun _ => true)
  else { s with host := { s.host with width := width, speed := speed } }

def execPcieLinkStateChange (width speed : Word4) (s : State) : Host.Outcome State Fault Refusal :=
  done s (linkChange s width speed)

/-- VF_ENABLE_CHANGE (R384): the rings of functions that no longer exist stop. -/
def vfChange (s : State) (en : Bool) (n : Nat) : State :=
  if ¬ reaches s .pcie 0 then s
  else
    let m := if en then n else 0
    stopHostRings { s with host := { s.host with vfEnable := en, numVfs := m } } (fun w => decide (m < w))

def execVfEnableChange (en : Bool) (n : Fin 64) (s : State) : Host.Outcome State Fault Refusal := done s (vfChange s en n.val)

end Sys2Proof.Machine
end

