-- ==== Sys2Proof/Machine/Ports.lean ====
section
/-! DEFINITION. The card bus, the ISO/IEC 7816-3 ports, the CAN FD controllers, the sensor port and the GNSS port (14), and
the I/O supplies (R570). -/

namespace Sys2Proof.Machine

open Sys2Proof

/-- PORT_BUFFER_DRAIN (R515). -/
def portNumber : Port → Nat
  | .card b => b.val
  | .iso p => 5 + p.val
  | .can c => 7 + c.val
  | .sensor => 9
  | .gnss => 10

def execPortBufferDrain (p : Port) (s : State) : Host.Outcome State Fault Refusal :=
  done s (drainBuf (portNumber p) (s.pbuf (portNumber p)).held.length s)

/-! ## The card bus (R517-R531) -/

def State.card (s : State) (n : Nat) : Card := sget (fun _ => {}) s.ports.crd.cards n
def setCrd (s : State) (x : CardBus) : State := { s with ports := { s.ports with crd := x } }
def setCard (s : State) (n : Nat) (x : Card) : State :=
  setCrd s { s.ports.crd with cards := sset (fun _ => {}) s.ports.crd.cards n x }

def crdOn (s : State) : Bool := s.regBit Reg.CRD_CTRL 0

/-- The binding of a slot: 4 for fixed cards (R523). -/
def slotBind (slot : Nat) : Nat := if slot = 15 then 4 else slot

/-- The lowest relative card address in no use (R522). -/
def freeRca (s : State) : Option Nat := ((List.range 15).map (· + 1)).find? fun n => (s.card n).state == 0

/-- Cards of a slot are identified, the lowest identifier first, while addresses are free (R522-R524). -/
def identify (slot : Nat) : List Word128 → State → State
  | [], s => s
  | cid :: l, s =>
    match freeRca s with
    | none => s
    | some n =>
      let s := setCard s n { state := 2, slot := slot, cid := cid }
      identify slot l (event s (slotBind slot) St.ok 2 n (BitVec.ofNat 32 slot) s.kpr.devtime 0 (leBytes 16 cid.toNat))

def sortIds (l : List Word128) : List Word128 := l.mergeSort fun a b => decide (a.toNat ≤ b.toNat)

/-- The bus is enabled (R523). Occupied slots are identified one by one, by CARD_INSERTION. -/
def crdEnable (s : State) (fixed : List Word128) : State :=
  if crdOn s ∨ ¬ portMode s then s
  else identify 15 (sortIds fixed) (s.setReg Reg.CRD_CTRL (s.reg Reg.CRD_CTRL ||| 1))

/-- ENABLE is cleared: the cards lose their power. -/
def crdDisable (s : State) : State :=
  setCrd (s.setReg Reg.CRD_CTRL (s.reg Reg.CRD_CTRL &&& ~~~1)) { det := s.ports.crd.det }

def execCardBusEnable (fixed : List Word128) (s : State) : Host.Outcome State Fault Refusal :=
  done s (s.byKeeper fun s => crdEnable s fixed)

/-- CARD_INSERTION: a detect input becomes active, or an occupied slot is identified after ENABLE. -/
def cardInsert (s : State) (k : Nat) (ids : List Word128) : State :=
  let bit := BitVec.ofNat 4 (2 ^ k)
  let s := if s.ports.crd.det.getLsbD k then s
    else wakeSource (setCrd s { s.ports.crd with det := s.ports.crd.det ||| bit }) 4
  if ¬ crdOn s ∨ ¬ portMode s ∨ s.ports.crd.cards.any (fun p => p.2.state ≠ 0 ∧ p.2.slot = k) then s
  else if (freeRca s).isNone then event s k St.tableFull 2 0 (BitVec.ofNat 32 k) s.kpr.devtime 0
  else identify k (sortIds ids) (setCrd s { s.ports.crd with pen := s.ports.crd.pen ||| bit })

def execCardInsertion (k : Fin 4) (ids : List Word128) (s : State) : Host.Outcome State Fault Refusal :=
  done s (if s.pwr.up && s.pwr.viocOk then cardInsert s k.val ids else s)

/-- The completion of the request in progress, with the card's last status in ARG2. -/
def cardEnd (s : State) (q : CardRun) (st : Word16) (data : List Byte := []) : State :=
  let s := if st = St.outcomeUnknown then s.incReg Reg.CRD_UNKNOWN else s
  complete (setCrd s { s.ports.crd with run := none }) q.req st 0 ((s.card q.rca).status.setWidth 64) data

/-- A request on a card of a removed slot (R529, R530). -/
def removedRun (s : State) (q : CardRun) : State :=
  if q.stage ≠ 0 ∧ q.req.op ∈ [2, 6, 7] then
    let s := setCrd (s.incReg Reg.CRD_UNKNOWN) { s.ports.crd with run := none }
    withdrawal s q.req q.rca (if q.req.op = 2 then q.req.arg else 0xFFFFFFFF) (s.card q.rca).cid
      ((s.card q.rca).status.setWidth 64)
  else cardEnd s q St.cardAbsent

/-- CARD_REMOVAL (R528). -/
def cardRemove (s : State) (k : Nat) : State :=
  if ¬ s.ports.crd.det.getLsbD k then s
  else
    let bit := BitVec.ofNat 4 (2 ^ k)
    let s := wakeSource (setCrd s { s.ports.crd with
      det := s.ports.crd.det &&& ~~~bit, pen := s.ports.crd.pen &&& ~~~bit }) 4
    if ¬ crdOn s ∨ ¬ portMode s then s
    else
      let s := s.incReg Reg.CRD_REMOVALS
      let s := match s.ports.crd.run with
        | some q => if (s.card q.rca).slot = k ∧ (s.card q.rca).state ≠ 0 then removedRun s q else s
        | none => s
      let s := s.ports.crd.cards.foldl (fun s p =>
        if p.2.slot = k then setCard s p.1 { p.2 with state := 0 } else s) s
      event s k St.cardAbsent 3 0 (BitVec.ofNat 32 k) s.kpr.devtime 0

def execCardRemoval (k : Fin 4) (s : State) : Host.Outcome State Fault Refusal :=
  done s (if s.pwr.up && s.pwr.viocOk then cardRemove s k.val else s)

/-- The command of a request: its opcode and argument (R519, R525). -/
def cardCommand (q : PortReq) : Nat × Word32 :=
  match q.op with
  | 1 => (0x8, q.arg) | 2 => (0x9, q.arg) | 3 => (0x6, 0) | 4 => (0x4, 0) | 5 => (0x5, 0) | 6 => (0xA, q.arg) | _ => (0xB, 0)

def sendCommand (s : State) (q : CardRun) : State :=
  let c := if q.stage = 0 then (0x3, 0) else cardCommand q.req
  { s with outbox := s.outbox ++ [.cardCmd c.1 q.rca c.2] }

/-- The table of R525: the fields a request may have. -/
def cardReqOk (q : PortReq) : Bool :=
  decide (1 ≤ q.op ∧ q.op ≤ 7 ∧ 1 ≤ q.unit ∧ q.unit ≤ 15) && q.data.length == (if q.op = 2 then 512 else 0) &&
    (if q.op = 1 ∨ q.op = 2 then true else if q.op = 6 then decide (q.arg.toNat ≤ 1) else q.arg == 0)

/-- A request is checked and its first command sent (R514, R519-R521, R525, R570). -/
def cardServe (s : State) (q : PortReq) : State :=
  let n := q.unit
  let c := s.card n
  let known := s.ports.crd.cards.any (·.1 == n)
  let run : CardRun := { req := q, rca := n, stage := 1 }
  let fail := fun st => complete s q st 0 (c.status.setWidth 64)
  if ¬ cardReqOk q ∨ ¬ known ∨ slotBind c.slot ≠ q.bind then complete s q St.argInvalid
  else if c.state = 0 then fail St.cardAbsent
  else if ¬ s.pwr.viocOk then fail St.portTimeout
  else if q.op = 2 ∧ fld c.status.toNat 26 2 ≠ 0 then fail St.writeProtected
  else if q.op = 6 ∧ q.arg = 1 ∧ s.mode ≠ Mode.workshop then fail St.modeRefused
  else
    let allowed := if q.op = 4 then c.state = 2 else if q.op = 5 then c.state = 4 else c.state = 2 ∨ c.state = 3
    if ¬ allowed then fail St.cardState
    else
      let run := if c.state = 2 ∧ q.op ∉ [4, 5] then { run with stage := 0 } else run
      let send := fun (s : State) => sendCommand (setCrd s { s.ports.crd with run := some run }) run
      if q.op = 2 then transmit s q 0x34 send else send s

/-- The binding whose request is next, round-robin (R514, R17). -/
def nextCardBind (s : State) : Option Nat := ((List.range 5).map fun k => (s.ports.crd.ptr + k) % 5).find? (reqWaits s)

/-- The bus takes the next request of a binding, whose OP is the row's (an OP outside the table under any row). -/
def cardTake (s : State) (b op : Nat) : State :=
  if ¬ crdOn s ∨ s.ports.crd.run.isSome ∨ s.pwr.flush ≠ 0 ∨ nextCardBind s ≠ some b ∨
      (reqOp s b ≠ op ∧ 1 ≤ reqOp s b ∧ reqOp s b ≤ 7) then s
  else
    match takeReq (setCrd s { s.ports.crd with ptr := (b + 1) % 5 }) b with
    | (some q, s) => cardServe s q
    | (none, s) => s

def execCardRead (b : Fin 5) (s : State) : Host.Outcome State Fault Refusal := done s (cardTake s b.val 1)
def execCardWrite (b : Fin 5) (s : State) : Host.Outcome State Fault Refusal := done s (cardTake s b.val 2)
def execCardStatus (b : Fin 5) (s : State) : Host.Outcome State Fault Refusal := done s (cardTake s b.val 3)
def execCardSleep (b : Fin 5) (s : State) : Host.Outcome State Fault Refusal := done s (cardTake s b.val 4)
def execCardWake (b : Fin 5) (s : State) : Host.Outcome State Fault Refusal := done s (cardTake s b.val 5)
def execCardSetwp (b : Fin 5) (s : State) : Host.Outcome State Fault Refusal := done s (cardTake s b.val 6)
def execCardClrwp (b : Fin 5) (s : State) : Host.Outcome State Fault Refusal := done s (cardTake s b.val 7)

def setRun (s : State) (q : CardRun) : State := setCrd s { s.ports.crd with run := some q }

/-- A CRC fails: a READ is repeated up to twice, then PORT_CRC (R527). -/
def cardCrc (s : State) (q : CardRun) : State :=
  let s := s.incReg Reg.CRD_CRCERR
  if q.req.op = 1 ∧ q.stage ≠ 0 ∧ q.tries < 2 then
    let q := { q with stage := 1, tries := q.tries + 1, again := false }
    sendCommand (setRun s q) q
  else cardEnd s q St.portCrc

/-- A card's new state; a card that becomes Selected puts any other back to Standby (R519). -/
def cardState (s : State) (n st : Nat) : State :=
  let s := if st = 3 then
      s.ports.crd.cards.foldl (fun s p => if p.2.state = 3 then setCard s p.1 { p.2 with state := 2 } else s) s
    else s
  setCard s n { s.card n with state := st }

/-- A status response with a good CRC. -/
def cardStatusOk (s : State) (q : CardRun) (st : Word32) : State :=
  let s := setCard s q.rca { s.card q.rca with status := st }
  if q.stage = 0 then
    let q := { q with stage := 1, again := false }
    let s := cardState s q.rca 3
    if q.req.op = 2 ∧ fld st.toNat 26 2 ≠ 0 then cardEnd s q St.writeProtected
    else sendCommand (setRun s q) q
  else
    match q.req.op with
    | 1 => setRun s { q with stage := 2 }
    | 2 =>
      if fld st.toNat 26 2 ≠ 0 then cardEnd s q St.writeProtected
      else
        let s := setRun s { q with stage := 3 }
        { s with outbox := s.outbox ++ [.cardBlock q.req.data] }
    | 3 => cardEnd s q St.ok
    | 4 => cardEnd (cardState s q.rca 4) q St.ok
    | 5 => cardEnd (cardState s q.rca 2) q St.ok
    | _ => setRun s { q with stage := 4 }

/-- CARD_RESPONSE (R517, R518, R527). -/
def cardResponse (s : State) (r : CardReply) : State :=
  match s.ports.crd.run with
  | none => s
  | some q =>
    match r with
    | .status st crcOk => if 1 < q.stage then s else if crcOk then cardStatusOk s q st else cardCrc s q
    | .block d crcOk =>
      if q.stage ≠ 2 ∨ d.length ≠ 512 then s else if crcOk then cardEnd s q St.ok d else cardCrc s q
    | .ack b => if q.stage ≠ 3 then s else if b = 0x5C then setRun s { q with stage := 4 } else cardEnd s q St.portCrc
    | .identity _ _ => s

def execCardResponse (r : CardReply) (s : State) : Host.Outcome State Fault Refusal := done s (cardResponse s r)

/-- BUSY_RELEASE (R526). -/
def execBusyRelease (s : State) : Host.Outcome State Fault Refusal :=
  done s (
    match s.ports.crd.run with
    | some q => if q.stage = 4 then cardEnd s q St.ok else s
    | none => s)

/-- CARD_RESPONSE_TIMEOUT (R527): the command once more, then PORT_TIMEOUT. -/
def execCardResponseTimeout (s : State) : Host.Outcome State Fault Refusal :=
  done s (
    match s.ports.crd.run with
    | some q =>
      if 1 < q.stage then s
      else
        let s := s.incReg Reg.CRD_TIMEOUTS
        if q.again then cardEnd s q St.portTimeout
        else sendCommand (setRun s { q with again := true }) q
    | none => s)

/-- CARD_BUSY_TIMEOUT (R527). -/
def execCardBusyTimeout (s : State) : Host.Outcome State Fault Refusal :=
  done s (
    match s.ports.crd.run with
    | some q => if q.stage = 4 then cardEnd s q St.outcomeUnknown else s
    | none => s)

/-! ## ISO/IEC 7816-3 (R532-R534) -/

def State.isoPort (s : State) (p : Nat) : IsoPort := sget (fun _ => {}) s.ports.iso p
def setIso (s : State) (p : Nat) (x : IsoPort) : State :=
  { s with ports := { s.ports with iso := sset (fun _ => {}) s.ports.iso p x } }
def isoOn (s : State) (p : Nat) : Bool := s.regBit (Reg.ISO_CTRL + 0x40 * p) 0
def isoError (s : State) (p : Nat) : State := s.incReg (Reg.ISO_ERRORS + 0x40 * p)

/-- The request in progress completes and the port takes a state. -/
def isoEnd (s : State) (p : Nat) (st : Word16) (state proto : Nat) (arg : Word32 := 0) (data : List Byte := []) : State :=
  let x := s.isoPort p
  let s := setIso s p { x with state := state, proto := proto, run := none, warm := false, allSent := false }
  match x.run with
  | some q => complete s q st arg 0 data
  | none => s

/-- The port takes the next request, whose OP is the row's. -/
def isoTake (s : State) (p op : Nat) (f : State → PortReq → State) : State :=
  let k := 5 + p
  if ¬ isoOn s p ∨ (s.isoPort p).run.isSome ∨ s.pwr.flush ≠ 0 ∨ ¬ reqWaits s k ∨
      (reqOp s k ≠ op ∧ 1 ≤ reqOp s k ∧ reqOp s k ≤ 3) then s
  else
    match takeReq s k with
    | (some q, s) =>
      if q.op ≠ op ∨ q.unit ≠ p then complete s q St.argInvalid
      else if ¬ s.pwr.viocOk then complete s q St.portTimeout
      else f s q
    | (none, s) => s

/-- ACTIVATE: a cold reset. -/
def isoActivate (s : State) (p : Nat) : State :=
  isoTake s p 1 fun s q =>
    let x := s.isoPort p
    if q.data ≠ [] then complete s q St.argInvalid
    else if ¬ x.present then complete s q St.cardAbsent
    else
      let s := setIso s p { x with state := 1, proto := 0, run := some q, warm := false, allSent := false }
      { s with outbox := s.outbox ++ [.isoActivate p false] }

/-- EXCHANGE: a command APDU of at most 261 bytes. -/
def isoExchange (s : State) (p : Nat) : State :=
  isoTake s p 2 fun s q =>
    let x := s.isoPort p
    if q.data = [] ∨ 261 < q.data.length then complete s q St.argInvalid
    else if ¬ x.present then complete s q St.cardAbsent
    else if x.state ≠ 2 then complete s q St.cardState
    else
      transmit s q 0x35 fun s =>
        let s := setIso s p { x with state := 3, run := some q, allSent := false }
        { s with outbox := s.outbox ++ [.isoSend p q.data] }

/-- DEACTIVATE. -/
def isoDeactivate (s : State) (p : Nat) : State :=
  isoTake s p 3 fun s q =>
    if q.data ≠ [] then complete s q St.argInvalid
    else
      let s := setIso s p { s.isoPort p with state := 0, proto := 0 }
      complete { s with outbox := s.outbox ++ [.isoOff p] } q St.ok

def execActivate (p : Fin 2) (s : State) : Host.Outcome State Fault Refusal := done s (isoActivate s p.val)
def execExchange (p : Fin 2) (s : State) : Host.Outcome State Fault Refusal := done s (isoExchange s p.val)
def execDeactivate (p : Fin 2) (s : State) : Host.Outcome State Fault Refusal := done s (isoDeactivate s p.val)

/-- An ATR that is not received or not valid: a warm reset, then ISO_PROTOCOL. -/
def isoRetry (s : State) (p : Nat) : State :=
  let x := s.isoPort p
  if x.warm then isoEnd (isoError s p) p St.isoProtocol 0 0
  else
    let s := setIso s p { x with warm := true }
    { s with outbox := s.outbox ++ [.isoActivate p true] }

/-- ISO_CARD_RECEIVE (R532). -/
def isoReceive (s : State) (p : Nat) (r : IsoReply) : State :=
  let x := s.isoPort p
  match r with
  | .atr b valid t1 =>
    if x.state ≠ 1 then s
    else if valid then isoEnd s p St.ok 2 (if t1 then 2 else 1) (if t1 then 1 else 0) b
    else isoRetry s p
  | .allSent => if x.state = 3 then setIso s p { x with allSent := true } else s
  | .response b => if x.state = 3 then isoEnd s p St.ok 2 x.proto 0 b else s
  | .broken =>
    if x.state = 3 then isoEnd (isoError s p) p St.isoProtocol 2 x.proto
    else if x.state = 1 then isoRetry s p
    else s

def execIsoCardReceive (p : Fin 2) (r : IsoReply) (s : State) : Host.Outcome State Fault Refusal := done s (isoReceive s p.val r)

/-- ISO_WAITING_TIME_EXPIRY (R532). -/
def execIsoWaitingTimeExpiry (p : Fin 2) (s : State) : Host.Outcome State Fault Refusal :=
  done s (isoReceive s p.val .broken)

/-- ISO_CARD_PRESENCE (R533, R534). The OP of the event is not stated. -/
def isoPresence (s : State) (p : Nat) (present : Bool) : State :=
  let x := s.isoPort p
  if x.present = present then s
  else
    let s := wakeSource (setIso s p { x with present := present }) 4
    if ¬ isoOn s p ∨ ¬ portMode s then s
    else
      let s := if present then s
        else
          let s := { s with outbox := if x.state = 0 then s.outbox else s.outbox ++ [.isoOff p] }
          match x.run with
          | some q =>
            if x.state = 3 ∧ x.allSent then
              withdrawal (setIso s p { present := false }) q (0x80 + p) 0xFFFFFFFF 0 0
            else isoEnd s p St.cardAbsent 0 0
          | none => setIso s p { present := false }
      let op := (Config.freeByte s.freeCtr).toNat
      event { s with freeCtr := s.freeCtr + 1 } (5 + p) St.ok op p (BitVec.ofNat 32 (b2n present)) s.kpr.devtime 0

def execIsoCardPresence (p : Fin 2) (present : Bool) (s : State) : Host.Outcome State Fault Refusal :=
  done s (if s.pwr.up && s.pwr.viocOk then isoPresence s p.val present else s)

/-! ## CAN FD (R535-R537) -/

def State.canCtl (s : State) (c : Nat) : CanCtl := sget (fun _ => {}) s.ports.can c
def setCan (s : State) (c : Nat) (x : CanCtl) : State :=
  { s with ports := { s.ports with can := sset (fun _ => {}) s.ports.can c x } }
def canCtrlBit (s : State) (c n : Nat) : Bool := s.regBit (Reg.CAN_CTRL + 0x40 * c) n
def canOn (s : State) (c : Nat) : Bool := canCtrlBit s c 0 && s.pwr.viohOk

/-- A filter accepts a frame. -/
def canFilter (s : State) (c k : Nat) (f : CanFrame) : Bool :=
  let id := s.reg (Reg.CAN_FID + 0x200 * c + 8 * k)
  let m := s.reg (Reg.CAN_FMASK + 0x200 * c + 8 * k)
  id.getLsbD 31 && (!m.getLsbD 30 || id.getLsbD 30 == f.ide) &&
    ((id.setWidth 29 ^^^ f.id) &&& m.setWidth 29) == 0

/-- The fields ARG and ARG2 of a frame (R536). -/
def canArg (f : CanFrame) : Word32 := BitVec.ofNat 32 (2 ^ 31 * b2n f.ide + f.id.toNat)
def canArg2 (f : CanFrame) : Word64 := BitVec.ofNat 64 (8 * b2n f.brs + 4 * b2n f.fd + 2 * b2n f.rtr + b2n f.esi)

/-- Lengths that a frame may have (R535). -/
def canLenOk (fd : Bool) (n : Nat) : Bool := decide (n ≤ 8) || (fd && decide (n ∈ [12, 16, 20, 24, 32, 48, 64]))

/-- CAN_FRAME_RECEIVED. -/
def canReceive (s : State) (c : Nat) (f : CanFrame) : State :=
  let x := s.canCtl c
  if ¬ canOn s c ∨ ¬ portMode s ∨ x.busOff ∨ (f.fd ∧ ¬ canCtrlBit s c 1) ∨ ¬ canLenOk f.fd f.data.length then s
  else
    let s := setCan s c { x with recv := x.recv - 1 }
    if (List.range 64).any (canFilter s c · f) then
      event s (7 + c) St.ok 1 c (canArg f) s.kpr.devtime (canArg2 f) f.data
    else s

def execCanFrameReceived (c : Fin 2) (f : CanFrame) (s : State) : Host.Outcome State Fault Refusal := done s (canReceive s c.val f)

/-- The frame that a request spells. -/
def reqFrame (q : PortReq) : CanFrame :=
  { ide := q.arg.getLsbD 31, id := q.arg.setWidth 29, brs := q.arg2.getLsbD 3, fd := q.arg2.getLsbD 2
    rtr := q.arg2.getLsbD 1, esi := q.arg2.getLsbD 0, data := q.data }

/-- CAN_TRANSMIT: the next request, while fewer than three are held. -/
def canTransmit (s : State) (c : Nat) : State :=
  let k := 7 + c
  let x := s.canCtl c
  if ¬ canCtrlBit s c 0 ∨ canCtrlBit s c 3 ∨ 3 ≤ x.held.length ∨ s.pwr.flush ≠ 0 ∨ ¬ reqWaits s k then s
  else
    match takeReq s k with
    | (none, s) => s
    | (some q, s) =>
      let f := reqFrame q
      if q.op ≠ 2 ∨ q.unit ≠ c ∨ ¬ canLenOk f.fd f.data.length ∨ (f.fd ∧ (f.rtr ∨ ¬ canCtrlBit s c 1)) ∨
          (¬ f.ide ∧ 2 ^ 11 ≤ f.id.toNat) then complete s q St.argInvalid
      else if ¬ s.pwr.viohOk then complete s q St.portTimeout
      else if x.busOff then complete s q St.canBusOff
      else
        transmit s q 0x36 fun s =>
          let s := setCan s c { s.canCtl c with held := (s.canCtl c).held ++ [q] }
          { s with outbox := s.outbox ++ [.canSent c f] }

def execCanTransmit (c : Fin 2) (s : State) : Host.Outcome State Fault Refusal := done s (canTransmit s c.val)

/-- CAN_TRANSMIT_ACK. -/
def canAck (s : State) (c : Nat) : State :=
  let x := s.canCtl c
  match x.held with
  | [] => s
  | q :: l => complete (setCan s c { x with held := l, tec := x.tec - 1 }) q St.ok

def execCanTransmitAck (c : Fin 2) (s : State) : Host.Outcome State Fault Refusal := done s (canAck s c.val)

/-- CAN_ERROR_DETECTED: a counter grows; beyond 255 the transmit counter means bus-off (R537). The OP of that event is not
stated. -/
def canError (s : State) (c : Nat) (tx : Bool) (delta : Nat) : State :=
  let x := s.canCtl c
  if ¬ canOn s c ∨ x.busOff then s
  else if ¬ tx then setCan s c { x with recv := min 255 (x.recv + delta) }
  else if x.tec + delta ≤ 255 then setCan s c { x with tec := x.tec + delta }
  else
    let s := setCan s c { x with tec := 256, busOff := true, held := [] }
    let s := x.held.foldl (fun s q => complete s q St.canBusOff) s
    let op := (Config.freeByte s.freeCtr).toNat
    event { s with freeCtr := s.freeCtr + 1 } (7 + c) St.canBusOff op c 0 s.kpr.devtime 0

def execCanErrorDetected (c : Fin 2) (tx : Bool) (delta : Nat) (s : State) : Host.Outcome State Fault Refusal :=
  done s (canError s c.val tx delta)

/-- CAN_BUS_OFF_RECOVERY. -/
def execCanBusOffRecovery (c : Fin 2) (s : State) : Host.Outcome State Fault Refusal :=
  done s (
    let x := s.canCtl c.val
    if x.busOff ∧ canOn s c.val ∧ canCtrlBit s c.val 2 then setCan s c.val { x with tec := 0, recv := 0, busOff := false } else s)

/-! ## Sensor port (R538-R540, R580) -/

def State.pulse (s : State) (n : Nat) : PulseIn := sget (fun _ => {}) s.ports.pulse n
def setPulse (s : State) (n : Nat) (x : PulseIn) : State :=
  { s with ports := { s.ports with pulse := sset (fun _ => {}) s.ports.pulse n x } }

/-- The histogram bin of an interval in µs (R361). -/
def pulseBin (us : Nat) : Nat := min 31 (Nat.log2 us)

/-- PULSE_EDGE: a pulse of `ns` high. One between 2.0 µs and 2.04 µs counts or not by its phase (R580). -/
def pulseEdge (s : State) (n ns : Nat) (phase : Bool) : State :=
  if ¬ s.regBit Reg.SNS_CTRL n ∨ ¬ portMode s ∨ ¬ s.pwr.viohOk ∨ ns < 2000 ∨ (ns < 2040 ∧ ¬ phase) then s
  else
    let x := s.pulse n
    let t := s.kpr.devtime
    let d := x.last.map fun l => (t - l).toNat
    let s := match d with
      | some d => if 1000 ≤ d then s.statInc (0x380 + 128 * n + 4 * pulseBin (d / 1000)) else s
      | none => s
    setPulse s n {
      count := x.count + 1, edges := x.edges + 1
      shortest := match x.shortest, d with | some a, some b => some (min a b) | a, none => a | none, b => b
      first := if x.edges = 0 then t else x.first
      last := some t }

def execPulseEdge (n : Fin 2) (ns : Nat) (phase : Bool) (s : State) : Host.Outcome State Fault Refusal :=
  done s (pulseEdge s n.val ns phase)

/-- PULSE_REPORT: the end of a period. A period without an edge, or without an interval, states none: those fields are
free. -/
def pulseReport (s : State) (n : Nat) : State :=
  if ¬ s.regBit Reg.SNS_CTRL n ∨ ¬ portRuns s 9 then s
  else
    let x := s.pulse n
    let c := s.freeCtr
    let s := setPulse { s with freeCtr := s.freeCtr + 3 } n { count := x.count, last := x.last }
    let short : Word64 := match x.shortest with
      | some d => BitVec.ofNat 64 (min (d / 100) 0xFFFFFFFF)
      | none => (Config.freeWord c).setWidth 32 |>.setWidth 64
    let first := if x.edges = 0 then Config.freeWord (c + 1) else x.first
    let last := if x.edges = 0 then Config.freeWord (c + 2) else x.last.getD 0
    event s 9 St.ok 1 n (BitVec.ofNat 32 x.edges) first short (leBytes 8 last.toNat)

def execPulseReport (n : Fin 2) (s : State) : Host.Outcome State Fault Refusal := done s (pulseReport s n.val)

def linkOn (s : State) : Bool := s.regBit Reg.SNS_CTRL 2
def pairing (ty : Nat) : Bool := decide (0x10 ≤ ty ∧ ty < 0x20)

/-- SENSOR_LINK_REQUEST: the next request; its frame type stands in ARG [7:0], which is the model's choice. -/
def sensorRequest (s : State) : State :=
  if ¬ linkOn s ∨ s.ports.sensor.isSome ∨ s.pwr.flush ≠ 0 ∨ ¬ reqWaits s 9 then s
  else
    match takeReq s 9 with
    | (none, s) => s
    | (some q, s) =>
      let ty := fld q.arg.toNat 0 8
      if 200 < q.data.length ∨ q.unit ≠ 0 then complete s q St.argInvalid
      else if pairing ty ∧ s.mode ≠ Mode.workshop then complete s q St.pairingRefused
      else if ¬ s.pwr.viohOk then complete s q St.portTimeout
      else transmit s q 0x37 fun s => { s with
        ports := { s.ports with sensor := some q }
        outbox := s.outbox ++ [.sensorSent (BitVec.ofNat 8 ty) q.data] }

def execSensorLinkRequest (s : State) : Host.Outcome State Fault Refusal := done s (sensorRequest s)

def sensorEnd (s : State) (q : PortReq) (st : Word16) (arg : Word32 := 0) (data : List Byte := []) : State :=
  complete { s with ports := { s.ports with sensor := none } } q st arg 0 data

/-- SENSOR_ANSWER: in Service a received pairing frame is discarded and counted. -/
def sensorAnswer (s : State) (ty : Byte) (body : List Byte) (crcOk : Bool) : State :=
  match s.ports.sensor with
  | none => s
  | some q =>
    if ¬ crcOk ∨ 200 < body.length then sensorEnd (s.incReg Reg.SNS_LINKERR) q St.portCrc
    else if pairing ty.toNat ∧ s.mode ≠ Mode.workshop then s.incReg Reg.SNS_LINKERR
    else sensorEnd s q St.ok (ty.setWidth 32) body

def execSensorAnswer (ty : Byte) (body : List Byte) (crcOk : Bool) (s : State) : Host.Outcome State Fault Refusal :=
  done s (sensorAnswer s ty body crcOk)

def execSensorAnswerTimeout (s : State) : Host.Outcome State Fault Refusal :=
  done s (
    match s.ports.sensor with
    | some q => sensorEnd (s.incReg Reg.SNS_LINKERR) q St.portTimeout
    | none => s)

/-! ## GNSS and time (R541-R545, R57) -/

def setGnss (s : State) (x : Gnss) : State := { s with ports := { s.ports with gnss := x } }

/-- The open UART event closes and is posted; its OP is open (log entry 91). -/
def gnssClose (s : State) : State :=
  let x := s.ports.gnss
  if x.bytes = [] then s
  else
    let op := (Config.freeByte s.freeCtr).toNat
    event (setGnss { s with freeCtr := s.freeCtr + 1 } { x with bytes := [] }) 10 St.ok op 0 0 x.first 0 x.bytes

/-- GNSS_UART_BYTE. -/
def gnssByte (s : State) (b : Byte) : State :=
  if ¬ s.regBit Reg.GNS_CTRL 0 ∨ ¬ portRuns s 10 ∨ ¬ s.pwr.viohOk then s
  else
    let x := s.ports.gnss
    let s := setGnss s { x with bytes := x.bytes ++ [b], first := if x.bytes = [] then s.kpr.devtime else x.first }
    if 255 ≤ x.bytes.length then gnssClose s else s

def execGnssUartByte (b : Byte) (s : State) : Host.Outcome State Fault Refusal := done s (gnssByte s b)
def execGnssEventClose (s : State) : Host.Outcome State Fault Refusal := done s (gnssClose s)

/-- The signed distance in ns from the nearest whole second. -/
def ppsError (t : Nat) : Int :=
  let r := t % 1000000000
  if r < 500000000 then r else (r : Int) - 1000000000

/-- Discipline by an edge (R544), once DEVTIME was set: what an edge changes beside the rate. -/
def discipline (s : State) (t : Nat) : State :=
  let x := s.ports.gnss
  if x.source = 0 then s
  else
    let e := ppsError t
    if e.natAbs ≤ 1000000 then
      setGnss s { x with offset := BitVec.ofInt 32 e, ignored := 0, locked := true }
    else
      let n := x.ignored + 1
      let lost := n == 3
      let s := setGnss s { x with offset := BitVec.ofInt 32 e, ignored := n, locked := x.locked && !lost }
      if lost then event s 10 St.ok 3 0 0 s.kpr.devtime 0 else s

/-- PPS_EDGE: an edge that lasts `ns`. -/
def ppsEdge (s : State) (ns : Nat) : State :=
  if ¬ s.pwr.up then s
  else
    let s := wakeSource s 2
    if ¬ s.regBit Reg.GNS_CTRL 1 ∨ ¬ portMode s ∨ ¬ s.pwr.viohOk ∨ ns < 1000 then s
    else
      let t := BitVec.ofNat 64 (s.kpr.devtime.toNat / 10 * 10)
      let s := setGnss s { s.ports.gnss with pps := some t }
      discipline (event s 10 St.ok 2 0 0 t 0) t.toNat

def execPpsEdge (ns : Nat) (s : State) : Host.Outcome State Fault Refusal := done s (ppsEdge s ns)

/-- DEVTIME is set (R57, R543): the record, the end of the epoch, and source 4 at the running instances. Spans of a
millisecond under way go on. -/
def timeSet (s : State) (new : Word64) (source : Nat) : State :=
  let old := s.kpr.devtime
  let moved := fun (x : Word64) => if old < x then x + (new - old) else 0
  let s := { s with
    kpr := { s.kpr with devtime := new, timeSet := true }
    tmp := { s.tmp with
      fastUntil := moved s.tmp.fastUntil
      lastRaise := (s.tmp.lastRaise.filter fun p => decide (old < p.2)).map fun (p : Nat × Word64) => (p.1, moved p.2) }
    tdl := { s.tdl with
      waiting := s.tdl.waiting.map fun (c : Commit) => { c with issued := c.issued + (new - old) }
      admitted := s.tdl.admitted.map fun (c : Commit) => { c with issued := c.issued + (new - old) } }
    ctxs := s.ctxs.map fun (p : Nat × Ctx) => (p.1, { p.2 with since := p.2.since.map (· + (new - old)) }) }
  let x := s.ports.gnss
  let s := setGnss s { x with
    source := source, hostSet := x.hostSet || source == 1, locked := x.locked || source == 2, ignored := 0, stat := St.ok }
  let s := s.devCommit [.devRec 0 0x0003 (leBytes 8 old.toNat ++ leBytes 8 new.toNat ++ [BitVec.ofNat 8 (source - 1)] ++ zeros 7)]
  let t := max (max (dieTemp s 0) (dieTemp s 1)) (max (dieTemp s 2) (dieTemp s 3))
  let ok := Config.pick s.freeCtr % 2 == 0
  let s := epochBoundary (epochNow { s with freeCtr := s.freeCtr + 1 }) t ok
  (List.range 64).foldl (fun s i => if i = 0 ∨ (s.inst i).state = 2 then s.raiseIrq i 4 else s) s

/-- A write of GNS.TCMD: 1 host set, 2 PPS set. A PPS set without an edge kept is refused. -/
def timeCmd (s : State) (op : Nat) : State :=
  let x := s.ports.gnss
  let v := BitVec.ofNat 64 (s.reg64 Reg.GNS_TSET_LO)
  if ¬ s.kpr.running then s
  else if op = 1 then timeSet s v 1
  else if op = 2 then
    match x.pps with
    | some e => if x.hostSet then setGnss s { x with stat := St.timeRefused } else timeSet s (s.kpr.devtime + (v - e)) 2
    | none => setGnss s { x with stat := St.timeRefused }
  else s

def execHostSet (s : State) : Host.Outcome State Fault Refusal := done s (timeCmd s 1)
def execPpsSet (s : State) : Host.Outcome State Fault Refusal := done s (timeCmd s 2)

/-! ## I/O supplies (R570) -/

/-- Requests on the pins of a supply that leaves its range complete with PORT_TIMEOUT. -/
def pinsLost (s : State) (cardSide : Bool) : State :=
  if cardSide then
    let s := match s.ports.crd.run with | some q => cardEnd s q St.portTimeout | none => s
    (List.range 2).foldl (fun s p => if (s.isoPort p).run.isSome then isoEnd s p St.portTimeout 0 0 else s) s
  else
    let s := match s.ports.sensor with | some q => sensorEnd s q St.portTimeout | none => s
    (List.range 2).foldl (fun s c =>
      (s.canCtl c).held.foldl (fun s q => complete s q St.portTimeout) (setCan s c { s.canCtl c with held := [] })) s

/-- VIO_SUPPLY_CHANGE: VIO_H, or VIO_C on the card side, leaves the class ranges or enters that of a class. The class
first entered is kept (R592). -/
def vioChange (s : State) (cardSide ok classHi : Bool) : State :=
  if ¬ s.pwr.up then s
  else
    let cls := ((if cardSide then s.pwr.viocHi else s.pwr.viohHi).getD classHi)
    let keep := if ok ∧ (if cardSide then s.pwr.viocHi else s.pwr.viohHi).isNone then some classHi
      else if cardSide then s.pwr.viocHi else s.pwr.viohHi
    let good := ok && cls == classHi
    let s := { s with pwr :=
      if cardSide then { s.pwr with viocOk := good, viocHi := keep } else { s.pwr with viohOk := good, viohHi := keep } }
    if good then s else pinsLost s cardSide

def execVioSupplyChange (cardSide ok classHi : Bool) (s : State) : Host.Outcome State Fault Refusal :=
  done s (vioChange s cardSide ok classHi)

end Sys2Proof.Machine
end

