-- ==== Sys2Proof/Machine/Flags.lean ====
section
/-! DEFINITION. The arithmetic of the A and D units with its flags and its tag rules (R222, R223, R269-R272,
R284, R285). -/

namespace Sys2Proof.Machine

/-! ## Flags -/

/-- Z and N from a result (R271). -/
def CpuRegs.zn (r : CpuRegs) (w : Word64) : CpuRegs := { r with z := w == 0, n := w.msb }

/-- A result with its flags, where it is tagged INT; a result of another tag leaves the flags (R271). -/
def CpuRegs.arith (r : CpuRegs) (w : TWord) (c v : Bool) : CpuRegs :=
  if w.tag = Tag.int then { r.zn w.data with c := c, v := v } else r

def addC (a b : Word64) : Bool := decide (2 ^ 64 ≤ a.toNat + b.toNat)
def addV (a b : Word64) : Bool := decide ((a + b).toInt ≠ a.toInt + b.toInt)
def subC (a b : Word64) : Bool := decide (a.toNat < b.toNat)
def subV (a b : Word64) : Bool := decide ((a - b).toInt ≠ a.toInt - b.toInt)

/-- The nibble-carry vector of an addition of two INT words (R272). -/
def nibbleCarry (a b : Word64) : Word16 :=
  BitVec.ofNat 16 (((List.range 16).map fun k =>
    if 2 ^ (4 * k + 4) ≤ a.toNat % 2 ^ (4 * k + 4) + b.toNat % 2 ^ (4 * k + 4) then 2 ^ k else 0).sum)

/-- Tags that carry an address or a time in arithmetic (R270). -/
def isAddrTag (t : Word4) : Bool := t == Tag.ptr || t == Tag.code || t == Tag.time

/-- The tag of a sum, none where the pair is not accepted (R270). -/
def addTag (a b : Word4) : Option Word4 :=
  if a = Tag.int ∧ b = Tag.int then some Tag.int
  else if isAddrTag a ∧ b = Tag.int then some a
  else if a = Tag.int ∧ isAddrTag b then some b
  else none

/-- The tag of a difference (R270). -/
def subTag (a b : Word4) : Option Word4 :=
  if a = Tag.int ∧ b = Tag.int then some Tag.int
  else if isAddrTag a ∧ b = Tag.int then some a
  else if (a = Tag.ptr ∧ b = Tag.ptr) ∨ (a = Tag.time ∧ b = Tag.time) then some Tag.int
  else none

/-- The results of the two-operand A-unit operations: the word and the registers with the flags, or none for a pair of
tags that is not accepted. -/
def opAdd (r : CpuRegs) (a b : TWord) : Option (TWord × CpuRegs) :=
  (addTag a.tag b.tag).map fun t =>
    let w : TWord := ⟨t, a.data + b.data⟩
    let r := r.arith w (addC a.data b.data) (addV a.data b.data)
    (w, if a.tag = Tag.int ∧ b.tag = Tag.int then { r with hcv := nibbleCarry a.data b.data } else r)

/-- ADDI: as ADD, but HCV stays, which only an ADD changes (R272). -/
def opAddi (r : CpuRegs) (a b : TWord) : Option (TWord × CpuRegs) :=
  (opAdd r a b).map fun p => (p.1, { p.2 with hcv := r.hcv })

def opSub (r : CpuRegs) (a b : TWord) : Option (TWord × CpuRegs) :=
  (subTag a.tag b.tag).map fun t =>
    let w : TWord := ⟨t, a.data - b.data⟩
    (w, r.arith w (subC a.data b.data) (subV a.data b.data))

def bothInt (a b : TWord) : Bool := a.tag == Tag.int && b.tag == Tag.int

def opMul (r : CpuRegs) (a b : TWord) : Option (TWord × CpuRegs) :=
  if bothInt a b then
    let w := intW (a.data * b.data)
    let v := decide (w.data.toInt ≠ a.data.toInt * b.data.toInt)
    some (w, r.arith w v v)
  else none

def opMulh (r : CpuRegs) (a b : TWord) : Option (TWord × CpuRegs) :=
  if bothInt a b then
    let w := intW (BitVec.ofInt 64 (a.data.toInt * b.data.toInt / 2 ^ 64))
    some (w, r.arith w false false)
  else none

/-- Quotient rounded towards zero; V for the one pair that does not fit (R269, R271). The divisor is not zero. -/
def opDiv (r : CpuRegs) (a b : TWord) : TWord × CpuRegs :=
  let w := intW (BitVec.ofInt 64 (a.data.toInt.tdiv b.data.toInt))
  (w, r.arith w false (a.data == BitVec.ofInt 64 (-(2 ^ 63)) && b.data == BitVec.ofInt 64 (-1)))

def opRem (r : CpuRegs) (a b : TWord) : TWord × CpuRegs :=
  let w := intW (BitVec.ofInt 64 (a.data.toInt.tmod b.data.toInt))
  (w, r.arith w false (a.data == BitVec.ofInt 64 (-(2 ^ 63)) && b.data == BitVec.ofInt 64 (-1)))

def rawOrInt (t : Word4) : Bool := t == Tag.raw || t == Tag.int

/-- AND, OR and XOR: INT where both are INT, else RAW (R269). -/
def opLogic (f : Word64 → Word64 → Word64) (r : CpuRegs) (a b : TWord) : Option (TWord × CpuRegs) :=
  if rawOrInt a.tag && rawOrInt b.tag then
    let w : TWord := ⟨if bothInt a b then Tag.int else Tag.raw, f a.data b.data⟩
    some (w, r.arith w false false)
  else none

/-- The three shifts. -/
inductive ShiftKind where
  | shl | shr | sar
  deriving DecidableEq, Repr

/-- Shifts by a count modulo 64; C is the last bit shifted out (R269, R271). -/
def opShift (k : ShiftKind) (r : CpuRegs) (a n : TWord) : Option (TWord × CpuRegs) :=
  if rawOrInt a.tag && n.tag == Tag.int then
    let m := n.data.toNat % 64
    let d := match k with
      | .shl => a.data <<< m
      | .shr => a.data >>> m
      | .sar => a.data.sshiftRight m
    let c := if m = 0 then false else
      match k with
      | .shl => a.data.getLsbD (64 - m)
      | _ => a.data.getLsbD (m - 1)
    let w : TWord := ⟨a.tag, d⟩
    some (w, r.arith w c false)
  else none

/-- CMP: flags of a − b; pairs INT, or TIME, PTR or CODE of one tag (R269, R271). The pairs that are not INT are
compared unsigned: the flags are those of the data bits in every case, as the table gives them. -/
def opCmp (r : CpuRegs) (a b : TWord) : Option CpuRegs :=
  if a.tag = b.tag ∧ (a.tag = Tag.int ∨ isAddrTag a.tag) then
    some { r.zn (a.data - b.data) with c := subC a.data b.data, v := subV a.data b.data }
  else none

/-! ## Decimal words (R223) -/

/-- Digit `k` of a decimal word: nibble k + 1. -/
def decDigit (w : Word64) (k : Nat) : Nat := fld w.toNat (4 * (k + 1)) 4

/-- A word whose nibbles are 15 digits and a valid sign (R222, R223). -/
def decValid (w : Word64) : Bool :=
  ((List.range 15).all fun k => decide (decDigit w k ≤ 9)) && decide (0xA ≤ fld w.toNat 0 4)

/-- The magnitude of a decimal word; free where the word is none. -/
def decMag (w : Word64) : Nat :=
  if decValid w then ((List.range 15).map fun k => decDigit w k * 10 ^ k).sum else Config.decMag w

/-- The sign: nibbles 0xB and 0xD read as negative; free where the word is no decimal word. -/
def decNeg (w : Word64) : Bool :=
  if decValid w then fld w.toNat 0 4 == 0xB || fld w.toNat 0 4 == 0xD else Config.decNeg w

/-- The value. -/
def decVal (w : Word64) : Int := if decNeg w then -(decMag w : Int) else decMag w

/-- The digits of a number as nibbles above the sign. -/
def packDigits : Nat → Nat → Nat
  | 0, _ => 0
  | n + 1, m => m % 10 + 16 * packDigits n (m / 10)

/-- A decimal word of a magnitude below 10^15 and a sign; zero is positive (R223). -/
def decMake (neg : Bool) (m : Nat) : Word64 :=
  BitVec.ofNat 64 (16 * packDigits 15 m + if neg && m != 0 then 0xD else 0xC)

/-- A decimal result with its flags: a magnitude past 15 digits keeps the low ones with the true sign and sets DC and
V (R284). -/
def decResult (r : CpuRegs) (x : Int) : TWord × CpuRegs :=
  let m := x.natAbs
  let big := decide (10 ^ 15 ≤ m)
  let w := decMake (decide (x < 0)) (m % 10 ^ 15)
  (decW w, { r with z := m % 10 ^ 15 == 0, n := decide (x < 0) && m % 10 ^ 15 != 0, dc := big, v := big })

/-- Shifts by digits: DC when a nonzero digit goes out; the sign is kept (R284). -/
def decShift (left : Bool) (r : CpuRegs) (w : Word64) (n : Nat) : TWord × CpuRegs :=
  let m := decMag w
  let out := if left then (m * 10 ^ n) / 10 ^ 15 else m % 10 ^ n
  let q := if left then (m * 10 ^ n) % 10 ^ 15 else m / 10 ^ n
  (decW (decMake (decNeg w) q), { r with z := q == 0, n := decNeg w && q != 0, dc := out != 0 })

/-- The nibbles of DADJ from nibble 1 up, with the final carry (R285). -/
def dadjNibbles (x : Word64) (hcv : Word16) : Nat → Nat → Nat × Nat × Bool
  | 0, _ => (0, 0, true)
  | n + 1, carry =>
    let k := 15 - n
    let v0 := fld x.toNat (4 * k) 4 + carry
    let v := if 9 < v0 ∨ hcv.getLsbD k then v0 + 6 else v0
    let (rest, c, ok) := dadjNibbles x hcv n (v / 16)
    (v % 16 + 16 * rest, if n = 0 then v / 16 else c, ok && decide (v % 16 ≤ 9))

/-- DADJ: none where a digit of the result exceeds 9. -/
def opDadj (r : CpuRegs) (x : Word64) : Option (TWord × CpuRegs) :=
  let (d, c, ok) := dadjNibbles x r.hcv 15 0
  if ok then
    some (decW (BitVec.ofNat 64 (16 * d + 0xC)), { r with dc := c != 0 || r.hcv.getLsbD 15, z := d == 0, n := false })
  else none

end Sys2Proof.Machine
end

