-- ==== Sys2Proof/Machine/Operands.lean ====
section
/-! DEFINITION. How a context reaches memory: the checks of a load and a store and what they deliver (R218-R221, R274,
R332), and the operand forms of both models (R244, R247). -/

namespace Sys2Proof.Machine

/-- A synchronous exception as it is found (R319): class, DETAIL, FADDR, and the carry unit that failed its check in
this access, with the location code. -/
structure Exc where
  cls : Nat
  detail : Nat := 0
  faddr : Nat := 0
  unitHit : Option (Nat × Nat) := none
  freeAddr : Bool := false
  deriving DecidableEq, Repr

/-- Exception classes (R319). -/
abbrev Cls.illegal : Nat := 0x01
abbrev Cls.tagCheck : Nat := 0x02
abbrev Cls.mpu : Nat := 0x03
abbrev Cls.fetchBusy : Nat := 0x04
abbrev Cls.poison : Nat := 0x05
abbrev Cls.shadow : Nat := 0x06
abbrev Cls.gateCheck : Nat := 0x07
abbrev Cls.stackLimit : Nat := 0x08
abbrev Cls.decDigit : Nat := 0x09
abbrev Cls.divZero : Nat := 0x0A
abbrev Cls.loopForm : Nat := 0x0B
abbrev Cls.deviceSync : Nat := 0x0C
abbrev Cls.escalated : Nat := 0x0D
abbrev Cls.interrupt : Nat := 0x10

/-- The level of a class (R319). -/
def clsLevel (c : Nat) : Nat :=
  match c with
  | 1 => 5 | 2 => 4 | 3 => 5 | 4 => 3 | 5 => 6 | 6 => 6 | 7 => 4 | 8 => 5 | 9 => 3 | 10 => 3 | 11 => 4 | 12 => 3
  | _ => 7

/-! ## Accesses -/

/-- The word lies where X is granted to the context (R218, R219). -/
def inX (s : State) (i : Nat) (level : Fin 3) (a : Nat) : Bool := (byteDenied s i level a .x).isNone

/-- The address of a PTR or CODE word (R224). -/
def addrOf (p : Word64) : Except Exc Nat :=
  if p.toNat < 2 ^ 40 then .ok p.toNat else .error { cls := Cls.mpu, detail := 6, faddr := p.toNat }

/-- A whole engine buffer at a level (R288 step 4). -/
def bufferCheck (s : State) (i : Nat) (level : Fin 3) (p : Word64) (n : Nat) (rt : Right) : Except Exc Unit :=
  if n = 0 then .ok () else do
    let a ← addrOf p
    match rangeDenied s i level a n rt with
    | some (d, b) => .error { cls := Cls.mpu, detail := d, faddr := b }
    | none => .ok ()

/-! ## Loads and stores -/

/-- The status word that a read in a busy array returns (R478); the pulse and the time left are open. -/
def busyWord (s : State) (a : Nat) : Option TWord :=
  match arrayOf s a with
  | none => none
  | some k =>
    match s.cfl.busy.find? fun p => p.1 == k with
    | none => none
    | some (_, r) =>
      let free := (Config.freeWord s.freeCtr).toNat
      some (statW (BitVec.ofNat 64 (2 * 2 ^ 60 + k * 2 ^ 58 + r.op * 2 ^ 56 +
        (fld free 0 6 % 33) * 2 ^ 50 + (fld free 8 10) * 2 ^ 40 + a % 2 ^ 40)))

/-- The location code of a load's check, by where the word is held (R121; log entry 17). -/
def loadLoc (a : Nat) : Nat :=
  match rangeOf a with
  | some 1 => 0x12
  | some 2 | some 3 | some 4 => 0x14
  | some 6 | some 7 => 0x13
  | _ => 0x10

/-- The checks before an access of `w` bytes (R332, in order): the address, width and alignment, then range and
regions. -/
def accessCheck (s : State) (i : Nat) (level : Fin 3) (p : Word64) (w : Nat) (rt : Right) : Except Exc Nat := do
  let a ← addrOf p
  if rangeOf a = some 5 ∧ (w ≠ 4 ∨ a % 4 ≠ 0) then .error { cls := Cls.mpu, detail := 8, faddr := a }
  else if a % w ≠ 0 then .error { cls := Cls.mpu, detail := 2, faddr := a }
  else
    match byteDenied s i level a rt with
    | some d => .error { cls := Cls.mpu, detail := d, faddr := a }
    | none => .ok a

/-- A carry unit that an access by a core meets fails its check: the boundary that finds it (R24, R121). -/
def unitFault (s : State) (a : Nat) (up : Upset) : Option Nat :=
  if s.isBad a then some (loadLoc a)
  else
    match up with
    | .none => none
    | .memory => some (loadLoc a)
    | .transit => some 0x10

/-- The stored word at an address, with the carry check of its unit (R123) and POISON (R218). -/
def fetchWord (s : State) (a : Nat) (up : Upset) : Except Exc TWord :=
  match unitFault s a up with
  | some loc => .error { cls := Cls.poison, faddr := a / 8 * 8, unitHit := some (a, loc) }
  | none =>
    let w := s.rdWord (a / 8 * 8)
    if w.tag = Tag.poison then .error { cls := Cls.poison, faddr := a / 8 * 8 } else .ok w

/-- A word of undefined content (R4): what it was, or bits that mean nothing. The sources of R215 are complete, so no
other tag can come of it (log entry 10). -/
def undefWord (s : State) (a : Nat) (w : TWord) : TWord :=
  let n := s.freeCtr * 65536 + a / 8 % 65536
  if Config.pick n % 2 = 0 then w else rawW (Config.freeWord n)

/-- The address lies in a destination buffer of a request of the instance that is not complete: what a program reads
there is undefined (R237). -/
def destOpen (s : State) (i a : Nat) : Bool :=
  s.tickets.any fun p => p.1 / 256 == i && p.2.used && !p.2.done &&
    (opDest p.2.op.code p.2.op.sel p.2.op.args).any fun q => decide (q.1 / 8 * 8 ≤ a ∧ a < q.1 + q.2)

/-- A full-word load (R218, R237). -/
def loadWord (s : State) (i : Nat) (level : Fin 3) (p : Word64) (up : Upset) (lds : Bool := false) :
    Except Exc TWord := do
  let a ← accessCheck s i level p 8 .r
  match busyWord s a with
  | some w => if lds then .ok w else .error { cls := Cls.tagCheck, faddr := a }
  | none => do
    let w ← fetchWord s a up
    let w := if destOpen s i a then undefWord s a w else w
    if w.tag = Tag.ret then .ok (rawW w.data)
    else if w.tag = Tag.code ∧ inX s i level a then .ok (rawW w.data)
    else .ok w

/-- Tags that a partial load reads (R220). -/
def partTag (t : Word4) : Bool :=
  t == Tag.raw || t == Tag.int || t == Tag.dec || t == Tag.time || t == Tag.stat || t == Tag.chk

/-- A partial load of `w` bytes (R220); of a device register (R27, R28), for the context's agent. -/
def loadPart (s : State) (i c : Nat) (level : Fin 3) (p : Word64) (w : Nat) (up : Upset) :
    Except Exc (TWord × List Pend) := do
  let a ← accessCheck s i level p w .r
  if rangeOf a = some 5 then
    let r := a - 0x40000000
    .ok (rawW ((regLoad s (.inl (ctxKey i c)) r).setWidth 64), [.regRead r (regRead s (r + 4)) (s.reg r)])
  else
    match busyWord s a with
    | some _ => .error { cls := Cls.tagCheck, faddr := a }
    | none => do
      let x ← fetchWord s a up
      let x := if destOpen s i a then undefWord s (a / 8 * 8) x else x
      if partTag x.tag then
        .ok (intW (BitVec.ofNat 64 (fld x.data.toNat (8 * (a % 8)) (8 * w))), [])
      else .error { cls := Cls.tagCheck, faddr := a }

/-- A store finds the old check of its unit failing (R591): POISON at the store's address, location 0x0A. -/
def oldCheck (s : State) (a : Nat) (up : Upset) : Except Exc Unit :=
  if up ≠ .none ∨ s.isBad a then .error { cls := Cls.poison, faddr := a, unitHit := some (a, 0x0A) } else .ok ()

/-- A full-word store (R219, R221). -/
def storeWord (s : State) (i : Nat) (level : Fin 3) (p : Word64) (w : TWord) (up : Upset) :
    Except Exc (List Pend) := do
  let a ← accessCheck s i level p 8 .w
  oldCheck s a up
  .ok [.store a 8 (if inX s i level a then rawW w.data else w)]

/-- A partial store of `n` bytes (R220); a device register takes a 32-bit store (R27, R28). -/
def storePart (s : State) (i : Nat) (level : Fin 3) (p : Word64) (n : Nat) (v : TWord) (up : Upset) :
    Except Exc (List Pend) := do
  let a ← accessCheck s i level p n .w
  if rangeOf a = some 5 then .ok [.regStore (a - 0x40000000) (v.data.setWidth 32)]
  else do
    oldCheck s a up
    let t := s.rdTag (a / 8 * 8)
    if t = Tag.raw ∨ t = Tag.int then .ok [.store a n v] else .error { cls := Cls.tagCheck, faddr := a }

/-! ## Operand forms -/

/-- OPERAND with its extension, sign-extended, in the stack model (R231, R244). -/
def imm (x : Syl) : Int :=
  match x.ext with
  | none => (x.operand).toInt
  | some l => (l ++ x.operand : BitVec 48).toInt

/-- The address mode and the displacement field of the accumulator model (R247). -/
def amode (x : Syl) : Nat := fld x.operand.toNat 18 2

def disp (x : Syl) : Int :=
  let f : BitVec 18 := x.operand.setWidth 18
  match x.ext with
  | none => f.toInt
  | some l => (l ++ f : BitVec 46).toInt

def udisp (x : Syl) : Nat :=
  let f : BitVec 18 := x.operand.setWidth 18
  match x.ext with
  | none => f.toNat
  | some l => (l ++ f : BitVec 46).toNat

/-- The effective address of a memory mode (R247); mode 0b11 has none. -/
def effAddr (c : Ctx) (x : Syl) : Option Word64 :=
  match (amode x) with
  | 0 => some (BitVec.ofNat 64 (c.dbase + 8 * (udisp x)))
  | 1 => some (c.r.x0.data + BitVec.ofInt 64 (8 * (disp x)))
  | 2 => some (c.r.x1.data + BitVec.ofInt 64 (8 * (disp x)))
  | _ => none

abbrev illegal : Exc := { cls := Cls.illegal }
abbrev tagExc : Exc := { cls := Cls.tagCheck }

/-- The value operand of an accumulator-model syllable: a memory word, or DISP as INT (R247). -/
def opdVal (s : State) (i : Nat) (c : Ctx) (x : Syl) : Except Exc TWord :=
  match effAddr c x with
  | some p => loadWord s i c.r.level p x.upset
  | none => .ok (intW (BitVec.ofInt 64 (disp x)))

end Sys2Proof.Machine
end

