-- ==== Sys2Proof/Machine/Cpu.lean ====
section
/-! DEFINITION. How a context executes, first part: the legality of a syllable and the decoding of a bundle (R226-R230,
R266-R268), the movement of stack entries (R239, R240, R331), exception delivery (R322-R326) and escalation (R323,
R328). -/

namespace Sys2Proof.Machine

/-! ## Opcodes: the models, extensions and levels of each (R269, R273, R280, R283, R290, R291) -/

structure OpInfo where
  s : Bool
  a : Bool
  extS : Bool := false
  extA : Bool := false
  lv : List Nat := [0, 1, 2]
  deriving DecidableEq, Repr

def opInfoA (op : Nat) : Option OpInfo :=
  match op with
  | 0x00 => some { s := true, a := true }
  | 0x01 => some { s := true, a := true, extS := true, extA := true }
  | 0x02 | 0x03 | 0x04 | 0x05 | 0x06 | 0x07 => some { s := true, a := false }
  | 0x08 | 0x09 | 0x0B | 0x0C | 0x0D | 0x0E | 0x10 | 0x11 | 0x12 | 0x14 | 0x15 | 0x16 | 0x18 =>
    some { s := true, a := true, extA := true }
  | 0x0A => some { s := true, a := false, extS := true }
  | 0x13 | 0x17 | 0x19 => some { s := true, a := true }
  | 0x1A | 0x1B | 0x1C => some { s := true, a := false }
  | 0x20 | 0x21 | 0x22 | 0x23 => some { s := false, a := true }
  | 0x24 => some { s := false, a := true, extA := true }
  | _ => none

def opInfoM (op : Nat) : Option OpInfo :=
  match op with
  | 0x00 | 0x01 | 0x02 | 0x03 | 0x04 | 0x05 | 0x06 | 0x07 | 0x08 | 0x09 => some { s := true, a := false, extS := true }
  | 0x0A | 0x0B | 0x0C | 0x0D => some { s := true, a := true, extS := true, extA := true }
  | 0x0E | 0x0F => some { s := true, a := true }
  | 0x20 | 0x21 | 0x22 | 0x23 | 0x24 | 0x25 => some { s := false, a := true, extA := true }
  | _ => none

def opInfoC (op : Nat) : Option OpInfo :=
  match op with
  | 0x00 | 0x01 | 0x02 | 0x03 | 0x04 | 0x05 | 0x06 | 0x07 | 0x10 | 0x14 | 0x1C =>
    some { s := true, a := true, extS := true, extA := true }
  | 0x08 | 0x09 => some { s := true, a := false, extS := true }
  | 0x11 | 0x12 | 0x13 | 0x20 | 0x23 => some { s := true, a := true }
  | 0x18 => some { s := true, a := true, lv := [0, 1] }
  | 0x19 => some { s := true, a := true, lv := [1, 2] }
  | 0x21 => some { s := true, a := true, extA := true }
  | 0x22 => some { s := true, a := true, extA := true, lv := [1, 2] }
  | _ => none

def opInfoD (op : Nat) : Option OpInfo :=
  match op with
  | 0x00 | 0x01 | 0x02 | 0x06 | 0x0E => some { s := true, a := true, extA := true }
  | 0x03 | 0x04 | 0x05 | 0x08 | 0x09 | 0x0A | 0x0B | 0x0C | 0x0D | 0x10 => some { s := true, a := true }
  | _ => none

def opInfoX (op : Nat) : Option OpInfo :=
  match op with
  | 0x58 => some { s := true, a := true, lv := [2] }
  | 0x00 | 0x01 | 0x10 | 0x11 | 0x20 | 0x21 | 0x28 | 0x29 | 0x2A | 0x30 | 0x38 | 0x40 | 0x41 | 0x42 | 0x43 | 0x48 | 0x49
  | 0x50 | 0x51 | 0x60 => some { s := true, a := true }
  | _ => none

/-- Units: 0 A0, 1 A1, 2 M, 3 C, 4 D, 5 X (R229). -/
def opInfo (unit op : Nat) : Option OpInfo :=
  match unit with
  | 0 | 1 => opInfoA op
  | 2 => opInfoM op
  | 3 => opInfoC op
  | 4 => opInfoD op
  | 5 => opInfoX op
  | _ => none

/-- An opcode is defined for its unit in the model, takes the extension it has, and is permitted at the level
(R230, R267, R268). -/
def opLegal (unit op : Nat) (acc : Bool) (level : Fin 3) (ext : Bool) : Bool :=
  match opInfo unit op with
  | none => false
  | some o => (if acc then o.a else o.s) && (!ext || (if acc then o.extA else o.extS)) && decide (level.val ∈ o.lv)

/-! ## The fetch of a bundle (R226-R230) -/

/-- The fetch of the code word that holds a syllable (R226-R228, R332): address bits, width and alignment, rights, then the
word. -/
def fetchOk (s : State) (i : Nat) (level : Fin 3) (a : Nat) (up : Upset) : Except Exc Unit :=
  if 2 ^ 40 ≤ a then .error { cls := Cls.mpu, detail := 6, faddr := a }
  else if rangeOf a = some 5 then .error { cls := Cls.mpu, detail := 8, faddr := a }
  else if a % 4 ≠ 0 then .error { cls := Cls.mpu, detail := 2, faddr := a }
  else
    match byteDenied s i level a .x with
    | some d => .error { cls := Cls.mpu, detail := d, faddr := a }
    | none =>
      match busyWord s a with
      | some _ => .error { cls := Cls.fetchBusy, faddr := a }
      | none =>
        match unitFault s a up with
        | some loc => .error { cls := Cls.poison, faddr := a / 8 * 8, unitHit := some (a, loc) }
        | none =>
          let t := s.rdTag (a / 8 * 8)
          if t = Tag.code then .ok ()
          else if t = Tag.poison then .error { cls := Cls.poison, faddr := a / 8 * 8 }
          else .error { cls := Cls.tagCheck, faddr := a / 8 * 8 }

/-- The syllable at an address (R227). -/
def sylAt (s : State) (a : Nat) : Nat :=
  let w := (s.rdWord (a / 8 * 8)).data.toNat
  fld w (if a % 8 = 0 then 0 else 32) 32

/-- The fields of a syllable (R229). -/
abbrev sylStop (w : Nat) : Bool := fld w 31 1 == 1
abbrev sylUnit (w : Nat) : Nat := fld w 28 3
abbrev sylOp (w : Nat) : Nat := fld w 20 8

/-- What R230 looks at while a bundle is decoded: one more than the unit of the last unit syllable (0: none), the
extensions so far, whether the syllable before takes one, and whether a GATE is among them. -/
structure Dec where
  last : Nat := 0
  exts : Nat := 0
  lit : Bool := false
  gate : Bool := false
  deriving DecidableEq, Repr

/-- Syllable `n` of a bundle, where R230 lets it stand. -/
def Dec.take (acc : Bool) (level : Fin 3) (d : Dec) (n w : Nat) : Option Dec :=
  let unit := sylUnit w
  let op := sylOp w
  let isGate := unit == 3 && op == 0x18
  if unit = 7 then none
  else if unit = 6 then (if d.lit ∧ d.exts < 2 then some { d with exts := d.exts + 1, lit := false } else none)
  else if d.gate ∨ unit < d.last ∨ ¬ opLegal unit op acc level false ∨ (isGate ∧ n ≠ 0) then none
  else some { last := unit + 1, exts := d.exts, lit := opLegal unit op acc level true, gate := isGate }

/-- An exception with the slot and the words of its syllable (R325). -/
abbrev Fault3 := Exc × Nat × Word64

/-- The syllables of the bundle at `pc`, from `a` on, where it stands (R230); `chk` is what each fetch checks first. -/
def bundleCode (s : State) (acc : Bool) (level : Fin 3) (chk : Nat → Except Exc Unit) (pc : Nat) :
    Nat → Nat → Dec → List Nat → Except Fault3 (List Nat)
  | 0, _, _, l => .error ({ cls := Cls.illegal, faddr := pc }, 7, BitVec.ofNat 64 (l.getLastD 0))
  | fuel + 1, a, d, l =>
    match chk a with
    | .error e => .error (e, l.length, 0)
    | .ok _ =>
      let w := sylAt s a
      match d.take acc level l.length w with
      | none => .error ({ cls := Cls.illegal, faddr := pc }, l.length, BitVec.ofNat 64 w)
      | some d => if sylStop w then .ok (l ++ [w]) else bundleCode s acc level chk pc fuel (a + 4) d (l ++ [w])

/-- The bundle at `pc` as a context of instance `i` fetches it. -/
def decodeAt (s : State) (i : Nat) (acc : Bool) (level : Fin 3) (up : Upset) (pc : Nat) : Except Fault3 (List Nat) :=
  bundleCode s acc level (fun a => fetchOk s i level a (if a = pc then up else .none)) pc 8 pc {} []

/-- The address after the bundle at `a`; a bundle that does not stand counts as its first syllable. -/
def bundleEnd (s : State) (acc : Bool) (level : Fin 3) (a : Nat) : Nat :=
  a + 4 * (match bundleCode s acc level (fun _ => .ok ()) a 8 a {} [] with
    | .ok ws => ws.length
    | .error _ => 1)

/-! ## Context status and frames -/

/-- CST (R238). -/
def cstWord (i : Nat) (c : Ctx) (r : CpuRegs) : Word64 :=
  BitVec.ofNat 64 (i * 2 ^ 32 + r.mask.toNat * 2 ^ 13 + r.level.val * 2 ^ 11 + b2n c.acc * 2 ^ 10 +
    r.loops.length * 2 ^ 8 + b2n r.dc * 16 + b2n r.v * 8 + b2n r.c * 4 + b2n r.n * 2 + b2n r.z)

/-- The lowest occupied address of a stack, or its top when it is empty (R325). -/
def Stk.pos (k : Stk) : Nat := k.top - 8 * k.items.length

/-- A whole area, empty. -/
def Stk.area (top size : Nat) : Stk := { top := top, size := size, atop := top }

/-- Room for `n` more entries (R239). -/
def Stk.room (k : Stk) (n : Nat) : Bool := decide (8 * (k.items.length + n) ≤ k.size)

def Stk.base (k : Stk) : Nat := k.top - k.size

/-- The words of a loop context (R254). -/
def loopWords : Option LoopCtx → List TWord
  | none => [intW 0, intW 0]
  | some l => [codeW (BitVec.ofNat 64 l.start), intW (BitVec.ofNat 64 (l.count * 2 ^ 32 + 2 ^ 12 + l.length))]

/-- The CAUSE word (R325). -/
def causeWord (src orig detail slot flevel elevel cls : Nat) : Word64 :=
  BitVec.ofNat 64 (src * 2 ^ 32 + orig * 2 ^ 24 + detail * 2 ^ 16 + slot * 2 ^ 13 + flevel * 2 ^ 11 + elevel * 2 ^ 8 + cls)

/-- The exception frame of a context (R325). -/
def frameWords (i cn core : Nat) (c : Ctx) (cause : Word64) (faddr : Nat) (syl : Word64) : List TWord :=
  let r := c.r
  [intW (BitVec.ofNat 64 (r.pc % 2 ^ 40)), intW cause, intW (BitVec.ofNat 64 faddr), intW (cstWord i c r),
    intW (r.hcv.setWidth 64)] ++
  loopWords (r.loops.find? (·.slot == 0)) ++ loopWords (r.loops.find? (·.slot == 1)) ++
  [ptrW (BitVec.ofNat 64 r.ds.pos), ptrW (BitVec.ofNat 64 r.rs.pos),
    if c.acc then r.acc else intW 0, if c.acc then r.x0 else intW 0, if c.acc then r.x1 else intW 0,
    intW syl, intW (BitVec.ofNat 64 (core * 2 ^ 16 + cn * 2 ^ 8 + i))]

/-- Free entries of the shadow stack (R315, R316). -/
def shadowFree (sh : List Shadow) : Nat := 256 - (sh.map Shadow.cost).sum

/-! ## Gate descriptors (R307, R308) -/

structure GateDesc where
  entry : Nat
  dstop : Nat
  rstop : Nat
  w3 : Nat
  masks : List Nat
  deriving DecidableEq, Repr

def GateDesc.dssize (g : GateDesc) : Nat := 64 * fld g.w3 48 16
def GateDesc.rssize (g : GateDesc) : Nat := 64 * fld g.w3 32 16
def GateDesc.argc (g : GateDesc) : Nat := fld g.w3 24 3
def GateDesc.resc (g : GateDesc) : Nat := fld g.w3 21 3

/-- The address of descriptor `n` of an instance's table. -/
def gateAddr (s : State) (i n : Nat) : Nat :=
  let m := s.mpuSet i
  m.gateLo.toNat + 2 ^ 32 * m.gateHi.toNat + 64 * n

/-! ## Stack entries on their way to and from their area (R240, R331) -/

/-- The first failure of an access of `n` bytes that the device makes in parts (R331, R332). -/
def rangeFault (s : State) (i : Nat) (level : Fin 3) (a n : Nat) (rt : Right) : Option Exc :=
  if 2 ^ 40 ≤ a then some { cls := Cls.mpu, detail := 6, faddr := a }
  else if a % 8 ≠ 0 then some { cls := Cls.mpu, detail := 2, faddr := a }
  else (rangeDenied s i level a n rt).map fun p => { cls := Cls.mpu, detail := p.1, faddr := p.2 }

/-- The first unit of a range that fails its check as it is read, with the location code. -/
def unitsFault (s : State) (a n : Nat) (up : Upset) : Option (Nat × Nat) :=
  (unitsOf a n).findSome? fun u => (unitFault s u (if u = a / 64 * 64 then up else .none)).map fun loc => (u, loc)

/-- A write of a range finds the old check of a unit failing (R591): POISON, at 0x0A. -/
def oldUnitsFault (s : State) (a n : Nat) (up : Upset) : Option (Nat × Nat) :=
  (unitsFault s a n up).map fun p => (p.1, 0x0A)

/-- The exception of a failed unit of a range from `a` on. -/
def unitExc (a : Nat) (p : Nat × Nat) : Exc := { cls := Cls.poison, faddr := max p.1 a, unitHit := some p }

/-- All but the top `keep` entries stand in the area: those that have to go there are written, with their tags. -/
def moveOut (s : State) (i : Nat) (level : Fin 3) (up : Upset) (keep : Nat) (k : Stk) : Except Exc (List Pend × Stk) :=
  let n := k.items.length - keep
  let m := n - k.mem
  let a := k.top - 8 * n
  if m = 0 then .ok ([], k)
  else
    match rangeFault s i level a (8 * m) .w, oldUnitsFault s a (8 * m) up with
    | some e, _ => .error e
    | none, some p => .error (unitExc a p)
    | none, none =>
      .ok (((k.items.drop keep).take m).mapIdx fun q w => .spill (a + 8 * q) w,
        { k with mem := n, holes := k.holes.filter fun h => decide (h < a ∨ a + 8 * m ≤ h) })

/-- The words of a range of an area as they come back to the core: one that a program has stored into is undefined (R240),
and no RET word comes to a data stack (R243). -/
def filled (s : State) (k : Stk) (data : Bool) (a : Nat) (old : List TWord) : List TWord :=
  old.mapIdx fun q w =>
    let b := a + 8 * q
    let v := s.rdWord b
    let v := if b ∈ k.holes ∧ Config.pick (s.freeCtr * 65536 + b / 8 % 65536 + 1) % 2 = 0 then w else v
    let v := if b ∈ k.holes then undefWord s b v else v
    if data ∧ v.tag = Tag.ret then rawW v.data else v

/-- The top `keep` entries are on the core: those that stood in the area are read from it. -/
def moveIn (s : State) (i : Nat) (level : Fin 3) (up : Upset) (keep : Nat) (data : Bool) (k : Stk) : Except Exc Stk :=
  let len := k.items.length
  let n := len - keep
  let m := k.mem - n
  let a := k.top - 8 * k.mem
  if m = 0 then .ok k
  else
    match rangeFault s i level a (8 * m) .r, unitsFault s a (8 * m) up with
    | some e, _ => .error e
    | none, some p => .error (unitExc a p)
    | none, none =>
      match ((List.range m).map fun q => a + 8 * q).find? fun b => s.rdTag b == Tag.poison with
      | some b => .error { cls := Cls.poison, faddr := b }
      | none =>
        let q := len - k.mem
        .ok { k with
          items := k.items.take q ++ filled s k data a ((k.items.drop q).take m) ++ k.items.drop (q + m)
          mem := n, holes := k.holes.filter fun h => decide (h < a ∨ a + 8 * m ≤ h) }

/-- Entries move so that the top `keep` are on the core and no others. -/
def moveStk (s : State) (i : Nat) (level : Fin 3) (up : Upset) (keep : Nat) (data : Bool) (k : Stk) :
    Except Exc (List Pend × Stk) := do
  let k ← moveIn s i level up keep data k
  moveOut s i level up keep k

/-- Both stacks of a context with at most `kd` and `kr` entries on the core; the accumulator model has no data stack
(R250). -/
def moveStacks (s : State) (i kd kr : Nat) (acc : Bool) (up : Upset) (r : CpuRegs) : Except Exc (List Pend × CpuRegs) := do
  let (p, ds) ← if acc then .ok ([], r.ds) else moveStk s i r.level up kd true r.ds
  let (q, rs) ← moveStk s i r.level up kr false r.rs
  .ok (p ++ q, { r with ds := ds, rs := rs })

/-- The unit of a descriptor fails its check as the device reads it (R123). -/
def gateFault (s : State) (i n : Nat) (up : Upset) : Option (Nat × Nat) :=
  let a := gateAddr s i n
  if inKeeperData a 64 ∧ keeperReads s a 64 then unitsFault s a 64 up else none

/-- A descriptor of a table, where it lies in the keeper data area and the keeper's rights read it (R307), its words have
the tags of R308 and VALID is set. Its addresses are used whole (R224). -/
def readGate (s : State) (i n : Nat) : Option GateDesc :=
  let a := gateAddr s i n
  if ¬ (inKeeperData a 64 ∧ keeperReads s a 64) ∨ s.isBad a then none
  else
    let w := s.rdWords a 8
    if (w.map (·.tag)).take 6 ≠ [Tag.code, Tag.ptr, Tag.ptr, Tag.int, Tag.int, Tag.int] then none
    else
      let d := fun k => (w.getD k (rawW 0)).data.toNat
      if fld (d 3) 31 1 = 1 then
        some {
          entry := d 0, dstop := d 1, rstop := d 2, w3 := d 3
          masks := [fld (d 4) 0 16, fld (d 4) 16 16, fld (d 4) 32 16, fld (d 4) 48 16, fld (d 5) 0 16, fld (d 5) 16 16] }
      else none

/-- Area `j` of a descriptor's stacks (R309). -/
def GateDesc.dsArea (g : GateDesc) (j : Nat) : Stk := Stk.area (g.dstop - j * g.dssize) g.dssize
def GateDesc.rsArea (g : GateDesc) (j : Nat) : Stk := Stk.area (g.rstop - j * g.rssize) g.rssize

/-- The stack index (R309): the context's number in its instance's tables, the core in the keeper's. -/
def stackIndex (tbl cn core : Nat) : Nat := if tbl = 0 then core else cn

/-! ## Delivery (R322, R324) -/

/-- The words that spills write. -/
def spillAll (s : State) (l : List Pend) : State :=
  l.foldl (fun s p => match p with | .spill a w => (s.breakResv a 8).wrWord a w | _ => s) s

/-- A unit fails while an event is delivered to context `k`: the fault is recorded (R123), and the delivery fails, unless
the device resets. -/
def deliveryFails (s : State) (k : Nat) (p : Nat × Nat) : Except State State :=
  let t := unitFails s p.1 p.2 (some (k / 64))
  if t.mode = s.mode then .error t else .ok t

/-- Writes a frame `fr` for a context `k` that takes an exception at the table of instance `tbl`, and enters its handler.
`c` holds the context's registers as saved. The error is the state in which the event cannot be delivered (R322): a
descriptor or a frame that fails its checks, or stack entries that cannot be saved (log entry 118). -/
def enterHandler (s : State) (tbl k core : Nat) (c : Ctx) (fr : List TWord) (elevel : Nat) (esc : Bool) (up : Upset) :
    Except State State :=
  match gateFault s tbl 256 up, readGate s tbl 256 with
  | some p, _ => deliveryFails s k p
  | none, none => .error s
  | none, some g =>
    let lv : Fin 3 := if tbl = 0 then 2 else 1
    let j := stackIndex tbl (k % 64) core
    let area := if c.r.level = 0 then g.dsArea j else c.r.ds
    let fa := area.pos - 128
    if area.pos < area.base + 128 ∨ shadowFree c.shadow < 4 ∨ (rangeFault s tbl lv fa 128 .w).isSome then .error s
    else
      match moveStacks s (k / 64) 0 0 c.acc up c.r, oldUnitsFault s fa 128 up with
      | .error e, _ =>
        match e.unitHit with
        | some p => deliveryFails s k p
        | none => .error s
      | .ok _, some p => deliveryFails s k p
      | .ok (ps, saved), none =>
        let s := (wrWords (spillAll s ps) fa fr).breakResv fa 128
        let p := ptrW (BitVec.ofNat 64 fa)
        let left := area.size - 8 * area.items.length - 128
        let r := { saved with
          level := lv, mask := BitVec.ofNat 3 elevel, loops := [], resv := none, pc := g.entry
          ds := { top := fa, size := left, atop := area.atop, items := if c.acc then [] else [p] }
          rs := if c.r.level = 0 then g.rsArea j else saved.rs
          x0 := if c.acc then p else c.r.x0 }
        .ok (s.setCtx k { c with
          r := r, bundle := none, shadow := .exc c.r.pc c.r.level fa saved esc :: c.shadow })

/-- The context with its open bundle undone (R233). -/
def Ctx.undone (c : Ctx) : Ctx :=
  match c.bundle with
  | some b => { c with r := b.regs0, shadow := b.shadow0, bundle := none, waiting := none }
  | none => { c with waiting := none }

/-- The key of the keeper core's context. -/
abbrev keeperKey : Nat := 0

/-- The keeper core takes the oldest waiting escalation when its MASK allows (R323, R328). One that cannot be
delivered there is taken as fatal (log entry 18). -/
def takeEscalation (s : State) : State :=
  match s.escQ with
  | [] => s
  | e :: rest =>
    let kc := (s.ctx keeperKey).undone
    if kc.r.mask = 7 ∨ kc.run ≠ .running then s
    else
      let c := if e.ctx = keeperKey then kc else s.ctx e.ctx
      let s := { s with escQ := rest }
      let cause := causeWord 0 e.cls e.detail e.slot c.r.level.val 7 Cls.escalated
      match enterHandler s 0 keeperKey 12 kc (frameWords (e.ctx / 64) (e.ctx % 64) e.core c cause e.faddr e.syl) 7 true .none with
      | .ok t => t
      | .error t => fatalEscalation t e.cls e.detail c.r.pc

/-- An exception that escalates (R322, R328): the context is held at its bundle, the keeper core excepted. -/
def escalate (s : State) (k core : Nat) (e : Exc) (slot : Nat) (syl : Word64) : State :=
  let s := (s.statInc 0x84).statInc (instStat (k / 64) 0x34)
  let c := (s.ctx k).undone
  let s := if k = keeperKey then s else chargeCore (s.setCtx k { c with run := .held }) k
  takeEscalation { s with escQ := s.escQ ++ [{ ctx := k, cls := e.cls, detail := e.detail, faddr := e.faddr, slot := slot, syl := syl, core := core }] }

/-- An event is delivered: the state with its handler entered, counted, or in the error the state in which it escalates. -/
def delivered (s : State) (k core : Nat) (e : Exc) (slot : Nat) (syl : Word64) : Except State State → State
  | .ok t => if t.mode = s.mode then t.statInc (instStat (k / 64) 0x30) else t
  | .error t => escalate t k core e slot syl

/-- A synchronous exception of a context's bundle (R322-R326): its carry fault or SHADOW count first, then delivery at
its instance, at instance 0 when it runs at level K, or escalation. A FADDR that the spec leaves open is free. -/
def takeException (s : State) (k core : Nat) (e : Exc) (slot : Nat) (syl : Word64) (up : Upset := .none) : State :=
  let i := k / 64
  let mode := s.mode
  let s := match e.unitHit with
    | some (a, loc) => unitFails s a loc (some i)
    | none => s
  let s := if e.cls = Cls.shadow then
      rateEvent ((s.incReg Reg.MPU_SHADOWFLT).statInc 0x80) 18 (some i)
    else s
  if s.mode ≠ mode then s
  else
    let e := if e.freeAddr then { e with faddr := (Config.freeWord s.freeCtr).toNat } else e
    let s := { s with freeCtr := s.freeCtr + 1 }
    let c := (s.ctx k).undone
    let s := s.setCtx k c
    if k = keeperKey ∧ c.r.mask = 7 then fatalEscalation s e.cls e.detail c.r.pc
    else if clsLevel e.cls ≤ c.r.mask.toNat then escalate s k core e slot syl
    else
      let tbl := if c.r.level = 2 then 0 else i
      let cause := causeWord 0 0 e.detail slot c.r.level.val (clsLevel e.cls) e.cls
      delivered s k core e slot syl
        (enterHandler s tbl k core c (frameWords i (k % 64) core c cause e.faddr syl) (clsLevel e.cls) false up)

end Sys2Proof.Machine
end

