-- ==== Sys2Proof/Machine/Gret.lean ====
section
/-! DEFINITION. The stacks of a context, and what a GRET does as its bundle ends (R239, R312-R314, R327, R328). -/

namespace Sys2Proof.Machine

/-- ILLEGAL_BUNDLE at the bundle under way. -/
def illAt (c : Ctx) : Exc := { cls := Cls.illegal, faddr := c.r.pc }

def dsLimit (r : CpuRegs) : Exc := { cls := Cls.stackLimit, faddr := r.ds.base }
def rsLimit (r : CpuRegs) : Exc := { cls := Cls.stackLimit, faddr := r.rs.base }
/-- STACK_LIMIT for the shadow stack, which has no base in memory. -/
abbrev shLimit : Exc := { cls := Cls.stackLimit, freeAddr := true }

/-- Pushes and pops of the data stack and of the return stack; STACK_LIMIT at either end (R239). -/
def CpuRegs.push (r : CpuRegs) (w : TWord) : Except Exc CpuRegs :=
  if r.ds.room 1 then .ok { r with ds := { r.ds with items := w :: r.ds.items } } else .error (dsLimit r)

def CpuRegs.pop (r : CpuRegs) : Except Exc (TWord × CpuRegs) :=
  match r.ds.items with
  | [] => .error (dsLimit r)
  | w :: t => .ok (w, { r with ds := { r.ds with items := t } })

def CpuRegs.rput (r : CpuRegs) (w : TWord) : Except Exc CpuRegs :=
  if r.rs.room 1 then .ok { r with rs := { r.rs with items := w :: r.rs.items } } else .error (rsLimit r)

def CpuRegs.rtop (r : CpuRegs) : Except Exc TWord :=
  match r.rs.items with
  | [] => .error (rsLimit r)
  | w :: _ => .ok w

def CpuRegs.rdrop (r : CpuRegs) : CpuRegs := { r with rs := { r.rs with items := r.rs.items.tail } }

def CpuRegs.pushAll (r : CpuRegs) : List TWord → Except Exc CpuRegs
  | [] => .ok r
  | w :: ws => do (← r.push w).pushAll ws

/-- The top `n` words, the lowest first. -/
def CpuRegs.popN (r : CpuRegs) (n : Nat) : Except Exc (List TWord × CpuRegs) :=
  if r.ds.items.length < n then .error (dsLimit r)
  else .ok ((r.ds.items.take n).reverse, { r with ds := { r.ds with items := r.ds.items.drop n } })

/-- Where the bundle leads; `branch` when leaving a loop's body ends the loop (R257). -/
def goTo (c : Ctx) (a : Nat) (branch : Bool) : Ctx :=
  { c with bundle := c.bundle.map fun b => { b with target := some (a, branch) } }

/-! ## The frame that a return reads (R325, R327) -/

abbrev gret5 : Exc := { cls := Cls.gateCheck, detail := 5, freeAddr := true }

/-- A loop context of a frame (R254): none where word 1 breaks its layout, `some none` where it is inactive. -/
def frameLoop (slot : Nat) (w0 w1 : TWord) : Except Exc (Option LoopCtx) :=
  let n := w1.data.toNat
  let act := fld n 12 1 = 1
  if act ∧ w0.tag ≠ Tag.code then .error tagExc
  else if w1.tag ≠ Tag.int ∨ fld n 48 16 ≠ 0 ∨ fld n 13 19 ≠ 0 ∨ (act ∧ fld n 32 16 = 0) then
    .error { cls := Cls.loopForm, faddr := w0.data.toNat }
  else if act then .ok (some { start := w0.data.toNat, count := fld n 32 16, length := fld n 0 12, slot := slot })
  else .ok none

/-- A stack moved to a position of its area (R327): entries above are dropped, and what lies between the position and the
present entries is entries of the stack again. All of them stand in the area until they move to the core. -/
def moveStack (s : State) (k : Stk) (w : TWord) : Except Exc Stk :=
  let p := w.data.toNat
  let all := fun (k : Stk) => { k with mem := k.items.length }
  if w.tag ≠ Tag.ptr then .error tagExc
  else if p % 8 ≠ 0 ∨ p < k.base ∨ k.atop < p then .error { cls := Cls.stackLimit, faddr := k.base }
  else if k.top ≤ p then .ok { top := p, size := p - k.base, atop := k.atop }
  else if k.pos ≤ p then .ok (all { k with items := k.items.drop ((p - k.pos) / 8) })
  else .ok (all { k with items := (s.rdWords p ((k.pos - p) / 8)) ++ k.items })

/-- What a return restores from the words of a frame (R327): `r` are the registers as they stood, whose stacks bound
DSP and RSP. -/
def restoreFrame (s : State) (acc : Bool) (r : CpuRegs) (fr : List TWord) : Except Exc CpuRegs :=
  let w := fun n => fr.getD n (intW 0)
  if (w 9).tag ≠ Tag.ptr ∨ (w 10).tag ≠ Tag.ptr ∨
      (acc ∧ ((w 12).tag ≠ Tag.ptr ∨ (w 13).tag ≠ Tag.ptr ∨ (w 11).tag = Tag.ret ∨ (w 11).tag = Tag.poison)) then
    .error tagExc
  else do
    let ds ← moveStack s r.ds (w 9)
    let rs ← moveStack s r.rs (w 10)
    let l0 ← frameLoop 0 (w 5) (w 6)
    let l1 ← frameLoop 1 (w 7) (w 8)
    let passes := fun (l : LoopCtx) =>
      match r.loops.find? fun m => m.slot == l.slot && m.start == l.start && m.count == l.count with
      | some m => { l with passes := m.passes }
      | none => l
    let cst := (w 3).data.toNat
    .ok { r with
      mask := BitVec.ofNat 3 (fld cst 13 3)
      z := cst.testBit 0, n := cst.testBit 1, c := cst.testBit 2, v := cst.testBit 3, dc := cst.testBit 4
      hcv := BitVec.ofNat 16 (w 4).data.toNat
      loops := [l0, l1].filterMap (·.map passes)
      ds := ds, rs := rs
      acc := if acc then w 11 else r.acc
      x0 := if acc then w 12 else r.x0
      x1 := if acc then w 13 else r.x1
      resv := none }

/-- The words of a frame that GRET reads, from word `from_` on, at the context's level; in the stack model words 11 to 15
are not read, in the accumulator model words 14 and 15 (R327). -/
def readFrame (s : State) (i : Nat) (level : Fin 3) (acc : Bool) (a from_ : Nat) (up : Upset) : Except Exc (List TWord) :=
  let b := a + 8 * from_
  let n := 8 * ((if acc then 14 else 11) - from_)
  match rangeFault s i level b n .r, unitsFault s b n up with
  | some e, _ => .error e
  | none, some p => .error (unitExc b p)
  | none, none => .ok (s.rdWords a 16)

/-- CST and HCV of a frame are loaded as any word is: POISON there takes POISON (R218). -/
def frameClean (a : Nat) (fr : List TWord) : Except Exc Unit :=
  match [3, 4].find? fun n => (fr.getD n (intW 0)).tag == Tag.poison with
  | some n => .error { cls := Cls.poison, faddr := a + 8 * n }
  | none => .ok ()

/-- R314: at level S with an empty shadow stack, GRET starts user code from a frame. -/
def startUser (s : State) (i : Nat) (c : Ctx) (up : Upset) : Except Exc Ctx := do
  let (p, r) ← if c.acc then .ok (c.r.x0, c.r) else c.r.pop
  if p.tag ≠ Tag.ptr then .error tagExc
  else do
    let a ← addrOf p.data
    let fr ← readFrame s i c.r.level c.acc a 0 up
    frameClean a fr
    let w := fr.getD 0 (intW 0)
    let r ← restoreFrame s c.acc r fr
    if w.tag = Tag.code ∧ w.data.toNat < 2 ^ 40 ∧ (byteDenied s i 0 w.data.toNat .x).isNone then
      .ok (goTo { c with r := { r with level := 0 } } w.data.toNat false)
    else .error gret5

/-- What GRET does (R312-R314, R327, R328). -/
def gretAct (s : State) (k : Nat) (c : Ctx) (up : Upset) : Except Exc Ctx :=
  match c.shadow with
  | .gate ret ds rs level mask x0 x1 resc :: rest =>
    match c.r.rs.items with
    | w :: _ =>
      if w.tag = Tag.ret ∧ w.data.toNat = ret then do
        let (res, _) ← if c.acc then .ok ([], c.r) else c.r.popN resc
        let r := { c.r with ds := ds, rs := rs, level := level, mask := mask
                            x0 := if c.acc then x0 else c.r.x0, x1 := if c.acc then x1 else c.r.x1 }
        .ok (goTo { c with r := (← r.pushAll res), shadow := rest } ret false)
      else .error { cls := Cls.shadow, faddr := w.data.toNat, freeAddr := w.tag != Tag.ret }
    | [] => .error { cls := Cls.shadow, freeAddr := true }
  | .exc resume level fa saved esc :: rest =>
    if esc then .ok (goTo { c with r := { saved with level := level, resv := none }, shadow := rest } resume false)
    else do
      let fr ← readFrame s (k / 64) c.r.level c.acc fa 3 up
      frameClean fa fr
      let r ← restoreFrame s c.acc saved fr
      .ok (goTo { c with r := { r with level := level }, shadow := rest } resume false)
  | .call _ :: _ => .error gret5
  | [] => if c.r.level = 1 then startUser s (k / 64) c up else .error gret5

end Sys2Proof.Machine
end

