-- ==== Sys2Proof/Machine/Exec.lean ====
section
/-! DEFINITION. How a context executes, second part: the bundle as a whole (R232-R234), its memory effects, loops
(R252-R258), and a syllable. -/

namespace Sys2Proof.Machine

/-! ## Memory effects of a bundle -/

/-- A program stores into the part of a stack's area that holds entries: what they are is undefined from then on (R240). -/
def Stk.hole (a : Nat) (k : Stk) : Stk :=
  if k.top - 8 * k.mem ≤ a ∧ a < k.top ∧ a ∉ k.holes then { k with holes := a :: k.holes } else k

/-- The stacks of a context, those of its shadow entries included, after a store into the word at `a`. -/
def Ctx.hole (a : Nat) (c : Ctx) : Ctx :=
  { c with
    r := { c.r with ds := c.r.ds.hole a, rs := c.r.rs.hole a }
    shadow := c.shadow.map fun e =>
      match e with
      | .gate ret ds rs l m x0 x1 n => .gate ret (ds.hole a) (rs.hole a) l m x0 x1 n
      | .exc res l f r esc => .exc res l f { r with ds := r.ds.hole a, rs := r.rs.hole a } esc
      | e => e }

/-- The word that a store of the program writes to. -/
def Pend.word : Pend → Option Nat
  | .store a _ _ => some (a / 8 * 8)
  | .stc a _ => some a
  | .tas a _ => some a
  | _ => none

/-- The context's own stacks after the stores of a syllable. -/
def Ctx.holes (c : Ctx) (ps : List Pend) : Ctx := (ps.filterMap Pend.word).foldl (fun c a => c.hole a) c

/-- The stacks of the other contexts of instance `i` after a store of context `k`. -/
def holeOthers (s : State) (i k a : Nat) : State :=
  s.ctxs.foldl (fun t p =>
    if p.1 / 64 = i ∧ p.1 ≠ k ∧ p.2.hole a ≠ p.2 then t.setCtx p.1 (p.2.hole a) else t) s

/-- Code flash is not written by a store: only by FLOP and the ROM (R226; log entry 19). -/
def storable (a : Nat) : Bool := !(0x20000000 ≤ a && a < 0x28200000)

/-- The bytes of a store. -/
def storeBytes (s : State) (a n : Nat) (w : TWord) : State :=
  if ¬ storable a then s
  else if n = 8 then s.wrWord a w else wrBytes s a ((leBytes 8 w.data.toNat).take n)

/-- Register effects of a load or a store at level K are given to the callers of this file (`regStore`). -/
abbrev RegStore := State → Nat → Word32 → State
/-- What a load of a register by a context does as its bundle commits, with the upper half that it saw and the value that
the bank held (R8, R30). -/
abbrev RegLoaded := State → Nat → Nat → Word32 → Word32 → State

/-- One effect of a bundle, made as it commits. A store breaks the reservations of every other context on the granule,
and the context's own (R277); an STC's own is cleared by the bundle that commits. -/
def applyPend (st : RegStore) (ld : RegLoaded) (k : Nat) (s : State) : Pend → State
  | .store a n w => holeOthers (storeBytes (s.breakResv a n) a n w) (k / 64) k (a / 8 * 8)
  | .regStore a v => st s a v
  | .regRead a hi v => ld s k a hi v
  | .stc a w => holeOthers (storeBytes (s.breakResv a 8) a 8 w) (k / 64) k a
  | .tas a _ => holeOthers (storeBytes (s.breakResv a 8) a 8 (intW 1)) (k / 64) k a
  | .spill a w => (s.breakResv a 8).wrWord a w

/-- Whether a competing write has come between an atomic access of the bundle and its commit (R278, R279). The bundle
then executes anew. -/
def conflict (s : State) (b : Bundle) : Bool :=
  b.pend.any fun p => match p with
    | .stc a _ => b.regs0.resv != some (a / 64)
    | .tas a old => s.rdWord a != old
    | _ => false

/-- The state as the syllables of a bundle see it: with its stores and spills made (R232), under the protection sets of
its beginning (R333). -/
def viewOf (s : State) (b : Bundle) : State :=
  b.pend.foldl (fun s p => match p with
    | .store a n w => storeBytes s a n w
    | .stc a w => storeBytes s a 8 w
    | .tas a _ => storeBytes s a 8 (intW 1)
    | .spill a w => s.wrWord a w
    | _ => s) (b.sets.foldl (fun s p => s.setMpu p.1 p.2) s)

/-- The bundle under way makes an effect on memory when it commits. -/
def addPend (c : Ctx) (ps : List Pend) : Ctx :=
  let c := c.holes ps
  { c with bundle := c.bundle.map fun b => { b with pend := b.pend ++ ps } }

/-! ## Loops -/

/-- The address of the last bundle's first syllable (R252). -/
def LoopCtx.last (l : LoopCtx) : Nat := l.start + 4 * l.length

/-- An address lies in the body: from START to the end of the last bundle. -/
def LoopCtx.holds (s : State) (acc : Bool) (level : Fin 3) (l : LoopCtx) (a : Nat) : Bool :=
  decide (l.start ≤ a ∧ a < bundleEnd s acc level l.last)

/-- The innermost active loop is the last of the list. -/
def inner (r : CpuRegs) : Option LoopCtx := r.loops.getLast?

/-- The next free loop context, LC0 and then LC1 (R253). -/
def freeLoop (r : CpuRegs) : Nat := if r.loops.any (·.slot == 0) then 1 else 0

/-- A bundle begins (R256): it counts in its pass, and the 257th takes LOOP_FORM. -/
def beginPass (s : State) (acc : Bool) (r : CpuRegs) : Except Exc CpuRegs :=
  match inner r with
  | some l =>
    if l.holds s acc r.level r.pc then
      if 256 ≤ l.passes then .error { cls := Cls.loopForm, faddr := l.start }
      else .ok { r with loops := r.loops.dropLast ++ [{ l with passes := l.passes + 1 }] }
    else .ok r
  | none => .ok r

/-- After a last bundle commits (R255): where execution goes on, with the loops left. Two rounds, for two loops that
share a last bundle. -/
def endPass : Nat → CpuRegs → Nat → CpuRegs
  | 0, r, seq => { r with pc := seq }
  | fuel + 1, r, seq =>
    match inner r with
    | some l =>
      if l.last = r.pc then
        if l.count ≤ 1 then endPass fuel { r with loops := r.loops.dropLast } seq
        else { r with loops := r.loops.dropLast ++ [{ l with count := l.count - 1, passes := 0 }], pc := l.start }
      else { r with pc := seq }
    | none => { r with pc := seq }

/-- Execution of a bundle of the body goes on at `e` or beyond: it passes over the last bundle's first syllable without a
bundle starting there (R256). -/
def LoopCtx.passed (l : LoopCtx) (pc e : Nat) : Bool := decide (l.start ≤ pc ∧ pc < l.last ∧ l.last < e)

/-- Where the bundle leads when it commits: the registers with the next pc, or LOOP_FORM where it passes over the last
bundle's address, which a bundle that reaches beyond it does, a branch within the body beyond it, and a loop of no passes
that ends beyond it (R253, R255-R257; log entry 119). -/
def bundleNext (s : State) (acc : Bool) (r : CpuRegs) (b : Bundle) : Except Exc CpuRegs :=
  let seq := r.pc + 4 * b.count
  let form := fun (l : LoopCtx) => (.error { cls := Cls.loopForm, faddr := l.start } : Except Exc CpuRegs)
  match b.target, inner r with
  | some (t, branch), some l =>
    if b.ret then .ok { r with pc := t }
    else if branch ∧ ¬ l.holds s acc r.level t then .ok { r with pc := t, loops := r.loops.dropLast }
    else if l.passed r.pc (if branch then max seq t else seq) then form l
    else .ok { r with pc := t }
  | some (t, _), none => .ok { r with pc := t }
  | none, l =>
    let next : CpuRegs :=
      match b.newLoop with
      | some (0, len) => { r with pc := seq + 4 * len }
      | some (n, len) =>
        { r with pc := seq, loops := r.loops ++ [{ start := seq, count := n, length := len, slot := freeLoop r }] }
      | none => endPass 2 r seq
    let fin :=
      match b.newLoop with
      | some (0, len) => bundleEnd s acc r.level (seq + 4 * len)
      | _ => seq
    match l with
    | some l => if l.passed r.pc fin then form l else .ok next
    | none => .ok next

/-! ## A syllable -/

/-- A context may execute (R335, R351, R63, R111): the keeper while it runs, the contexts of an instance in Running or
Quiescing in Service, and at main loss only to the end of its bundle. -/
def canRun (s : State) (k : Nat) : Bool :=
  let c := s.ctx k
  c.run == .running && c.waiting.isNone && (s.pwr.flush == 0 || c.bundle.isSome) && s.kpr.running &&
    (if k / 64 = 0 then s.mode == Mode.workshop || s.mode == Mode.service
     else s.mode == Mode.service && ((s.inst (k / 64)).state == 2 || (s.inst (k / 64)).state == 3))

/-- A syllable and its extension as code words hold them (R229), and as a frame shows them (R325 word 14). -/
def sylCode (x : Syl) (unit op : Nat) : Nat × Option Nat :=
  (b2n (x.stop && x.ext.isNone) * 2 ^ 31 + unit * 2 ^ 28 + op * 2 ^ 20 + x.operand.toNat,
    x.ext.map fun l => b2n x.stop * 2 ^ 31 + 6 * 2 ^ 28 + l.toNat)

def sylWord (x : Syl) (unit op : Nat) : Word64 :=
  BitVec.ofNat 64 ((sylCode x unit op).1 + 2 ^ 32 * (sylCode x unit op).2.getD 0)

/-- The next syllable of a bundle, with its extension. -/
def Bundle.next (b : Bundle) : Option (Nat × Option Nat) :=
  match b.code.drop b.count with
  | [] => none
  | [w] => some (w, none)
  | w :: e :: _ => some (w, if sylUnit e = 6 then some e else none)

/-- What a syllable does to its context, seeing memory as the bundle has left it. -/
abbrev SylFn := State → Nat → Ctx → Syl → Except Exc Ctx

/-- What an X syllable does beside: the issue it makes as its bundle commits, or none while a WAITT waits (R262). -/
abbrev XFn := State → Nat → Ctx → Syl → Except Exc (Option (Ctx × (State → State)))

/-- The bundle under way of a context, or the next one, fetched whole and decoded (R226-R230) and counted in its pass
(R256). -/
def bundleAt (s : State) (k : Nat) (up : Upset) : Except Fault3 (Ctx × Bundle) :=
  let c := s.ctx k
  match c.bundle with
  | some b => .ok (c, b)
  | none =>
    match decodeAt s (k / 64) c.acc c.r.level up c.r.pc with
    | .error e => .error e
    | .ok ws =>
      match beginPass s c.acc c.r with
      | .error e => .error (e, 0, BitVec.ofNat 64 (ws.headD 0))
      | .ok r =>
        .ok ({ c with r := r, since := if k / 64 = 0 then none else c.since.or (some s.kpr.devtime) },
          { regs0 := c.r, shadow0 := c.shadow, code := ws, sets := [(0, s.mpuSet 0), (k / 64, s.mpuSet (k / 64))] })

/-- What comes before a syllable's own work (R226-R230, R256, R266-R268): the context in the bundle under way, with the
syllable counted in; none where the code word there is not this syllable (log entry 11). -/
def sylReady (s : State) (k unit op : Nat) (x : Syl) (mem : Bool) : Except Fault3 (Option (Ctx × Bundle)) :=
  match bundleAt s k (if mem then .none else x.upset) with
  | .error e => .error e
  | .ok (c, b) =>
    if b.next ≠ some (sylCode x unit op) then .ok none
    else
      match (if unit = 3 then (inner c.r).filter (·.last == c.r.pc) else none) with
      | some l => .error ({ cls := Cls.loopForm, faddr := l.start }, b.count, sylWord x unit op)
      | none =>
        let b := { b with count := b.count + (if x.ext.isSome then 2 else 1) }
        .ok (some ({ c with bundle := some b }, b))

/-- Between bundles: a context that gives up its slice, or stops, has its core time counted (R349), a drain window looks
at a YIELD (R351), and the keeper core takes an escalation that waits (R323). -/
def bundleDone (s : State) (k : Nat) (yields : Bool) : State :=
  let s := if yields ∨ (s.ctx k).run = .stopped then chargeCore s k else s
  let s := if (s.ctx k).yielded then drainCheck s (k / 64) else s
  if k = keeperKey then takeEscalation s else s

/-- A bundle commits (R233, R234) and goes on with the registers `r`: its effects on memory, then, for a loop of no
passes, the decoding of its last bundle (R253). -/
def commitBundle (st : RegStore) (ld : RegLoaded) (s : State) (k core : Nat) (c : Ctx) (b : Bundle) (r : CpuRegs) :
    State :=
  let stop := (s.inst (k / 64)).stopping ∧ r.level ≠ 2 ∧ c.run = .running
  let c' := { c with
    r := r
    bundle := none
    yielded := c.yielded || b.yields
    staging := if stop then [] else c.staging
    run := if stop then .stopped else c.run }
  let s' := b.pend.foldl (applyPend st ld k) (s.setCtx k c')
  let s' := { s' with freeCtr := s'.freeCtr + 1 }
  match b.newLoop with
  | some (0, _) =>
    match decodeAt s' (k / 64) c.acc r.level .none r.pc with
    | .ok ws => bundleDone (s'.setCtx k { s'.ctx k with r := { (s'.ctx k).r with pc := r.pc + 4 * ws.length } }) k b.yields
    | .error (e, slot, w) => takeException s' k core e slot w
  | _ => bundleDone s' k b.yields

/-- The core that a syllable runs on. -/
def coreOf (k : Nat) (x : Syl) : Nat := if k = keeperKey then 12 else x.core.val

/-- The slot of a syllable in its bundle. -/
def slotOf (s : State) (k : Nat) : Nat := (((s.ctx k).bundle.map (·.count)).getD 0) % 8

/-- A syllable that is refused: its exception is taken against its bundle (R233). -/
def sylFails (s : State) (k unit op : Nat) (x : Syl) (e : Exc) : State :=
  takeException s k (coreOf k x) e (slotOf s k) (sylWord x unit op) x.side

/-- The stacks after a syllable's work: the top 8 entries of the data stack and the top 16 of the return stack are on the
core, and no others (R240). What moves out is written as the bundle commits. -/
def settle (s : State) (k : Nat) (c : Ctx) (up : Upset) : Except Exc Ctx :=
  match moveStacks s (k / 64) 8 16 c.acc up c.r with
  | .error e => .error e
  | .ok (ps, r) => .ok { c with r := r, bundle := c.bundle.map fun b => { b with pend := b.pend ++ ps } }

/-- The RET word and the shadow entry that a call pushes at the end of its bundle (R234, R241). -/
def pushCall (c : Ctx) (b : Bundle) : Ctx :=
  let seq := c.r.pc + 4 * b.count
  if b.call then
    { c with
      r := { c.r with rs := { c.r.rs with items := retW (BitVec.ofNat 64 seq) :: c.r.rs.items } }
      shadow := .call seq :: c.shadow }
  else c

/-- The end of a bundle, after its last syllable: the call or the return that it makes (R234), and where it leads. -/
def bundleEnds (s : State) (k : Nat) (x : Syl) (c : Ctx) (b : Bundle) : Except Exc (Ctx × Bundle × CpuRegs) := do
  let v := viewOf s b
  let c ← if b.ret then gretAct v k c .none else .ok (pushCall c b)
  let c ← settle v k c x.side
  let b := c.bundle.getD b
  .ok (c, b, ← bundleNext v c.acc c.r b)

/-- What follows a syllable's own work, which leaves the context `c`: stack entries move; within its bundle nothing more;
at its end the bundle commits and the issue `g` is made, or it executes anew after a competing write (R232-R234, R279). -/
def sylEnds (st : RegStore) (ld : RegLoaded) (s : State) (k unit op : Nat) (x : Syl) (c : Ctx) (g : State → State) : State :=
  match c.bundle with
  | none => s.setCtx k c
  | some b =>
    match settle (viewOf s b) k c x.side with
    | .error e => sylFails s k unit op x e
    | .ok c =>
      let b := c.bundle.getD b
      if ¬ x.stop then s.setCtx k c
      else if conflict s b then s.setCtx k (s.ctx k).undone
      else
        match bundleEnds s k x c b with
        | .error e => sylFails s k unit op x e
        | .ok (c, b, r) => g (commitBundle st ld s k (coreOf k x) c b r)

/-- A data-cache line is written back onto a unit whose old check fails (R591): no bundle is involved. -/
def writeBack (s : State) (x : Syl) : State :=
  match x.writeBack with
  | some a => if rangeOf a = some 1 ∨ rangeOf a = some 6 ∨ rangeOf a = some 7 then unitFails s a 0x0A (some x.i.val) else s
  | none => s

/-- A syllable of a context, whole (R232, R233): nothing where the context does not execute, or where its code word is
another; an exception undoes the bundle. -/
def runX (st : RegStore) (ld : RegLoaded) (s : State) (x : Syl) (unit op : Nat) (mem : Bool) (f : XFn) : State :=
  let k := ctxKey x.i.val x.c.val
  let s := writeBack s x
  if ¬ canRun s k then s
  else
    match sylReady s k unit op x mem with
    | .error (e, slot, w) => takeException s k (coreOf k x) e slot w x.side
    | .ok none => s
    | .ok (some (c, b)) =>
      match f (viewOf s b) k c x with
      | .error e => sylFails s k unit op x e
      | .ok none => chargeCore (s.setCtx k { s.ctx k with waiting := some x }) k
      | .ok (some (c, g)) => sylEnds st ld s k unit op x c g

/-- A syllable of the units A to D. -/
def runSyl (st : RegStore) (ld : RegLoaded) (s : State) (x : Syl) (unit op : Nat) (mem : Bool) (f : SylFn) :
    State :=
  runX st ld s x unit op mem fun s k c x => (f s k c x).map fun c => some (c, id)

end Sys2Proof.Machine
end

