-- ==== Sys2Proof/Machine/Stack.lean ====
section
/-! DEFINITION. The shapes that the syllables of units A and D share: one or two operands in either model (R239, R244,
R247). -/

namespace Sys2Proof.Machine

/-- A result where its model puts it: on the data stack, or in ACC. -/
def deliver (c : Ctx) (r : CpuRegs) (w : TWord) : Except Exc Ctx :=
  if c.acc then .ok { c with r := { r with acc := w } }
  else do .ok { c with r := (← r.push w) }

/-- An operation of two operands, and of one. -/
abbrev Bin := CpuRegs → TWord → TWord → Except Exc (TWord × CpuRegs)
abbrev Un := CpuRegs → TWord → Except Exc (TWord × CpuRegs)

def orTag {α : Type} : Option α → Except Exc α
  | some p => .ok p
  | none => .error tagExc

/-- The memory operand of an accumulator-model syllable caused the TAG_CHECK when some other tag there would have
passed (R319). -/
def blame {α : Type} (f : TWord → Except Exc α) (ea : Option Word64) (b : TWord) (e : Exc) : Exc :=
  match ea with
  | some p =>
    if e.cls = Cls.tagCheck ∧
        ((List.range 16).any fun t => match f ⟨BitVec.ofNat 4 t, b.data⟩ with
          | .error e => e.cls != Cls.tagCheck
          | .ok _ => true) then { e with faddr := p.toNat } else e
  | none => e

/-- Two operands: ( a b -- r ), or ACC and opd. -/
def binary (f : Bin) : SylFn := fun s k c x =>
  if c.acc then do
    let b ← opdVal s (k / 64) c x
    match f c.r c.r.acc b with
    | .ok (w, r) => .ok { c with r := { r with acc := w } }
    | .error e => .error (blame (f c.r c.r.acc) (effAddr c x) b e)
  else if x.operand ≠ 0 then .error (illAt c)
  else do
    let (b, r) ← c.r.pop
    let (a, r) ← r.pop
    let (w, r) ← f r a b
    .ok { c with r := (← r.push w) }

/-- Two operands and no result but flags. -/
def compare2 (f : CpuRegs → TWord → TWord → Except Exc CpuRegs) : SylFn := fun s k c x =>
  if c.acc then do
    let b ← opdVal s (k / 64) c x
    match f c.r c.r.acc b with
    | .ok r => .ok { c with r := r }
    | .error e => .error (blame (f c.r c.r.acc) (effAddr c x) b e)
  else if x.operand ≠ 0 then .error (illAt c)
  else do
    let (b, r) ← c.r.pop
    let (a, r) ← r.pop
    .ok { c with r := (← f r a b) }

/-- One operand: ( a -- r ), or ACC; no use of OPERAND. -/
def unary (f : Un) : SylFn := fun _ _ c x =>
  if x.operand ≠ 0 then .error (illAt c)
  else if c.acc then do
    let (w, r) ← f c.r c.r.acc
    .ok { c with r := { r with acc := w } }
  else do
    let (a, r) ← c.r.pop
    let (w, r) ← f r a
    .ok { c with r := (← r.push w) }

/-- A syllable that only moves words of the data stack. -/
def shuffle (n : Nat) (f : List TWord → List TWord) : SylFn := fun _ _ c x =>
  if x.operand ≠ 0 then .error (illAt c)
  else do
    let (ws, r) ← c.r.popN n
    .ok { c with r := (← r.pushAll (f ws)) }

/-- An immediate operand of the accumulator model: mode 0b11 only. -/
def immOnly (c : Ctx) (x : Syl) : Except Exc Int :=
  if ¬ c.acc then .ok (imm x) else if amode x = 3 then .ok (disp x) else .error (illAt c)

end Sys2Proof.Machine
end

