-- ==== Sys2Proof/Machine/RegStore.lean ====
section
/-! DEFINITION. A store to a device register, whoever makes it: the command that the register stands for, or the
access codes of R7; a load of one; and the commands of the protection block (R328, R333). -/

namespace Sys2Proof.Machine

open Sys2Proof

/-! ## The protection block -/

/-- The set that MPU.ISEL selects. -/
def misel (s : State) : Nat := s.regFld Reg.MPU_ISEL 0 6

/-- A region reaches past the staged end of its instance's DRAM range (R343). -/
def pastStaged (s : State) (i : Nat) (r : Word32 × Word32) : Bool :=
  let base := s.descF i .dramBase
  i != 0 && decide (s.limF i .dramSize < s.descF i .dramSize ∧ rgnBase r < base + 2 ^ 20 * s.descF i .dramSize ∧
    base + 2 ^ 20 * s.limF i .dramSize < rgnBase r + rgnSize r)

/-- A write to MPU.RGNn_HI (R333): the region changes with the latched LO, or the write is ignored. MINLVL 3 is
reserved and keeps its old value (R9). -/
def rgnHi (s : State) (n : Nat) (v : Word32) : State :=
  let i := misel s
  let m := s.mpuSet i
  let old := m.region n
  let lo := sget (fun _ => old.1) m.rgnLo n
  let v := v &&& 0x83703FFF
  let hi := if fld v.toNat 24 2 = 3 then v &&& 0xFCFFFFFF ||| old.2 &&& 0x03000000 else v
  let r := (lo, hi)
  let sz := fld hi.toNat 8 6
  if rgnEn r ∧ (sz < 6 ∨ 32 < sz ∨ rgnBase r % 2 ^ sz ≠ 0 ∨ pastStaged s i r) then
    s.setReg Reg.MPU_STATUS (s.reg Reg.MPU_STATUS ||| 1)
  else s.setMpu i { m with rgn := sset (fun _ => (0, 0)) m.rgn n r, rgnLo := sdel n m.rgnLo }

/-- A write to a register of the protection set shown. -/
def mpuWrite (s : State) (a : Nat) (v : Word32) : State :=
  let i := misel s
  let m := s.mpuSet i
  if a = Reg.MPU_DMAP then s.setMpu i { m with dmap := v &&& 0x00FFFFFF }
  else if a = Reg.MPU_GATE_LO then s.setMpu i { m with gateLoLatch := v &&& 0xFFFFFFC0 }
  else if a = Reg.MPU_GATE_HI then s.setMpu i { m with gateLo := m.gateLoLatch, gateHi := v &&& 0xFF }
  else
    let n := (a - Reg.MPU_RGN_LO) / 8
    if a % 8 = 0 then s.setMpu i { m with rgnLo := sset (fun n => (m.region n).1) m.rgnLo n (v &&& 0xFFFFFFC0) }
    else rgnHi s n v

/-- The registers that `mpuWrite` serves. -/
def isMpuReg (a : Nat) : Bool :=
  a == Reg.MPU_DMAP || a == Reg.MPU_GATE_LO || a == Reg.MPU_GATE_HI ||
    (decide (Reg.MPU_RGN_LO ≤ a ∧ a < Reg.MPU_RGN_LO + 0x80) && a % 4 == 0)

/-- A write to MPU.ESC_CTRL: the keeper resumes a held context, or halts its instance (R328, R334). -/
def escCtrl (s : State) (action i c : Nat) : State :=
  let k := ctxKey i c
  if i = 0 ∨ (s.ctx k).run ≠ .held then s
  else if action = 1 then s.setCtx k { s.ctx k with run := .running }
  else if action = 2 then haltInst s i
  else s

/-! ## Stores -/

/-- The binding registers of ports, with the port's ENABLE (R512). -/
def bindShut (s : State) (a : Nat) : Bool :=
  (decide (Reg.CRD_BIND ≤ a ∧ a < Reg.CRD_BIND + 20) && crdOn s) ||
    (List.range 2).any (fun p => (a == Reg.ISO_BIND + 0x40 * p && isoOn s p) ||
      (a == Reg.CAN_BIND + 0x40 * p && canCtrlBit s p 0)) ||
    (a == Reg.SNS_BIND && s.regFld Reg.SNS_CTRL 0 3 != 0) || (a == Reg.GNS_BIND && s.regFld Reg.GNS_CTRL 0 2 != 0)

/-- A write by the access codes of R7; an address that holds no register takes none (R29). -/
def bankWrite (s : State) (a : Nat) (v : Word32) : State :=
  match regDesc a with
  | some d => s.setReg a (regWritten d (s.reg a) v)
  | none => s

/-- RING.KRANGE (R403): 2 to 4,096 rings, clear of every instance's range. A COUNT that breaks this with the BASE written
is reserved and keeps its value (R9); a BASE that breaks it with the old COUNT too is not taken (log entry 88). -/
def krangeOk (s : State) (v : Word32) : Bool :=
  let b := fld v.toNat 16 12
  let n := fld v.toNat 0 13
  let clash := (List.range 64).any fun i => i != 0 && (s.inst i).state != 0 &&
    decide (b < (ringRange s i).1 + (ringRange s i).2 ∧ (ringRange s i).1 < b + n)
  decide (2 ≤ n ∧ b + n ≤ 4096) && !clash

def krangeWrite (s : State) (v : Word32) : State :=
  let old := s.reg Reg.RING_KRANGE
  match [v, v &&& 0xFFFF0000 ||| old &&& 0xFFFF].find? (krangeOk s) with
  | some w => bankWrite s Reg.RING_KRANGE w
  | none => s

/-- CRD.CTRL: the fields, then ENABLE. -/
def crdCtrl (s : State) (v : Word32) : State :=
  let s := s.setReg Reg.CRD_CTRL ((v &&& 0xE) ||| (s.reg Reg.CRD_CTRL &&& 1))
  if v.getLsbD 0 then crdEnable s [] else if crdOn s then crdDisable s else s

/-- CAN.CTRLc: fields [15:1] only while ENABLE is 0; a clear of ENABLE ends bus-off (R537, R547). -/
def canCtrl (s : State) (c : Nat) (v : Word32) : State :=
  let a := Reg.CAN_CTRL + 0x40 * c
  let old := s.reg a
  let s := bankWrite s a (if old.getLsbD 0 then old &&& 0xFFFFFFFE ||| v &&& 1 else v)
  if v.getLsbD 0 then s else setCan s c { s.canCtl c with tec := 0, recv := 0, busOff := false }

/-- EVF.THRESH (R508). A value of REFRESH that is not below the RETIRE of the same write, or the RETIRE kept, is reserved:
REFRESH then keeps its value, and RETIRE takes effect (R9). -/
def evfThresh (s : State) (v : Word32) : State :=
  let t := bankWrite s Reg.EVF_THRESH v
  if t.regFld Reg.EVF_THRESH 0 8 < t.regFld Reg.EVF_THRESH 8 8 then t
  else t.setReg Reg.EVF_THRESH (t.reg Reg.EVF_THRESH &&& 0xFFFFFF00 ||| s.reg Reg.EVF_THRESH &&& 0xFF)

/-- A store to the device register at `a` (R7, R27). -/
def regStore (s : State) (a : Nat) (v : Word32) : State :=
  let op := fun n => fld v.toNat 0 n
  if a = Reg.KPR_MODE_REQ then modeReq s v
  else if a = Reg.INS_CMD then insCmd s (op 4)
  else if a = Reg.RING_CFG then ringCfg s v
  else if a = Reg.RING_BASE_LO then ringBase s false v
  else if a = Reg.RING_BASE_HI then ringBase s true v
  else if a = Reg.RING_IRQ then ringIrqReg s v
  else if a = Reg.RING_CTRL then ringCtrl s (op 2)
  else if a = Reg.RING_HIF then hifWrite s v
  else if a = Reg.RING_KRANGE then krangeWrite s v
  else if a = Reg.STR_RCPT then
    if s.mode = Mode.personalise ∨ s.mode = Mode.workshop then bankWrite s a v else s
  else if a = Reg.STL_CMD then stlCmd s (op 3)
  else if a = Reg.AIR_CTRL then airCtrl s v
  else if a = Reg.CIP_LANE_EN then (if v &&& 0xFFFF = 0 then s else bankWrite s a v)
  else if a = Reg.PKE_PUB_CMD then pubCmd s (op 2)
  else if a = Reg.KEY_CMD then keyCmd s (op 3)
  else if a = Reg.KEY_ATT_CMD then (if v.getLsbD 0 then attCmd s else s)
  else if a = Reg.CFL_RSADD then rsadd s (op 16)
  else if a = Reg.EVF_THRESH then evfThresh s v
  else if a = Reg.CRD_CTRL then crdCtrl s v
  else if a = Reg.CAN_CTRL then canCtrl s 0 v
  else if a = Reg.CAN_CTRL + 0x40 then canCtrl s 1 v
  else if a = Reg.GNS_TCMD then timeCmd s (op 2)
  else if a = Reg.MPU_ESC_CTRL then escCtrl s (fld v.toNat 30 2) (op 6) (fld v.toNat 8 6)
  else if isMpuReg a then mpuWrite s a v
  else if bindShut s a then s
  else bankWrite s a v

/-! ## Loads -/

/-- What a load of a register does beside delivering its value: an RC field is cleared (R8), and the upper half of a wide
quantity is latched for the agent (R30). -/
def regTouched (s : State) (ag : Nat ⊕ Nat) (a : Nat) (hi added : Word32) : State := rcClear (latchRead s ag a hi) a added

/-- A load by a context, as its bundle commits: the value `v` that it returned is cleared from the field, which keeps what
hardware has added since (R8). -/
def regLoaded (s : State) (k a : Nat) (hi v : Word32) : State :=
  let now := s.reg a
  regTouched s (.inl k) a hi (if v ≤ now then now - v else now)

/-! ## The rows -/

/-- REGISTER_WRITE, by the keeper. -/
def execRegisterWrite (a : Nat) (v : Word32) (s : State) : Host.Outcome State Fault Refusal :=
  done s (s.byKeeper fun s => regStore s a v)

/-- RC_REGISTER_READ (R8): hardware adds `added` in the cycle of the read. -/
def execRcRegisterRead (a : Nat) (added : Word32) (s : State) : Host.Outcome State Fault Refusal :=
  done s (s.byKeeper fun s => rcClear s a added)

/-- The agent of R30. -/
def agentOf : Reader → Nat ⊕ Nat
  | .core i c => .inl (ctxKey i.val c.val)
  | .host p => .inr (ifaceIdx p)

/-- UPPER_HALF_LATCH (R30): an agent reads the lower register of a wide quantity. -/
def execUpperHalfLatch (r : Reader) (a : Nat) (s : State) : Host.Outcome State Fault Refusal :=
  done s (if isLower a then latchRead s (agentOf r) a (regRead s (a + 4)) else s)

/-- MPU_SET_UPDATE (R333). -/
def execMpuSetUpdate (a : Nat) (v : Word32) (s : State) : Host.Outcome State Fault Refusal :=
  done s (s.byKeeper fun s => if isMpuReg a then mpuWrite s a v else s)

/-- ESC_RESUME (R328). -/
def execEscResume (i c : Fin 64) (s : State) : Host.Outcome State Fault Refusal :=
  done s (s.byKeeper fun s => escCtrl s 1 i.val c.val)

/-- ESC_HALT (R328). -/
def execEscHalt (i c : Fin 64) (s : State) : Host.Outcome State Fault Refusal :=
  done s (s.byKeeper fun s => escCtrl s 2 i.val c.val)

/-- BOUNDARY_SCAN_ACCESS: the test-access port answers in Blank only, on TDO, and shows and changes nothing of the device
(R37, R465). Its registers the spec does not give: the bit it answers is free (log entry 110). -/
def execBoundaryScanAccess (_tms _tdi : Bool) (s : State) : Host.Outcome State Fault Refusal :=
  done s (
    if s.mode = Mode.blank then
      { s with outbox := s.outbox ++ [.tdo (Config.pick s.freeCtr % 2 == 1)], freeCtr := s.freeCtr + 1 }
    else s)

/-! ## Syllables with the registers behind their stores and loads -/

/-- A syllable of units A to D. -/
def syl (s : State) (x : Syl) (unit op : Nat) (mem : Bool) (f : SylFn) : State := runSyl regStore regLoaded s x unit op mem f

end Sys2Proof.Machine
end

