-- ==== Sys2Proof/Machine/Tamper.lean ====
section
/-! DEFINITION. The tamper and environment monitors as the outside drives them (15, R548-R564), the supplies and the
thermal governor (16, R574, R583). A raise reaches the device with its measured value, which must meet the source's
raise condition (log entry 127). -/

namespace Sys2Proof.Machine

open Sys2Proof

/-- The arming bit of a source; the VIO_C part of T02 has its own (R592). -/
def armBit (t : Nat) (vioC : Bool) : Nat := if t = 2 ∧ vioC then 24 else t

/-! ## Raise conditions (R548, R550, R592) -/

/-- The set frequency of CORE and of CRYPTO in kHz at a governor step (R583). -/
def coreKhz (step : Nat) : Nat := [1000000, 800000, 600000, 400000].getD step 0
def cryptoKhz (step : Nat) : Nat := [800000, 640000, 480000, 320000].getD step 0

/-- The set data clock of the card bus in kHz (R547). -/
def cardKhz (s : State) : Nat := [26000, 13000, 6500, 1625].getD (s.regFld Reg.CRD_CTRL 2 2) 0

/-- A frequency more than 3 % from the one set. -/
def off3 (f v : Nat) : Bool := decide (100 * v < 97 * f ∨ 103 * f < 100 * v)

/-- The frequencies that are judged on a domain of R550 under its ±3 % window: none where its clock is stopped. The clock
of an absent PCIe reference reads 0. The card clock is the IDENTIFY rate or the one set. -/
def setKhz (s : State) (d v : Nat) : List Nat :=
  let run := s.mode ≠ Mode.standby
  let step := s.regFld Reg.PWR_GOV 0 2
  let isoK := fun p => if s.regBit (Reg.ISO_CTRL + 0x40 * p) 0 then [1000 * s.regFld (Reg.ISO_CTRL + 0x40 * p) 4 3] else []
  match d with
  | 0 => if run then [coreKhz step] else []
  | 1 => [500000]
  | 2 => if run then [cryptoKhz step] else []
  | 3 => [533000]
  | 4 => if run then [400000] else []
  | 5 => if s.regBit Reg.RING_HIF 0 ∧ v ≠ 0 then [100000] else []
  | 8 => if s.regBit Reg.AIR_CTRL 0 then [96000] else []
  | 9 => if s.regBit Reg.CRD_CTRL 0 then [cardKhz s] else []
  | 10 => isoK 0 ++ isoK 1
  | 11 => if s.regBit Reg.CAN_CTRL 0 ∨ s.regBit (Reg.CAN_CTRL + 0x40) 0 then [80000] else []
  | _ => []

/-- Domain `d` at `v` kHz is outside its window (R550). A reference outside its own window is reported as MON, whatever MON
itself measures (domain 14 of the value, recorded as 12). -/
def clockOut (s : State) (d v : Nat) : Bool :=
  if d = 6 then s.regBit Reg.RING_HIF 1 && decide (105000 < v)
  else if d = 7 then s.regBit Reg.RING_HIF 2 && decide (52500 < v)
  else if d = 12 then decide (v < 28800 ∨ 35200 < v)
  else if d = 14 then decide (200 * v < 199 * 38400 ∨ 201 * 38400 < 200 * v)
  else (setKhz s d v).any fun f => off3 f v

/-- The nominal of a supply's class in mV, once it has one (R592). -/
def nominalMv (s : State) (vioC : Bool) : Option Nat :=
  if vioC then s.pwr.viocHi.map fun b => if b then 3000 else 1800
  else s.pwr.viohHi.map fun b => if b then 3300 else 1800

/-- The measured value of a level or an event source meets its raise condition (R548). -/
def raiseHolds (s : State) (t : Nat) (v : Word32) : Bool :=
  let n := v.toNat
  let hi := n / 2 ^ 24
  let dev := (v.setWidth 24).toInt.natAbs
  match t with
  | 0 => decide (6000 < n)
  | 1 => decide (hi ≤ 3 ∧ 80 < dev)
  | 2 => decide (hi ≤ 1) && (nominalMv s (hi == 1)).any fun f => decide (f < 10 * dev)
  | 3 => decide (1000 < n)
  | 4 => if v.getLsbD 31 then s.pwr.low else decide (17000 < n)
  | 5 => clockOut s hi (n % 2 ^ 24)
  | 6 => decide (n ≤ 14 ∧ n ≠ 13)
  | 7 => decide (1600 < v.toInt)
  | 8 => decide (v.toInt < -550)
  | 9 => decide (200 < n)
  | 10 => decide (n < 8)
  | 12 => n == 0
  | 15 => decide (1 ≤ n ∧ n ≤ 3)
  | 23 => decide (50 < n)
  | _ => true

/-- The value that is recorded: the reference reports as MON (R550). -/
def recorded (t : Nat) (v : Word32) : Word32 :=
  if t = 5 ∧ v.toNat / 2 ^ 24 = 14 then v - 0x02000000 else v

/-! ## Raises -/

/-- A level source raises while it is armed, and is armed again only by TAMPER_REARM; a rate source counts (R548). -/
def tamperSource (s : State) (t : Nat) (v : Word32) (who : Option Nat) : State :=
  if ¬ s.tmp.on then s
  else if tKind t = .rate then rateEvent s t who
  else if ¬ raiseHolds s t v then s
  else if tKind t = .event then tamperRaise s t v
  else
    let k := armBit t (decide (2 ^ 24 ≤ v.toNat))
    if s.tmp.armed.getLsbD k then
      tamperRaise { s with tmp := { s.tmp with armed := s.tmp.armed &&& ~~~(BitVec.ofNat 25 (2 ^ k)) } } t (recorded t v)
    else s

def execTamperRaise (t : Fin 24) (v : Word32) (who : Option (Fin 64)) (s : State) : Host.Outcome State Fault Refusal :=
  done s (tamperSource s t.val v (who.map (·.val)))

/-- TAMPER_REARM: the quantity has been back at the re-arm limit for 1 ms. T04 under the capacitance condition waits for
a measurement that passes (R55), and arms first at step 12 of R51 (R563). -/
def execTamperRearm (t : Fin 24) (vioC : Bool) (s : State) : Host.Outcome State Fault Refusal :=
  done s (
    if s.tmp.on ∧ tKind t.val = .level ∧ (t.val ≠ 4 ∨ (s.kpr.brkReady ∧ ¬ s.pwr.low)) then
      { s with tmp := { s.tmp with armed := s.tmp.armed ||| BitVec.ofNat 25 (2 ^ armBit t.val vioC) } }
    else s)

/-- NEAR_MISS (R549). -/
def execNearMiss (t : Fin 24) (s : State) : Host.Outcome State Fault Refusal :=
  done s (
    if s.tmp.on ∧ tKind t.val = .level ∧ (s.tmp.armed.getLsbD t.val ∨ (t.val = 2 ∧ s.tmp.armed.getLsbD 24)) then (s.statInc (0x2C0 + 8 * t.val)).incReg Reg.TMP_NEAR
    else s)

/-- RATE_WINDOW_EXPIRY (R548). -/
def execRateWindowExpiry (t : Fin 24) (s : State) : Host.Outcome State Fault Refusal :=
  done s (
    if tKind t.val = .rate then { s with tmp := { s.tmp with win := sset (fun _ => []) s.tmp.win t.val [] } } else s)

/-- VBAT_MEASUREMENT (R574). -/
def execVbatMeasurement (mv : Word16) (s : State) : Host.Outcome State Fault Refusal :=
  done s (
    if s.pwr.up then
      { s.setReg Reg.PWR_VBAT (mv.setWidth 32) with pwr := { s.pwr with vbatLow := decide (mv.toNat < 2100) } }
    else s)

/-! ## The thermal governor (R551, R583) -/

/-- The step after an evaluation of a highest temperature in 0.1 °C. -/
def govStep (thresh step : Nat) (t : Int) : Nat :=
  let entry := fun (n : Nat) => ((thresh + 10 * (n - 1)) * 10 : Nat)
  if step < 3 ∧ (entry (step + 1) : Int) < t then step + 1
  else if 0 < step ∧ t ≤ (entry step : Int) - 30 then step - 1
  else step

/-- The highest die temperature of the epoch is kept in the frame with 100,000 added. -/
def govern (s : State) (q : Temps) : State :=
  if ¬ s.pwr.up then s
  else
    let hi := max (max q.t0 q.t1) (max q.t2 q.t3)
    let lo := min (min q.t0 q.t1) (min q.t2 q.t3)
    let w := fun (x : Int) => (BitVec.ofInt 16 x).setWidth 32
    let s := (((s.setReg Reg.TMP_TEMP0 (w q.t0)).setReg (Reg.TMP_TEMP0 + 4) (w q.t1)).setReg (Reg.TMP_TEMP0 + 8) (w q.t2)).setReg
      (Reg.TMP_TEMP0 + 12) (w q.t3)
    let s := s.setReg Reg.TMP_GRAD (w (hi - lo))
    let s := (s.statMax 0x88 (hi + 100000).toNat).statMax 0x8C (hi - lo).toNat
    let old := s.regFld Reg.PWR_GOV 0 2
    let new := govStep (s.regFld Reg.PWR_GOV 8 8) old hi
    if new = old then s
    else (s.setReg Reg.PWR_GOV ((s.reg Reg.PWR_GOV &&& 0xFFFFFFFC) ||| BitVec.ofNat 32 new)).incReg Reg.PWR_GOVSTEPS

def execGovernorEvaluation (q : Temps) (s : State) : Host.Outcome State Fault Refusal := done s (govern s q)

end Sys2Proof.Machine
end

