-- ==== Sys2Proof/Machine/UnitA.lean ====
section
/-! DEFINITION. The meanings of the syllables of units A0 and A1 (R269-R272, R242, R246). -/

namespace Sys2Proof.Machine

/-- Whether a syllable's own access, not its fetch, meets an upset: an accumulator-model memory operand. -/
def opdMem (s : State) (x : Syl) : Bool := (s.ctx (ctxKey x.i.val x.c.val)).acc && amode x != 3

def sylA (s : State) (x : Syl) (op : Nat) (f : SylFn) : State := syl s x (if x.a1 then 1 else 0) op (opdMem s x) f

/-- NOP has no operand and no effect. -/
def nopFn : SylFn := fun _ _ c x => if x.operand ≠ 0 then .error (illAt c) else .ok c

def litFn : SylFn := fun _ _ c x => do deliver c c.r (intW (BitVec.ofInt 64 (← immOnly c x)))

/-- ADDI: the word on top and OPERAND (R270). -/
def addiFn : SylFn := fun _ _ c x => do
  let (a, r) ← c.r.pop
  let (w, r) ← orTag (opAddi r a (intW (BitVec.ofInt 64 (imm x))))
  .ok { c with r := (← r.push w) }

/-- DIV and REM: INT operands, and DIV_ZERO for a divisor of 0. -/
def divFn (f : CpuRegs → TWord → TWord → TWord × CpuRegs) : Bin := fun r a b =>
  if ¬ bothInt a b then .error tagExc
  else if b.data = 0 then .error { cls := Cls.divZero }
  else .ok (f r a b)

def notFn : Un := fun r a =>
  if rawOrInt a.tag then
    let w : TWord := ⟨a.tag, ~~~a.data⟩
    .ok (w, r.arith w false false)
  else .error tagExc

def negFn : Un := fun r a =>
  if a.tag = Tag.int then
    let w := intW (-a.data)
    .ok (w, r.arith w (subC 0 a.data) (subV 0 a.data))
  else .error tagExc

/-- TST: Z and N from the data bits; a word without tag INT is no result, and the flags are set all the same. -/
def tstFn : SylFn := fun _ _ c x =>
  if x.operand ≠ 0 then .error (illAt c)
  else if c.acc then .ok { c with r := c.r.zn c.r.acc.data }
  else do
    let (a, _) ← c.r.pop
    .ok { c with r := c.r.zn a.data }

def rpushFn : SylFn := fun _ _ c x =>
  if x.operand ≠ 0 then .error (illAt c)
  else do
    let (w, r) ← c.r.pop
    .ok { c with r := (← r.rput w) }

def rpopFn : SylFn := fun _ _ c x =>
  if x.operand ≠ 0 then .error (illAt c)
  else do
    let w ← c.r.rtop
    if w.tag = Tag.ret then .error tagExc else .ok { c with r := (← c.r.rdrop.push w) }

def rcopyFn : SylFn := fun _ _ c x =>
  if x.operand ≠ 0 then .error (illAt c)
  else do
    let w ← c.r.rtop
    if w.tag = Tag.ret then .error tagExc else .ok { c with r := (← c.r.push w) }

/-- An index register takes only a PTR word (R246). -/
def toIndex (set : CpuRegs → TWord → CpuRegs) (c : Ctx) (w : TWord) (ea : Nat) : Except Exc Ctx :=
  if w.tag = Tag.ptr then .ok { c with r := set c.r w } else .error { cls := Cls.tagCheck, faddr := ea }

def setX0 (r : CpuRegs) (w : TWord) : CpuRegs := { r with x0 := w }
def setX1 (r : CpuRegs) (w : TWord) : CpuRegs := { r with x1 := w }

def taxFn (set : CpuRegs → TWord → CpuRegs) : SylFn := fun _ _ c x =>
  if x.operand ≠ 0 then .error (illAt c) else toIndex set c c.r.acc 0

def txaFn (get : CpuRegs → TWord) : SylFn := fun _ _ c x =>
  if x.operand ≠ 0 then .error (illAt c) else .ok { c with r := { c.r with acc := get c.r } }

def leaFn : SylFn := fun _ _ c x =>
  match effAddr c x with
  | some p => .ok { c with r := { c.r with acc := ptrW p } }
  | none => .error (illAt c)

/-- NOP (R269). -/
def execNop (x : Syl) (s : State) : Host.Outcome State Fault Refusal :=
  done s (sylA s x 0x00 nopFn)

/-- LIT (R269). -/
def execLit (x : Syl) (s : State) : Host.Outcome State Fault Refusal :=
  done s (sylA s x 0x01 litFn)

/-- DUP (R269). -/
def execDup (x : Syl) (s : State) : Host.Outcome State Fault Refusal :=
  done s (sylA s x 0x02 (shuffle 1 fun l => l ++ l))

/-- DROP (R269). -/
def execDrop (x : Syl) (s : State) : Host.Outcome State Fault Refusal :=
  done s (sylA s x 0x03 (shuffle 1 fun _ => []))

/-- SWAP (R269). -/
def execSwap (x : Syl) (s : State) : Host.Outcome State Fault Refusal :=
  done s (sylA s x 0x04 (shuffle 2 fun l => l.reverse))

/-- OVER (R269). -/
def execOver (x : Syl) (s : State) : Host.Outcome State Fault Refusal :=
  done s (sylA s x 0x05 (shuffle 2 fun l => l ++ l.take 1))

/-- ROT (R269). -/
def execRot (x : Syl) (s : State) : Host.Outcome State Fault Refusal :=
  done s (sylA s x 0x06 (shuffle 3 fun l => l.drop 1 ++ l.take 1))

/-- NIP (R269). -/
def execNip (x : Syl) (s : State) : Host.Outcome State Fault Refusal :=
  done s (sylA s x 0x07 (shuffle 2 fun l => l.drop 1))

/-- ADD (R270). -/
def execAdd (x : Syl) (s : State) : Host.Outcome State Fault Refusal :=
  done s (sylA s x 0x08 (binary fun r a b => orTag (opAdd r a b)))

/-- SUB (R270). -/
def execSub (x : Syl) (s : State) : Host.Outcome State Fault Refusal :=
  done s (sylA s x 0x09 (binary fun r a b => orTag (opSub r a b)))

/-- ADDI (R270). -/
def execAddi (x : Syl) (s : State) : Host.Outcome State Fault Refusal :=
  done s (sylA s x 0x0A addiFn)

/-- MUL (R271). -/
def execMul (x : Syl) (s : State) : Host.Outcome State Fault Refusal :=
  done s (sylA s x 0x0B (binary fun r a b => orTag (opMul r a b)))

/-- MULH (R269). -/
def execMulh (x : Syl) (s : State) : Host.Outcome State Fault Refusal :=
  done s (sylA s x 0x0C (binary fun r a b => orTag (opMulh r a b)))

/-- DIV (R269). -/
def execDiv (x : Syl) (s : State) : Host.Outcome State Fault Refusal :=
  done s (sylA s x 0x0D (binary (divFn opDiv)))

/-- REM (R269). -/
def execRem (x : Syl) (s : State) : Host.Outcome State Fault Refusal :=
  done s (sylA s x 0x0E (binary (divFn opRem)))

/-- AND (R269). -/
def execBitAnd (x : Syl) (s : State) : Host.Outcome State Fault Refusal :=
  done s (sylA s x 0x10 (binary fun r a b => orTag (opLogic (· &&& ·) r a b)))

/-- OR (R269). -/
def execBitOr (x : Syl) (s : State) : Host.Outcome State Fault Refusal :=
  done s (sylA s x 0x11 (binary fun r a b => orTag (opLogic (· ||| ·) r a b)))

/-- XOR (R269). -/
def execBitXor (x : Syl) (s : State) : Host.Outcome State Fault Refusal :=
  done s (sylA s x 0x12 (binary fun r a b => orTag (opLogic (· ^^^ ·) r a b)))

/-- NOT (R269). -/
def execBitNot (x : Syl) (s : State) : Host.Outcome State Fault Refusal :=
  done s (sylA s x 0x13 (unary notFn))

/-- SHL (R269). -/
def execShl (x : Syl) (s : State) : Host.Outcome State Fault Refusal :=
  done s (sylA s x 0x14 (binary fun r a b => orTag (opShift .shl r a b)))

/-- SHR (R269). -/
def execShr (x : Syl) (s : State) : Host.Outcome State Fault Refusal :=
  done s (sylA s x 0x15 (binary fun r a b => orTag (opShift .shr r a b)))

/-- SAR (R269). -/
def execSar (x : Syl) (s : State) : Host.Outcome State Fault Refusal :=
  done s (sylA s x 0x16 (binary fun r a b => orTag (opShift .sar r a b)))

/-- NEG (R269). -/
def execNeg (x : Syl) (s : State) : Host.Outcome State Fault Refusal :=
  done s (sylA s x 0x17 (unary negFn))

/-- CMP (R271). -/
def execCmp (x : Syl) (s : State) : Host.Outcome State Fault Refusal :=
  done s (sylA s x 0x18 (compare2 fun r a b => orTag (opCmp r a b)))

/-- TST (R271). -/
def execTst (x : Syl) (s : State) : Host.Outcome State Fault Refusal :=
  done s (sylA s x 0x19 tstFn)

/-- RPUSH (R242). -/
def execRpush (x : Syl) (s : State) : Host.Outcome State Fault Refusal :=
  done s (sylA s x 0x1A rpushFn)

/-- RPOP (R242). -/
def execRpop (x : Syl) (s : State) : Host.Outcome State Fault Refusal :=
  done s (sylA s x 0x1B rpopFn)

/-- RCOPY (R269). -/
def execRcopy (x : Syl) (s : State) : Host.Outcome State Fault Refusal :=
  done s (sylA s x 0x1C rcopyFn)

/-- TAX0 (R246). -/
def execTax0 (x : Syl) (s : State) : Host.Outcome State Fault Refusal :=
  done s (sylA s x 0x20 (taxFn setX0))

/-- TAX1 (R246). -/
def execTax1 (x : Syl) (s : State) : Host.Outcome State Fault Refusal :=
  done s (sylA s x 0x21 (taxFn setX1))

/-- TXA0 (R269). -/
def execTxa0 (x : Syl) (s : State) : Host.Outcome State Fault Refusal :=
  done s (sylA s x 0x22 (txaFn (·.x0)))

/-- TXA1 (R269). -/
def execTxa1 (x : Syl) (s : State) : Host.Outcome State Fault Refusal :=
  done s (sylA s x 0x23 (txaFn (·.x1)))

/-- LEA (R269). -/
def execLea (x : Syl) (s : State) : Host.Outcome State Fault Refusal :=
  done s (sylA s x 0x24 leaFn)

end Sys2Proof.Machine
end

