-- ==== Sys2Proof/Machine/UnitD.lean ====
section
/-! DEFINITION. The meanings of the syllables of unit D: decimal operations, conversions and KHANDLE (R222, R223,
R283-R286). -/

namespace Sys2Proof.Machine

def sylD (s : State) (x : Syl) (op : Nat) (f : SylFn) : State := syl s x 4 op (opdMem s x) f

def bothDec (a b : TWord) : Bool := a.tag == Tag.dec && b.tag == Tag.dec

abbrev decExc : Exc := { cls := Cls.decDigit }

/-- DADD and DSUB (R284). -/
def decSum (f : Int → Int → Int) : Bin := fun r a b =>
  if bothDec a b then .ok (decResult r (f (decVal a.data) (decVal b.data))) else .error tagExc

/-- DMUL10: the digits of d move up by one and u takes the lowest place; the sign is that of d (R283). -/
def dmul10Fn : Bin := fun r d u =>
  if d.tag ≠ Tag.dec ∨ u.tag ≠ Tag.int then .error tagExc
  else if 9 < u.data.toNat then .error decExc
  else
    let m : Int := 10 * decMag d.data + u.data.toNat
    .ok (decResult r (if decNeg d.data then -m else m))

/-- DSHL and DSHR by OPERAND or DISP digits, 0 to 15. -/
def dshFn (left : Bool) : SylFn := fun _ _ c x => do
  let n ← immOnly c x
  if n < 0 ∨ 15 < n then .error (illAt c)
  else if c.acc then
    if c.r.acc.tag ≠ Tag.dec then .error tagExc
    else
      let (w, r) := decShift left c.r c.r.acc.data n.toNat
      .ok { c with r := { r with acc := w } }
  else do
    let (a, r) ← c.r.pop
    if a.tag ≠ Tag.dec then .error tagExc
    else
      let (w, r) := decShift left r a.data n.toNat
      .ok { c with r := (← r.push w) }

def dadjFn : Un := fun r a =>
  if a.tag ≠ Tag.int then .error tagExc
  else
    match opDadj r a.data with
    | some p => .ok p
    | none => .error decExc

def dcmpFn (r : CpuRegs) (a b : TWord) : Except Exc CpuRegs :=
  if bothDec a b then
    let d := decVal a.data - decVal b.data
    .ok { r with z := decide (d = 0), n := decide (d < 0) }
  else .error tagExc

/-- The conversions of R222. -/
def bin2decFn : Un := fun r a =>
  if a.tag ≠ Tag.int then .error tagExc
  else if 10 ^ 15 ≤ a.data.toInt.natAbs then .error decExc
  else .ok (decW (decMake (decide (a.data.toInt < 0)) a.data.toInt.natAbs), r)

def dec2binFn : Un := fun r a =>
  if a.tag ≠ Tag.dec then .error tagExc else .ok (intW (BitVec.ofInt 64 (decVal a.data)), r)

def todecFn : Un := fun r a =>
  if a.tag ≠ Tag.raw then .error tagExc
  else if ¬ decValid a.data then .error decExc
  else .ok (decW (decMake (decNeg a.data) (decMag a.data)), r)

def tointFn : Un := fun r a =>
  if a.tag = Tag.raw ∨ a.tag = Tag.int ∨ a.tag = Tag.time then .ok (intW a.data, r) else .error tagExc

def totimeFn : Un := fun r a =>
  if rawOrInt a.tag then .ok (timeW a.data, r) else .error tagExc

def torawFn : Un := fun r a => if a.tag = Tag.poison then .error tagExc else .ok (rawW a.data, r)

/-- TAGOF keeps the word in the stack model. -/
def tagofFn : SylFn := fun s k c x =>
  if c.acc then do
    let b ← opdVal s (k / 64) c x
    .ok { c with r := { c.r with acc := intW (b.tag.setWidth 64) } }
  else if x.operand ≠ 0 then .error (illAt c)
  else do
    let (w, _) ← c.r.pop
    .ok { c with r := (← c.r.push (intW (w.tag.setWidth 64))) }

/-- KHANDLE: a handle of a slot in the instance's range (R286). -/
def khandleFn : SylFn := fun s k => unary (fun r a =>
  if a.tag ≠ Tag.int then .error tagExc
  else if a.data.toNat < 4096 ∧ keySlotIn s (k / 64) a.data.toNat then
    .ok (⟨Tag.keyh, BitVec.ofNat 64 (k / 64 * 2 ^ 32 + a.data.toNat)⟩, r)
  else .error { cls := Cls.mpu, detail := 7, freeAddr := true }) s k

/-- DADD (R284). -/
def execDadd (x : Syl) (s : State) : Host.Outcome State Fault Refusal :=
  done s (sylD s x 0x00 (binary (decSum (· + ·))))

/-- DSUB (R284). -/
def execDsub (x : Syl) (s : State) : Host.Outcome State Fault Refusal :=
  done s (sylD s x 0x01 (binary (decSum (· - ·))))

/-- DMUL10 (R284). -/
def execDmul10 (x : Syl) (s : State) : Host.Outcome State Fault Refusal :=
  done s (sylD s x 0x02 (binary dmul10Fn))

/-- DSHR (R284). -/
def execDshr (x : Syl) (s : State) : Host.Outcome State Fault Refusal :=
  done s (sylD s x 0x03 (dshFn false))

/-- DSHL (R284). -/
def execDshl (x : Syl) (s : State) : Host.Outcome State Fault Refusal :=
  done s (sylD s x 0x04 (dshFn true))

/-- DADJ (R285). -/
def execDadj (x : Syl) (s : State) : Host.Outcome State Fault Refusal :=
  done s (sylD s x 0x05 (unary dadjFn))

/-- DCMP (R284). -/
def execDcmp (x : Syl) (s : State) : Host.Outcome State Fault Refusal :=
  done s (sylD s x 0x06 (compare2 dcmpFn))

/-- BIN2DEC (R222). -/
def execBin2dec (x : Syl) (s : State) : Host.Outcome State Fault Refusal :=
  done s (sylD s x 0x08 (unary bin2decFn))

/-- DEC2BIN (R222). -/
def execDec2bin (x : Syl) (s : State) : Host.Outcome State Fault Refusal :=
  done s (sylD s x 0x09 (unary dec2binFn))

/-- TODEC (R222). -/
def execTodec (x : Syl) (s : State) : Host.Outcome State Fault Refusal :=
  done s (sylD s x 0x0A (unary todecFn))

/-- TOINT (R222). -/
def execToint (x : Syl) (s : State) : Host.Outcome State Fault Refusal :=
  done s (sylD s x 0x0B (unary tointFn))

/-- TOTIME (R222). -/
def execTotime (x : Syl) (s : State) : Host.Outcome State Fault Refusal :=
  done s (sylD s x 0x0C (unary totimeFn))

/-- TORAW (R222). -/
def execToraw (x : Syl) (s : State) : Host.Outcome State Fault Refusal :=
  done s (sylD s x 0x0D (unary torawFn))

/-- TAGOF (R283). -/
def execTagof (x : Syl) (s : State) : Host.Outcome State Fault Refusal :=
  done s (sylD s x 0x0E tagofFn)

/-- KHANDLE (R286). -/
def execKhandle (x : Syl) (s : State) : Host.Outcome State Fault Refusal :=
  done s (sylD s x 0x10 khandleFn)

end Sys2Proof.Machine
end

