-- ==== Sys2Proof/Machine/UnitM.lean ====
section
/-! DEFINITION. The meanings of the syllables of unit M: loads, stores, atomics, FENCE and REGP (R218-R221,
R273-R279). -/

namespace Sys2Proof.Machine

def sylM (s : State) (x : Syl) (op : Nat) (f : SylFn) : State := syl s x 2 op true f

/-- The address of an M syllable: the PTR popped plus the byte offset, or the effective address (R274, R247). -/
def memAddr (c : Ctx) (x : Syl) : Except Exc (Word64 × CpuRegs) :=
  if c.acc then
    match effAddr c x with
    | some p => .ok (p, c.r)
    | none => .error (illAt c)
  else do
    let (p, r) ← c.r.pop
    if p.tag ≠ Tag.ptr then .error tagExc else .ok (p.data + BitVec.ofInt 64 (imm x), r)

/-- LDW, LDWK, LDA and LDS: a full-word load (R218, R275). `keep` leaves the pointer on the stack. An LDS of a busy
array delivers its status word (R478). -/
def loadFn (keep lds : Bool) : SylFn := fun s k c x => do
  let (p, r) ← memAddr c x
  let w ← loadWord s (k / 64) c.r.level p x.upset lds
  deliver c (if keep then c.r else r) w

/-- LD8, LD16 and LD32 (R220). -/
def loadPartFn (n : Nat) : SylFn := fun s k c x => do
  let (p, r) ← memAddr c x
  let (w, ps) ← loadPart s (k / 64) (k % 64) c.r.level p n x.upset
  deliver (addPend c ps) r w

/-- STW and STWK (R219): ( w p -- ), and the pointer kept. -/
def storeFn (keep : Bool) : SylFn := fun s k c x => do
  let (p, r) ← memAddr c x
  let (w, r') ← r.pop
  let ps ← storeWord s (k / 64) c.r.level p w x.upset
  let r2 ← if keep then r'.push (c.r.ds.items.headD (rawW 0)) else .ok r'
  .ok (addPend { c with r := r2 } ps)

/-- STA, STX0 and STX1: the word of a register. -/
def storeRegFn (get : CpuRegs → TWord) : SylFn := fun s k c x => do
  let (p, _) ← memAddr c x
  .ok (addPend c (← storeWord s (k / 64) c.r.level p (get c.r) x.upset))

/-- ST8, ST16 and ST32 (R220): the low bits of a RAW or INT word. -/
def storePartFn (n : Nat) : SylFn := fun s k c x => do
  let (p, r) ← memAddr c x
  let (v, r) ← r.pop
  if rawOrInt v.tag then .ok (addPend { c with r := r } (← storePart s (k / 64) c.r.level p n v x.upset))
  else .error tagExc

def loadIndexFn (set : CpuRegs → TWord → CpuRegs) : SylFn := fun s k c x => do
  let (p, _) ← memAddr c x
  let w ← loadWord s (k / 64) c.r.level p x.upset
  toIndex set c w p.toNat

/-- Atomics reach tagged SRAM and DRAM only (DETAIL 10 of R320). -/
def atomicAddr (s : State) (i : Nat) (level : Fin 3) (p : Word64) (rt : Right) : Except Exc Nat := do
  let a ← accessCheck s i level p 8 rt
  if rangeOf a = some 1 ∨ rangeOf a = some 6 ∨ rangeOf a = some 7 then .ok a
  else .error { cls := Cls.mpu, detail := 10, faddr := a }

/-- LDR (R276). -/
def ldrFn : SylFn := fun s k c x => do
  let (p, r) ← memAddr c x
  let a ← atomicAddr s (k / 64) c.r.level p .r
  let w ← loadWord s (k / 64) c.r.level p x.upset
  deliver c { r with resv := some (a / 64) } w >>= fun c => .ok { c with r := { c.r with resv := some (a / 64) } }

/-- STC (R276): the store when the reservation holds, and the reservation cleared in any case. -/
def stcFn : SylFn := fun s k c x => do
  let (p, r) ← memAddr c x
  let (w, r) ← if c.acc then .ok (c.r.acc, r) else r.pop
  let a ← atomicAddr s (k / 64) c.r.level p .w
  let ok := decide (c.r.resv = some (a / 64))
  let r := { r with resv := none }
  if ok then oldCheck s a x.upset else .ok ()
  let ps := if ok then [.stc a (if inX s (k / 64) c.r.level a then rawW w.data else w)] else []
  if c.acc then .ok (addPend { c with r := { r with z := !ok } } ps)
  else .ok (addPend { c with r := (← r.push (intW (if ok then 1 else 0))) } ps)

/-- TAS (R278): a RAW or INT word, INT 1 in its place. -/
def tasFn : SylFn := fun s k c x => do
  let (p, r) ← memAddr c x
  let a ← atomicAddr s (k / 64) c.r.level p .rw
  let w ← fetchWord s a x.upset
  if rawOrInt w.tag then
    if c.acc then .ok (addPend { c with r := { r with acc := w, z := w.data == 0 } } [.tas a w])
    else .ok (addPend { c with r := (← r.push w) } [.tas a w])
  else .error { cls := Cls.tagCheck, faddr := a }

/-- FENCE: every earlier store of the context is visible already when it completes (R236). -/
def fenceFn : SylFn := fun _ _ c x => if x.operand ≠ 0 then .error (illAt c) else .ok c

/-- REGP: the base of an enabled region of the set in force, at or below the level (R273). -/
def regpFn : SylFn := fun s k c x =>
  let f := if c.acc then fld x.operand.toNat 0 18 else x.operand.toNat
  if 16 ≤ f ∨ (c.acc ∧ amode x ≠ 3) then .error (illAt c)
  else
    let g := (setFor s (k / 64) c.r.level).region f
    if rgnEn g ∧ rgnMin g ≤ c.r.level.val then deliver c c.r (ptrW (BitVec.ofNat 64 (rgnBase g)))
    else .error { cls := Cls.mpu, detail := 9, freeAddr := true }

/-- LDW (R218). -/
def execLdw (x : Syl) (s : State) : Host.Outcome State Fault Refusal :=
  done s (sylM s x 0x00 (loadFn false false))

/-- LDWK (R273). -/
def execLdwk (x : Syl) (s : State) : Host.Outcome State Fault Refusal :=
  done s (sylM s x 0x01 (loadFn true false))

/-- STW (R219). -/
def execStw (x : Syl) (s : State) : Host.Outcome State Fault Refusal :=
  done s (sylM s x 0x02 (storeFn false))

/-- STWK (R273). -/
def execStwk (x : Syl) (s : State) : Host.Outcome State Fault Refusal :=
  done s (sylM s x 0x03 (storeFn true))

/-- LD8 (R220). -/
def execLd8 (x : Syl) (s : State) : Host.Outcome State Fault Refusal :=
  done s (sylM s x 0x04 (loadPartFn 1))

/-- LD16 (R220). -/
def execLd16 (x : Syl) (s : State) : Host.Outcome State Fault Refusal :=
  done s (sylM s x 0x05 (loadPartFn 2))

/-- LD32 (R220). -/
def execLd32 (x : Syl) (s : State) : Host.Outcome State Fault Refusal :=
  done s (sylM s x 0x06 (loadPartFn 4))

/-- ST8 (R220). -/
def execSt8 (x : Syl) (s : State) : Host.Outcome State Fault Refusal :=
  done s (sylM s x 0x07 (storePartFn 1))

/-- ST16 (R220). -/
def execSt16 (x : Syl) (s : State) : Host.Outcome State Fault Refusal :=
  done s (sylM s x 0x08 (storePartFn 2))

/-- ST32 (R220). -/
def execSt32 (x : Syl) (s : State) : Host.Outcome State Fault Refusal :=
  done s (sylM s x 0x09 (storePartFn 4))

/-- LDS (R275). -/
def execLds (x : Syl) (s : State) : Host.Outcome State Fault Refusal :=
  done s (sylM s x 0x0A (loadFn false true))

/-- LDR (R276). -/
def execLdr (x : Syl) (s : State) : Host.Outcome State Fault Refusal :=
  done s (sylM s x 0x0B ldrFn)

/-- STC (R276). -/
def execStc (x : Syl) (s : State) : Host.Outcome State Fault Refusal :=
  done s (sylM s x 0x0C stcFn)

/-- TAS (R278). -/
def execTas (x : Syl) (s : State) : Host.Outcome State Fault Refusal :=
  done s (sylM s x 0x0D tasFn)

/-- FENCE (R236). -/
def execFence (x : Syl) (s : State) : Host.Outcome State Fault Refusal :=
  done s (sylM s x 0x0E fenceFn)

/-- REGP (R273). -/
def execRegp (x : Syl) (s : State) : Host.Outcome State Fault Refusal :=
  done s (sylM s x 0x0F regpFn)

/-- LDA (R273). -/
def execLda (x : Syl) (s : State) : Host.Outcome State Fault Refusal :=
  done s (sylM s x 0x20 (loadFn false false))

/-- STA (R273). -/
def execSta (x : Syl) (s : State) : Host.Outcome State Fault Refusal :=
  done s (sylM s x 0x21 (storeRegFn (·.acc)))

/-- LDX0 (R246). -/
def execLdx0 (x : Syl) (s : State) : Host.Outcome State Fault Refusal :=
  done s (sylM s x 0x22 (loadIndexFn setX0))

/-- LDX1 (R246). -/
def execLdx1 (x : Syl) (s : State) : Host.Outcome State Fault Refusal :=
  done s (sylM s x 0x23 (loadIndexFn setX1))

/-- STX0 (R273). -/
def execStx0 (x : Syl) (s : State) : Host.Outcome State Fault Refusal :=
  done s (sylM s x 0x24 (storeRegFn (·.x0)))

/-- STX1 (R273). -/
def execStx1 (x : Syl) (s : State) : Host.Outcome State Fault Refusal :=
  done s (sylM s x 0x25 (storeRegFn (·.x1)))

end Sys2Proof.Machine
end

