-- ==== Sys2Proof/Machine/UnitC.lean ====
section
/-! DEFINITION. The meanings of the syllables of unit C: branches, calls and returns, gates, loops and CST (R241,
R252-R257, R280-R282, R310-R317, R327). -/

namespace Sys2Proof.Machine

def sylC (s : State) (x : Syl) (op : Nat) (f : SylFn) : State := syl s x 3 op (opdMem s x) f

/-! ## Branches -/

/-- The target of an offset: counted in syllables from the bundle's first (R280). -/
def target (c : Ctx) (x : Syl) : Except Exc Word64 := do
  let n ← immOnly c x
  .ok (BitVec.ofInt 64 (c.r.pc + 4 * n))

/-- A branch on a condition of the flags. -/
def branchFn (cond : CpuRegs → Bool) : SylFn := fun _ _ c x => do
  let t ← target c x
  .ok (if cond c.r then goTo c t.toNat true else c)

/-- BRZ and BRNZ. -/
def branchPopFn (zero : Bool) : SylFn := fun _ _ c x => do
  let t ← target c x
  let (w, r) ← c.r.pop
  let c := { c with r := r }
  .ok (if (w.data == 0) == zero then goTo c t.toNat true else c)

/-- A call: room for the RET word and for its shadow entry (R239, R316); both are pushed at the end of the bundle,
whose end the RET word names. -/
def callTo (c : Ctx) (a : Nat) : Except Exc Ctx :=
  if ¬ c.r.rs.room 1 then .error (rsLimit c.r)
  else if shadowFree c.shadow < 1 then .error shLimit
  else
    let c := goTo c a false
    .ok { c with bundle := c.bundle.map fun b => { b with call := true } }

def callFn : SylFn := fun _ _ c x => do callTo c (← target c x).toNat

/-- The CODE word that CALLI and JMPI name (R228, R282). -/
def codeOpd (c : Ctx) (x : Syl) : Except Exc (Nat × CpuRegs) :=
  if x.operand ≠ 0 then .error (illAt c)
  else do
    let (w, r) ← if c.acc then .ok (c.r.acc, c.r) else c.r.pop
    if w.tag ≠ Tag.code then .error tagExc else .ok (← addrOf w.data, r)

def calliFn : SylFn := fun _ _ c x => do
  let (a, r) ← codeOpd c x
  callTo { c with r := r } a

def jmpiFn : SylFn := fun _ _ c x => do
  let (a, r) ← codeOpd c x
  .ok (goTo { c with r := r } a true)

/-- RETURN (R282, R317). -/
def retFn : SylFn := fun _ _ c x =>
  if x.operand ≠ 0 then .error (illAt c)
  else do
    let w ← c.r.rtop
    if w.tag ≠ Tag.ret then .error tagExc
    else
      match c.shadow with
      | .call a :: rest =>
        if w.data.toNat = a then .ok (goTo { c with r := c.r.rdrop, shadow := rest } a false)
        else .error { cls := Cls.shadow, detail := 1, faddr := w.data.toNat }
      | _ => .error { cls := Cls.shadow, detail := 2, faddr := w.data.toNat }

def cadrFn : SylFn := fun _ _ c x => do deliver c c.r (codeW (← target c x))

/-! ## Gates -/

/-- Bits of the tag masks that count (R308). -/
def maskTag (m : Nat) (t : Word4) : Bool := (m &&& 0x0DFF).testBit t.toNat

/-- The further checks of R310, order 2, on a descriptor of table `tbl`. -/
def GateDesc.wellFormed (g : GateDesc) (tbl : Nat) : Bool :=
  let pr := fld g.w3 6 6
  let pw := fld g.w3 12 6
  decide (fld g.w3 27 2 = (if tbl = 0 then 2 else 1) ∧ g.argc ≤ 6 ∧ g.resc ≤ 6 ∧ pr &&& pw = 0 ∧ 8 * g.argc ≤ g.dssize) &&
    (List.range 6).all fun j => !(pr.testBit j || pw.testBit j) || decide (j + 1 < g.argc)

/-- A buffer that a PTRR or PTRW argument names (R310, order 5). -/
def gateBuffer (s : State) (i : Nat) (level : Fin 3) (p n : TWord) (rt : Right) : Except Exc Unit :=
  if n.tag ≠ Tag.int then .error { cls := Cls.gateCheck, detail := 4, faddr := p.data.toNat }
  else
    match bufferCheck s i level p.data n.data.toNat rt with
    | .ok _ => .ok ()
    | .error e => .error { cls := Cls.gateCheck, detail := 4, faddr := e.faddr }

def gateBuffers (s : State) (i : Nat) (level : Fin 3) (g : GateDesc) (args : List TWord) : List Nat → Except Exc Unit
  | [] => .ok ()
  | j :: js =>
    let p := args.getD j (rawW 0)
    let n := args.getD (j + 1) (rawW 0)
    if (fld g.w3 6 6).testBit j then do gateBuffer s i level p n .r; gateBuffers s i level g args js
    else if (fld g.w3 12 6).testBit j then do gateBuffer s i level p n .w; gateBuffers s i level g args js
    else gateBuffers s i level g args js

/-- The arguments of a gate in the accumulator model: words at X0, readable at the caller's level. -/
def gateBlock (s : State) (i : Nat) (c : Ctx) (up : Upset) : Nat → Nat → Except Exc (List TWord)
  | 0, _ => .ok []
  | n + 1, j => do
    let w ← loadWord s i c.r.level (c.r.x0.data + BitVec.ofNat 64 (8 * j)) up
    .ok (w :: (← gateBlock s i c up n (j + 1)))

/-- The arguments written to the top of the new data-stack area (R311 step 4), with the target's rights (log entry 118). -/
def gateArgs (s : State) (tbl : Nat) (lv : Fin 3) (top : Nat) (args : List TWord) (up : Upset) : Except Exc (List Pend) :=
  let n := 8 * args.length
  if n = 0 then .ok []
  else
    match rangeFault s tbl lv top n .w, oldUnitsFault s top n up with
    | some e, _ => .error e
    | none, some p => .error (unitExc top p)
    | none, none => .ok (args.mapIdx fun q w => .spill (top + 8 * q) w)

/-- GATE (R310, R311). The caller's stack entries are saved in their areas: only the positions go to the gate entry. -/
def gateFn : SylFn := fun s k c x =>
  let i := k / 64
  let n := x.operand.toNat
  let tbl := if c.r.level = 0 then i else 0
  if 256 ≤ n then .error (illAt c)
  else if c.r.level = 1 ∧ 64 ≤ n then .error { cls := Cls.gateCheck, detail := 1, faddr := gateAddr s tbl n }
  else
    match gateFault s tbl n x.side, readGate s tbl n with
    | some p, _ => .error { cls := Cls.gateCheck, detail := 2, faddr := gateAddr s tbl n, unitHit := some p }
    | none, none => .error { cls := Cls.gateCheck, detail := 2, faddr := gateAddr s tbl n }
    | none, some g =>
      if ¬ g.wellFormed tbl then .error { cls := Cls.gateCheck, detail := 2, faddr := gateAddr s tbl n }
      else do
        let (args, r) ← if c.acc then do .ok (← gateBlock s i c x.upset g.argc 0, c.r) else c.r.popN g.argc
        if (List.range g.argc).any fun j => !maskTag (g.masks.getD j 0) (args.getD j (rawW 0)).tag then
          .error { cls := Cls.gateCheck, detail := 3, faddr := gateAddr s tbl n }
        else do
          gateBuffers s i c.r.level g args (List.range g.argc)
          if shadowFree c.shadow < 4 then .error shLimit
          else do
            let j := stackIndex tbl (k % 64) x.core.val
            let lv : Fin 3 := if tbl = 0 then 2 else 1
            let ret := c.r.pc + 4
            let ds := g.dsArea j
            let rs := { g.rsArea j with items := [retW (BitVec.ofNat 64 ret)] }
            let top := ds.top - 8 * g.argc
            let (ps, r) ← moveStacks s i 0 0 c.acc x.side r
            let qs ← if c.acc then gateArgs s tbl lv top args x.side else .ok []
            let c := addPend (addPend c ps) qs
            .ok (goTo { c with
              shadow := .gate ret r.ds r.rs c.r.level c.r.mask c.r.x0 c.r.x1 g.resc :: c.shadow
              r := { r with
                level := lv
                ds := if c.acc then { ds with top := top, size := ds.size - 8 * g.argc } else { ds with items := args.reverse }
                rs := rs
                x0 := if c.acc then ptrW (BitVec.ofNat 64 top) else r.x0 } } g.entry false)

/-! ## GRET -/

/-- GRET: its checks are made at its slot, and it returns at the end of its bundle (R234, R312-R314). -/
def gretFn : SylFn := fun s k c x =>
  if x.operand ≠ 0 then .error (illAt c)
  else do
    let _ ← gretAct s k c x.upset
    .ok { c with bundle := c.bundle.map fun b => { b with ret := true } }

/-! ## LOOP and CST -/

/-- LOOP (R252, R253, R256). -/
def loopFn : SylFn := fun _ _ c x =>
  let form : Exc := { cls := Cls.loopForm, faddr := c.r.pc }
  let len := fld x.operand.toNat 0 12
  if fld x.operand.toNat 12 8 ≠ 0 ∨ 2 ≤ c.r.loops.length then .error form
  else do
    let (n, r) ← match x.ext with
      | some l => if fld l.toNat 16 12 ≠ 0 then .error form else .ok (fld l.toNat 0 16, c.r)
      | none => do
        let (w, r) ← if c.acc then .ok (c.r.acc, c.r) else c.r.pop
        if w.tag ≠ Tag.int then .error tagExc
        else if 65535 < w.data.toNat then .error form
        else .ok (w.data.toNat, r)
    .ok { c with r := r, bundle := c.bundle.map fun b => { b with newLoop := some (n, len) } }

def getcstFn : SylFn := fun _ k c x =>
  if x.operand ≠ 0 then .error (illAt c) else deliver c c.r (intW (cstWord (k / 64) c c.r))

/-- SETFL and SETMASK: an INT from the stack or opd. -/
def setCst (set : CpuRegs → Nat → CpuRegs) : SylFn := fun s k c x =>
  if c.acc then do
    let w ← opdVal s (k / 64) c x
    if w.tag ≠ Tag.int then .error { cls := Cls.tagCheck, faddr := ((effAddr c x).getD 0).toNat }
    else .ok { c with r := set c.r w.data.toNat }
  else if x.operand ≠ 0 then .error (illAt c)
  else do
    let (w, r) ← c.r.pop
    if w.tag ≠ Tag.int then .error tagExc else .ok { c with r := set r w.data.toNat }

def setFlags (r : CpuRegs) (n : Nat) : CpuRegs :=
  { r with z := n.testBit 0, n := n.testBit 1, c := n.testBit 2, v := n.testBit 3, dc := n.testBit 4 }

def setMask (r : CpuRegs) (n : Nat) : CpuRegs := { r with mask := BitVec.ofNat 3 n }

/-- A level-7 handler runs on the keeper core (R323). -/
def inLevel7 (c : Ctx) : Bool :=
  c.shadow.any fun e => match e with
    | .exc _ _ _ _ esc => esc
    | _ => false

/-- SETMASK. On the keeper core MASK stays 7 within a level-7 handler (R323). -/
def setmaskFn : SylFn := fun s k c x =>
  setCst (if k = keeperKey ∧ inLevel7 c then fun r _ => r else setMask) s k c x

/-- YIELD ends the slice of its context, whose reservation breaks (R277), and counts for a drain window (R351). -/
def yieldFn : SylFn := fun _ _ c x =>
  if x.operand ≠ 0 then .error (illAt c)
  else .ok { c with
    bundle := c.bundle.map fun b => { b with yields := true }
    r := { c.r with resv := none } }

/-- BR (R280). -/
def execBr (x : Syl) (s : State) : Host.Outcome State Fault Refusal :=
  done s (syl s x 3 0x00 false (branchFn (fun _ => true)))

/-- BEQ (R280). -/
def execBeq (x : Syl) (s : State) : Host.Outcome State Fault Refusal :=
  done s (syl s x 3 0x01 false (branchFn (·.z)))

/-- BNE (R280). -/
def execBne (x : Syl) (s : State) : Host.Outcome State Fault Refusal :=
  done s (syl s x 3 0x02 false (branchFn (fun r => !r.z)))

/-- BLT (R280). -/
def execBlt (x : Syl) (s : State) : Host.Outcome State Fault Refusal :=
  done s (syl s x 3 0x03 false (branchFn (fun r => r.n != r.v)))

/-- BGE (R280). -/
def execBge (x : Syl) (s : State) : Host.Outcome State Fault Refusal :=
  done s (syl s x 3 0x04 false (branchFn (fun r => r.n == r.v)))

/-- BLTU (R280). -/
def execBltu (x : Syl) (s : State) : Host.Outcome State Fault Refusal :=
  done s (syl s x 3 0x05 false (branchFn (·.c)))

/-- BGEU (R280). -/
def execBgeu (x : Syl) (s : State) : Host.Outcome State Fault Refusal :=
  done s (syl s x 3 0x06 false (branchFn (fun r => !r.c)))

/-- BDC (R280). -/
def execBdc (x : Syl) (s : State) : Host.Outcome State Fault Refusal :=
  done s (syl s x 3 0x07 false (branchFn (·.dc)))

/-- BRZ (R280). -/
def execBrz (x : Syl) (s : State) : Host.Outcome State Fault Refusal :=
  done s (syl s x 3 0x08 false (branchPopFn true))

/-- BRNZ (R280). -/
def execBrnz (x : Syl) (s : State) : Host.Outcome State Fault Refusal :=
  done s (syl s x 3 0x09 false (branchPopFn false))

/-- CALL (R241). -/
def execCall (x : Syl) (s : State) : Host.Outcome State Fault Refusal :=
  done s (syl s x 3 0x10 false callFn)

/-- CALLI (R282). -/
def execCalli (x : Syl) (s : State) : Host.Outcome State Fault Refusal :=
  done s (syl s x 3 0x11 false calliFn)

/-- JMPI (R282). -/
def execJmpi (x : Syl) (s : State) : Host.Outcome State Fault Refusal :=
  done s (syl s x 3 0x12 false jmpiFn)

/-- RETURN (R317). -/
def execRet (x : Syl) (s : State) : Host.Outcome State Fault Refusal :=
  done s (syl s x 3 0x13 false retFn)

/-- CADR (R280). -/
def execCadr (x : Syl) (s : State) : Host.Outcome State Fault Refusal :=
  done s (syl s x 3 0x14 false cadrFn)

/-- GATE (R310). -/
def execGate (x : Syl) (s : State) : Host.Outcome State Fault Refusal :=
  done s (syl s x 3 0x18 (s.ctx (ctxKey x.i.val x.c.val)).acc gateFn)

/-- GRET (R312). -/
def execGret (x : Syl) (s : State) : Host.Outcome State Fault Refusal :=
  done s (syl s x 3 0x19 true gretFn)

/-- LOOP (R252). -/
def execHwLoop (x : Syl) (s : State) : Host.Outcome State Fault Refusal :=
  done s (syl s x 3 0x1C false loopFn)

/-- GETCST (R280). -/
def execGetcst (x : Syl) (s : State) : Host.Outcome State Fault Refusal :=
  done s (syl s x 3 0x20 false getcstFn)

/-- SETFL (R280). -/
def execSetfl (x : Syl) (s : State) : Host.Outcome State Fault Refusal :=
  done s (sylC s x 0x21 (setCst setFlags))

/-- SETMASK (R280). -/
def execSetmask (x : Syl) (s : State) : Host.Outcome State Fault Refusal :=
  done s (sylC s x 0x22 setmaskFn)

/-- YIELD (R280). -/
def execYield (x : Syl) (s : State) : Host.Outcome State Fault Refusal :=
  done s (syl s x 3 0x23 false yieldFn)

end Sys2Proof.Machine
end

