-- ==== Sys2Proof/Machine/UnitX.lean ====
section
/-! DEFINITION. Unit X: the issue of device operations (R287-R302), WAITT and TESTT (R262-R264, R289, R290), what an engine
does when it completes (R265), and interrupts (R321, R350). -/

namespace Sys2Proof.Machine

open Sys2Proof

/-! ## Arguments (R291, R296-R298, R301, R302) -/

/-- What an argument may be: a word of some tags, INT 0, or either. -/
inductive Arg where
  | tags (l : List Word4)
  | zero
  | orZero (l : List Word4)
  deriving DecidableEq, Repr

def Arg.ok (w : TWord) : Arg → Bool
  | .tags l => decide (w.tag ∈ l)
  | .zero => w == intW 0
  | .orZero l => decide (w.tag ∈ l) || w == intW 0

abbrev aInt : Arg := .tags [Tag.int]
abbrev aPtr : Arg := .tags [Tag.ptr]
abbrev aKey : Arg := .tags [Tag.keyh]
abbrev aSes : Arg := .tags [Tag.sesh]
abbrev aVal : Arg := .tags [Tag.raw, Tag.int]
/-- An argument of a SEL that the operation does not define: the engine reports it. -/
abbrev aAny : Arg := .tags ((List.range 16).map (BitVec.ofNat 4))

/-- The number of arguments and of result words of an operation (R291). -/
def opShape (code : Nat) : Nat × Nat :=
  match code with
  | 0x10 => (3, 0) | 0x11 => (3, 0) | 0x20 => (6, 0) | 0x21 => (6, 0) | 0x28 => (5, 0) | 0x29 => (6, 0) | 0x2A => (5, 0)
  | 0x30 => (3, 8) | 0x38 => (1, 4) | 0x40 => (2, 0) | 0x41 => (4, 1) | 0x42 => (5, 1) | 0x43 => (1, 0) | 0x48 => (4, 0)
  | 0x49 => (0, 2) | 0x50 => (2, 1) | 0x51 => (1, 1) | 0x58 => (3, 0) | 0x60 => (4, 4) | _ => (0, 0)

def agreeSpec (sel : Nat) : List Arg :=
  match sel with
  | 1 => [aKey, aPtr, aInt, .zero, .zero]
  | 2 => [aInt, aPtr, aInt, aPtr, aInt]
  | 3 => [aKey, aPtr, aInt, .zero, .zero]
  | 4 => [.zero, aPtr, aInt, aPtr, aInt]
  | _ => List.replicate 5 aAny

/-- CNEW's, by its key source. -/
def cnewSpec (src : Nat) : List Arg :=
  let a2 : Arg :=
    if src = 0 ∨ src = 3 then .zero else if src = 1 ∨ src = 4 then aKey else if src = 2 then .tags [Tag.stat] else aAny
  [aInt, a2, if src = 2 ∨ src = 4 then aPtr else .zero, .orZero [Tag.ptr], aInt]

def intentSpec (sel : Nat) : List Arg :=
  match sel with
  | 1 => [aInt, aInt, aPtr, aInt]
  | 2 => [aInt, aInt, .zero, .zero]
  | 3 => [aSes, aInt, aVal, aPtr]
  | 4 => [.tags [Tag.keyh, Tag.sesh], .zero, .zero, .zero]
  | 5 => [aInt, .zero, .zero, .zero]
  | 6 => [aInt, aInt, aPtr, aInt]
  | 7 => [aInt, aInt, .zero, .zero]
  | 8 => [aInt, aPtr, aInt, .zero]
  | _ => List.replicate 4 aAny

def flopSpec (sel : Nat) : List Arg :=
  match sel with
  | 1 | 2 => [aInt, aPtr, aInt]
  | 3 | 4 => [aInt, .zero, .zero]
  | 5 => [.zero, .zero, .zero]
  | _ => List.replicate 3 aAny

def airxSpec (sel : Nat) : List Arg :=
  match sel with
  | 1 => [aSes, aVal, .zero, .zero]
  | 2 | 3 => [aVal, .zero, .zero, .zero]
  | 4 => [aInt, .zero, .zero, .zero]
  | 5 => [aInt, aInt, aInt, aPtr]
  | _ => List.replicate 4 aAny

/-- What an operation's arguments may be, by its SEL and its arguments. -/
def argSpec (code sel : Nat) (args : List TWord) : List Arg :=
  match code with
  | 0x10 | 0x11 => [aInt, aPtr, aInt]
  | 0x20 | 0x21 => [.tags [Tag.keyh, Tag.sesh], aPtr, aInt, aInt, aPtr, aInt]
  | 0x28 => [aKey, aPtr, aInt, aPtr, aInt]
  | 0x29 => [.tags [Tag.keyh, Tag.ptr], aInt, aPtr, aInt, aPtr, aInt]
  | 0x2A => agreeSpec sel
  | 0x30 => [aPtr, aInt, aInt]
  | 0x38 => [aPtr]
  | 0x40 => [aSes, aPtr]
  | 0x41 => [aSes, aInt, aVal, aPtr]
  | 0x42 => cnewSpec (args.getD 0 (intW 0)).data.toNat
  | 0x43 => [aSes]
  | 0x48 => intentSpec sel
  | 0x50 => [.orZero [Tag.ptr], aInt]
  | 0x51 => if sel = 0 then [.zero] else if sel = 1 then [.tags [Tag.time]] else [aAny]
  | 0x58 => flopSpec sel
  | 0x60 => airxSpec sel
  | _ => []

/-- Check 3 of R288: the place of the first argument that may not stand, from 1. -/
def argFault (spec : List Arg) (args : List TWord) : Option Nat :=
  ((List.range spec.length).find? fun k => !((spec.getD k aAny).ok (args.getD k (intW 0)))).map (· + 1)

/-! ## What an engine does with a request, when it is issued and when it goes on -/

/-- The stage of an operation. -/
def atStage (s : State) (i t n : Nat) : State :=
  s.setTk i t { s.tk i t with op := match (s.tk i t).op with | .x c v a d _ => .x c v a d n | o => o }

/-- LOOK (R151-R153). It waits for the replay and for the generation's load (R53, R158). -/
def lookTry (s : State) (i t : Nat) (o : Op) (e : EngineEnv) : State :=
  if ¬ s.indigo then s.tkDone i t St.modeRefused
  else if o.sel ≠ 0 then s.tkDone i t St.argInvalid
  else if ¬ s.kpr.replayDone ∨ ¬ s.stlLoaded s.dur.stlActive then s
  else
    match takeSources s (some i) o e.upset e.memUpset with
    | (.error l, s) => srcFault s i t l
    | (.ok ps, s) =>
      let s := s.statInc (instStat i 0x2C)
      match lookNow s (ps.getD 0 ⟨0, []⟩).bytes with
      | (some ws, s) => s.tkDone i t St.ok ws s.dur.stlActive
      | (none, s) => s.tkDone i t St.listMiss [] s.dur.stlActive

/-- CLOAD (R130, R132, R145). -/
def cloadTry (s : State) (i t : Nat) (o : Op) (e : EngineEnv) : State :=
  let h := (o.word 1).data
  if ¬ s.indigo then s.tkDone i t St.modeRefused
  else if o.sel ≠ 0 then s.tkDone i t St.argInvalid
  else if ¬ s.kpr.replayDone then s
  else
    let st := handleCheck s.dur i h
    if st ≠ St.ok then s.tkDone i t st
    else
      match cacheAccess s (hIndex h) with
      | none => s
      | some s =>
        deliverTo (s.statInc (instStat i 0x28)) i t (o.num 2) ⟨256, cloadWords (s.sctx (hIndex h))⟩ e.destUpset 256

/-- CNEW's key (R135): its slot, or the key to wrap. -/
inductive CnewKey where
  | wait
  | fail (st : Word16)
  | got (slot : Option Nat) (key : Option (List Byte))

/-- The AGREE ticket that a word names for CNEW (R297): its index, or why there is none. -/
def agreeTicket (s : State) (i : Nat) (w : Word64) : Option Ticket :=
  let n := w.toNat
  let k := s.tk i (fld n 52 8)
  if fld n 60 4 = 1 ∧ fld n 46 6 = i ∧ k.used ∧ k.serial.toNat = fld n 16 24 ∧ k.op.code = 0x2A then some k else none

/-- The key that CNEW asks for; `busErr`: the slot's value does not reach the key-wrap unit (R448). -/
def cnewKey (s : State) (i t : Nat) (o : Op) (ps : List Payload) (busErr : Bool) : CnewKey × State :=
  let w := (o.word 2).data
  let b := (ps.getD 0 ⟨0, []⟩).bytes
  let slot := fun (kinds : Nat → Bool) => slotCheck s i (kOwner w) (kSlot w) kinds
  match o.num 1 with
  | 0 => (.got none none, s)
  | 1 =>
    let st := slot aeadKind
    if st ≠ St.ok then (.fail st, s) else (.got (some (kSlot w)) none, s)
  | 2 =>
    match (s.tk i t).secret, agreeTicket s i w with
    | some z, _ => (.got none (some (kdf b z [] 32)), s)
    | none, none => (.fail St.intentInvalid, s)
    | none, some k =>
      if ¬ k.done then (.wait, s)
      else
        match k.secret with
        | some z =>
          if k.status = St.ok then (.got none (some (kdf b z [] 32)), dropSecret s i (fld w.toNat 52 8))
          else (.fail St.intentInvalid, s)
        | none => (.fail St.intentInvalid, s)
  | 3 =>
    match rngDraw s 32 with
    | (.ok r, s) => (.got none (some r), s)
    | (.wait, s) => (.wait, s)
    | (.fatal, s) => (.fail St.rngFatal, s)
  | 4 =>
    let st := slot (· == 0x50)
    if st ≠ St.ok then (.fail st, s)
    else if busErr then (.fail St.slotBad, busFailure s)
    else (.got none (some (kdf Config.cnewLabel (s.slot (kSlot w)).v b 32)), s)
  | _ => (.fail St.intentInvalid, s)

/-- CNEW (R134, R135, R143, R297). -/
def cnewTry (s : State) (i t : Nat) (o : Op) (e : EngineEnv) : State :=
  let lim := if o.num 5 = 0 then 28 else o.num 5
  if ¬ s.indigo then s.tkDone i t St.modeRefused
  else if o.sel = 0 ∨ 4 < o.sel ∨ 4 < o.num 1 ∨ lim < 10 ∨ 32 < lim then s.tkDone i t St.intentInvalid
  else if ¬ s.kpr.replayDone ∨ ((o.num 1 = 1 ∨ o.num 1 = 4) ∧ ¬ slotsReady s) then s
  else if s.limF i .sQuota ≤ shgHeld s i ∨ (takeFree s.dur).isNone then s.tkDone i t St.tableFull
  else
    match takeSources s (some i) o e.upset e.memUpset with
    | (.error l, s) => srcFault s i t l
    | (.ok ps, s) =>
      match cnewKey s i t o ps e.busErr with
      | (.wait, s) => s
      | (.fail st, s) => s.tkDone i t st
      | (.got slot key, s) =>
        let cred := if (o.word 4).tag = Tag.ptr then (ps.getD (ps.length - 1) ⟨0, []⟩).bytes else zeros 16
        match cnewTake s { kind := o.sel, owner := i, cred := cred, limlog := lim, slot := slot, key := key } with
        | some (w, s) => s.tkDone i t St.ok [w]
        | none => s.tkDone i t St.tableFull

/-- A request of an instance that commits, issued before another and not yet gone to validation: the later one waits, so
that they reach it in issue order (R109, R299). -/
def commitBefore (s : State) (i t : Nat) : Bool :=
  (List.range 256).any fun u =>
    let k := s.tk i u
    k.used && !k.done && (k.op.code == 0x41 || k.op.code == 0x43 || k.op.code == 0x49) && k.op.stage == 0 &&
      decide (k.no < (s.tk i t).no)

/-- CSTORE (R134). -/
def cstoreTry (s : State) (i t : Nat) (o : Op) (e : EngineEnv) : State :=
  if ¬ s.indigo then s.tkDone i t St.modeRefused
  else if o.sel ≠ 0 then s.tkDone i t St.intentInvalid
  else if ¬ s.kpr.replayDone ∨ o.stage ≠ 0 ∨ commitBefore s i t then s
  else
    match takeSources s (some i) o e.upset e.memUpset with
    | (.error l, s) => srcFault s i t l
    | (.ok ps, s) =>
      commitIssue (atStage s i t 1) i t
        [.ctxUpdate (o.word 1).data (o.word 2).data (o.word 3) (ps.getD 0 ⟨0, []⟩)] .cstore

/-- CFREE (R134, R141). -/
def cfreeTry (s : State) (i t : Nat) (o : Op) : State :=
  if ¬ s.indigo then s.tkDone i t St.modeRefused
  else if o.sel ≠ 0 then s.tkDone i t St.intentInvalid
  else if ¬ s.kpr.replayDone ∨ o.stage ≠ 0 ∨ commitBefore s i t then s
  else commitIssue (atStage s i t 1) i t [.ctxFree (o.word 1).data] .cfree

/-- COMMIT (R299), on the set taken from its context at the issue. -/
def commitTry (s : State) (i t : Nat) (o : Op) : State :=
  let l := (s.tk i t).staged
  if o.sel ≠ 0 then s.tkDone i t St.intentInvalid
  else if ¬ s.kpr.replayDone ∨ o.stage ≠ 0 ∨ commitBefore s i t then s
  else commitIssue ((atStage s i t 1).setTk i t { (atStage s i t 1).tk i t with staged := [] }) i t l .commit

/-- An intent of a kind with its arguments (R298). -/
def intentOf (o : Op) (p : Payload) : Option Intent :=
  let w := fun k => (o.word k).data
  match o.sel with
  | 1 => some (.append (w 1) (w 2) p)
  | 2 => some (.counter (w 1) (w 2))
  | 3 => some (.ctxUpdate (w 1) (w 2) (o.word 3) p)
  | 4 => some (.keyAdvance (o.word 1))
  | 5 => some (.stlSwitch (w 1))
  | 6 => some (.area (w 1) (w 2) p)
  | 7 => some (.pwAttempt (w 1) (w 2))
  | 8 => some (.clearFlag (w 1) p)
  | _ => none

/-- INTENT (R298): staged in the issuing context's set. -/
def intentTry (s : State) (i t : Nat) (o : Op) (e : EngineEnv) : State :=
  let k := (s.tk i t).ctx
  if o.sel = 0 ∨ 8 < o.sel then s.tkDone i t St.argInvalid
  else if 8 ≤ (s.ctx k).staging.length then s.tkDone i t St.intentInvalid
  else
    match takeSources s (some i) o e.upset e.memUpset with
    | (.error l, s) => srcFault s i t l
    | (.ok ps, s) =>
      match intentOf o (ps.getD 0 ⟨0, []⟩) with
      | none => s.tkDone i t St.argInvalid
      | some x =>
        let c := s.ctx k
        (s.setCtx k { c with staging := c.staging ++ [x] }).tkDone i t St.ok [] (c.staging.length + 1)

/-- TIME (R301). -/
def timeTry (s : State) (i t : Nat) (o : Op) : State :=
  if 1 < o.sel then s.tkDone i t St.argInvalid
  else if o.sel = 0 ∨ (o.word 1).data.toNat ≤ s.kpr.devtime.toNat then timeDone s i t
  else s

/-- A request that its engine serves at once, or goes on with once it no longer waits. -/
def opTry (s : State) (i t : Nat) (o : Op) (e : EngineEnv) : State :=
  match o.code with
  | 0x38 => lookTry s i t o e
  | 0x40 => cloadTry s i t o e
  | 0x41 => cstoreTry s i t o e
  | 0x42 => cnewTry s i t o e
  | 0x43 => cfreeTry s i t o
  | 0x48 => intentTry s i t o e
  | 0x49 => commitTry s i t o
  | 0x50 => randTry s i t o e
  | 0x60 => airx s i t o
  | _ => s

/-- What an engine does with a request at its issue. SIGN, VERIFY, AGREE and HASH wait for their units and run until
ENGINE_COMPLETION. -/
def opIssue (s : State) (i t pc : Nat) (h : HostFetch) : State :=
  let o := (s.tk i t).op
  match o.code with
  | 0x10 => qputTry s i t o false
  | 0x11 => qgetTry s i t o h false
  | 0x20 | 0x21 => cipherIssue s i t o
  | 0x50 => let s := randTry s i t o {}; if (s.tk i t).done then s else s.statInc 0x6C
  | 0x51 => timeTry s i t o
  | 0x58 => flopStart s i t (some pc) false
  | 0x28 | 0x29 | 0x2A | 0x30 => arbitrate s
  | _ => if srcBusy s o then s else opTry s i t o {}

/-! ## The issue (R287, R288) -/

/-- SEL as an X syllable of context `k` gives it, for the choice of a row. -/
def rowSel (s : State) (x : Syl) : Nat :=
  let c := s.ctx (ctxKey x.i.val x.c.val)
  if c.acc then
    match effAddr c x with
    | some p =>
      ((match c.bundle with | some b => viewOf s b | none => s).rdWord (p.toNat / 8 * 8)).data.toNat
    | none => 0
  else fld x.operand.toNat 0 16

/-- The words of a parameter block, from word `j` on. -/
def blockWords (s : State) (i : Nat) (level : Fin 3) (p : Word64) (up : Upset) : Nat → Nat → Except Exc (List TWord)
  | 0, _ => .ok []
  | n + 1, j => do
    let w ← loadWord s i level (p + BitVec.ofNat 64 (8 * j)) (if j = 0 then up else .none)
    .ok (w :: (← blockWords s i level p up n (j + 1)))

/-- The rights on `n` words of a block from word `j` on. -/
def blockRights (s : State) (i : Nat) (level : Fin 3) (p : Word64) (rt : Right) : Nat → Nat → Except Exc Unit
  | 0, _ => .ok ()
  | n + 1, j => do
    let _ ← accessCheck s i level (p + BitVec.ofNat 64 (8 * j)) 8 rt
    blockRights s i level p rt n (j + 1)

def buffersOk (s : State) (i : Nat) (level : Fin 3) (rt : Right) : List (Nat × Nat) → Except Exc Unit
  | [] => .ok ()
  | (a, n) :: l => do
    bufferCheck s i level (BitVec.ofNat 64 a) n rt
    buffersOk s i level rt l

/-- Checks 3 and 4 of R288. `sel` is the word that holds SEL in the accumulator model, `a` the block's address. -/
def issueChecks (s : State) (i : Nat) (level : Fin 3) (code sel : Nat) (selWord : TWord) (args : List TWord) (a : Nat) :
    Except Exc Unit := do
  if selWord.tag ≠ Tag.int then throw { cls := Cls.tagCheck, faddr := a }
  match argFault (argSpec code sel args) args with
  | some j => throw { cls := Cls.tagCheck, faddr := if a = 0 then 0 else a + 8 * j }
  | none => pure ()
  buffersOk s i level .r (opSources code sel args)
  buffersOk s i level .w (opDest code sel args)

/-- A free ticket entry of an instance (R259); which of them is open. -/
def freeTicket (s : State) (i : Nat) : Except Exc Nat :=
  let l := (List.range 256).filter fun t => !(s.tk i t).used
  match l with
  | [] => .error { cls := Cls.deviceSync }
  | t :: _ => .ok (l.getD (Config.pick s.freeCtr % l.length) t)

/-- The word of a ticket (R261). -/
def ticketWord (i t : Nat) (serial : BitVec 24) : TWord :=
  statW (BitVec.ofNat 64 (2 ^ 60 + t * 2 ^ 52 + i * 2 ^ 46 + serial.toNat * 2 ^ 16))

/-- The completion word of a ticket (R261). -/
def completionWord (t : Nat) (k : Ticket) : TWord :=
  statW (BitVec.ofNat 64 (t * 2 ^ 52 + k.status.toNat * 2 ^ 32 + k.loc.toNat * 2 ^ 24 + k.value.toNat))

/-- The request goes to its engine, as its bundle commits. -/
def issueNow (s : State) (k t code sel : Nat) (args : List TWord) (block : Option Nat) (pc : Nat) (h : HostFetch) : State :=
  let i := k / 64
  let data := (opSources code sel args).map fun q => s.rdPayload q.1 q.2
  let staged := if code = 0x49 then (s.ctx k).staging else []
  let s := if code = 0x49 then s.setCtx k { s.ctx k with staging := [] } else s
  let s := { s with
    freeCtr := s.freeCtr + 1, units := { s.units with held := s.units.held.filter fun p => p.2 ≠ (i, t) } }
  let s := s.setTk i t {
    serial := (s.tk i t).serial + 1, used := true, nres := (opShape code).2, block := block
    op := .x code sel args data 0, staged := staged, ctx := k, no := s.freeCtr }
  let s := (s.statInc (instStat i 0x10)).statMax (instStat i 0x3C) (ticketsUsed s i)
  if (s.inst i).closed then s.tkDone i t St.instanceQuiescing else opIssue s i t pc h

/-- An X syllable of a device operation. -/
def issueX (code : Nat) (h : HostFetch) : XFn := fun s k c x => do
  let i := k / 64
  let (n, m) := opShape code
  let pc := c.r.pc
  if c.acc then
    match effAddr c x with
    | none => .error (illAt c)
    | some p =>
      let t ← freeTicket s i
      blockRights s i c.r.level p .r (n + m + 1) 0
      blockRights s i c.r.level p .w m (n + 1)
      let ws ← blockWords s i c.r.level p x.upset (n + 1) 0
      let args := ws.drop 1
      let w := ws.getD 0 (rawW 0)
      let sel := w.data.toNat
      issueChecks s i c.r.level code sel w args p.toNat
      let c := { c with r := { c.r with acc := ticketWord i t ((s.tk i t).serial + 1) } }
      .ok (some (c, fun s => issueNow s k t code sel args (some (p.toNat + 8 * (n + 1))) pc h))
  else if fld x.operand.toNat 16 4 ≠ 0 then .error (illAt c)
  else do
    let sel := fld x.operand.toNat 0 16
    let (args, r) ← c.r.popN n
    let t ← freeTicket s i
    let r ← r.push (ticketWord i t ((s.tk i t).serial + 1))
    issueChecks s i c.r.level code sel (intW 0) args 0
    .ok (some ({ c with r := r }, fun s => issueNow s k t code sel args none pc h))

/-- A device operation's row: `mine` are the selectors of the row, `all` those of its code; a syllable of another row's
selector is none of this row's. Issue blocks while Standby is entered (R63). -/
def issueRow (s : State) (x : Syl) (code : Nat) (mine all : List Nat) (h : HostFetch := {}) : State :=
  let c := s.ctx (ctxKey x.i.val x.c.val)
  let sel := rowSel s x
  if sel ∈ all ∧ sel ∉ mine then s
  else if s.kpr.standby ≠ 0 then s
  else runX regStore regLoaded s x 5 code c.acc (issueX code h)

/-! ## WAITT and TESTT -/

/-- The ticket entry that a word names for an instance (R260, R264). -/
def ticketOf (s : State) (i : Nat) (w : TWord) : Except Exc (Nat × Ticket) :=
  let n := w.data.toNat
  let t := fld n 52 8
  let k := s.tk i t
  if w.tag ≠ Tag.stat ∨ fld n 60 4 ≠ 1 then .error tagExc
  else if fld n 46 6 ≠ i ∨ ¬ k.used ∨ k.serial.toNat ≠ fld n 16 24 then .error { cls := Cls.deviceSync }
  else .ok (t, k)

/-- The oldest CNEW of an instance that waits for the secret of a ticket (R297). -/
def secretTaker (s : State) (i t : Nat) : Option Nat :=
  let names := (List.range 256).filter fun u =>
    let k := s.tk i u
    k.used && !k.done && k.op.code == 0x42 && k.op.num 1 == 2 && fld (k.op.num 2) 52 8 == t &&
      fld (k.op.num 2) 16 24 == (s.tk i t).serial.toNat
  names.foldl (fun m u =>
    match m with
    | some v => if (s.tk i u).no < (s.tk i v).no then some u else some v
    | none => some u) none

/-- The completion is collected: its entry is free, and an AGREE's secret is discarded, but for a CNEW issued before
(R259, R296). -/
def collect (i t : Nat) (s : State) : State :=
  let k := s.tk i t
  let s :=
    match k.secret, secretTaker s i t with
    | some z, some u => if k.status = St.ok then s.setTk i u { s.tk i u with secret := some z } else s
    | _, _ => s
  s.setTk i t { serial := k.serial }

/-- The results stored to their block (R289). -/
def blockStores (s : State) (i : Nat) (level : Fin 3) (up : Upset) : Nat → List TWord → Except Exc (List Pend)
  | _, [] => .ok []
  | a, w :: ws => do
    let p ← storeWord s i level (BitVec.ofNat 64 a) w up
    .ok (p ++ (← blockStores s i level .none (a + 8) ws))

/-- WAITT (R262, R289, R290). -/
def waittX : XFn := fun s k c x =>
  let i := k / 64
  if x.operand ≠ 0 then .error (illAt c)
  else if c.acc then do
    let (t, e) ← ticketOf s i c.r.acc
    if ¬ e.done then .ok none
    else do
      let ps ← match e.block with
        | some a => blockStores s i c.r.level x.upset a e.results
        | none => pure []
      let c := addPend c ps
      .ok (some ({ c with r := { c.r with acc := completionWord t e } }, collect i t))
  else do
    let (w, r) ← c.r.pop
    let (t, e) ← ticketOf s i w
    if ¬ e.done then .ok none
    else do
      let r ← r.pushAll (e.results ++ [completionWord t e])
      .ok (some ({ c with r := r }, collect i t))

/-- TESTT (R263). -/
def testtFn : SylFn := fun s k c x =>
  let i := k / 64
  if x.operand ≠ 0 then .error (illAt c)
  else if c.acc then do
    let (_, e) ← ticketOf s i c.r.acc
    .ok { c with r := { c.r with z := !e.done } }
  else do
    let (w, _) ← c.r.pop
    let (_, e) ← ticketOf s i w
    .ok { c with r := (← c.r.push (intW (BitVec.ofNat 64 (b2n e.done)))) }

/-- WAITT. -/
def waitt (s : State) (x : Syl) : State :=
  runX regStore regLoaded s x 5 0x00 (s.ctx (ctxKey x.i.val x.c.val)).acc waittX

def execWaitt (x : Syl) (s : State) : Host.Outcome State Fault Refusal := done s (waitt s x)

/-- TESTT. -/
def execTestt (x : Syl) (s : State) : Host.Outcome State Fault Refusal := done s (syl s x 5 0x01 false testtFn)

/-- WAITT_RESUME (R262): a WAITT that waits executes again once its ticket is complete. -/
def execWaittResume (i c : Fin 64) (s : State) : Host.Outcome State Fault Refusal :=
  done s (
    let k := ctxKey i.val c.val
    match (s.ctx k).waiting with
    | some x => if (s.ctx k).run = .running then waitt (s.setCtx k { s.ctx k with waiting := none }) x else s
    | none => s)

/-! ## Completion -/

/-- An engine ends a request that holds the units it needs (R417, R425), or goes on with one that waited. -/
def engineStep (s : State) (i t : Nat) (e : EngineEnv) : State :=
  let k := s.tk i t
  let o := k.op
  if ¬ k.used ∨ k.done ∨ s.pwr.flush ≠ 0 ∨ srcBusy s o ∨ ¬ granted s i t then s
  else
    match o.code with
    | 0x10 | 0x11 | 0x51 => s
    | 0x20 | 0x21 =>
      match s.cip.lanes.find? fun p => p.2.inst == i && p.2.ticket == t with
      | some (n, l) => laneDone s n l e
      | none => s
    | 0x28 => signDone s i t o e
    | 0x29 => verifyDone s i t o e
    | 0x2A => agreeDone s i t o e
    | 0x30 => hashDone s i t o e
    | 0x58 => if o.stage = 0 then flopStart s i t none e.upset else s
    | _ => opTry s i t o e

/-- ENGINE_COMPLETION: units that have become free are granted before it and after it. -/
def engineCompletion (s : State) (i t : Nat) (e : EngineEnv) : State := arbitrate (engineStep (arbitrate s) i t e)

def execEngineCompletion (i : Fin 64) (t : Byte) (e : EngineEnv) (s : State) : Host.Outcome State Fault Refusal :=
  done s (engineCompletion s i.val t.toNat e)

/-- TIME_WAIT_REACHED (R301). -/
def execTimeWaitReached (i : Fin 64) (t : Byte) (s : State) : Host.Outcome State Fault Refusal :=
  done s (
    let k := s.tk i.val t.toNat
    if k.used ∧ ¬ k.done ∧ k.op.code = 0x51 then timeTry s i.val t.toNat k.op else s)

/-! ## The operations' rows -/

/-- QPUT (R293). -/
def execQput (x : Syl) (s : State) : Host.Outcome State Fault Refusal := done s (issueRow s x 0x10 [] [])
/-- QGET (R293), with what a read of host memory answers. -/
def execQget (x : Syl) (h : HostFetch) (s : State) : Host.Outcome State Fault Refusal := done s (issueRow s x 0x11 [] [] h)
/-- SEAL (R294, R407). -/
def execSealAead (x : Syl) (s : State) : Host.Outcome State Fault Refusal := done s (issueRow s x 0x20 [] [])
/-- OPEN (R294, R414). -/
def execOpenAead (x : Syl) (s : State) : Host.Outcome State Fault Refusal := done s (issueRow s x 0x21 [] [])
/-- SIGN (R295, R422). -/
def execSign (x : Syl) (s : State) : Host.Outcome State Fault Refusal := done s (issueRow s x 0x28 [] [])
/-- VERIFY (R295, R419). -/
def execVerify (x : Syl) (s : State) : Host.Outcome State Fault Refusal := done s (issueRow s x 0x29 [] [])
/-- AGREE (R296). -/
def execAgreeEcdhSlot (x : Syl) (s : State) : Host.Outcome State Fault Refusal := done s (issueRow s x 0x2A [1] [1, 2, 3, 4])
def execAgreeEcdhEphemeral (x : Syl) (s : State) : Host.Outcome State Fault Refusal :=
  done s (issueRow s x 0x2A [2] [1, 2, 3, 4])
def execAgreeMlkemDecapsulate (x : Syl) (s : State) : Host.Outcome State Fault Refusal :=
  done s (issueRow s x 0x2A [3] [1, 2, 3, 4])
def execAgreeMlkemEncapsulate (x : Syl) (s : State) : Host.Outcome State Fault Refusal :=
  done s (issueRow s x 0x2A [4] [1, 2, 3, 4])
/-- HASH (R300, R425). -/
def execHash (x : Syl) (s : State) : Host.Outcome State Fault Refusal := done s (issueRow s x 0x30 [] [])
/-- LOOK (R151). -/
def execLook (x : Syl) (s : State) : Host.Outcome State Fault Refusal := done s (issueRow s x 0x38 [] [])
/-- CLOAD (R132). -/
def execCload (x : Syl) (s : State) : Host.Outcome State Fault Refusal := done s (issueRow s x 0x40 [] [])
/-- CSTORE (R134). -/
def execCstore (x : Syl) (s : State) : Host.Outcome State Fault Refusal := done s (issueRow s x 0x41 [] [])
/-- CNEW (R135). -/
def execCnew (x : Syl) (s : State) : Host.Outcome State Fault Refusal := done s (issueRow s x 0x42 [] [])
/-- CFREE (R141). -/
def execCfree (x : Syl) (s : State) : Host.Outcome State Fault Refusal := done s (issueRow s x 0x43 [] [])
/-- INTENT (R298). -/
def execIntent (x : Syl) (s : State) : Host.Outcome State Fault Refusal := done s (issueRow s x 0x48 [] [])
/-- COMMIT (R299). -/
def execCommit (x : Syl) (s : State) : Host.Outcome State Fault Refusal := done s (issueRow s x 0x49 [] [])
/-- RAND (R460). -/
def execRand (x : Syl) (s : State) : Host.Outcome State Fault Refusal := done s (issueRow s x 0x50 [] [])
/-- TIME with SEL 0 (R291). -/
def execTimeRead (x : Syl) (s : State) : Host.Outcome State Fault Refusal := done s (issueRow s x 0x51 [0] [0, 1])
/-- TIME with SEL 1 (R301). -/
def execTimeWait (x : Syl) (s : State) : Host.Outcome State Fault Refusal := done s (issueRow s x 0x51 [1] [0, 1])
/-- FLOP (R301, R481). -/
def execFlopProgramCode (x : Syl) (s : State) : Host.Outcome State Fault Refusal :=
  done s (issueRow s x 0x58 [1] [1, 2, 3, 4, 5])
def execFlopProgramData (x : Syl) (s : State) : Host.Outcome State Fault Refusal :=
  done s (issueRow s x 0x58 [2] [1, 2, 3, 4, 5])
def execFlopErase (x : Syl) (s : State) : Host.Outcome State Fault Refusal := done s (issueRow s x 0x58 [3] [1, 2, 3, 4, 5])
def execFlopMarginRead (x : Syl) (s : State) : Host.Outcome State Fault Refusal :=
  done s (issueRow s x 0x58 [4] [1, 2, 3, 4, 5])
def execFlopBootSwap (x : Syl) (s : State) : Host.Outcome State Fault Refusal :=
  done s (issueRow s x 0x58 [5] [1, 2, 3, 4, 5])
/-- AIRX (R302). -/
def execAirBind (x : Syl) (s : State) : Host.Outcome State Fault Refusal := done s (issueRow s x 0x60 [1] [1, 2, 3, 4, 5])
def execAirUnbind (x : Syl) (s : State) : Host.Outcome State Fault Refusal := done s (issueRow s x 0x60 [2] [1, 2, 3, 4, 5])
def execAirLink (x : Syl) (s : State) : Host.Outcome State Fault Refusal := done s (issueRow s x 0x60 [3] [1, 2, 3, 4, 5])
def execAirInventory (x : Syl) (s : State) : Host.Outcome State Fault Refusal := done s (issueRow s x 0x60 [4] [1, 2, 3, 4, 5])
def execArearead (x : Syl) (s : State) : Host.Outcome State Fault Refusal := done s (issueRow s x 0x60 [5] [1, 2, 3, 4, 5])

/-! ## Interrupts (R306, R321, R350, R398) -/

/-- The level of a pending source at an instance; 0: disabled. -/
def irqLevel (s : State) (i src : Nat) : Nat :=
  let ringLvl := s.descF i .ringLvl
  if i = 0 ∧ src = 5 then 6
  else if src < 16 then (let l := fld (s.descF i .irqLvl) (4 * src) 4; if 6 < l then 0 else l)
  else
    let d := fld (s.ring ((ringRange s i).1 + (src - 16))).irq.toNat 0 3
    if d = 7 then (if 6 < ringLvl then 0 else ringLvl) else d

/-- The pending source that is taken: of the highest level, the next round-robin by number (R321, R17). -/
def irqNext (s : State) (i : Nat) : Option (Nat × Nat) :=
  let x := s.inst i
  let top := (x.irq.map (irqLevel s i)).foldl max 0
  let at_ := x.irq.filter fun n => irqLevel s i n == top
  let later := at_.filter fun n => decide (x.irqPtr ≤ n)
  let least := fun (l : List Nat) => l.foldl (fun m n => match m with | some a => some (min a n) | none => some n) (none : Option Nat)
  if top = 0 then none
  else (match least later with | some n => some n | none => least at_).map fun n => (n, top)

/-- A context takes interrupts of its instance now: it runs, it is between bundles or its WAITT waits (R235), its MASK is
below the level, and it is not in keeper-gate code (R306). -/
def takesIrq (s : State) (k level : Nat) : Bool :=
  let c := s.ctx k
  s.pwr.flush == 0 && canRun (s.setCtx k { c with waiting := none }) k && (c.bundle.isNone || c.waiting.isSome) &&
    decide (c.r.mask.toNat < level) && (k / 64 == 0 || c.r.level != 2)

/-- INTERRUPT_TAKEN: the highest pending source is taken by the context that is next round-robin. -/
def interruptTaken (s : State) (i c core : Nat) : State :=
  let x := s.inst i
  let k := ctxKey i c
  match irqNext s i with
  | none => s
  | some (src, level) =>
    if ((List.range 64).map fun n => (x.ctxPtr + n) % 64).find? (fun n => takesIrq s (ctxKey i n) level) ≠ some c then s
    else
      let core := if k = keeperKey then 12 else core
      let y := (s.ctx k).undone
      let s := s.setInst i { x with irq := x.irq.filter (· ≠ src), irqPtr := src + 1, ctxPtr := (c + 1) % 64 }
      let tbl := if y.r.level = 2 then 0 else i
      let fr := frameWords i c core y (causeWord src 0 0 0 y.r.level.val level Cls.interrupt) 0 0
      delivered s k core { cls := Cls.interrupt } 0 0 (enterHandler s tbl k core y fr level false .none)

def execInterruptTaken (i c : Fin 64) (core : Fin 13) (s : State) : Host.Outcome State Fault Refusal :=
  done s (interruptTaken s i.val c.val core.val)

end Sys2Proof.Machine
end

