-- ==== Sys2Proof/Machine/Dispatch.lean ====
section
/-! DEFINITION. The meaning of each command: one arm per constructor of `Instr`. -/

namespace Sys2Proof.Machine

def exec (i : Instr) (s : State) : Host.Outcome State Fault Refusal :=
  match i with
  | .registerWrite reg v => Sys2Proof.Machine.execRegisterWrite reg v s
  | .rcRegisterRead reg added => Sys2Proof.Machine.execRcRegisterRead reg added s
  | .upperHalfLatch a reg => Sys2Proof.Machine.execUpperHalfLatch a reg s
  | .powerOn vmainRise vholdMv loopOk meshOk => Sys2Proof.Machine.execPowerOn vmainRise vholdMv loopOk meshOk s
  | .resetNLow ns => Sys2Proof.Machine.execResetNLow ns s
  | .replayComplete => Sys2Proof.Machine.execReplayComplete s
  | .shingleRebuildComplete => Sys2Proof.Machine.execShingleRebuildComplete s
  | .stlGenerationLoaded g => Sys2Proof.Machine.execStlGenerationLoaded g s
  | .keySlotLoad bad busErr => Sys2Proof.Machine.execKeySlotLoad bad busErr s
  | .vholdCharged => Sys2Proof.Machine.execVholdCharged s
  | .vholdChargeTimeout => Sys2Proof.Machine.execVholdChargeTimeout s
  | .brkMeasure => Sys2Proof.Machine.execBrkMeasure s
  | .capacitanceMeasurementStart => Sys2Proof.Machine.execCapacitanceMeasurementStart s
  | .capacitanceMeasured cycles => Sys2Proof.Machine.execCapacitanceMeasured cycles s
  | .startupRecordsCommit => Sys2Proof.Machine.execStartupRecordsCommit s
  | .foldShadows => Sys2Proof.Machine.execFoldShadows s
  | .heldDoorbellRelease => Sys2Proof.Machine.execHeldDoorbellRelease s
  | .modeReqWorkshop => Sys2Proof.Machine.execModeReqWorkshop s
  | .modeReqService => Sys2Proof.Machine.execModeReqService s
  | .modeReqStandby => Sys2Proof.Machine.execModeReqStandby s
  | .modeReqDecommission => Sys2Proof.Machine.execModeReqDecommission s
  | .modeReqRefused target => Sys2Proof.Machine.execModeReqRefused target s
  | .deviceResetRequest => Sys2Proof.Machine.execDeviceResetRequest s
  | .decisionSecondEvaluation second => Sys2Proof.Machine.execDecisionSecondEvaluation second s
  | .decisionDeferredStart => Sys2Proof.Machine.execDecisionDeferredStart s
  | .workshopInactivityExpiry => Sys2Proof.Machine.execWorkshopInactivityExpiry s
  | .credentialWithdrawal => Sys2Proof.Machine.execCredentialWithdrawal s
  | .standbyDrainEnd => Sys2Proof.Machine.execStandbyDrainEnd s
  | .standbyStripsSigned => Sys2Proof.Machine.execStandbyStripsSigned s
  | .wakeEvent src => Sys2Proof.Machine.execWakeEvent src s
  | .persoBegin req => Sys2Proof.Machine.execPersoBegin req s
  | .persoTagid req => Sys2Proof.Machine.execPersoTagid req s
  | .persoKeygen req => Sys2Proof.Machine.execPersoKeygen req s
  | .persoCert req => Sys2Proof.Machine.execPersoCert req s
  | .persoImage req r => Sys2Proof.Machine.execPersoImage req r s
  | .persoClose req => Sys2Proof.Machine.execPersoClose req s
  | .readEvidence req => Sys2Proof.Machine.execReadEvidence req s
  | .attest req => Sys2Proof.Machine.execAttest req s
  | .imageWrite req r => Sys2Proof.Machine.execImageWrite req r s
  | .imageSwap req => Sys2Proof.Machine.execImageSwap req s
  | .recoveryExit req => Sys2Proof.Machine.execRecoveryExit req s
  | .nonce req => Sys2Proof.Machine.execNonce req s
  | .svcCodeUnknown code => Sys2Proof.Machine.execSvcCodeUnknown code s
  | .commit x => Sys2Proof.Machine.execCommit x s
  | .commitAdmission => Sys2Proof.Machine.execCommitAdmission s
  | .commitAdmissionTimeout id => Sys2Proof.Machine.execCommitAdmissionTimeout id s
  | .commitMark count markUj intentUj => Sys2Proof.Machine.execCommitMark count markUj intentUj s
  | .commitApply => Sys2Proof.Machine.execCommitApply s
  | .appliedMark => Sys2Proof.Machine.execAppliedMark s
  | .journalProgramFailure marks number => Sys2Proof.Machine.execJournalProgramFailure marks number s
  | .mainLoss => Sys2Proof.Machine.execMainLoss s
  | .shortDip => Sys2Proof.Machine.execShortDip s
  | .flushMarksWritten => Sys2Proof.Machine.execFlushMarksWritten s
  | .deviceStop => Sys2Proof.Machine.execDeviceStop s
  | .stripIdleClose vol => Sys2Proof.Machine.execStripIdleClose vol s
  | .stripSigned vol ok => Sys2Proof.Machine.execStripSigned vol ok s
  | .bandSeal vol => Sys2Proof.Machine.execBandSeal vol s
  | .readRecords q => Sys2Proof.Machine.execReadRecords q s
  | .readTrailer q => Sys2Proof.Machine.execReadTrailer q s
  | .readSeal q => Sys2Proof.Machine.execReadSeal q s
  | .readCounter q => Sys2Proof.Machine.execReadCounter q s
  | .readVolumeState q => Sys2Proof.Machine.execReadVolumeState q s
  | .cload x => Sys2Proof.Machine.execCload x s
  | .cstore x => Sys2Proof.Machine.execCstore x s
  | .cnew x => Sys2Proof.Machine.execCnew x s
  | .cfree x => Sys2Proof.Machine.execCfree x s
  | .look x => Sys2Proof.Machine.execLook x s
  | .stlInsert => Sys2Proof.Machine.execStlInsert s
  | .stlDelete => Sys2Proof.Machine.execStlDelete s
  | .stlClear => Sys2Proof.Machine.execStlClear s
  | .stlSetSalt => Sys2Proof.Machine.execStlSetSalt s
  | .stlPersist => Sys2Proof.Machine.execStlPersist s
  | .stlEditComplete => Sys2Proof.Machine.execStlEditComplete s
  | .stlGenerationRelease => Sys2Proof.Machine.execStlGenerationRelease s
  | .airWake f => Sys2Proof.Machine.execAirWake f s
  | .airIdent f => Sys2Proof.Machine.execAirIdent f s
  | .airSelect f => Sys2Proof.Machine.execAirSelect f s
  | .airDeselect f => Sys2Proof.Machine.execAirDeselect f s
  | .airHalt f => Sys2Proof.Machine.execAirHalt f s
  | .getResult f => Sys2Proof.Machine.execGetResult f s
  | .airPing f => Sys2Proof.Machine.execAirPing f s
  | .airRead f => Sys2Proof.Machine.execAirRead f s
  | .airWrite f => Sys2Proof.Machine.execAirWrite f s
  | .airPwd f => Sys2Proof.Machine.execAirPwd f s
  | .airApp f => Sys2Proof.Machine.execAirApp f s
  | .unknownCommand f => Sys2Proof.Machine.execUnknownCommand f s
  | .activeTimeout => Sys2Proof.Machine.execActiveTimeout s
  | .fieldLoss => Sys2Proof.Machine.execFieldLoss s
  | .resultWindowExpiry seq => Sys2Proof.Machine.execResultWindowExpiry seq s
  | .areaLockGrant area => Sys2Proof.Machine.execAreaLockGrant area s
  | .shadowWriteComplete area intact => Sys2Proof.Machine.execShadowWriteComplete area intact s
  | .appReply b => Sys2Proof.Machine.execAppReply b s
  | .airEnable testOk => Sys2Proof.Machine.execAirEnable testOk s
  | .airDisable => Sys2Proof.Machine.execAirDisable s
  | .readerCommandSend b => Sys2Proof.Machine.execReaderCommandSend b s
  | .readerReplyReceived b f => Sys2Proof.Machine.execReaderReplyReceived b f s
  | .readerReplyTimeout b => Sys2Proof.Machine.execReaderReplyTimeout b s
  | .inventoryRound r l => Sys2Proof.Machine.execInventoryRound r l s
  | .waitModeEntry => Sys2Proof.Machine.execWaitModeEntry s
  | .waitProbe lossCdb otherReader => Sys2Proof.Machine.execWaitProbe lossCdb otherReader s
  | .airBind x => Sys2Proof.Machine.execAirBind x s
  | .airUnbind x => Sys2Proof.Machine.execAirUnbind x s
  | .airLink x => Sys2Proof.Machine.execAirLink x s
  | .airInventory x => Sys2Proof.Machine.execAirInventory x s
  | .arearead x => Sys2Proof.Machine.execArearead x s
  | .nop x => Sys2Proof.Machine.execNop x s
  | .lit x => Sys2Proof.Machine.execLit x s
  | .dup x => Sys2Proof.Machine.execDup x s
  | .drop x => Sys2Proof.Machine.execDrop x s
  | .swap x => Sys2Proof.Machine.execSwap x s
  | .over x => Sys2Proof.Machine.execOver x s
  | .rot x => Sys2Proof.Machine.execRot x s
  | .nip x => Sys2Proof.Machine.execNip x s
  | .add x => Sys2Proof.Machine.execAdd x s
  | .sub x => Sys2Proof.Machine.execSub x s
  | .addi x => Sys2Proof.Machine.execAddi x s
  | .mul x => Sys2Proof.Machine.execMul x s
  | .mulh x => Sys2Proof.Machine.execMulh x s
  | .div x => Sys2Proof.Machine.execDiv x s
  | .rem x => Sys2Proof.Machine.execRem x s
  | .bitAnd x => Sys2Proof.Machine.execBitAnd x s
  | .bitOr x => Sys2Proof.Machine.execBitOr x s
  | .bitXor x => Sys2Proof.Machine.execBitXor x s
  | .bitNot x => Sys2Proof.Machine.execBitNot x s
  | .shl x => Sys2Proof.Machine.execShl x s
  | .shr x => Sys2Proof.Machine.execShr x s
  | .sar x => Sys2Proof.Machine.execSar x s
  | .neg x => Sys2Proof.Machine.execNeg x s
  | .cmp x => Sys2Proof.Machine.execCmp x s
  | .tst x => Sys2Proof.Machine.execTst x s
  | .rpush x => Sys2Proof.Machine.execRpush x s
  | .rpop x => Sys2Proof.Machine.execRpop x s
  | .rcopy x => Sys2Proof.Machine.execRcopy x s
  | .tax0 x => Sys2Proof.Machine.execTax0 x s
  | .tax1 x => Sys2Proof.Machine.execTax1 x s
  | .txa0 x => Sys2Proof.Machine.execTxa0 x s
  | .txa1 x => Sys2Proof.Machine.execTxa1 x s
  | .lea x => Sys2Proof.Machine.execLea x s
  | .ldw x => Sys2Proof.Machine.execLdw x s
  | .ldwk x => Sys2Proof.Machine.execLdwk x s
  | .stw x => Sys2Proof.Machine.execStw x s
  | .stwk x => Sys2Proof.Machine.execStwk x s
  | .ld8 x => Sys2Proof.Machine.execLd8 x s
  | .ld16 x => Sys2Proof.Machine.execLd16 x s
  | .ld32 x => Sys2Proof.Machine.execLd32 x s
  | .st8 x => Sys2Proof.Machine.execSt8 x s
  | .st16 x => Sys2Proof.Machine.execSt16 x s
  | .st32 x => Sys2Proof.Machine.execSt32 x s
  | .lds x => Sys2Proof.Machine.execLds x s
  | .ldr x => Sys2Proof.Machine.execLdr x s
  | .stc x => Sys2Proof.Machine.execStc x s
  | .tas x => Sys2Proof.Machine.execTas x s
  | .fence x => Sys2Proof.Machine.execFence x s
  | .regp x => Sys2Proof.Machine.execRegp x s
  | .lda x => Sys2Proof.Machine.execLda x s
  | .sta x => Sys2Proof.Machine.execSta x s
  | .ldx0 x => Sys2Proof.Machine.execLdx0 x s
  | .ldx1 x => Sys2Proof.Machine.execLdx1 x s
  | .stx0 x => Sys2Proof.Machine.execStx0 x s
  | .stx1 x => Sys2Proof.Machine.execStx1 x s
  | .br x => Sys2Proof.Machine.execBr x s
  | .beq x => Sys2Proof.Machine.execBeq x s
  | .bne x => Sys2Proof.Machine.execBne x s
  | .blt x => Sys2Proof.Machine.execBlt x s
  | .bge x => Sys2Proof.Machine.execBge x s
  | .bltu x => Sys2Proof.Machine.execBltu x s
  | .bgeu x => Sys2Proof.Machine.execBgeu x s
  | .bdc x => Sys2Proof.Machine.execBdc x s
  | .brz x => Sys2Proof.Machine.execBrz x s
  | .brnz x => Sys2Proof.Machine.execBrnz x s
  | .call x => Sys2Proof.Machine.execCall x s
  | .calli x => Sys2Proof.Machine.execCalli x s
  | .jmpi x => Sys2Proof.Machine.execJmpi x s
  | .ret x => Sys2Proof.Machine.execRet x s
  | .cadr x => Sys2Proof.Machine.execCadr x s
  | .gate x => Sys2Proof.Machine.execGate x s
  | .gret x => Sys2Proof.Machine.execGret x s
  | .hwLoop x => Sys2Proof.Machine.execHwLoop x s
  | .getcst x => Sys2Proof.Machine.execGetcst x s
  | .setfl x => Sys2Proof.Machine.execSetfl x s
  | .setmask x => Sys2Proof.Machine.execSetmask x s
  | .yield x => Sys2Proof.Machine.execYield x s
  | .dadd x => Sys2Proof.Machine.execDadd x s
  | .dsub x => Sys2Proof.Machine.execDsub x s
  | .dmul10 x => Sys2Proof.Machine.execDmul10 x s
  | .dshr x => Sys2Proof.Machine.execDshr x s
  | .dshl x => Sys2Proof.Machine.execDshl x s
  | .dadj x => Sys2Proof.Machine.execDadj x s
  | .dcmp x => Sys2Proof.Machine.execDcmp x s
  | .bin2dec x => Sys2Proof.Machine.execBin2dec x s
  | .dec2bin x => Sys2Proof.Machine.execDec2bin x s
  | .todec x => Sys2Proof.Machine.execTodec x s
  | .toint x => Sys2Proof.Machine.execToint x s
  | .totime x => Sys2Proof.Machine.execTotime x s
  | .toraw x => Sys2Proof.Machine.execToraw x s
  | .tagof x => Sys2Proof.Machine.execTagof x s
  | .khandle x => Sys2Proof.Machine.execKhandle x s
  | .waitt x => Sys2Proof.Machine.execWaitt x s
  | .waittResume n c => Sys2Proof.Machine.execWaittResume n c s
  | .testt x => Sys2Proof.Machine.execTestt x s
  | .engineCompletion n t e => Sys2Proof.Machine.execEngineCompletion n t e s
  | .qput x => Sys2Proof.Machine.execQput x s
  | .qputWaitSatisfied ring => Sys2Proof.Machine.execQputWaitSatisfied ring s
  | .qget x h => Sys2Proof.Machine.execQget x h s
  | .qgetWaitSatisfied ring h => Sys2Proof.Machine.execQgetWaitSatisfied ring h s
  | .sealAead x => Sys2Proof.Machine.execSealAead x s
  | .openAead x => Sys2Proof.Machine.execOpenAead x s
  | .laneGrant busOk => Sys2Proof.Machine.execLaneGrant busOk s
  | .reservationResume k => Sys2Proof.Machine.execReservationResume k s
  | .sign x => Sys2Proof.Machine.execSign x s
  | .verify x => Sys2Proof.Machine.execVerify x s
  | .agreeEcdhSlot x => Sys2Proof.Machine.execAgreeEcdhSlot x s
  | .agreeEcdhEphemeral x => Sys2Proof.Machine.execAgreeEcdhEphemeral x s
  | .agreeMlkemDecapsulate x => Sys2Proof.Machine.execAgreeMlkemDecapsulate x s
  | .agreeMlkemEncapsulate x => Sys2Proof.Machine.execAgreeMlkemEncapsulate x s
  | .hash x => Sys2Proof.Machine.execHash x s
  | .intent x => Sys2Proof.Machine.execIntent x s
  | .rand x => Sys2Proof.Machine.execRand x s
  | .timeRead x => Sys2Proof.Machine.execTimeRead x s
  | .timeWait x => Sys2Proof.Machine.execTimeWait x s
  | .timeWaitReached n t => Sys2Proof.Machine.execTimeWaitReached n t s
  | .flopProgramCode x => Sys2Proof.Machine.execFlopProgramCode x s
  | .flopProgramData x => Sys2Proof.Machine.execFlopProgramData x s
  | .flopErase x => Sys2Proof.Machine.execFlopErase x s
  | .flopMarginRead x => Sys2Proof.Machine.execFlopMarginRead x s
  | .flopBootSwap x => Sys2Proof.Machine.execFlopBootSwap x s
  | .flopComplete array r => Sys2Proof.Machine.execFlopComplete array r s
  | .interruptTaken n c core => Sys2Proof.Machine.execInterruptTaken n c core s
  | .timeSliceEnd n c => Sys2Proof.Machine.execTimeSliceEnd n c s
  | .escResume n c => Sys2Proof.Machine.execEscResume n c s
  | .escHalt n c => Sys2Proof.Machine.execEscHalt n c s
  | .mpuSetUpdate reg v => Sys2Proof.Machine.execMpuSetUpdate reg v s
  | .createInst => Sys2Proof.Machine.execCreateInst s
  | .installImage => Sys2Proof.Machine.execInstallImage s
  | .startInst => Sys2Proof.Machine.execStartInst s
  | .quiesce => Sys2Proof.Machine.execQuiesce s
  | .drainWindowEnd n => Sys2Proof.Machine.execDrainWindowEnd n s
  | .quiesceBoundExpiry who => Sys2Proof.Machine.execQuiesceBoundExpiry who s
  | .quiesceComplete n => Sys2Proof.Machine.execQuiesceComplete n s
  | .resumeInst => Sys2Proof.Machine.execResumeInst s
  | .resetInst => Sys2Proof.Machine.execResetInst s
  | .removeInst => Sys2Proof.Machine.execRemoveInst s
  | .stage => Sys2Proof.Machine.execStage s
  | .unstage => Sys2Proof.Machine.execUnstage s
  | .freeze => Sys2Proof.Machine.execFreeze s
  | .save => Sys2Proof.Machine.execSave s
  | .saveImageStream => Sys2Proof.Machine.execSaveImageStream s
  | .offer => Sys2Proof.Machine.execOffer s
  | .restore img => Sys2Proof.Machine.execRestore img s
  | .epochBoundary meanTempDc testOk => Sys2Proof.Machine.execEpochBoundary meanTempDc testOk s
  | .doorbell p w k v => Sys2Proof.Machine.execDoorbell p w k v s
  | .push p w v => Sys2Proof.Machine.execPush p w v s
  | .pop p w v => Sys2Proof.Machine.execPop p w v s
  | .rctlDiscard p w k => Sys2Proof.Machine.execRctlDiscard p w k s
  | .rctlResume p w k => Sys2Proof.Machine.execRctlResume p w k s
  | .stagingBufferWrite p w o v upset => Sys2Proof.Machine.execStagingBufferWrite p w o v upset s
  | .localBusRead a => Sys2Proof.Machine.execLocalBusRead a s
  | .localBusWrite a v => Sys2Proof.Machine.execLocalBusWrite a v s
  | .read1 a n => Sys2Proof.Machine.execRead1 a n s
  | .read4 a n => Sys2Proof.Machine.execRead4 a n s
  | .write1 a d crcOk => Sys2Proof.Machine.execWrite1 a d crcOk s
  | .write4 a d crcOk => Sys2Proof.Machine.execWrite4 a d crcOk s
  | .qspiStatus => Sys2Proof.Machine.execQspiStatus s
  | .qspiReadTimeout => Sys2Proof.Machine.execQspiReadTimeout s
  | .functionLevelReset f => Sys2Proof.Machine.execFunctionLevelReset f s
  | .busMasterDisable f => Sys2Proof.Machine.execBusMasterDisable f s
  | .ringEnable => Sys2Proof.Machine.execRingEnable s
  | .ringCtrlDiscard => Sys2Proof.Machine.execRingCtrlDiscard s
  | .ringCtrlResume => Sys2Proof.Machine.execRingCtrlResume s
  | .ringCtrlStop => Sys2Proof.Machine.execRingCtrlStop s
  | .hifEnableChange v => Sys2Proof.Machine.execHifEnableChange v s
  | .exportKey => Sys2Proof.Machine.execExportKey s
  | .loadKeyRecord => Sys2Proof.Machine.execLoadKeyRecord s
  | .generate => Sys2Proof.Machine.execGenerate s
  | .derive => Sys2Proof.Machine.execDerive s
  | .importAgree => Sys2Proof.Machine.execImportAgree s
  | .importWrap => Sys2Proof.Machine.execImportWrap s
  | .zeroise => Sys2Proof.Machine.execZeroise s
  | .attestationStatement => Sys2Proof.Machine.execAttestationStatement s
  | .rawBlockTested repFail propFail => Sys2Proof.Machine.execRawBlockTested repFail propFail s
  | .noiseRestartDone => Sys2Proof.Machine.execNoiseRestartDone s
  | .retentionStressUpdate => Sys2Proof.Machine.execRetentionStressUpdate s
  | .rsadd h => Sys2Proof.Machine.execRsadd h s
  | .patrolRead b maxCb uncorr => Sys2Proof.Machine.execPatrolRead b maxCb uncorr s
  | .patrolLate b => Sys2Proof.Machine.execPatrolLate b s
  | .refreshSwitch b eraseOk => Sys2Proof.Machine.execRefreshSwitch b eraseOk s
  | .nandProgramFailure b => Sys2Proof.Machine.execNandProgramFailure b s
  | .storeSealRecord => Sys2Proof.Machine.execStoreSealRecord s
  | .cardBusEnable fixed => Sys2Proof.Machine.execCardBusEnable fixed s
  | .cardInsertion n ids => Sys2Proof.Machine.execCardInsertion n ids s
  | .cardRemoval n => Sys2Proof.Machine.execCardRemoval n s
  | .cardRead b => Sys2Proof.Machine.execCardRead b s
  | .cardWrite b => Sys2Proof.Machine.execCardWrite b s
  | .cardStatus b => Sys2Proof.Machine.execCardStatus b s
  | .cardSleep b => Sys2Proof.Machine.execCardSleep b s
  | .cardWake b => Sys2Proof.Machine.execCardWake b s
  | .cardSetwp b => Sys2Proof.Machine.execCardSetwp b s
  | .cardClrwp b => Sys2Proof.Machine.execCardClrwp b s
  | .cardResponse r => Sys2Proof.Machine.execCardResponse r s
  | .busyRelease => Sys2Proof.Machine.execBusyRelease s
  | .cardResponseTimeout => Sys2Proof.Machine.execCardResponseTimeout s
  | .cardBusyTimeout => Sys2Proof.Machine.execCardBusyTimeout s
  | .activate p => Sys2Proof.Machine.execActivate p s
  | .exchange p => Sys2Proof.Machine.execExchange p s
  | .deactivate p => Sys2Proof.Machine.execDeactivate p s
  | .isoCardPresence p present => Sys2Proof.Machine.execIsoCardPresence p present s
  | .canFrameReceived c f => Sys2Proof.Machine.execCanFrameReceived c f s
  | .portBufferDrain p => Sys2Proof.Machine.execPortBufferDrain p s
  | .canTransmit c => Sys2Proof.Machine.execCanTransmit c s
  | .canTransmitAck c => Sys2Proof.Machine.execCanTransmitAck c s
  | .canBusOffRecovery c => Sys2Proof.Machine.execCanBusOffRecovery c s
  | .pulseReport n => Sys2Proof.Machine.execPulseReport n s
  | .sensorLinkRequest => Sys2Proof.Machine.execSensorLinkRequest s
  | .sensorAnswer ty body crcOk => Sys2Proof.Machine.execSensorAnswer ty body crcOk s
  | .sensorAnswerTimeout => Sys2Proof.Machine.execSensorAnswerTimeout s
  | .gnssEventClose => Sys2Proof.Machine.execGnssEventClose s
  | .ppsEdge ns => Sys2Proof.Machine.execPpsEdge ns s
  | .hostSet => Sys2Proof.Machine.execHostSet s
  | .ppsSet => Sys2Proof.Machine.execPpsSet s
  | .tamperRaise t v who => Sys2Proof.Machine.execTamperRaise t v who s
  | .tamperRearm t vioC => Sys2Proof.Machine.execTamperRearm t vioC s
  | .nearMiss t => Sys2Proof.Machine.execNearMiss t s
  | .rateWindowExpiry t => Sys2Proof.Machine.execRateWindowExpiry t s
  | .vioSupplyChange cardSide ok classHi => Sys2Proof.Machine.execVioSupplyChange cardSide ok classHi s
  | .vbatMeasurement mv => Sys2Proof.Machine.execVbatMeasurement mv s
  | .governorEvaluation t => Sys2Proof.Machine.execGovernorEvaluation t s
  | .pulseEdge n ns phase => Sys2Proof.Machine.execPulseEdge n ns phase s
  | .gnssUartByte b => Sys2Proof.Machine.execGnssUartByte b s
  | .readerSignalSample x => Sys2Proof.Machine.execReaderSignalSample x s
  | .isoCardReceive p r => Sys2Proof.Machine.execIsoCardReceive p r s
  | .isoWaitingTimeExpiry p => Sys2Proof.Machine.execIsoWaitingTimeExpiry p s
  | .canErrorDetected c tx delta => Sys2Proof.Machine.execCanErrorDetected c tx delta s
  | .pcieLinkStateChange width speed => Sys2Proof.Machine.execPcieLinkStateChange width speed s
  | .vfEnableChange en n => Sys2Proof.Machine.execVfEnableChange en n s
  | .boundaryScanAccess tms tdi => Sys2Proof.Machine.execBoundaryScanAccess tms tdi s

end Sys2Proof.Machine
end

