-- ==== Sys2Proof/Machine/Step.lean ====
section
/-! DEFINITION. One step: the command at the front of the queue, run with the queue's rest; on an empty queue the
device idles and DEVTIME counts (log entry 3). -/

namespace Sys2Proof.Machine

/-- What passes while no command waits: one nanosecond of DEVTIME while the device has power (R56, R64; the
granularity is log entry 3). -/
def idle (s : State) : State :=
  if s.pwr.up then { s with kpr := { s.kpr with devtime := s.kpr.devtime + 1 } } else s

def step (s : State) : Host.Outcome State Fault Refusal :=
  match s.pending with
  | [] => .next (idle s)
  | c :: rest => exec c { s with pending := rest }

/-- `s` with the command that the word spells at the front of its queue; the table's rows have no bits, so no word
spells one. -/
def State.withFetchWord (s : State) (nbits w : Nat) : State :=
  match Sys2Proof.decodeTableWord nbits w with
  | some c => { s with pending := c :: s.pending }
  | none => s

end Sys2Proof.Machine
end

