-- ==== Sys2Proof/Safety.lean ====
section
/-! DEFINITION. What a run must keep: the canonical form of the tagged memory, so that equal memories are equal
data. -/

namespace Sys2Proof.Machine

/-- The tags of memory words in canonical form. -/
abbrev tagsWf (t : List (Nat × Word4)) : Bool := swf (fun _ => 0) t

/-- The memory of a state, bytes and tags, is in canonical form. -/
structure State.Canonical (s : State) : Prop where
  mem : Memory.wf s.mem = true
  tags : tagsWf s.tags = true

end Sys2Proof.Machine
end

