-- ==== Sys2Proof/Certificates/Slice0/Words.lean ====
section
/-! DEFINITION. The words of the statements: when a syllable is ready, what its completion is, and the shapes that the
statements of Obligations.lean and Details.lean share. -/

open Sys2Proof Sys2Proof.Machine

namespace Sys2Proof.Say

/-! ## A command that leaves the device as given -/

/-- The command completes and leaves the device as `t`; the queue is as the command found it. -/
def Leaves (c : Instr) (s t : State) : Prop := exec c s = .next { t with pending := s.pending }

/-! ## Syllables -/

/-- The key of the context that a syllable belongs to. -/
abbrev key (x : Syl) : Nat := ctxKey x.i.val x.c.val

/-- The context of the syllable may execute (R335, R351), no line is written back meanwhile (R591), and the syllable is the
next of a bundle that passes its checks (R226-R230, R266-R268): it is counted into the bundle `b` of the context `c`. -/
structure Ready (s : State) (x : Syl) (unit op : Nat) (mem : Bool) (c : Ctx) (b : Bundle) : Prop where
  runs : canRun s (key x) = true
  quiet : x.writeBack = none
  next : sylReady s (key x) unit op x mem = .ok (some (c, b))

/-- The syllable completes, with the context `c` for its own work. Stack entries move between the core and their area
(R240), which gives `d`. Within its bundle only the context changes (R232); at the end of its bundle, where no competing
write has come between, the bundle commits and goes on at the pc of `r` (R233, R234). -/
def Completes (i : Instr) (s : State) (x : Syl) (c : Ctx) : Prop :=
  ∀ b d, c.bundle = some b → settle (viewOf s b) (key x) c x.side = .ok d →
    (x.stop = false → exec i s = .next (s.setCtx (key x) d)) ∧
    (x.stop = true → ∀ b' e q r, d.bundle = some b' → conflict s b' = false →
      bundleEnds s (key x) x d b' = .ok (e, q, r) →
      exec i s = .next { commitBundle regStore regLoaded s (key x) (coreOf (key x) x) e q r with pending := s.pending })

/-- An X-unit syllable, always the last of its bundle (R230), completes: the bundle commits with the context `c`, and
then the issue `g` is made (R233, R234). -/
def Issues (i : Instr) (s : State) (x : Syl) (c : Ctx) (g : State → State) : Prop :=
  x.stop = true → ∀ b d b' e q r, c.bundle = some b → settle (viewOf s b) (key x) c x.side = .ok d →
    d.bundle = some b' → conflict s b' = false → bundleEnds s (key x) x d b' = .ok (e, q, r) →
    exec i s =
      .next { g (commitBundle regStore regLoaded s (key x) (coreOf (key x) x) e q r) with pending := s.pending }

/-- The syllable is refused: its bundle is undone and the context takes the exception `e` (R233, R319). -/
def Takes (i : Instr) (s : State) (x : Syl) (unit op : Nat) (e : Exc) : Prop :=
  exec i s = .next { sylFails s (key x) unit op x e with pending := s.pending }

/-- The syllable is refused with an exception of a class. -/
def TakesClass (i : Instr) (s : State) (x : Syl) (unit op cls : Nat) : Prop :=
  ∃ e : Exc, e.cls = cls ∧ Takes i s x unit op e

/-- The unit of an A syllable: A0 or A1. -/
abbrev unitA (x : Syl) : Nat := if x.a1 then 1 else 0

/-- A syllable of unit A, M, C or D with an opcode, once ready, completes with a context for its work. -/
def RunsA (i : Syl → Instr) (s : State) (x : Syl) (c : Ctx) (b : Bundle) (op : Nat) (d : Ctx) : Prop :=
  Ready s x (unitA x) op (opdMem s x) c b → Completes (i x) s x d

def RunsM (i : Syl → Instr) (s : State) (x : Syl) (c : Ctx) (b : Bundle) (op : Nat) (d : Ctx) : Prop :=
  Ready s x 2 op true c b → Completes (i x) s x d

def RunsC (i : Syl → Instr) (s : State) (x : Syl) (c : Ctx) (b : Bundle) (op : Nat) (d : Ctx) : Prop :=
  Ready s x 3 op false c b → Completes (i x) s x d

def RunsD (i : Syl → Instr) (s : State) (x : Syl) (c : Ctx) (b : Bundle) (op : Nat) (d : Ctx) : Prop :=
  Ready s x 4 op (opdMem s x) c b → Completes (i x) s x d

/-- A syllable of unit A or D, once ready, takes an exception of a class. -/
def FailsA (i : Syl → Instr) (s : State) (x : Syl) (c : Ctx) (b : Bundle) (op cls : Nat) : Prop :=
  Ready s x (unitA x) op (opdMem s x) c b → TakesClass (i x) s x (unitA x) op cls

def FailsD (i : Syl → Instr) (s : State) (x : Syl) (c : Ctx) (b : Bundle) (op cls : Nat) : Prop :=
  Ready s x 4 op (opdMem s x) c b → TakesClass (i x) s x 4 op cls

/-- The data stack of registers with other entries. -/
def withDs (r : CpuRegs) (l : List TWord) : CpuRegs := { r with ds := { r.ds with items := l } }

/-- The context with other entries on its data stack. -/
def Holding (c : Ctx) (l : List TWord) : Ctx := { c with r := withDs c.r l }

/-- The two operands of a syllable (R239, R244, R247): in the stack model `w` on top of `v`, with OPERAND zero, and the
stack within its area; in the accumulator model ACC and the word that the operand form gives, as the bundle has left
memory (R232). -/
def Operands2 (s : State) (x : Syl) (c : Ctx) (b : Bundle) (v w : TWord) : Prop :=
  if c.acc then c.r.acc = v ∧ opdVal (viewOf s b) (key x / 64) c x = .ok w
  else x.operand = 0 ∧ ∃ rest, c.r.ds.items = w :: v :: rest ∧ 8 * (rest.length + 2) ≤ c.r.ds.size

/-- The context after a syllable of two operands: the result in place of both, or in ACC; `r` has the flags. -/
def Result2 (c : Ctx) (r : CpuRegs) (w : TWord) : Ctx :=
  if c.acc then { c with r := { r with acc := w } } else { c with r := withDs r (w :: c.r.ds.items.drop 2) }

/-- The context after a comparison: both operands popped, or ACC kept. -/
def Flags2 (c : Ctx) (r : CpuRegs) : Ctx :=
  if c.acc then { c with r := r } else { c with r := withDs r (c.r.ds.items.drop 2) }

/-- The one operand of a syllable: the top of the stack or ACC, with OPERAND zero. -/
def Operand1 (x : Syl) (c : Ctx) (v : TWord) : Prop :=
  x.operand = 0 ∧
    if c.acc then c.r.acc = v else ∃ rest, c.r.ds.items = v :: rest ∧ 8 * (rest.length + 1) ≤ c.r.ds.size

/-- The context after a syllable of one operand. -/
def Result1 (c : Ctx) (r : CpuRegs) (w : TWord) : Ctx :=
  if c.acc then { c with r := { r with acc := w } } else { c with r := withDs r (w :: c.r.ds.items.drop 1) }

/-- The word of an accumulator-model ACC, or on top of the stack; `l` is what is left of the stack (R228, R282). -/
def OnTop (c : Ctx) (w : TWord) (l : List TWord) : Prop :=
  if c.acc then c.r.acc = w ∧ l = c.r.ds.items else c.r.ds.items = w :: l

/-- There is room for `n` more words on the data stack of `r`, where the model has one. -/
def HasRoom (c : Ctx) (r : CpuRegs) (n : Nat) : Prop := c.acc = false → 8 * (r.ds.items.length + n) ≤ r.ds.size

/-- The context after a word came: in ACC, or on the stack of `r`. -/
def Delivered (c : Ctx) (r : CpuRegs) (w : TWord) : Ctx :=
  if c.acc then { c with r := { r with acc := w } } else { c with r := withDs r (w :: r.ds.items) }

/-- The flags of an INT result (R271). -/
def intFlags (r : CpuRegs) (w : Word64) (cf vf : Bool) : CpuRegs := { r with z := w == 0, n := w.msb, c := cf, v := vf }

/-- Carry and overflow of a sum and of a difference (R271). -/
def sumFlags (r : CpuRegs) (v w : Word64) : CpuRegs :=
  intFlags r (v + w) (decide (2 ^ 64 ≤ v.toNat + w.toNat)) (decide ((v + w).toInt ≠ v.toInt + w.toInt))

def diffFlags (r : CpuRegs) (v w : Word64) : CpuRegs :=
  intFlags r (v - w) (decide (v.toNat < w.toNat)) (decide ((v - w).toInt ≠ v.toInt - w.toInt))

/-- Tags that carry an address or a time (R270), and those of plain numbers (R269). -/
abbrev AddrTag (t : Word4) : Prop := t = Tag.ptr ∨ t = Tag.code ∨ t = Tag.time
abbrev PlainTag (t : Word4) : Prop := t = Tag.raw ∨ t = Tag.int

/-- The address of an M syllable and the registers once it is taken (R274, R247): the PTR popped plus the byte offset, or
the effective address. -/
def Address (c : Ctx) (x : Syl) (p : Word64) (r : CpuRegs) : Prop :=
  if c.acc then effAddr c x = some p ∧ r = c.r
  else ∃ q rest, c.r.ds.items = ptrW q :: rest ∧ p = q + BitVec.ofInt 64 (imm x) ∧ r = withDs c.r rest

/-- The context whose bundle makes more memory effects when it commits (R233); what stands in its stack areas where it
stores is undefined (R240). -/
def Effects (c : Ctx) (b : Bundle) (ps : List Pend) : Ctx :=
  { c.holes ps with bundle := some { b with pend := b.pend ++ ps } }

/-- The context whose bundle leads to an address when it commits (R234, R281). -/
def Leads (c : Ctx) (b : Bundle) (a : Nat) (branch : Bool) : Ctx :=
  { c with bundle := some { b with target := some (a, branch) } }

/-- An X syllable whose request passes the checks of R287 and R288: its SEL and arguments, the free ticket entry, and for
the accumulator model where its results go. In the stack model they come off the data stack; in the accumulator model
from the block that the syllable names. -/
structure Request (s : State) (x : Syl) (code : Nat) (c : Ctx) (b : Bundle) (sel t : Nat) (args : List TWord)
    (blk : Option Nat) : Prop where
  ready : Ready s x 5 code (s.ctx (key x)).acc c b
  awake : s.kpr.standby = 0
  entry : freeTicket (viewOf s b) (key x / 64) = .ok t
  stack : c.acc = false →
    fld x.operand.toNat 16 4 = 0 ∧ sel = fld x.operand.toNat 0 16 ∧ blk = none ∧
      (opShape code).1 ≤ c.r.ds.items.length ∧ args = (c.r.ds.items.take (opShape code).1).reverse ∧
      8 * (c.r.ds.items.length - (opShape code).1 + 1) ≤ c.r.ds.size ∧
      issueChecks (viewOf s b) (key x / 64) c.r.level code sel (intW 0) args 0 = .ok ()
  block : c.acc = true → ∃ (p : Word64) (w : TWord),
    effAddr c x = some p ∧ blk = some (p.toNat + 8 * ((opShape code).1 + 1)) ∧
      blockRights (viewOf s b) (key x / 64) c.r.level p .r ((opShape code).1 + (opShape code).2 + 1) 0 = .ok () ∧
      blockRights (viewOf s b) (key x / 64) c.r.level p .w (opShape code).2 ((opShape code).1 + 1) = .ok () ∧
      blockWords (viewOf s b) (key x / 64) c.r.level p x.upset ((opShape code).1 + 1) 0 = .ok (w :: args) ∧
      sel = w.data.toNat ∧
      issueChecks (viewOf s b) (key x / 64) c.r.level code sel w args p.toNat = .ok ()

/-- The request is issued: the ticket word comes in place of the arguments, or in ACC; as the bundle commits the entry
is taken and the request goes to its engine (R233, R259, R261, R288). -/
def IssuesRequest (i : Instr) (s : State) (x : Syl) (code : Nat) (h : HostFetch) : Prop :=
  ∀ (c : Ctx) (b : Bundle) (sel t : Nat) (args : List TWord) (blk : Option Nat), Request s x code c b sel t args blk →
    let w := ticketWord (key x / 64) t (((viewOf s b).tk (key x / 64) t).serial + 1)
    let r := if c.acc then { c.r with acc := w } else withDs c.r (w :: c.r.ds.items.drop (opShape code).1)
    Issues i s x { c with r := r } (fun u => issueNow u (key x) t code sel args blk c.r.pc h)

/-! ## Gates -/

/-- What GATE finds: its descriptor, its arguments, the stack entries that move to their areas, the words stored for the
gate, and the registers without the arguments and with the stacks moved. -/
structure GateRun where
  g : GateDesc
  args : List TWord
  moved : List Pend
  stored : List Pend
  m : CpuRegs
  r : CpuRegs

/-- The table of a GATE (R307), its level, and the stack area of its gate (R309). -/
def gateTable (x : Syl) (c : Ctx) : Nat := if c.r.level = 0 then key x / 64 else 0
def gateLevel (x : Syl) (c : Ctx) : Fin 3 := if gateTable x c = 0 then 2 else 1
def GateRun.ds (q : GateRun) (x : Syl) (c : Ctx) : Stk :=
  q.g.dsArea (stackIndex (gateTable x c) (key x % 64) x.core.val)
def GateRun.top (q : GateRun) (x : Syl) (c : Ctx) : Nat := (q.ds x c).top - 8 * q.g.argc

/-- The GATE passes the checks of R310, seen as the bundle has left memory. In the stack model the arguments come off the
stack; in the accumulator model from the block, and they are stored at the top of the gate's data area (R311). -/
structure GateRun.Holds (q : GateRun) (s : State) (x : Syl) (c : Ctx) (b : Bundle) : Prop where
  ready : Ready s x 3 0x18 c.acc c b
  number : x.operand.toNat < 256 ∧ (c.r.level = 1 → x.operand.toNat < 64)
  sound : gateFault (viewOf s b) (gateTable x c) x.operand.toNat x.side = none
  read : readGate (viewOf s b) (gateTable x c) x.operand.toNat = some q.g
  formed : q.g.wellFormed (gateTable x c) = true
  stack : c.acc = false → q.g.argc ≤ c.r.ds.items.length ∧ q.args = (c.r.ds.items.take q.g.argc).reverse ∧
    q.m = withDs c.r (c.r.ds.items.drop q.g.argc) ∧ q.stored = []
  block : c.acc = true → gateBlock (viewOf s b) (key x / 64) c x.upset q.g.argc 0 = .ok q.args ∧ q.m = c.r ∧
    gateArgs (viewOf s b) (gateTable x c) (gateLevel x c) (q.top x c) q.args x.side = .ok q.stored
  masks : ∀ k, k < q.g.argc → maskTag (q.g.masks.getD k 0) (q.args.getD k (rawW 0)).tag = true
  buffers : gateBuffers (viewOf s b) (key x / 64) c.r.level q.g q.args (List.range q.g.argc) = .ok ()
  room : 4 ≤ shadowFree c.shadow
  moves : moveStacks (viewOf s b) (key x / 64) 0 0 c.acc x.side q.m = .ok (q.moved, q.r)

/-- The context in the gate (R309, R311): the caller's stacks, level and MASK on the shadow stack, the gate's return stack
with the RET word, and the arguments on its data stack, or at its top with X0 pointing to them. -/
def GateRun.entered (q : GateRun) (x : Syl) (c : Ctx) : Ctx :=
  let ret := c.r.pc + 4
  let ds := q.ds x c
  { c with
    shadow := .gate ret q.r.ds q.r.rs c.r.level c.r.mask c.r.x0 c.r.x1 q.g.resc :: c.shadow
    r := { q.r with
      level := gateLevel x c
      ds := if c.acc then { ds with top := q.top x c, size := ds.size - 8 * q.g.argc } else { ds with items := q.args.reverse }
      rs := { q.g.rsArea (stackIndex (gateTable x c) (key x % 64) x.core.val) with
        items := [retW (BitVec.ofNat 64 ret)] }
      x0 := if c.acc then ptrW (BitVec.ofNat 64 (q.top x c)) else q.r.x0 } }

/-! ## One-time cells -/

/-- The one-time counts are within their fields, and no more is cleared than was set (R46, R473, R474). -/
structure CellsFit (o : Otp) : Prop where
  swap : o.swapCtr ≤ 64
  workshop : o.lcWorkshop ≤ 1024
  recovery : o.lcRecovery ≤ 1024
  fatal : o.lcFatal ≤ 1024
  set : o.rpSet ≤ 1024
  clear : o.rpClear ≤ o.rpSet

/-- One-time cells after other one-time cells: no bit is cleared, and the serial number stays. -/
structure Filled (o p : Otp) : Prop where
  serial : p.serial = o.serial
  begun : o.persoBegun = true → p.persoBegun = true
  closed : o.persoClosed = true → p.persoClosed = true
  terminal : o.terminal = true → p.terminal = true
  swap : o.swapCtr ≤ p.swapCtr
  workshop : o.lcWorkshop ≤ p.lcWorkshop
  recovery : o.lcRecovery ≤ p.lcRecovery
  fatal : o.lcFatal ≤ p.lcFatal
  set : o.rpSet ≤ p.rpSet
  clear : o.rpClear ≤ p.rpClear

/-! ## Registers and decisions -/

/-- The registers whose stores are commands, or that have rules of their own. -/
def commandRegs : List Nat :=
  [Reg.KPR_MODE_REQ, Reg.INS_CMD, Reg.RING_CFG, Reg.RING_BASE_LO, Reg.RING_BASE_HI, Reg.RING_IRQ, Reg.RING_CTRL,
    Reg.RING_HIF, Reg.RING_KRANGE, Reg.STR_RCPT, Reg.STL_CMD, Reg.AIR_CTRL, Reg.CIP_LANE_EN, Reg.PKE_PUB_CMD,
    Reg.KEY_CMD, Reg.KEY_ATT_CMD, Reg.CFL_RSADD, Reg.EVF_THRESH, Reg.CRD_CTRL, Reg.CAN_CTRL, Reg.CAN_CTRL + 0x40,
    Reg.GNS_TCMD, Reg.MPU_ESC_CTRL]

/-! ## The services of the ROM -/

/-- The device with a service called: its request in the buffer, and its code (R382). -/
def called (s : State) (req : List Byte) (code : Byte) : State :=
  { s with host := { s.host with svcBuf := bufWords req, svcLen := req.length, svcCode := code } }

/-- A request to program one unit of a boot block whose header is written, where nothing is written yet (R488). -/
structure WritesSegment (s : State) (b : Bool) (req : List Byte) (r : FlopEnv) : Prop where
  cells : r.ok = true
  length : req.length = 40
  past : 0x40 ≤ getLe req 0 8
  aligned : getLe req 0 8 % 32 = 0
  fits : getLe req 0 8 + 32 ≤ 0x100000
  header : s.written (bootBase b) = true ∧ s.written (bootBase b + 32) = true
  fresh : s.written (bootBase b + getLe req 0 8) = false
  sound : s.isBad (bootBase b + getLe req 0 8) = false

/-- The unit holds the words of the request. -/
def SegmentWritten (s t : State) (b : Bool) (req : List Byte) : Prop :=
  let a := bootBase b + getLe req 0 8
  t.written a = true ∧
    t.rdWords a 4 = segmentWords (getLe req 0 8) (getLe (s.rdBytes (bootBase b) 64) 8 4) (req.drop 8)

/-! ## The air link -/

/-- Every command that a frame of the air link may be, with its code (R177). -/
def frameRows (f : AirFrame) : List (Instr × Byte) :=
  [(.airWake f, 0x01), (.airIdent f, 0x02), (.airSelect f, 0x03), (.airDeselect f, 0x04), (.airHalt f, 0x05),
    (.getResult f, 0x06), (.airPing f, 0x07), (.airRead f, 0x10), (.airWrite f, 0x11), (.airPwd f, 0x12), (.airApp f, 0x20)]

/-- The tag hears a frame: the link runs in tag role without a main loss (R164, R172). -/
structure Hears (s : State) (f : AirFrame) : Prop where
  on : airEnabled s = true
  tag : readerRole s = false
  held : s.pwr.flush = 0

/-- The frame passes its checks and is addressed to the tag or to all (R172, R176). -/
structure Good (s : State) (f : AirFrame) : Prop where
  hears : Hears s f
  fcs : f.fcsOk = true
  short : f.payload.length ≤ 256
  dest : f.dest = tagId s ∨ f.dest = broadcast

/-- The frame names the tag, on the channel of its link. -/
structure ForMe (s : State) (f : AirFrame) : Prop where
  good : Good s f
  named : f.dest = tagId s
  channel : f.channel.val = s.air.channel

/-- A frame for the tag whose payload is in clear (R171). -/
structure Clear (s : State) (f : AirFrame) : Prop where
  mine : ForMe s f
  unsealed : f.flags.getLsbD 0 = false

/-- The device once a good frame is counted. -/
abbrev rx (s : State) : State := s.incReg Reg.AIR_RXFRAMES

/-- Data that leaves the device next is found good where it is verified: a drawn value of the model (R121; log entry
121). -/
abbrev Passes (s : State) : Prop := Config.pick s.freeCtr % 2 = 0

/-- The outbox with one more reply: in clear, to a SEQ, with a status and a payload (R170, R173). -/
def Replied (s t : State) (q : Byte) (st : Word16) (p : List Byte) : Prop :=
  ∃ b, t.outbox = s.outbox ++ [.uplink { src := tagId s, seq := q, status := st, payload := p } b s.air.channel]

/-- The command leaves the device with one more reply, to the SEQ of the frame. -/
def Answers (c : Instr) (s : State) (f : AirFrame) (st : Word16) (p : List Byte) (more : State → Prop) : Prop :=
  ∃ t, Leaves c s t ∧ Replied s t f.seq st p ∧ t.mem = s.mem ∧ t.dur = s.dur ∧ more t

/-! ## Exceptions -/

/-- The bytes that the stores of a bundle write: address and length. -/
def storeOf : Pend → Option (Nat × Nat)
  | .store a n _ => some (a, n)
  | .stc a _ => some (a, 8)
  | .tas a _ => some (a, 8)
  | .spill a _ => some (a, 8)
  | _ => none

/-- The frame that an exception of a context leaves, and the entry of its handler (R322, R324-R326): the frame under the
data stack, or under the handler's own stack area where the context ran at level U; the level, MASK and pc of the handler;
and the shadow entry. -/
structure Entered (s t : State) (tbl k core : Nat) (c : Ctx) (g : GateDesc) (cause : Word64) (faddr : Nat) (syl : Word64)
    (elevel : Nat) : Prop where
  frame : ∀ fa, fa = (if c.r.level = 0 then g.dsArea (stackIndex tbl (k % 64) core) else c.r.ds).pos - 128 →
    ((t.ctx k).r.ds.top = fa ∧
      (c.acc = false → (t.ctx k).r.ds.items = [ptrW (BitVec.ofNat 64 fa)]) ∧
      (c.acc = true → (t.ctx k).r.ds.items = [] ∧ (t.ctx k).r.x0 = ptrW (BitVec.ofNat 64 fa)) ∧
      (0x10000000 ≤ fa → fa < 0x1CE000000 - 128 → fa % 8 = 0 →
        t.rdWords fa 16 = frameWords (k / 64) (k % 64) core c cause faddr syl) ∧
      (t.ctx k).shadow = .exc c.r.pc c.r.level fa c.r false :: c.shadow)
  level : (t.ctx k).r.level = if tbl = 0 then 2 else 1
  mask : (t.ctx k).r.mask = BitVec.ofNat 3 elevel
  pc : (t.ctx k).r.pc = g.entry
  loops : (t.ctx k).r.loops = []
  resv : (t.ctx k).r.resv = none

/-! ## Code flash -/

/-- A ticket waits for its completion. -/
def Waits (s : State) (i t : Nat) : Prop := i < 64 ∧ t < 256 ∧ (s.tk i t).used = true ∧ (s.tk i t).done = false

/-- An operation of an array has ended: its ticket is complete with a status, and the array is free. -/
def FlopEnded (t : State) (k : Nat) (r : FlopRun) (e : FlopEnv) (st : Word16) : Prop :=
  (t.tk r.inst r.ticket).done = true ∧ (t.tk r.inst r.ticket).status = st ∧ (∀ q ∈ t.cfl.busy, q.1 ≠ k) ∧
    t.reg Reg.CFL_LAST = BitVec.ofNat 32 (65536 * st.toNat + 256 * e.pulses.foldl max 0 + r.sel % 8)

/-! ## Instances -/

/-- The rows that write INS.CMD, with the code of each (R336). -/
def insRows : List (Instr × Nat) :=
  [(.createInst, 1), (.installImage, 2), (.startInst, 3), (.quiesce, 4), (.resumeInst, 5), (.resetInst, 6), (.removeInst, 7),
    (.stage, 8), (.unstage, 9), (.freeze, 10), (.save, 11), (.offer, 12)]

/-- The device with a command begun. -/
def cmdBegun (s : State) (op : Nat) : State :=
  { s with ins := { s.ins with busy := some (isel s, op), chunks := if op = 11 ∨ op = 13 then 0 else s.ins.chunks } }

/-- The device with a command ended at once, with a status and no change (R337). -/
def cmdEnded (s : State) (op : Nat) (st : Word16) : State :=
  { s with ins := { s.ins with
      busy := none, held := 0, stat := st, chunks := if op = 11 ∨ op = 13 then 0 else s.ins.chunks } }

/-- The device with a command that waits for its commit: the change of state and its record (R337), with what else the
commit carries. -/
def CmdWaits (c : Instr) (s : State) (op new : Nat) (more : List Eff) (recs : List Intent) : Prop :=
  ∃ t q, Leaves c s t ∧ t.ins.busy = some (isel s, op) ∧ t.tdl.waiting = s.tdl.waiting ++ [q] ∧ q.src = 64 ∧
    q.purpose = .instCmd (isel s) op new ∧
    q.intents = .effects (.instState (isel s) new :: more) ::
      .devRec 0 0x000C [BitVec.ofNat 8 (isel s), BitVec.ofNat 8 (s.inst (isel s)).state, BitVec.ofNat 8 new, 0] :: recs ∧
    t.dur = s.dur ∧ t.mem = s.mem ∧ ∀ i, (t.inst i).state = (s.inst i).state

/-! ## The ports -/

/-- The requests of the card bus, with the OP of each (R525). -/
def CardRow (b : Fin 5) (p : Instr × Nat) : Prop :=
  p = (.cardRead b, 1) ∨ p = (.cardWrite b, 2) ∨ p = (.cardStatus b, 3) ∨ p = (.cardSleep b, 4) ∨ p = (.cardWake b, 5) ∨
    p = (.cardSetwp b, 6) ∨ p = (.cardClrwp b, 7)

/-- The bus may take the next request of the binding, whose OP is `op` (R514, R523). -/
structure BusTakes (s : State) (b : Fin 5) (op : Nat) : Prop where
  on : crdOn s = true
  free : s.ports.crd.run = none
  held : s.pwr.flush = 0
  next : nextCardBind s = some b.val
  code : reqOp s b.val = op

/-- The turn of the bindings goes on. -/
def turned (s : State) (b : Fin 5) : State := setCrd s { s.ports.crd with ptr := (b.val + 1) % 5 }

/-- A request of the bus that its card may do (R525). -/
structure CardMay (u : State) (q : PortReq) : Prop where
  fields : cardReqOk q = true
  card : (u.card q.unit).state = if q.op = 4 then 2 else if q.op = 5 then 4 else 3
  known : (u.ports.crd.cards.any fun p => p.1 == q.unit) = true
  bind : slotBind (u.card q.unit).slot = q.bind
  supply : u.pwr.viocOk = true
  writable : q.op = 2 → fld (u.card q.unit).status.toNat 26 2 = 0
  mode : q.op = 6 → q.arg = 1 → u.mode = Mode.workshop

/-- The request in progress of the bus. -/
def Busy (s : State) (q : CardRun) : Prop := s.ports.crd.run = some q

/-- A port takes the request `q` from its ring, which leaves the device as `u` (R514). -/
structure FromRing (s : State) (k : Nat) (q : PortReq) (u : State) : Prop where
  held : s.pwr.flush = 0
  waits : reqWaits s k = true
  code : reqOp s k = q.op
  req : takeReq s k = (some q, u)

end Sys2Proof.Say
end

