-- ==== Sys2Proof/Certificates/Slice0/Details.lean ====
section
/-! DEFINITION. What the commands do beside completing, first part: the syllables, the checks of accesses and gates,
tickets, rings and the host side, the journal and the evidence store. The statements of Obligations.lean take these in. -/

open Sys2Proof Sys2Proof.Machine

open Sys2Proof.Say

/-! ## Syllables -/

/-- R239: a syllable that pops an empty stack, or pushes onto a full one, takes STACK_LIMIT with FADDR at the base of the
stack's area. -/
def Sys2Proof.Say.StackLimits : Prop :=
  ∀ (s : State) (x : Syl) (c : Ctx) (b : Bundle), x.operand = 0 → c.acc = false →
    (c.r.ds.items = [] →
      (Ready s x (unitA x) 0x03 (opdMem s x) c b →
        Takes (.drop x) s x (unitA x) 0x03 { cls := Cls.stackLimit, faddr := c.r.ds.base }) ∧
      (Ready s x (unitA x) 0x08 (opdMem s x) c b →
        Takes (.add x) s x (unitA x) 0x08 { cls := Cls.stackLimit, faddr := c.r.ds.base })) ∧
    (∀ u l, c.r.ds.items = u :: l → c.r.ds.size < 8 * (l.length + 2) →
      (Ready s x (unitA x) 0x02 (opdMem s x) c b →
        Takes (.dup x) s x (unitA x) 0x02 { cls := Cls.stackLimit, faddr := c.r.ds.base })) ∧
    (∀ u l, c.r.ds.items = u :: l → c.r.rs.size < 8 * (c.r.rs.items.length + 1) →
      (Ready s x (unitA x) 0x1A (opdMem s x) c b →
        Takes (.rpush x) s x (unitA x) 0x1A { cls := Cls.stackLimit, faddr := c.r.rs.base })) ∧
    (c.r.rs.items = [] →
      (Ready s x (unitA x) 0x1B (opdMem s x) c b →
        Takes (.rpop x) s x (unitA x) 0x1B { cls := Cls.stackLimit, faddr := c.r.rs.base }))

/-- R218, R226, R237, R332: what a full-word load of memory delivers. A RET word comes as RAW, and so does a CODE word where
the context has X; a POISON word and a unit that fails its check take POISON. -/
def Sys2Proof.Say.WhatAFullWordLoadDelivers : Prop :=
  ∀ (s : State) (i : Nat) (level : Fin 3) (p : Word64) (a : Nat) (lds : Bool),
    accessCheck s i level p 8 .r = .ok a → busyWord s a = none → destOpen s i a = false →
    (s.isBad a = true → ∃ e, loadWord s i level p .none lds = .error e ∧ e.cls = Cls.poison ∧ e.faddr = a ∧
      e.unitHit = some (a, loadLoc a)) ∧
    (s.isBad a = false →
      let w := s.rdWord a
      (w.tag = Tag.poison → loadWord s i level p .none lds = .error { cls := Cls.poison, faddr := a }) ∧
      (w.tag = Tag.ret → loadWord s i level p .none lds = .ok (rawW w.data)) ∧
      (w.tag = Tag.code → inX s i level a = true → loadWord s i level p .none lds = .ok (rawW w.data)) ∧
      (w.tag ≠ Tag.poison → w.tag ≠ Tag.ret → (w.tag = Tag.code → inX s i level a = false) →
        loadWord s i level p .none lds = .ok w))

/-- R224, R27, R221, R332: the checks of an access of `n` bytes in their order, and the DETAIL of each. -/
def Sys2Proof.Say.AccessChecksInOrder : Prop :=
  ∀ (s : State) (i : Nat) (level : Fin 3) (p : Word64) (n : Nat) (rt : Right),
    let a := p.toNat
    let refused := fun d => accessCheck s i level p n rt = .error { cls := Cls.mpu, detail := d, faddr := a }
    (2 ^ 40 ≤ a → refused 6) ∧
    (a < 2 ^ 40 →
      (rangeOf a = some 5 ∧ (n ≠ 4 ∨ a % 4 ≠ 0) → refused 8) ∧
      (¬ (rangeOf a = some 5 ∧ (n ≠ 4 ∨ a % 4 ≠ 0)) →
        (a % n ≠ 0 → refused 2) ∧
        (a % n = 0 →
          (∀ d, byteDenied s i level a rt = some d → refused d) ∧
          (byteDenied s i level a rt = none → accessCheck s i level p n rt = .ok a))))

/-- R305, R329, R330, R332: a byte is decided by its range, then by the highest-numbered region that holds it, then by
the default: none for level U, the default map above it. The protection set is the instance's own at levels U and S and
instance 0's at level K. -/
def Sys2Proof.Say.RegionsDecideAnAccess : Prop :=
  ∀ (s : State) (i : Nat) (level : Fin 3) (a rng : Nat) (rt : Right), rangeOf a = some rng →
    rangePermits rng level rt = true →
    let m := s.mpuSet (if level.val = 2 then 0 else i)
    (∀ n, n < 16 → rgnEn (m.region n) = true → rgnBase (m.region n) ≤ a →
      a < rgnBase (m.region n) + rgnSize (m.region n) →
      (∀ j, n < j → j < 16 → rgnEn (m.region j) = false ∨ a < rgnBase (m.region j) ∨
        rgnBase (m.region j) + rgnSize (m.region j) ≤ a) →
      byteDenied s i level a rt =
        if rgnMin (m.region n) ≤ level.val ∧ grants (rgnRights (m.region n)) rt = true then none else some 4) ∧
    ((∀ j, j < 16 → rgnEn (m.region j) = false ∨ a < rgnBase (m.region j) ∨
        rgnBase (m.region j) + rgnSize (m.region j) ≤ a) →
      byteDenied s i level a rt =
        if level.val = 0 then some 3 else if grants (fld m.dmap.toNat (3 * rng) 3) rt = true then none else some 5)

/-- R220: a partial load of memory delivers the bytes at its address, zero-extended, tagged INT, from a word tagged RAW,
INT, DEC, TIME, STAT or CHK; a word of another tag takes TAG_CHECK. -/
def Sys2Proof.Say.PartialLoads : Prop :=
  ∀ (s : State) (i cn : Nat) (level : Fin 3) (p : Word64) (a n : Nat), accessCheck s i level p n .r = .ok a →
    rangeOf a ≠ some 5 → busyWord s a = none → s.isBad a = false → destOpen s i a = false →
    let w := s.rdWord (a / 8 * 8)
    w.tag ≠ Tag.poison →
    loadPart s i cn level p n .none =
      if w.tag = Tag.raw ∨ w.tag = Tag.int ∨ w.tag = Tag.dec ∨ w.tag = Tag.time ∨ w.tag = Tag.stat ∨ w.tag = Tag.chk then
        .ok (intW (BitVec.ofNat 64 (w.data.toNat / 2 ^ (8 * (a % 8)) % 2 ^ (8 * n))), [])
      else .error { cls := Cls.tagCheck, faddr := a }

/-- R219, R220, R27: what a store will write. The word keeps its tag, but where the context has X it is stored RAW; a
partial store writes the low bytes, and only into a word tagged RAW or INT; a device register takes 32 bits. -/
def Sys2Proof.Say.WhatAStoreWrites : Prop :=
  ∀ (s : State) (i : Nat) (level : Fin 3) (p : Word64) (a n : Nat) (w : TWord),
    (accessCheck s i level p 8 .w = .ok a → s.isBad a = false →
      storeWord s i level p w .none = .ok [.store a 8 (if inX s i level a = true then rawW w.data else w)]) ∧
    (accessCheck s i level p n .w = .ok a →
      (rangeOf a = some 5 →
        storePart s i level p n w .none = .ok [.regStore (a - 0x40000000) (w.data.setWidth 32)]) ∧
      (rangeOf a ≠ some 5 → s.isBad a = false →
        let t := s.rdTag (a / 8 * 8)
        (t = Tag.raw ∨ t = Tag.int → storePart s i level p n w .none = .ok [.store a n w]) ∧
        (¬ (t = Tag.raw ∨ t = Tag.int) →
          storePart s i level p n w .none = .error { cls := Cls.tagCheck, faddr := a })))

/-- R310, R311: what refuses a gate: a gate of the keeper above 63 from level S, a descriptor that is not valid, and an
argument whose tag its mask does not take. In every case no gate is entered. -/
def Sys2Proof.Say.GateChecks : Prop :=
  ∀ (s : State) (x : Syl) (c : Ctx) (b : Bundle), Ready s x 3 0x18 c.acc c b →
    let v := viewOf s b
    let n := x.operand.toNat
    let tbl := if c.r.level = 0 then key x / 64 else 0
    gateFault v tbl n x.side = none →
    let refused := fun d => Takes (.gate x) s x 3 0x18 { cls := Cls.gateCheck, detail := d, faddr := gateAddr v tbl n }
    n < 256 →
    (c.r.level = 1 → 64 ≤ n → refused 1) ∧
    ((c.r.level = 1 → n < 64) →
      (readGate v tbl n = none → refused 2) ∧
      (∀ g, readGate v tbl n = some g →
        (g.wellFormed tbl = false → refused 2) ∧
        (g.wellFormed tbl = true → c.acc = false → g.argc ≤ c.r.ds.items.length →
          (∃ k, k < g.argc ∧
            maskTag (g.masks.getD k 0) ((c.r.ds.items.take g.argc).reverse.getD k (rawW 0)).tag = false) →
          refused 3)))

/-- R312, R313: what GRET does at a gate entry of the shadow stack: the RET word must be that of the entry; the results
move from the gate's stack onto the caller's, whose level, MASK and, in the accumulator model, index registers come back. -/
def Sys2Proof.Say.GateReturn : Prop :=
  ∀ (s : State) (k : Nat) (c : Ctx) (up : Upset) (ret : Nat) (ds rs : Stk) (level : Fin 3) (mask : BitVec 3)
    (x0 x1 w : TWord) (resc : Nat) (rest : List Shadow) (l : List TWord),
    c.shadow = .gate ret ds rs level mask x0 x1 resc :: rest → c.r.rs.items = w :: l →
    (w.tag = Tag.ret → w.data.toNat = ret →
      (c.acc = false → resc ≤ c.r.ds.items.length → 8 * (ds.items.length + resc) ≤ ds.size →
        gretAct s k c up = .ok (goTo { c with
          shadow := rest
          r := { c.r with ds := { ds with items := c.r.ds.items.take resc ++ ds.items }, rs := rs, level := level,
                          mask := mask } } ret false)) ∧
      (c.acc = true →
        gretAct s k c up = .ok (goTo { c with
          shadow := rest
          r := { c.r with ds := ds, rs := rs, level := level, mask := mask, x0 := x0, x1 := x1 } } ret false))) ∧
    (w.tag = Tag.ret → w.data.toNat ≠ ret →
      gretAct s k c up = .error { cls := Cls.shadow, faddr := w.data.toNat })

/-- R312, R327, R328: what GRET does at an exception entry of the shadow stack: it resumes the code that took the
exception, with the registers that the frame holds, at the level of the entry; from an escalation, with the registers as
they stood. A call entry, and an empty shadow stack at level K, refuse it. -/
def Sys2Proof.Say.ExceptionReturn : Prop :=
  ∀ (s : State) (k : Nat) (c : Ctx) (up : Upset) (resume : Nat) (level : Fin 3) (fa : Nat) (saved r : CpuRegs)
    (rest : List Shadow),
    (c.shadow = .exc resume level fa saved true :: rest →
      gretAct s k c up =
        .ok (goTo { c with r := { saved with level := level, resv := none }, shadow := rest } resume false)) ∧
    (c.shadow = .exc resume level fa saved false :: rest → ∀ fr,
      readFrame s (k / 64) c.r.level c.acc fa 3 up = .ok fr → frameClean fa fr = .ok () →
      restoreFrame s c.acc saved fr = .ok r →
      gretAct s k c up = .ok (goTo { c with r := { r with level := level }, shadow := rest } resume false)) ∧
    (∀ a, c.shadow = .call a :: rest → gretAct s k c up = .error gret5) ∧
    (c.shadow = [] → c.r.level = 2 → gretAct s k c up = .error gret5)

/-- R240: a stack of a context whose top entries are on the core, and all of them, needs no movement; a deeper one is
moved until its top 8 (data stack) or 16 (return stack) entries are on the core and the others stand in its area. -/
def Sys2Proof.Say.StacksSettle : Prop :=
  (∀ (s : State) (k : Nat) (c : Ctx) (up : Upset), (c.acc = true ∨ (c.r.ds.items.length ≤ 8 ∧ c.r.ds.mem = 0)) →
    c.r.rs.items.length ≤ 16 → c.r.rs.mem = 0 → ∀ b, c.bundle = some b → settle s k c up = .ok c) ∧
  (∀ (s : State) (k : Nat) (c d : Ctx) (up : Upset), settle s k c up = .ok d →
    (c.acc = false → d.r.ds.items.length - d.r.ds.mem = min 8 c.r.ds.items.length ∧
      d.r.ds.items.length = c.r.ds.items.length) ∧
    d.r.rs.items.length - d.r.rs.mem = min 16 c.r.rs.items.length ∧ d.r.rs.items.length = c.r.rs.items.length)

/-- R223: the value of a decimal word: fifteen digits, the lowest in nibble 1, and the sign in nibble 0, of which
0xB and 0xD read as negative; the words that the device makes hold what was put in with the sign 0xC or 0xD, and zero
is positive. -/
def Sys2Proof.Say.DecimalWords : Prop :=
  (∀ (d : Nat → Nat) (n : Nat), (∀ k, k < 15 → d k < 10) → 0xA ≤ n → n < 0x10 →
    let w := BitVec.ofNat 64 (16 * ((List.range 15).map fun k => d k * 16 ^ k).sum + n)
    decValid w = true ∧ decMag w = ((List.range 15).map fun k => d k * 10 ^ k).sum ∧
    decNeg w = (n == 0xB || n == 0xD)) ∧
  (∀ (neg : Bool) (m : Nat), m < 10 ^ 15 →
    decValid (decMake neg m) = true ∧ decMag (decMake neg m) = m ∧
    decNeg (decMake neg m) = (neg && decide (m ≠ 0)) ∧
    (decMake neg m).toNat % 16 = (if neg = true ∧ m ≠ 0 then 0xD else 0xC))

/-- R259, R261, R264, R288: a request of SIGN, VERIFY, AGREE or HASH takes its ticket entry, with the next serial number
and the request recorded, and is not complete; no other entry changes. Where the instance admits nothing, it completes
with INSTANCE_QUIESCING at once. -/
def Sys2Proof.Say.AnIssueTakesATicket : Prop :=
  ∀ (s : State) (k t code sel : Nat) (args : List TWord) (blk : Option Nat) (pc : Nat) (h : HostFetch), t < 256 →
    code = 0x28 ∨ code = 0x29 ∨ code = 0x2A ∨ code = 0x30 →
    let u := issueNow s k t code sel args blk pc h
    let e := u.tk (k / 64) t
    e.used = true ∧ e.serial = (s.tk (k / 64) t).serial + 1 ∧ e.nres = (if code = 0x30 then 8 else 0) ∧ e.block = blk ∧
    e.op.code = code ∧ e.op.sel = sel ∧ e.op.args = args ∧
    ((s.inst (k / 64)).closed = false → e.done = false) ∧
    ((s.inst (k / 64)).closed = true → e.done = true ∧ e.status = St.instanceQuiescing ∧
      e.results = List.replicate e.nres (intW 0)) ∧
    (∀ i j, j < 256 → (i, j) ≠ (k / 64, t) → u.tk i j = s.tk i j) ∧
    u.mem = s.mem ∧ u.tags = s.tags ∧ u.regs = s.regs ∧ u.ctxs = s.ctxs

/-- R260, R264: the word of a ticket names it: kind 1, the entry, the instance and the serial number. A word of another
tag or kind takes TAG_CHECK; one whose instance or serial number differ, or whose entry is free, takes DEVICE_SYNC. -/
def Sys2Proof.Say.TicketWords : Prop :=
  ∀ (s : State) (i t : Nat), i < 64 → t < 256 →
    ((s.tk i t).used = true → ticketOf s i (ticketWord i t (s.tk i t).serial) = .ok (t, s.tk i t)) ∧
    ((s.tk i t).used = false → ∀ n, ticketOf s i (ticketWord i t n) = .error { cls := Cls.deviceSync }) ∧
    (∀ n, n ≠ (s.tk i t).serial → ticketOf s i (ticketWord i t n) = .error { cls := Cls.deviceSync }) ∧
    (∀ j n, j < 64 → j ≠ i → ticketOf s i (ticketWord j t n) = .error { cls := Cls.deviceSync }) ∧
    (∀ w : TWord, w.tag ≠ Tag.stat → ticketOf s i w = .error { cls := Cls.tagCheck })


/-! ## Rings and the host -/

/-- R392, R395, R397, R591: what does not change a ring: enabling one that is enabled, or that breaks the rules (RING.STATUS
says so); resuming or stopping a disabled one; a host's command on a ring that is neither Halted nor Stopped; a word
for a POISON slot of the staging buffer; and the keeper's commands while no keeper runs. -/
def Sys2Proof.Say.RingsThatStay : Prop :=
  (∀ s : State,
    let r := rsel s
    let x := s.ring r
    let cfg := (x.cfg &&& 0x7FC007E0) ||| BitVec.ofNat 32 (2048 * x.eslots + fld x.cfg.toNat 0 5)
    (s.kpr.running = true →
      (x.en = false → x.eslots ≤ 16 → 1 ≤ fld x.cfg.toNat 0 5 → fld x.cfg.toNat 0 5 ≤ 16 →
        ringRules s r { x with cfg := cfg } = false →
        Leaves .ringEnable s (s.setReg Reg.RING_STATUS (s.reg Reg.RING_STATUS ||| 1))) ∧
      (x.en = true → Leaves .ringEnable s s) ∧ (x.st = 0 → Leaves .ringCtrlResume s s ∧ Leaves .ringCtrlStop s s)) ∧
    (s.kpr.running = false →
      Leaves .ringEnable s s ∧ Leaves .ringCtrlDiscard s s ∧ Leaves .ringCtrlResume s s ∧ Leaves .ringCtrlStop s s)) ∧
  (∀ (s : State) (p : Iface) (w : Fin 64) (k : Fin 1024) (o : Fin 256) (v : Word32), reaches s p w.val = true →
    serving s = true →
    (∀ r, windowRing s w.val k.val = some r → (s.ring r).st ≠ 2 → (s.ring r).st ≠ 3 →
      Leaves (.rctlDiscard p w k) s s ∧ Leaves (.rctlResume p w k) s s) ∧
    (o.val / 16 ∈ (s.hport p w.val).stagingBad → Leaves (.stagingBufferWrite p w o v false) s s))

/-- R394: a doorbell whose new value breaks the rules halts the ring with DOORBELL_OVERRUN at the count that the host owns;
one for a device ring or an absent one counts as an error. -/
def Sys2Proof.Say.DoorbellsRefused : Prop :=
  ∀ (s : State) (p : Iface) (w : Fin 64) (k : Fin 1024) (v : Word32), reaches s p w.val = true → s.mode = Mode.service →
    s.kpr.standby = 0 →
    (windowRing s w.val k.val = none → Leaves (.doorbell p w k v) s (s.incReg Reg.RING_DBERR)) ∧
    (∀ r, windowRing s w.val k.val = some r →
      let x := s.ring r
      (x.inHost = false → Leaves (.doorbell p w k v) s (s.incReg Reg.RING_DBERR)) ∧
      (x.st = 1 → x.inHost = true →
        (x.outbound = true → x.used < (v - x.head).toNat →
          Leaves (.doorbell p w k v) s (haltRing s r St.doorbellOverrun x.head)) ∧
        (x.outbound = false → ownerRuns s x.owner = true →
          let d := (v - x.tail).toNat
          d ≠ 0 → ¬ (d % x.eslots = 0 ∧ d ≤ x.free) →
            Leaves (.doorbell p w k v) s (haltRing s r St.doorbellOverrun x.tail))))

/-- R391, R395, R396: a push onto a full ring ends RING_FULL and the ring is as it was; a pop of an empty ring delivers
nothing; a QSPI write that fails its CRC, or has a bad length, changes only the status byte and its count. -/
def Sys2Proof.Say.WindowsRefuse : Prop :=
  (∀ (s : State) (p : Iface) (w : Fin 64) (v : Word32) (r : Nat), reaches s p w.val = true → serving s = true →
    windowRing s w.val (fld v.toNat 16 10) = some r →
    let x := s.ring r
    let port := s.hport p w.val
    x.en = true → x.inHost = false → x.st = 1 →
    (x.outbound = false →
      let n := fld v.toNat 0 5
      let half := fun k => (sget (fun _ => (0 : Word32)) port.staging k).setWidth 64
      let d : Payload := ⟨64 * n, (List.range (8 * n)).map fun k => rawW (half (2 * k) ||| half (2 * k + 1) <<< 32)⟩
      ownerRuns s x.owner = true → 1 ≤ n → n ≤ 16 → (∀ k, k < n → k ∉ port.stagingBad) → countOk x d n = true →
      x.free < n → Leaves (.push p w v) s (pushEnd (s.statInc (ringStat r 8)) p w.val St.ringFull)) ∧
    (x.outbound = true → x.lens = [] →
      Leaves (.pop p w v) s (s.setHport p w.val { port with popStat := St.ok, popped := 0 }))) ∧
  (∀ (s : State) (a : Nat) (d : List Byte), winAddr a = true → reaches s .qspi 0 = true →
    (s.regBit Reg.RING_HIF 3 = true →
      let u := s.incReg Reg.RING_QCRCERR
      Leaves (.write1 a d false) s { u with host := { u.host with qstat := u.host.qstat ||| 2 } }) ∧
    (d.length % 4 ≠ 0 → Leaves (.write1 a d true) s { s with host := { s.host with qstat := s.host.qstat ||| 4 } }))

/-- R30, R121, R388-R391: what a read of a window sends out. A word that is no slot of the pop buffer goes out as the window
shows it, and nothing but the latch of an upper half changes; a slot is verified as it leaves, and one that fails is
POISON from then on. A QSPI read with QCRC set ends with the CRC over its address and data. -/
def Sys2Proof.Say.WindowsAreRead : Prop :=
  (∀ (s : State) (p : Iface) (a : Nat), popSlot (a % 65536) = none →
    let v := winRead s p (a / 65536) (a % 65536)
    let t := hostRead s p a
    t.outbox = s.outbox ++ [.hostRead p a v] ∧ t.regs = s.regs ∧ t.mem = s.mem ∧ t.rings = s.rings ∧ t.host = s.host ∧
      (winLower (a % 65536) = false → (a % 65536 < 4 ∨ winLower (a % 65536 - 4) = false) →
        t = { s with outbox := s.outbox ++ [.hostRead p a v] })) ∧
  (∀ (s u : State) (p : Iface) (a k : Nat), serving s = true → popSlot (a % 65536) = some k →
    (egress s (0x30 + ifaceIdx p) none = (true, u) →
      (hostRead s p a).outbox = u.outbox ++ [.hostRead p a (winRead u p (a / 65536) (a % 65536))]) ∧
    (egress s (0x30 + ifaceIdx p) none = (false, u) → ∃ v,
      (hostRead s p a).outbox = u.outbox ++ [.hostRead p a v] ∧
      ((hostRead s p a).hport p (a / 65536)).popBuf =
        let l := (u.hport p (a / 65536)).popBuf
        l.take (8 * k) ++ List.replicate 8 poisonW ++ l.drop (8 * k + 8))) ∧
  (∀ (s : State) (a : Nat), winAddr a = true → popSlot (a % 65536) = none → reaches s .qspi 0 = true →
    s.regBit Reg.RING_HIF 3 = true →
    let v := winRead s .qspi (a / 65536) (a % 65536)
    ∃ t, Leaves (.read1 a 1) s t ∧ t.outbox = s.outbox ++ [.hostRead .qspi a v, .qspiCrc
      (crc16 ([BitVec.ofNat 8 (a / 65536), BitVec.ofNat 8 (a / 256), BitVec.ofNat 8 a] ++ leBytes 4 v.toNat))])


/-! ## The commit and the evidence store -/

/-- R53, R55: the one waiting commit is not admitted before the replay; with the capacitance low it fails. After a main loss
each try takes a sample of VHOLD (log entry 15). -/
def Sys2Proof.Say.NothingIsAdmitted (s : State) (c : Commit) : Prop :=
  let u := flushSample s
  (s.kpr.replayDone = false → Leaves .commitAdmission s u) ∧
  (s.kpr.replayDone = true → s.pwr.low = true → s.tdl.admitted.any Commit.last = false →
    Leaves .commitAdmission s (commitFails (unqueue u c) c St.holdupLow))

/-- R106, R107, R111: with nothing admitted, or nothing marked, the mark and the apply change nothing; after a main loss the
apply goes on only while the usable energy exceeds the reserve. -/
def Sys2Proof.Say.NothingIsMarked (s : State) (c : Commit) : Prop :=
  let u := flushSample s
  (s.tdl.admitted = [] → ∀ n a b, Leaves (.commitMark n a b) s s) ∧
  (s.tdl.marked = [] → Leaves .commitApply s u) ∧
  (∀ cs, s.pwr.flush ≠ 0 → s.tdl.marked = c :: cs →
    (energyUj u ≤ reserveUj u → Leaves .commitApply s u) ∧
    (reserveUj u < energyUj u → Leaves .commitApply s { u with
      dur := c.effs.foldl applyHome u.dur
      tdl := { u.tdl with
        marked := cs, applied := u.tdl.applied ++ [{ c with before := none }], lastApplied := c.num } }))

/-- R85-R90, R92: a volume with no open strip does not close one; without a strip key in force, or where the trailer does
not read back intact, neither trailer nor seal is made. -/
def Sys2Proof.Say.StripsThatWait : Prop :=
  ∀ (s : State) (v : Fin 64),
    ((s.projected.vol v.val).isOpen = false → Leaves (.stripIdleClose v) s s) ∧
    Leaves (.stripSigned v false) s s ∧
    (stripRoot s = none → Leaves (.stripSigned v true) s s ∧ Leaves (.bandSeal v) s s)

/-- R53, R98, R99, R101, R125: which request a read serves. Before the replay none is; the ROM's is the command's own; that
of an instance or of the keeper is the oldest entry of its Strata read ring, where it asks for the OP, and a malformed
one is answered INTENT_INVALID. The items are written one after the other, and the first that fails ends the read.
The place of the completion is the model's own (log entry 13). -/
def Sys2Proof.Say.EvidenceRequests : Prop :=
  (∀ (s : State) (q : StrataReq), s.kpr.replayDone = false →
    Leaves (.readRecords q) s s ∧ Leaves (.readTrailer q) s s ∧ Leaves (.readSeal q) s s ∧ Leaves (.readCounter q) s s ∧
      Leaves (.readVolumeState q) s s) ∧
  (∀ (s : State) (q : StrataReq) (op i : Nat),
    (q.who = .rom → readRequest s op q = some (.ok q, s)) ∧
    (readOwner q.who = some i →
      let r := s.descF i .rdRing
      (readWaits s i r op = false → readRequest s op q = none) ∧
      (∀ p u, readWaits s i r op = true → takeRing s r = (some p, u) → p.poisoned = false → p.len = 64 →
        let b := p.bytes
        let good := getLe b 0 1 = op ∧ (i = 0 → getLe b 1 1 ≤ 63) ∧ (p.words.getD 2 (rawW 0)).tag = Tag.ptr
        (good → readRequest s op q = some (.ok { q with
          volume := Fin.ofNat 64 (getLe b 1 1), count := getLe b 2 2, start := getLe b 8 8, dest := getLe b 0x10 8
          dlen := getLe b 0x18 4 }, u)) ∧
        (¬ good → readRequest s op q = some (.error (St.intentInvalid, 0), u))))) ∧
  (∀ (s u : State) (q : StrataReq) (w : Option Nat) (a n : Nat) (p : Payload) (l : List (Nat × Payload)),
    readDeliver s q w [] n = (n, 0, s) ∧
    (q.flash ≠ some n →
      (engWrite s (q.dest + a) p w q.upset = (true, u) → readDeliver s q w ((a, p) :: l) n = readDeliver u q w l (n + 1)) ∧
      (engWrite s (q.dest + a) p w q.upset = (false, u) → readDeliver s q w ((a, p) :: l) n = (n, 0x0B, u))))


/-- R53, R405: no lane is granted before the slots are loaded, after a main loss, without a request or without a free lane;
with nothing waiting, a resume changes nothing. -/
def Sys2Proof.Say.LanesThatWait : Prop :=
  ∀ (s : State) (ok : Bool) (k : KeyRef),
    (slotsReady s = false ∨ s.pwr.flush ≠ 0 ∨ nextRequester s = none ∨ freeLane s = none → Leaves (.laneGrant ok) s s) ∧
    (s.cip.lanes = [] → s.air.held = [] → s.air.due = [] → s.air.heldTx = [] → s.pwr.flush = 0 →
      Leaves (.reservationResume k) s s)


/-! ## Sessions, the standing list, keys -/

/-- R147, R158: before the replay the rebuild and the loads wait, and an inactive generation waits for the active one. -/
def Sys2Proof.Say.SessionsWait : Prop :=
  ∀ s : State,
    (s.kpr.replayDone = false → Leaves .shingleRebuildComplete s s ∧ ∀ g, Leaves (.stlGenerationLoaded g) s s) ∧
    (∀ g : Fin 2, s.dur.stlActive = 1 - g.val → s.stlLoaded (1 - g.val) = false → Leaves (.stlGenerationLoaded g) s s)

/-- R134, R140, R141, R297: CNEW takes the context that has been free longest, provisional, for its owner; R130: the
handle it gives passes the checks of the owner, and no other instance's. -/
def Sys2Proof.Say.NewContexts : Prop :=
  ∀ (s t : State) (q : NewCtx) (w : TWord), 1 ≤ q.kind → q.owner < 64 → s.dur.shgFresh < 2 ^ 20 →
    (s.sctx s.dur.shgFresh).gen < 4096 → cnewTake s q = some (w, t) →
    let k := s.dur.shgFresh
    let c := t.sctx k
    w.tag = Tag.sesh ∧ hIndex w.data = k ∧ hOwner w.data = q.owner ∧ hGen w.data = (s.sctx k).gen ∧
    t.dur.shgFresh = k + 1 ∧ c.kind = q.kind ∧ c.owner = q.owner ∧ c.provisional = true ∧ c.version = 0 ∧
    c.cred = q.cred ∧ (∀ j, j ≠ k → t.sctx j = s.sctx j) ∧
    (∀ i, i = 0 ∨ i = q.owner → handleCheck t.dur i w.data = St.ok) ∧
    (∀ i, i ≠ 0 → i ≠ q.owner → handleCheck t.dur i w.data = St.contextForeign)

/-- R42, R154, R157, R162: a write while BUSY is ignored, one without Indigo ends MODE_REFUSED. An edit that meets a switch ends
GEN_BUSY with no effect; a DELETE of what is not there ends LIST_MISS (the model's choice: log entries 114, 115); an edit
waits for its generation's load and for the lookups of a switch. -/
def Sys2Proof.Say.EditsRefused : Prop :=
  (∀ s : State,
    let same := fun t => Leaves .stlInsert s t ∧ Leaves .stlDelete s t ∧ Leaves .stlClear s t ∧ Leaves .stlSetSalt s t ∧
      Leaves .stlPersist s t
    (s.stl.busy.isSome = true → same s) ∧
    (s.kpr.running = true → s.indigo = false → s.stl.busy = none →
      same { s with stl := { s.stl with stat := St.modeRefused } })) ∧
  (∀ (s : State) (b : StlEdit), s.stl.busy = some b → s.indigo = true →
    let k := 1 - s.dur.stlActive
    let ends := fun (st : Word16) =>
      Leaves .stlEditComplete s { s with stl := { s.stl with busy := none, stat := st } }
    (b.refused = true ∨ stlSwitching s = true → ends St.genBusy) ∧
    (b.refused = false → stlSwitching s = false →
      (s.stlLoaded k = false ∨ s.stl.releasing = true → Leaves .stlEditComplete s s) ∧
      (s.stlLoaded k = true → s.stl.releasing = false → b.op = 2 → (s.stlGen k).find (b.entry.take 16) = none →
        ends St.listMiss)))

/-- R151, R152: LOOK in the active generation gives the entry as four words and counts; absent, it counts a miss. -/
def Sys2Proof.Say.Lookups : Prop :=
  ∀ (s : State) (cred : List Byte),
    (∀ p e, (s.stlGen s.dur.stlActive).find cred = some (p, e) →
      lookNow s cred = (some (packWords Tag.raw e), s.incReg Reg.STL_LOOKUPS)) ∧
    ((s.stlGen s.dur.stlActive).find cred = none →
      lookNow s cred = (none, (s.incReg Reg.STL_LOOKUPS).incReg Reg.STL_MISSES))

/-- R443, R444, R445: a key command while one is in progress is ignored, and so is one while no keeper runs; attributes that
R444 does not take end ARG_INVALID, an occupied slot SLOT_OCCUPIED, and a wrapped key that does not unwrap AUTH_FAIL, with
no slot changed. Before the slots are loaded a command waits. -/
def Sys2Proof.Say.KeyCommandsRefused : Prop :=
  ∀ (s : State),
    (s.key.cmd.isSome = true ∨ s.kpr.running = false →
      Leaves .generate s s ∧ Leaves .derive s s ∧ Leaves .importAgree s s ∧ Leaves .importWrap s s ∧ Leaves .zeroise s s) ∧
    (s.kpr.running = true → s.key.cmd = none → s.mode = Mode.workshop ∨ s.mode = Mode.service →
      let n := s.regFld Reg.KEY_SSEL 0 12
      let x := nattrSlot s
      let arg := s.reg64 Reg.KEY_ARG_LO
      let kek := fld (s.reg Reg.KEY_ARG2).toNat 0 12
      let ends := fun c st => Leaves c s { s with key := { s.key with cmd := none, held := false, stat := st } }
      (slotsReady s = false →
        Leaves .generate s { s with key := { s.key with cmd := some 1, held := true } }) ∧
      (slotsReady s = true →
        (attrOk s n x cmdKinds = false → ends .generate St.argInvalid) ∧
        (attrOk s n x cmdKinds = true → (s.slot n).kind ≠ 0 → ends .generate St.slotOccupied) ∧
        (attrOk s n x cmdKinds = true → (s.slot n).kind = 0 → inKeeperData arg 40 = true →
          slotCheck s 0 0 kek (· == 0x50) = St.ok → ∀ p u,
          engRead { s with key := { s.key with cmd := some 4 } } arg 40 0x28 none false = (.ok p, u) →
          unwrapKey (kdf Lbl.importKey (u.slot kek).v [] 32) p.bytes 32 = none →
          Leaves .importWrap s (keyFail u St.authFail))))

/-- R420, R421, R429, R450: a command of the keeper while one of its kind is in progress is ignored, and so is one while no
keeper runs. -/
def Sys2Proof.Say.KeeperCommandsWait : Prop :=
  ∀ s : State,
    (s.pke.busy.isSome = true ∨ s.kpr.running = false → Leaves .exportKey s s ∧ Leaves .loadKeyRecord s s) ∧
    (s.key.att = true ∨ s.kpr.running = false → Leaves .attestationStatement s s) ∧
    (s.kpr.replayDone = false → ∀ bad err, Leaves (.keySlotLoad bad err) s (keyResume s))

/-- R457, R458, R459: the conditioner's register takes a raw bit at bit 0, beside its feedback, and shifts towards bit 255; a
passing block gives 64 bytes of seed from its 512 output bits, and the register goes on where it stood. A block fails
the repetition test with 41 equal samples in a row. -/
def Sys2Proof.Say.RandomSource : Prop :=
  (∀ (r : BitVec 256) (b : Bool), ∀ k, k < 256 → (lfsrStep r b).getLsbD k =
    if k = 0 then (((r.getLsbD 255 ^^ r.getLsbD 9) ^^ (r.getLsbD 4 ^^ r.getLsbD 1)) ^^ b) else r.getLsbD (k - 1)) ∧
  (∀ (r : BitVec 256) (a b : BitVec 2048), (condition r (rawSamples a b)).2.length = 64) ∧
  (∀ (s : State) (l : List Bool),
    (putSeed s l).rng = { s.rng with cond := (condition s.rng.cond l).1, seed := some (condition s.rng.cond l).2 }) ∧
  (∀ (b : Bool) (k l : List Bool), repetitionFails (k ++ List.replicate 41 b ++ l) = true)


/-! ## Registers, power, start-up, modes -/

/-- R7, R9: a write by the access codes of a register without reserved values: writable bits take the value, bits that a
one clears or sets do so, and the other bits stay. -/
def Sys2Proof.Say.AccessCodes : Prop :=
  ∀ (d : RegDesc) (old v : Word32), d.legal = [] → ∀ k, k < 32 →
    let w := (regWritten d old v).getLsbD k
    (d.w1s.getLsbD k = true → v.getLsbD k = true → w = true) ∧
    (d.w1c.getLsbD k = true → v.getLsbD k = true → d.w1s.getLsbD k = false → w = false) ∧
    (d.rw.getLsbD k = true → d.w1c.getLsbD k = false → d.w1s.getLsbD k = false → w = v.getLsbD k) ∧
    (d.rw.getLsbD k = false → d.w1c.getLsbD k = false → d.w1s.getLsbD k = false → w = old.getLsbD k)

/-- R15, R29: an address that holds no register takes no write, and nothing is written while no keeper runs. -/
def Sys2Proof.Say.NoAccess : Prop :=
  ∀ (s : State) (a : Nat) (v : Word32),
    (s.kpr.running = true → a ∉ commandRegs → isMpuReg a = false → bindShut s a = false → regDesc a = none →
      Leaves (.registerWrite a v) s s) ∧
    (s.kpr.running = false → Leaves (.registerWrite a v) s s ∧ Leaves (.rcRegisterRead a v) s s ∧
      Leaves (.mpuSetUpdate a v) s s)

/-- R55, R434, R576: the roots are lost without VBAT; a device that has power is as it was, and RESET_N below 100 ns does
nothing. -/
def Sys2Proof.Say.PowerStays : Prop :=
  ∀ s : State,
    (s.pwr.up = false → ∀ e, ∃ t, Leaves (.powerOn false e true true) s t ∧ t.roots = []) ∧
    (s.pwr.up = true → ∀ k e l m, Leaves (.powerOn k e l m) s s) ∧
    (∀ ns, ns < 100 → Leaves (.resetNLow ns) s s) ∧
    (reqReady s = false → Leaves .deviceResetRequest s s)

/-- R10, R59, R60: what a device reset leaves. The device is in Starting with the cause shown and no core runs; DEVTIME
and its set flag, the one-time cells, the roots and the supplies stay; code flash keeps its bytes, and SRAM and DRAM read
zero; tickets, contexts and rings are gone, and commits without a mark wait for the replay to discard them. -/
def Sys2Proof.Say.WhatADeviceResetLeaves : Prop :=
  ∀ (s : State) (cause : Word4), s.cfl.busy = [] →
    let t := deviceReset s cause
    t.kpr.mode = Mode.starting ∧ t.kpr.cause = cause ∧ t.kpr.running = false ∧ t.kpr.devtime = s.kpr.devtime ∧
    t.kpr.timeSet = s.kpr.timeSet ∧ t.kpr.replayDone = false ∧ t.otp = s.otp ∧ t.roots = s.roots ∧
    t.pwr.up = s.pwr.up ∧ t.pwr.cmeas = 0 ∧ t.ctxs = [] ∧ t.tickets = [] ∧ t.rings = [] ∧ t.tdl.waiting = [] ∧
    t.tdl.admitted = [] ∧ t.tdl.marked = s.tdl.marked ∧ t.tdl.replayed = 0 ∧ t.tdl.discarded = 0 ∧
    (∀ a, 0x20000000 ≤ a → a < 0x22000000 → t.rdByte a = s.rdByte a ∧ t.rdTag a = s.rdTag a) ∧
    (∀ a, 0x10000000 ≤ a → a < 0x10800000 → t.rdByte a = 0 ∧ t.rdTag a = Tag.raw) ∧
    (∀ a, 0x100000000 ≤ a → a < 0x1CE000000 → t.rdByte a = 0 ∧ t.rdTag a = Tag.raw)

/-- R45, R53, R54, R114: the replay happens once; commits whose marks do not read back intact, the last ones only, are
discarded and leave the state before the first of them. A capacitance below the minimum stops commits; the records of
start-up are committed once, after the replay and the measurement. -/
def Sys2Proof.Say.StartUpWaits : Prop :=
  ∀ s : State,
    (s.kpr.replayDone = true → Leaves .replayComplete s s) ∧
    (∀ c b, s.tdl.marked = [c] → c.before = some b → s.tdl.unread.1 = 1 →
      let t := dropMarks s
      t.tdl.marked = [] ∧ t.tdl.lost = s.tdl.lost ++ [c.num] ∧ t.tdl.lastMarked = b.lastMarked ∧
        t.dur.ctrs = (durAfterReset b.dur).ctrs ∧ t.mem = s.mem) ∧
    (s.tdl.unread.1 = 0 → dropMarks s = s) ∧
    (s.pwr.measuring = false → ∀ n, Leaves (.capacitanceMeasured n) s s) ∧
    (s.pwr.measuring = true → s.tdl.waiting = [] → s.pwr.low = true → ∀ n, n / 160 < s.regFld Reg.BRK_CAP_MIN 0 16 →
      ∃ t, Leaves (.capacitanceMeasured n) s t ∧ t.kpr.brkReady = false ∧ t.pwr.low = true ∧ t.pwr.cmeas = n / 160) ∧
    (15000 ≤ s.pwr.vhold → Leaves .vholdChargeTimeout s s) ∧
    (s.kpr.records = true ∨ s.kpr.replayDone = false ∨ s.kpr.brkReady = false → Leaves .startupRecordsCommit s s)

/-- R39, R41, R462, R561: how a decision begins: refused where the random source has failed, held back where decisions
wait, else evaluated a first time after the draw of its delay. -/
def Sys2Proof.Say.DecisionsBegin : Prop :=
  ∀ (s u : State) (d : Decision) (b : List Byte),
    (s.rng.fatal = true → decisionBegin s d = decisionRefused s d St.rngFatal) ∧
    (s.rng.fatal = false → decisionBlocked s = true →
      decisionBegin s d = { s with kpr := { s.kpr with decision := some (d, none) } }) ∧
    (s.rng.fatal = false → decisionBlocked s = false → rngDraw s 1 = (.ok b, u) →
      decisionBegin s d = firstEvaluation u d) ∧
    (d.image u = none → d ≠ .workshop → d ≠ .decommission →
      firstEvaluation u d = { u with kpr := { u.kpr with decision := some (d, some (evaluate u d)) } })

/-- R40, R42, R447: requests from another mode end MODE_REFUSED, and while one is in progress a request is ignored. Units
that disagree end a decision as DECISION_MISMATCH with T15 raised; a refusal on which both agree ends it with its
status. A switch between Service and Workshop waits for a command of the key store. -/
def Sys2Proof.Say.DecisionsRefused : Prop :=
  ∀ s : State,
    (reqReady s = false →
      Leaves .modeReqWorkshop s s ∧ Leaves .modeReqService s s ∧ Leaves .modeReqStandby s s ∧
        Leaves .modeReqDecommission s s) ∧
    (reqReady s = true →
      (s.mode ≠ Mode.service → Leaves .modeReqWorkshop s (modeEnd s St.modeRefused) ∧
        Leaves .modeReqStandby s (modeEnd s St.modeRefused)) ∧
      (s.mode ≠ Mode.workshop → Leaves .modeReqService s (modeEnd s St.modeRefused))) ∧
    (s.kpr.decision = none → ∀ b, Leaves (.decisionSecondEvaluation b) s s) ∧
    (∀ d v, s.kpr.decision = some (d, some v) →
      (d.waits s = true → ∀ b, Leaves (.decisionSecondEvaluation b) s s) ∧
      (d.waits s = false → v = St.ok → evaluate s d = St.ok → d ≠ .startup → Leaves (.decisionSecondEvaluation false) s
        (tamperRaise (decisionRefused s d St.decisionMismatch) 15 d.kind)) ∧
      (d.waits s = false → v ≠ St.ok → evaluate s d ≠ St.ok →
        (d = .startup → Leaves (.decisionSecondEvaluation true) s (imageDecided s false)) ∧
        (d ≠ .startup → (∀ g, d ≠ .startMode g) → Leaves (.decisionSecondEvaluation true) s (decisionRefused s d v)))) ∧
    (∀ d, s.kpr.decision = some (d, none) → s.rng.fatal = false → decisionBlocked s = true →
      Leaves .decisionDeferredStart s s)

/-- R49: a credential whose validity has not ended, or that has no end, is not withdrawn; and outside Workshop neither
limit does anything. -/
def Sys2Proof.Say.WorkshopStays : Prop :=
  ∀ s : State,
    (s.kpr.notAfter = none → Leaves .credentialWithdrawal s s) ∧
    (∀ n, s.kpr.notAfter = some n → s.kpr.devtime ≤ n → Leaves .credentialWithdrawal s s) ∧
    (s.mode ≠ Mode.workshop → Leaves .credentialWithdrawal s s ∧ Leaves .workshopInactivityExpiry s s) ∧
    (s.kpr.standby = 2 → s.tdl.admitted ≠ [] → Leaves .standbyDrainEnd s s) ∧
    (s.kpr.standby = 3 → signQueue s ≠ 0 → Leaves .standbyStripsSigned s s)

/-- R66, R67: the wake: the device is in Service again and its record waits as a commit; a source that is not enabled does
nothing, and one outside Standby and its entry neither. -/
def Sys2Proof.Say.TheWake : Prop :=
  (∀ s : State, s.kpr.decision = some (.wake, some St.ok) → s.mode = Mode.standby →
    ∃ t, Leaves (.decisionSecondEvaluation true) s t ∧ t.kpr.mode = Mode.service ∧ t.kpr.running = true ∧
      t.kpr.standby = 0 ∧ ∃ c l, t.tdl.waiting = l ++ [c] ∧ c.intents = [transitionRec Mode.standby Mode.service 1]) ∧
  (∀ (s : State) (k : Fin 6), s.kpr.decision = none →
    s.regBit Reg.KPR_WAKE_EN k.val = false ∨ (s.mode ≠ Mode.standby ∧ s.kpr.standby = 0) → Leaves (.wakeEvent k) s s)
end

