-- ==== Sys2Proof/Certificates/Slice0/Details2.lean ====
section
/-! DEFINITION. What else the commands do: the second part of the details that the statements of Obligations.lean name. -/

open Sys2Proof Sys2Proof.Machine

open Sys2Proof.Say

/-! ## Syllables that are refused -/

/-- R270: ADD, SUB and ADDI of any other pair of tags take TAG_CHECK. -/
def Sys2Proof.Say.SumsRefused : Prop :=
  ∀ (s : State) (x : Syl) (c : Ctx) (b : Bundle) (v w : TWord),
    let A := fun i op => FailsA i s x c b op Cls.tagCheck
    (Operands2 s x c b v w →
      (¬ (v.tag = Tag.int ∧ (w.tag = Tag.int ∨ AddrTag w.tag)) → ¬ (AddrTag v.tag ∧ w.tag = Tag.int) → A .add 0x08) ∧
      (¬ ((v.tag = Tag.int ∨ AddrTag v.tag) ∧ w.tag = Tag.int) → ¬ (v.tag = w.tag ∧ (v.tag = Tag.ptr ∨ v.tag = Tag.time)) →
        A .sub 0x09)) ∧
    (∀ l, c.acc = false → c.r.ds.items = v :: l → v.tag ≠ Tag.int → ¬ AddrTag v.tag → A .addi 0x0A)

/-- R271: a divisor of zero takes DIV_ZERO; MUL, MULH, DIV and REM of words that are not both INT take TAG_CHECK. -/
def Sys2Proof.Say.ProductsRefused : Prop :=
  ∀ (s : State) (x : Syl) (c : Ctx) (b : Bundle) (v w : TWord), Operands2 s x c b v w →
    let A := fun i op e => FailsA i s x c b op e
    (v.tag = Tag.int → w.tag = Tag.int → w.data = 0 → A .div 0x0D Cls.divZero ∧ A .rem 0x0E Cls.divZero) ∧
    (¬ (v.tag = Tag.int ∧ w.tag = Tag.int) →
      A .mul 0x0B Cls.tagCheck ∧ A .mulh 0x0C Cls.tagCheck ∧ A .div 0x0D Cls.tagCheck ∧ A .rem 0x0E Cls.tagCheck)

/-- R271: AND, OR and XOR of words that are not RAW or INT, and shifts of such a word or by a word that is not INT, take
TAG_CHECK. -/
def Sys2Proof.Say.LogicRefused : Prop :=
  ∀ (s : State) (x : Syl) (c : Ctx) (b : Bundle) (v w : TWord), Operands2 s x c b v w →
    let A := fun i op => FailsA i s x c b op Cls.tagCheck
    (¬ (PlainTag v.tag ∧ PlainTag w.tag) → A .bitAnd 0x10 ∧ A .bitOr 0x11 ∧ A .bitXor 0x12) ∧
    (¬ (PlainTag v.tag ∧ w.tag = Tag.int) → A .shl 0x14 ∧ A .shr 0x15 ∧ A .sar 0x16)

/-- R269, R271: CMP of words of two tags, or of a tag that it does not take, NOT and NEG take TAG_CHECK. -/
def Sys2Proof.Say.OperandsRefused : Prop :=
  ∀ (s : State) (x : Syl) (c : Ctx) (b : Bundle) (v w : TWord),
    let A := fun i op => FailsA i s x c b op Cls.tagCheck
    (Operands2 s x c b v w → ¬ (v.tag = w.tag ∧ (v.tag = Tag.int ∨ AddrTag v.tag)) → A .cmp 0x18) ∧
    (Operand1 x c v → (¬ PlainTag v.tag → A .bitNot 0x13) ∧ (v.tag ≠ Tag.int → A .neg 0x17))

/-- R242, R246: a RET word does not leave the return stack by RPOP or RCOPY, and an index register takes only a PTR: each
takes TAG_CHECK. LEA of a literal is an illegal bundle. -/
def Sys2Proof.Say.MovesRefused : Prop :=
  ∀ (s : State) (x : Syl) (c : Ctx) (b : Bundle),
    let A := fun i op e => FailsA i s x c b op e
    (∀ u l, x.operand = 0 → c.acc = false → c.r.rs.items = u :: l → HasRoom c c.r 1 → u.tag = Tag.ret →
      A .rpop 0x1B Cls.tagCheck ∧ A .rcopy 0x1C Cls.tagCheck) ∧
    (x.operand = 0 → c.r.acc.tag ≠ Tag.ptr → A .tax0 0x20 Cls.tagCheck ∧ A .tax1 0x21 Cls.tagCheck) ∧
    (amode x = 3 → A .lea 0x24 Cls.illegal)

/-- R220, R246, R273: LDX0 and LDX1 of a word that is no PTR, and a partial store of a word that is neither RAW nor INT, take
TAG_CHECK. -/
def Sys2Proof.Say.AccessesRefused : Prop :=
  ∀ (s : State) (x : Syl) (c : Ctx) (b : Bundle) (p : Word64) (r : CpuRegs) (w : TWord), Address c x p r →
    (loadWord (viewOf s b) (key x / 64) c.r.level p x.upset false = .ok w → w.tag ≠ Tag.ptr → HasRoom c r 1 →
      let e : Exc := { cls := Cls.tagCheck, faddr := p.toNat }
      (Ready s x 2 0x22 true c b → Takes (.ldx0 x) s x 2 0x22 e) ∧
      (Ready s x 2 0x23 true c b → Takes (.ldx1 x) s x 2 0x23 e)) ∧
    (∀ rest, c.acc = false → r.ds.items = w :: rest → 8 * (rest.length + 2) ≤ r.ds.size → ¬ PlainTag w.tag →
      (Ready s x 2 0x07 true c b → TakesClass (.st8 x) s x 2 0x07 Cls.tagCheck) ∧
      (Ready s x 2 0x08 true c b → TakesClass (.st16 x) s x 2 0x08 Cls.tagCheck) ∧
      (Ready s x 2 0x09 true c b → TakesClass (.st32 x) s x 2 0x09 Cls.tagCheck))

/-- R278, R320: LDR of an address outside the tagged memories takes MPU with DETAIL 10; TAS of a word that is neither RAW nor
INT takes TAG_CHECK; REGP of a region that is off, or above the level, takes MPU with DETAIL 9. -/
def Sys2Proof.Say.AtomicsRefused : Prop :=
  (∀ (s : State) (x : Syl) (c : Ctx) (b : Bundle) (p : Word64) (r : CpuRegs) (a : Nat) (w : TWord), Address c x p r →
    let mem := rangeOf a = some 1 ∨ rangeOf a = some 6 ∨ rangeOf a = some 7
    let v := viewOf s b
    let i := key x / 64
    (accessCheck v i c.r.level p 8 .r = .ok a → ¬ mem → Ready s x 2 0x0B true c b →
      Takes (.ldr x) s x 2 0x0B { cls := Cls.mpu, detail := 10, faddr := a }) ∧
    (accessCheck v i c.r.level p 8 .rw = .ok a → mem → HasRoom c r 1 → fetchWord v a x.upset = .ok w →
      ¬ PlainTag w.tag → Ready s x 2 0x0D true c b →
        Takes (.tas x) s x 2 0x0D { cls := Cls.tagCheck, faddr := a })) ∧
  (∀ (s : State) (x : Syl) (c : Ctx) (b : Bundle) (n : Nat), n < 16 →
    (c.acc = true → amode x = 3 ∧ fld x.operand.toNat 0 18 = n) → (c.acc = false → x.operand.toNat = n) →
    let g := ((viewOf s b).mpuSet (if c.r.level.val = 2 then 0 else key x / 64)).region n
    ¬ (rgnEn g = true ∧ rgnMin g ≤ c.r.level.val) → Ready s x 2 0x0F true c b →
      Takes (.regp x) s x 2 0x0F { cls := Cls.mpu, detail := 9, freeAddr := true })

/-- R241, R282, R312, R317: CALLI and JMPI of a word not tagged CODE take TAG_CHECK. RET of a word that the shadow stack does not
confirm takes SHADOW. GRET takes what stands against its return. -/
def Sys2Proof.Say.CallsRefused : Prop :=
  ∀ (s : State) (x : Syl) (c : Ctx) (b : Bundle),
    (x.operand = 0 → ∀ (w : TWord) l, OnTop c w l → w.tag ≠ Tag.code →
      (Ready s x 3 0x11 false c b → TakesClass (.calli x) s x 3 0x11 Cls.tagCheck) ∧
      (Ready s x 3 0x12 false c b → TakesClass (.jmpi x) s x 3 0x12 Cls.tagCheck)) ∧
    (x.operand = 0 → ∀ w rest, c.r.rs.items = w :: rest → Ready s x 3 0x13 false c b →
      let shadow := fun d => Takes (.ret x) s x 3 0x13 { cls := Cls.shadow, detail := d, faddr := w.data.toNat }
      (w.tag ≠ Tag.ret → TakesClass (.ret x) s x 3 0x13 Cls.tagCheck) ∧
      (w.tag = Tag.ret → ∀ a sh, c.shadow = .call a :: sh → w.data.toNat ≠ a → shadow 1) ∧
      (w.tag = Tag.ret → (∀ a sh, c.shadow ≠ .call a :: sh) → shadow 2)) ∧
    (x.operand = 0 → Ready s x 3 0x19 true c b → ∀ e, gretAct (viewOf s b) (key x) c x.upset = .error e →
      Takes (.gret x) s x 3 0x19 e)

/-- R283: DADD, DSUB and DCMP of words that are not both DEC take TAG_CHECK; DMUL10 of more than 9 takes DEC_DIGIT. -/
def Sys2Proof.Say.DecimalsRefused : Prop :=
  ∀ (s : State) (x : Syl) (c : Ctx) (b : Bundle) (v w : TWord), Operands2 s x c b v w →
    let D := fun i op e => FailsD i s x c b op e
    (¬ (v.tag = Tag.dec ∧ w.tag = Tag.dec) →
      D .dadd 0x00 Cls.tagCheck ∧ D .dsub 0x01 Cls.tagCheck ∧ D .dcmp 0x06 Cls.tagCheck) ∧
    (v.tag = Tag.dec → w.tag = Tag.int → 9 < w.data.toNat → D .dmul10 0x02 Cls.decDigit)

/-- R283-R286: what the conversions refuse: a number past 15 digits and a word with no decimal digits (DEC_DIGIT), another tag
(TAG_CHECK), and a slot that is not the instance's (MPU, DETAIL 7). -/
def Sys2Proof.Say.ConversionsRefused : Prop :=
  ∀ (s : State) (x : Syl) (c : Ctx) (b : Bundle) (v : TWord), Operand1 x c v →
    let D := fun i op e => FailsD i s x c b op e
    let d := v.data
    (v.tag = Tag.int →
      (10 ^ 15 ≤ d.toInt.natAbs → D .bin2dec 0x08 Cls.decDigit) ∧
      (opDadj c.r d = none → D .dadj 0x05 Cls.decDigit) ∧
      (¬ (d.toNat < 4096 ∧ keySlotIn (viewOf s b) (key x / 64) d.toNat = true) → Ready s x 4 0x10 (opdMem s x) c b →
        Takes (.khandle x) s x 4 0x10 { cls := Cls.mpu, detail := 7, freeAddr := true })) ∧
    (v.tag = Tag.raw → decValid d = false → D .todec 0x0A Cls.decDigit) ∧
    (¬ (PlainTag v.tag ∨ v.tag = Tag.time) → D .toint 0x0B Cls.tagCheck) ∧
    (¬ PlainTag v.tag → D .totime 0x0C Cls.tagCheck) ∧
    (v.tag = Tag.poison → D .toraw 0x0D Cls.tagCheck)

/-- R260, R264, R289, R290: WAITT and TESTT of a word that names no ticket of the instance take its exception. -/
def Sys2Proof.Say.WaitsRefused : Prop :=
  ∀ (s : State) (x : Syl) (c : Ctx) (b : Bundle) (w : TWord) (l : List TWord) (e : Exc), x.operand = 0 → OnTop c w l →
    ticketOf (viewOf s b) (key x / 64) w = .error e →
    (Ready s x 5 0x00 (s.ctx (key x)).acc c b → Takes (.waitt x) s x 5 0x00 e) ∧
    (Ready s x 5 0x01 false c b → Takes (.testt x) s x 5 0x01 e)

/-! ## Engines and rings -/

/-- R265, R291, R295, R422: a request with an argument out of range ends with ARG_INVALID; SIGN delivers the signature of the
message under the slot's key; VERIFY ends OK where the signature is right and AUTH_FAIL where it is not. A TIME whose target
is ahead goes on waiting, and a WAITT that waits runs as the WAITT syllable does. -/
def Sys2Proof.Say.EnginesEnd : Prop :=
  (∀ (s : State) (n m : Fin 64) (x : Syl),
    let k := ctxKey n.val m.val
    (s.ctx k).run = .running → (s.ctx k).waiting = some x →
    exec (.waittResume n m) s = exec (.waitt x) (s.setCtx k { s.ctx k with waiting := none })) ∧
  (∀ (s : State) (n : Fin 64) (t : Byte) (data : List Payload) (w : TWord) (g : Nat),
    let k := s.tk n.val t.toNat
    k.used = true → k.done = false → k.op = .x 0x51 1 [w] data g → s.kpr.devtime.toNat < w.data.toNat →
    Leaves (.timeWaitReached n t) s s) ∧
  (∀ (s v : State) (i : Fin 64) (t : Byte) (e : EngineEnv) (sel : Nat) (args : List TWord) (data ps : List Payload) (g : Nat),
    let u := arbitrate s
    let k := u.tk i.val t.toNat
    let o := fun code => Op.x code sel args data g
    let bytes := fun n => (ps.getD n ⟨0, []⟩).bytes
    let took := fun code => k.op = o code ∧ srcBusy u (o code) = false ∧
      takeSources u (some i.val) (o code) e.upset e.memUpset = (.ok ps, v)
    let ends := fun w => Leaves (.engineCompletion i t e) s (arbitrate w)
    k.used = true → k.done = false → u.pwr.flush = 0 → granted u i.val t.toNat = true →
    (k.op = o 0x30 → srcBusy u (o 0x30) = false → digestLen (o 0x30) = none →
      ends (u.tkDone i.val t.toNat St.argInvalid)) ∧
    (took 0x28 → sel = 5 → (o 0x28).num 3 ≤ 65536 → sigLen 5 ≤ (o 0x28).num 5 → slotsReady u = true →
      e.fault = false → e.busErr = false →
      let w := ((o 0x28).word 1).data
      slotCheck v i.val (kOwner w) (kSlot w) (· == 0x15) = St.ok →
      ends (deliverTo (v.incReg Reg.PKE_SIGNS) i.val t.toNat ((o 0x28).num 4)
        (rawPayload (signature 5 (v.slot (kSlot w)).v (bytes 0) [])) e.destUpset (sigLen 5))) ∧
    (took 0x29 → ((o 0x29).word 1).tag ≠ Tag.keyh → 1 ≤ sel → sel ≤ 8 → (o 0x29).num 4 ≤ 65536 →
      (o 0x29).num 6 = sigLen sel →
      ends ((v.incReg Reg.PKE_VERIFIES).tkDone i.val t.toNat
        (if sigVerify sel (bytes 0) (bytes 1) (bytes 2) = true then St.ok else St.authFail))))

/-- R396, R401: while the slots are not free, a QPUT that waits on a ring goes on waiting; an entry longer than the capacity of a
QGET stays in the ring, and the QGET completes with ARG_INVALID. -/
def Sys2Proof.Say.RingWaitersStay : Prop :=
  (∀ (s u : State) (r : Fin 4096) (i t sel : Nat) (args : List TWord) (data : List Payload) (g : Nat) (p : Payload),
    let x := s.ring r.val
    let o := Op.x 0x10 sel args data g
    let n := o.num 3
    ringWaiter s r.val 0x10 = some (i, t) → (s.tk i t).op = o → o.num 1 = r.val → ringBound s i r.val = true →
    x.en = true → x.outbound = true → x.inHost = false → x.st = 1 → 1 ≤ n → n ≤ 16 → srcBusy s o = false →
    takeSources s (some i) o false = (.ok [p], u) → countOk x p n = true → x.free < n → sel % 2 = 1 →
    (i, t) ∈ (u.ring r.val).waiters → Leaves (.qputWaitSatisfied r) s u) ∧
  (∀ (s : State) (r : Fin 4096) (h : HostFetch) (i t sel n : Nat) (args : List TWord) (data : List Payload) (g : Nat)
    (ls : List Nat),
    let x := s.ring r.val
    let o := Op.x 0x11 sel args data g
    ringWaiter s r.val 0x11 = some (i, t) → x.waiters.head? = some (i, t) → (s.tk i t).op = o → o.num 1 = r.val →
    ringBound s i r.val = true → x.en = true → x.outbound = false → x.inHost = false → x.st = 1 → 1 ≤ o.num 3 →
    o.num 3 ≤ 16 → x.used ≠ 0 → x.lens = n :: ls → o.num 3 < n →
    Leaves (.qgetWaitSatisfied r h) s ((ringUnwait s i t r.val).tkDone i t St.argInvalid))

/-- R111: while a flush runs, a further loss changes nothing; while an admitted commit has no mark, neither do the end of the
marks and the stop. -/
def Sys2Proof.Say.NoLoss : Prop :=
  ∀ s : State,
    (s.pwr.flush ≠ 0 → Leaves .mainLoss s s ∧ Leaves .shortDip s s) ∧
    (s.tdl.admitted ≠ [] → Leaves .flushMarksWritten s s ∧ Leaves .deviceStop s s)

/-! ## Services -/

/-- R68, R71, R382: a service whose mode does not offer it ends MODE_REFUSED; in Terminated every service but the
statement ends TERMINATED; a code of no service ends ARG_INVALID; and a call while one is in progress is ignored. -/
def Sys2Proof.Say.ServicesAreRefused : Prop :=
  ∀ (s : State) (code : Byte) (req : List Byte) (r : FlopEnv), s.pwr.up = true → s.mode ≠ Mode.starting →
    let calls : List (Instr × Byte × List Word4) :=
      [(.persoBegin req, 0x01, [Mode.blank]), (.persoTagid req, 0x02, [Mode.personalise]),
        (.persoKeygen req, 0x03, [Mode.personalise]), (.persoCert req, 0x04, [Mode.personalise]),
        (.persoImage req r, 0x05, [Mode.personalise]), (.persoClose req, 0x06, [Mode.personalise]),
        (.readEvidence req, 0x10, [Mode.recovery]), (.attest req, 0x11, [Mode.recovery, Mode.terminated]),
        (.imageWrite req r, 0x12, [Mode.recovery]), (.imageSwap req, 0x13, [Mode.recovery]),
        (.recoveryExit req, 0x14, [Mode.recovery]), (.nonce req, 0x15, [Mode.recovery])]
    (svcBusy s = true → (∀ p ∈ calls, Leaves p.1 s s) ∧ Leaves (.svcCodeUnknown code) s s) ∧
    (svcBusy s = false →
      (s.terminated = false → ∀ p ∈ calls, s.mode ∉ p.2.2 →
        ∃ t, Leaves p.1 s t ∧ t.host.svcStat = St.modeRefused ∧ t.host.svcCode = p.2.1 ∧ t.kpr.mode = s.kpr.mode ∧
          t.otp = s.otp ∧ t.mem = s.mem ∧ t.dur = s.dur) ∧
      (s.terminated = true → ∀ p ∈ calls, p.2.1 ≠ 0x11 → ∃ t, Leaves p.1 s t ∧ t.host.svcStat = St.terminated))

/-- R382, R450, R453-R455, R461, R472, R487, R488: what a service answers where it cannot be done, and what holds it until the
replay is complete or the expander serves again. -/
def Sys2Proof.Say.ServicesEndOtherwise : Prop :=
  ∀ (s : State) (req : List Byte), s.pwr.up = true → svcBusy s = false →
    let ends := fun c st => ∃ t, Leaves c s t ∧ t.host.svcStat = st ∧ t.otp = s.otp ∧ t.mem = s.mem
    let held := fun c code => let u := called s req code; Leaves c s { u with host := { u.host with svcHeld := true } }
    (s.mode = Mode.personalise →
      (s.otp.tagged = true → req.length = 8 → ends (.persoTagid req) St.notErased) ∧
      (req.length ≠ 8 → ends (.persoTagid req) St.argInvalid) ∧
      (s.rng.fatal = true → ends (.persoKeygen req) St.rngFatal) ∧
      (s.rng.fatal = false → 2 ^ 24 < s.rng.q + 4 → s.rng.seedReady = false → held (.persoKeygen req) 0x03) ∧
      (let p := getLe req 0 1
       4 < req.length → slice req 1 3 = zeros 3 → certPlace p = true → p ≠ 0x50 →
       Config.certParses (req.drop 4) = true →
        ((∀ q ∈ s.otp.certs, q.1 ≠ p) → ∃ t, Leaves (.persoCert req) s t ∧ t.host.svcStat = St.ok ∧
          sget (fun _ => []) t.otp.certs p = req.drop 4) ∧
        ((∃ q ∈ s.otp.certs, q.1 = p) → ends (.persoCert req) St.notErased))) ∧
    (s.mode = Mode.recovery →
      (64 ≤ s.otp.swapCtr → ends (.imageSwap req) St.swapExhausted) ∧
      (1024 ≤ s.otp.rpSet → ends (.recoveryExit req) St.modeRefused) ∧
      (req.length ≠ 32 → ends (.attest req) St.argInvalid) ∧
      (req.length ≠ 64 → ends (.readEvidence req) St.argInvalid) ∧
      (s.kpr.replayDone = false → req.length = 64 → 1 ≤ getLe req 0 1 → getLe req 0 1 ≤ 5 → getLe req 1 1 < 64 →
        held (.readEvidence req) 0x10) ∧
      (∀ r, (req.length ≤ 8 → ends (.imageWrite req r) St.argInvalid) ∧
        (WritesSegment s (!s.kpr.bootsel) req r → s.cfl.swapped = true → ends (.imageWrite req r) St.swapPending)))

/-! ## The air link -/

/-- R164, R172, R176: a frame is nothing to a tag whose link does not run, nor to a reader, nor after a main loss; one
with a wrong FCS, too long or for another tag is only counted; and one that finds the tag in a state that its command
does not act in is only counted as received. -/
def Sys2Proof.Say.FramesAreFiltered : Prop :=
  ∀ (s : State) (f : AirFrame) (p : Instr × Byte), p ∈ frameRows f →
    (airEnabled s = false ∨ readerRole s = true ∨ s.pwr.flush ≠ 0 ∨ f.cmd ≠ p.2 → Leaves p.1 s s) ∧
    (Hears s f → f.cmd = p.2 → f.fcsOk = false ∨ 256 < f.payload.length ∨ (f.dest ≠ tagId s ∧ f.dest ≠ broadcast) →
      Leaves p.1 s (s.incReg Reg.AIR_FCSERR)) ∧
    (Good s f → f.cmd = p.2 → p.2 ≠ 1 → s.air.tstate = 0 ∨ s.air.tstate = 3 ∨ f.channel.val ≠ s.air.channel →
      Leaves p.1 s (rx s))

/-- R175, R185: the frames that leave a tag in its state, the timeout of a tag that is not Active, and the loss of a field
that does not find it in Ready, Active or Halted. -/
def Sys2Proof.Say.StatesThatStay : Prop :=
  ∀ (s : State) (f : AirFrame),
    (Good s f → f.cmd = 0x01 →
      let id := BitVec.ofNat 64 (getLe f.payload 0 8)
      f.dest ≠ broadcast ∨ f.payload.length ≠ 8 ∨ s.air.tstate = 2 ∨ (s.air.tstate = 1 ∧ id = s.air.reader) ∨
        (s.air.tstate = 3 ∧ id = s.air.reader ∧ f.flags.getLsbD 2 = false) → Leaves (.airWake f) s (rx s)) ∧
    (Good s f → f.cmd = 0x02 → getLe f.payload 1 8 ≠ (tagId s).toNat % 2 ^ getLe f.payload 0 1 ∨ s.air.tstate = 2 →
      Leaves (.airIdent f) s (rx s)) ∧
    (s.air.tstate ≠ 2 → Leaves .activeTimeout s s) ∧
    (s.air.tstate = 0 → Leaves .fieldLoss s { s with air := { s.air with field := false } })

/-- R177, R179, R195-R198: what an Active tag answers where it cannot serve. -/
def Sys2Proof.Say.AnswersOtherwise : Prop :=
  ∀ (s : State) (f : AirFrame),
    let a := getLe f.payload 0 1
    let x := s.area a
    let off := getLe f.payload 1 2
    let n := getLe f.payload 3 2
    let ans := fun c st => Answers c s f st [] fun _ => True
    (Clear s f → s.air.tstate = 2 →
      (f.cmd = 0x10 →
        (s.kpr.replayDone = false → ans (.airRead f) St.starting) ∧
        (s.kpr.replayDone = true →
          (63 < a ∨ x.size = 0 → ans (.airRead f) St.areaAbsent) ∧
          (a ≤ 63 → x.size ≠ 0 →
            ((x.read = 1 ∧ a ∉ s.air.unlocked) ∨ 1 < x.read → ans (.airRead f) St.accessDenied) ∧
            (x.read = 0 ∨ (x.read = 1 ∧ a ∈ s.air.unlocked) → x.size < off + n ∨ 248 < n →
              ans (.airRead f) St.areaRange)))) ∧
      (f.cmd = 0x20 → 15 < a ∨ airBinding s a = none → ans (.airApp f) St.accessDenied) ∧
      (f.cmd = 0x06 → f.payload = [f.seq] → s.air.kept.find? (·.seq == f.seq) = none →
        ans (.getResult f) (if airBusy s f.seq = true then St.pending else St.cmdUnknown))) ∧
    (Good s f → f.cmd ∉ ([1, 2, 3, 4, 5, 6, 7, 0x10, 0x11, 0x12, 0x20] : List Byte) → s.air.tstate = 0 →
      Leaves (.unknownCommand f) s (rx s)) ∧
    (f.cmd ∈ ([1, 2, 3, 4, 5, 6, 7, 0x10, 0x11, 0x12, 0x20] : List Byte) → Leaves (.unknownCommand f) s s)

/-- R171, R176, R184, R195: a sealed frame. Where no context is bound to the reader, and for SELECT, it is answered
ACCESS_DENIED; with a bound context it takes a counter value, and is served with the payload that opens, or is answered
ACCESS_DENIED. -/
def Sys2Proof.Say.SealedFrames : Prop :=
  ∀ (s : State) (f : AirFrame), ForMe s f → f.flags.getLsbD 0 = true →
    (f.cmd = 0x03 → s.air.tstate = 1 → Answers (.airSelect f) s f St.accessDenied [] fun _ => True) ∧
    (s.air.tstate = 2 →
      ∀ p ∈ ([(.airDeselect f, 0x04), (.airHalt f, 0x05), (.airPing f, 0x07), (.airRead f, 0x10), (.airWrite f, 0x11),
        (.airPwd f, 0x12)] : List (Instr × Byte)), f.cmd = p.2 → s.kpr.replayDone = true →
        let v := sameSeq (rx s) f.seq
        (boundKey v v.air.reader = none → Answers p.1 s f St.accessDenied [] fun _ => True) ∧
        (∀ k key c e u, boundKey v v.air.reader = some (k, key) → airCounter v k = (some c, e, u) →
          (∀ d, airUnseal key (downHeader f f.payload.length) f.payload = some d →
            Leaves p.1 s (if f.cmd.toNat < 0x10 then airLinkCmd u f d (some k) else airServe u { f := f } d (some k))) ∧
          (airUnseal key (downHeader f f.payload.length) f.payload = none →
            Leaves p.1 s (airResult u false true false ⟨f.seq, St.accessDenied, [], none, f.flags.getLsbD 1⟩))))

/-- R195, R197, R201, R203, R207, R211: what a WRITE or PWD in clear is answered where it cannot begin; one that finds the
area's lock taken waits. -/
def Sys2Proof.Say.AirWritesRefused : Prop :=
  ∀ (s : State) (f : AirFrame), Clear s f → s.air.tstate = 2 → s.terminated = false →
    let a := getLe f.payload 0 1
    let x := s.area a
    let off := getLe f.payload 1 2
    let ver := getLe f.payload 3 8
    let d := f.payload.drop 11
    (f.cmd = 0x11 →
      let ans := fun st => Answers (.airWrite f) s f st [] fun _ => True
      (63 < a ∨ x.size = 0 → ans St.areaAbsent) ∧
      (a ≤ 63 → x.size ≠ 0 →
        (1 < x.write ∨ (x.write = 1 ∧ a ∉ s.air.unlocked) → ans St.accessDenied) ∧
        (x.write = 0 ∨ (x.write = 1 ∧ a ∈ s.air.unlocked) →
          (x.size < off + d.length → ans St.areaRange) ∧
          (off + d.length ≤ x.size →
            (fieldMay s a = false →
              ∃ t o, Leaves (.airWrite f) s t ∧ t.air.ops.getLast? = some o ∧ o.area = a ∧ o.stage = 0 ∧ o.pwd = false ∧
                t.tdl = s.tdl ∧ t.dur = s.dur ∧ t.outbox = s.outbox) ∧
            (fieldMay s a = true →
              let short := dwellShort (rx s) (f.flags.getLsbD 1) 8 (shadowMode s)
              (short = true → ans St.dwellShort) ∧
              (short = false → ver ≠ 0 → ver ≠ x.newest.1 → ans St.versionConflict)))))) ∧
    (f.cmd = 0x12 →
      let ans := fun st p => Answers (.airPwd f) s f st p fun _ => True
      (s.kpr.replayDone = false → ans St.starting []) ∧
      (s.kpr.replayDone = true →
        (63 < a ∨ x.size = 0 → ans St.areaAbsent []) ∧
        (a ≤ 63 → x.size ≠ 0 →
          (x.password = 0 → ans St.accessDenied []) ∧
          (x.password ≠ 0 →
            (x.limit ≤ x.attempts → ans St.pwLocked [0]) ∧
            (x.attempts < x.limit → x.openClear = false → ans St.pwClearRefused [])))))

/-- R179, R183, R203, R205, R211: the events that find no command of the field to act on, and the entries of an application
that answer none. -/
def Sys2Proof.Say.CommandsWait : Prop :=
  ∀ s : State,
    (∀ q, s.air.tstate ≠ 2 → Leaves (.resultWindowExpiry q) s s) ∧
    (∀ a : Fin 64,
      (∀ b, s.air.ops.find? (fun o => o.area == a.val && o.stage == 3) = none → Leaves (.shadowWriteComplete a b) s s) ∧
      (s.air.ops.find? (fun o => o.area == a.val && o.stage == 0) = none ∨ fieldMay s a.val = false →
        Leaves (.areaLockGrant a) s s)) ∧
    (s.mode ≠ Mode.service ∨ s.admits = false → Leaves .foldShadows s s) ∧
    (∀ b : Fin 16,
      (airBinding s b.val = none ∨ readerRole s = true → Leaves (.appReply b) s s) ∧
      (∀ i r r' u, airBinding s b.val = some (i, r, r') → readerRole s = false →
        (takeRing s r' = (none, u) → Leaves (.appReply b) s u) ∧
        (∀ p, takeRing s r' = (some p, u) →
          u.air.apps.find? (fun a => a.b == b.val && a.seq == p.bytes.getD 0x0A 0) = none →
            Leaves (.appReply b) s (u.incReg Reg.AIR_DROPPED))))

/-- R15, R163, R164, R199: without the keeper ENABLE stays; in the modes where the link does not run only the bit changes; a
sample is kept in Service only, and not at all by a reader or without the link. -/
def Sys2Proof.Say.LinkStays : Prop :=
  ∀ s : State,
    (∀ ok, (s.kpr.running = false → Leaves (.airEnable ok) s s) ∧
      (s.kpr.running = true → s.mode ≠ Mode.workshop → s.mode ≠ Mode.service →
        Leaves (.airEnable ok) s (s.setReg Reg.AIR_CTRL (s.reg Reg.AIR_CTRL ||| 1)))) ∧
    (s.kpr.running = false → Leaves .airDisable s s) ∧
    (∀ x, (airEnabled s = false ∨ readerRole s = true → Leaves (.readerSignalSample x) s s) ∧
      (airEnabled s = true → readerRole s = false → s.mode ≠ Mode.service →
        Leaves (.readerSignalSample x) s { s with air := { s.air with field := decide (floorCdb s < x) } }))

/-- R181, R187, R192, R193: the events of a reader that find nothing to do; a reply that is not the awaited one; an inventory
round whose replies collide in two places, which splits its prefix at the lower; and a probe after which the base follows
the return loss. -/
def Sys2Proof.Say.ReaderWaits : Prop :=
  ∀ (s : State) (b : Fin 16),
    (airBinding s b.val = none ∨ readerRole s = false ∨ airEnabled s = false ∨ s.pwr.flush ≠ 0 ∨
      (s.air.sent.any fun q => q.1 == b.val) = true → Leaves (.readerCommandSend b) s s) ∧
    (s.air.sent.find? (·.1 == b.val) = none →
      (∀ f, Leaves (.readerReplyReceived b f) s s) ∧ Leaves (.readerReplyTimeout b) s s) ∧
    (∀ c, s.air.sent.find? (·.1 == b.val) = some (b.val, c) →
      ∀ f, f.src ≠ c.peer ∨ f.seq ≠ c.seq → Leaves (.readerReplyReceived b f) s s) ∧
    (∀ r l, airEnabled s = false ∨ readerRole s = false ∨ s.air.waiting = true ∨ s.regBit Reg.AIR_INV 16 = false →
      Leaves (.inventoryRound r l) s s) ∧
    (∀ (r : IdentReply) l plen pre rest, airEnabled s = true → readerRole s = true → s.air.waiting = false →
      s.regBit Reg.AIR_INV 16 = true → s.air.invStack = (plen, pre) :: rest → r.silent = false →
      ∀ c0 c1, r.collided = [c0, c1] →
        let c := min c0.val c1.val
        let low := r.id &&& ((1#64 <<< c) - 1)
        ∃ t, Leaves (.inventoryRound r l) s t ∧
          t.air.invStack = (c + 1, low) :: (c + 1, low ||| (1#64 <<< c)) :: rest) ∧
    (readerRole s = false ∨ s.regBit Reg.AIR_CTRL 4 = false → Leaves .waitModeEntry s s) ∧
    (∀ x, (∀ o, s.air.waiting = false → Leaves (.waitProbe x o) s s) ∧
      (s.air.waiting = true → airEnabled s = true → readerRole s = true → s.air.probes = [] →
        Leaves (.waitProbe x false) s
          (({ s with outbox := s.outbox ++ [.probe (s.regFld Reg.AIR_CTRL 8 2)]
                     air := { s.air with probes := [x] } } : State).setReg Reg.AIR_WAITBASE (BitVec.ofNat 32 (x % 65536)))))


/-! ## How contexts execute -/

/-- R226-R230, R332: how a bundle is fetched: the checks of its first code word in their order; an opcode that its unit has
not, in the model at the level, makes an illegal bundle; one that ends the bundle stands alone. -/
def Sys2Proof.Say.ABundleIsFetched : Prop :=
  ∀ (s : State) (i : Nat) (acc : Bool) (level : Fin 3) (pc : Nat),
    let fails := fun e => decodeAt s i acc level .none pc = .error (e, 0, 0)
    let mpu := fun d => fails { cls := Cls.mpu, detail := d, faddr := pc }
    (2 ^ 40 ≤ pc → mpu 6) ∧
    (pc < 2 ^ 40 → rangeOf pc = some 5 → mpu 8) ∧
    (pc < 2 ^ 40 → rangeOf pc ≠ some 5 →
      (pc % 4 ≠ 0 → mpu 2) ∧
      (pc % 4 = 0 →
        (∀ d, byteDenied s i level pc .x = some d → mpu d) ∧
        (byteDenied s i level pc .x = none →
          (∀ q, busyWord s pc = some q → fails { cls := Cls.fetchBusy, faddr := pc }) ∧
          (busyWord s pc = none → s.isBad pc = false →
            let t := s.rdTag (pc / 8 * 8)
            let w := sylAt s pc
            (t = Tag.poison → fails { cls := Cls.poison, faddr := pc / 8 * 8 }) ∧
            (t ≠ Tag.code → t ≠ Tag.poison → fails { cls := Cls.tagCheck, faddr := pc / 8 * 8 }) ∧
            (t = Tag.code →
              (opLegal (sylUnit w) (sylOp w) acc level false = false →
                decodeAt s i acc level .none pc = .error ({ cls := Cls.illegal, faddr := pc }, 0, BitVec.ofNat 64 w)) ∧
              (opLegal (sylUnit w) (sylOp w) acc level false = true → sylStop w = true →
                decodeAt s i acc level .none pc = .ok [w]))))))

/-- R229-R233, R255, R333: what comes before a syllable's own work. A bundle that does not decode is refused; otherwise the
syllable that its code word spells is counted in, and one that it does not spell changes nothing; the bundle keeps the
registers and the protection sets of its beginning. A unit C syllable in a loop's last bundle takes LOOP_FORM. -/
def Sys2Proof.Say.TheNextSyllable : Prop :=
  ∀ (s : State) (k unit op : Nat) (x : Syl) (mem : Bool),
    let c := s.ctx k
    let go := sylReady s k unit op x mem
    let code := decodeAt s (k / 64) c.acc c.r.level (if mem then .none else x.upset) c.r.pc
    let counts := fun (c : Ctx) (b : Bundle) =>
      (b.next ≠ some (sylCode x unit op) → go = .ok none) ∧
      (b.next = some (sylCode x unit op) →
        let b' := { b with count := b.count + (if x.ext.isSome then 2 else 1) }
        go = .ok (some ({ c with bundle := some b' }, b')))
    (∀ e, c.bundle = none → code = .error e → go = .error e) ∧
    (c.r.loops = [] →
      (∀ ws, c.bundle = none → code = .ok ws →
        counts { c with since := if k / 64 = 0 then none else c.since.or (some s.kpr.devtime) }
          { regs0 := c.r, shadow0 := c.shadow, code := ws, sets := [(0, s.mpuSet 0), (k / 64, s.mpuSet (k / 64))] }) ∧
      (∀ b, c.bundle = some b → counts c b)) ∧
    (∀ b l, unit = 3 → c.bundle = some b → b.next = some (sylCode x unit op) → inner c.r = some l → l.last = c.r.pc →
      go = .error ({ cls := Cls.loopForm, faddr := l.start }, b.count, sylWord x unit op))

/-- R234, R253, R255: where a bundle leads: to the next bundle, or to its target; into a loop that it starts; at the end of a
loop's body, to its start while passes remain. -/
def Sys2Proof.Say.WhereABundleLeads : Prop :=
  ∀ (s : State) (acc : Bool) (r : CpuRegs) (b : Bundle),
    let seq := r.pc + 4 * b.count
    (r.loops = [] →
      (b.newLoop = none → b.target = none → bundleNext s acc r b = .ok { r with pc := seq }) ∧
      (∀ a q, b.target = some (a, q) → bundleNext s acc r b = .ok { r with pc := a }) ∧
      (∀ n len, b.target = none → b.newLoop = some (n, len) →
        bundleNext s acc r b = .ok (if n = 0 then { r with pc := seq + 4 * len }
          else { r with pc := seq, loops := [{ start := seq, count := n, length := len, slot := 0 }] }))) ∧
    (∀ l, r.loops = [l] → l.last = r.pc → b.target = none → b.newLoop = none →
      bundleNext s acc r b = .ok (if l.count ≤ 1 then { r with pc := seq, loops := [] }
        else { r with pc := l.start, loops := [{ l with count := l.count - 1, passes := 0 }] }))

/-- R232-R234, R273: what a bundle changes as it commits. One without effects changes its context only; one whose effects are
stores leaves every byte outside them. -/
def Sys2Proof.Say.WhatABundleChanges : Prop :=
  ∀ (s : State) (k core : Nat) (c : Ctx) (b : Bundle) (r : CpuRegs), (s.inst (k / 64)).stopping = false → c.yielded = false →
    b.yields = false → c.run = .running → k ≠ keeperKey → b.newLoop = none →
    (b.pend = [] → commitBundle regStore regLoaded s k core c b r =
      { s.setCtx k { c with r := r, bundle := none } with freeCtr := s.freeCtr + 1 }) ∧
    ((∀ p ∈ b.pend, ∃ q, storeOf p = some q ∧ 0 < q.2 ∧ (q.2 ≤ 4 ∨ q.2 = 8)) →
      ∀ a, (∀ p ∈ b.pend, ∀ q, storeOf p = some q → ∀ j, j < q.2 → phys s a ≠ phys s (q.1 + j)) →
        (commitBundle regStore regLoaded s k core c b r).rdByte a = s.rdByte a)

/-- R322, R324-R326: an exception whose level is above MASK, and which the handler's table and stack take, enters its
handler. -/
def Sys2Proof.Say.HandlersAreEntered : Prop :=
  ∀ (s t : State) (k core : Nat) (e : Exc) (slot : Nat) (syl : Word64) (up : Upset),
    let c := (s.ctx k).undone
    let tbl := if c.r.level = 2 then 0 else k / 64
    let cause := causeWord 0 0 e.detail slot c.r.level.val (clsLevel e.cls) e.cls
    let u := { s with freeCtr := s.freeCtr + 1 }.setCtx k c
    e.unitHit = none → e.freeAddr = false → e.cls ≠ Cls.shadow → c.r.mask.toNat < clsLevel e.cls →
    (k = keeperKey → c.r.mask ≠ 7) →
    enterHandler u tbl k core c (frameWords (k / 64) (k % 64) core c cause e.faddr syl) (clsLevel e.cls) false up = .ok t →
    t.mode = s.mode →
      takeException s k core e slot syl up = t.statInc (instStat (k / 64) 0x30) ∧
      ∀ g, readGate s tbl 256 = some g → c.r.ds.items = [] → c.r.rs.items = [] → c.r.ds.mem = 0 → c.r.rs.mem = 0 →
        Entered s t tbl k core c g cause e.faddr syl (clsLevel e.cls)

/-- R322, R328: an exception that is not above MASK, or whose table has no handler, escalates: the context is held, and the
keeper core takes it once its MASK allows. In keeper code at MASK 7 it is fatal. -/
def Sys2Proof.Say.ExceptionsEscalate : Prop :=
  ∀ (s : State) (k core : Nat) (e : Exc) (slot : Nat) (syl : Word64) (up : Upset),
    let c := (s.ctx k).undone
    let tbl := if c.r.level = 2 then 0 else k / 64
    let u := { s with freeCtr := s.freeCtr + 1 }.setCtx k c
    let t := takeException s k core e slot syl up
    e.unitHit = none → e.freeAddr = false → e.cls ≠ Cls.shadow →
    (k = keeperKey → c.r.mask = 7 → t = fatalEscalation u e.cls e.detail c.r.pc) ∧
    ((k = keeperKey → c.r.mask ≠ 7) →
      (clsLevel e.cls ≤ c.r.mask.toNat ∨ (gateFault s tbl 256 up = none ∧ readGate s tbl 256 = none) →
        t = escalate u k core e slot syl) ∧
      (k ≠ keeperKey → clsLevel e.cls ≤ c.r.mask.toNat → (s.ctx keeperKey).undone.r.mask = 7 → s.escQ = [] →
        (t.ctx k).run = .held ∧ t.mem = s.mem ∧
          t.escQ = [{ ctx := k, cls := e.cls, detail := e.detail, faddr := e.faddr, slot := slot, syl := syl, core := core }]))

/-- R306, R321: with nothing pending, or with a context that takes nothing, no interrupt is taken. -/
def Sys2Proof.Say.NoInterrupt : Prop :=
  ∀ (s : State) (i c : Fin 64) (core : Fin 13),
    irqNext s i.val = none ∨ (s.inst i.val).irq = [] ∨ (s.ctx (ctxKey i.val c.val)).r.mask = 7 ∨ s.pwr.flush ≠ 0 →
      Leaves (.interruptTaken i c core) s s

/-- R306, R328, R349: a slice ends for a context of an instance that executes only, and keeper-gate code keeps its
reservation; ESC_CTRL acts by the keeper on a held context only. -/
def Sys2Proof.Say.SlicesThatStay : Prop :=
  ∀ (s : State) (i c : Fin 64),
    let k := ctxKey i.val c.val
    let x := s.ctx k
    (i = 0 ∨ x.run ≠ .running ∨ x.waiting ≠ none → Leaves (.timeSliceEnd i c) s s) ∧
    (i ≠ 0 → x.run = .running → x.waiting = none → x.r.level = 2 →
      ∃ t, Leaves (.timeSliceEnd i c) s t ∧ t.ctx k = { x with since := none } ∧ t.mem = s.mem) ∧
    (s.kpr.running = false ∨ i = 0 ∨ x.run ≠ .held → Leaves (.escResume i c) s s ∧ Leaves (.escHalt i c) s s) ∧
    ((s.inst i.val).state ≠ 2 → (s.inst i.val).state ≠ 3 → Leaves (.escHalt i c) s s)

/-! ## Flash -/

/-- R476, R483, R489, R491: an array with no operation ends none; an erase that does not verify marks its sector ERASE_FAIL;
a boot swap of an image that does not verify changes nothing; no stress grows without supply, and only the keeper adds to
it. -/
def Sys2Proof.Say.FlashEndsOtherwise : Prop :=
  (∀ (s : State) (k : Fin 4) (e : FlopEnv), s.cfl.busy.find? (·.1 == k.val) = none → Leaves (.flopComplete k e) s s) ∧
  (∀ (s : State) (k : Fin 4) (r : FlopRun) (e : FlopEnv), s.cfl.busy.find? (·.1 == k.val) = some (k.val, r) →
    Waits s r.inst r.ticket →
    (r.sel = 3 → e.ok = false → ∃ t, Leaves (.flopComplete k e) s t ∧ FlopEnded t k.val r e St.eraseFail ∧
      (t.sector (sectorOf r.addr)).efail = true) ∧
    (r.sel = 5 → r.first = false → imageOk s (!s.kpr.bootsel) = false → e.second = true →
      ∃ t, Leaves (.flopComplete k e) s t ∧ FlopEnded t k.val r e St.imageInvalid ∧ t.otp = s.otp ∧
        t.cfl.swapped = s.cfl.swapped)) ∧
  (∀ s : State, (s.pwr.up = false ∨ s.pwr.flush ≠ 0 → Leaves .retentionStressUpdate s s) ∧
    (s.kpr.running = false → ∀ h, Leaves (.rsadd h) s s))

/-- R500-R505: a block that holds no evidence, and one below the refresh threshold, stays; with no block in the pool a
refresh is only noted; a block at the retirement threshold retires; no seal is written that is not decided. -/
def Sys2Proof.Say.BlocksThatStay : Prop :=
  (∀ (s : State) (b : Fin 43520),
    let x := s.blk b.val
    let pool := findUse s 0 (Config.pick s.freeCtr % 43520)
    (x.holds = false ∨ s.kpr.replayDone = false →
      (∀ m u, Leaves (.patrolRead b m u) s s) ∧ Leaves (.patrolLate b) s s ∧ ∀ ok, Leaves (.refreshSwitch b ok) s s) ∧
    (x.maxcb < refreshAt s → ∀ ok, Leaves (.refreshSwitch b ok) s s) ∧
    (x.holds = true → s.kpr.replayDone = true → s.pwr.flush = 0 → refreshAt s ≤ x.maxcb →
      (pool = none → ∀ ok, Leaves (.refreshSwitch b ok) s { s with evf := { s.evf with noRefresh := true } }) ∧
      (∀ n, pool = some n → 217 < s.evf.spare - 1 → s.evf.margin = 0 → retireAt s ≤ x.maxcb →
        ∀ ok, ∃ t, Leaves (.refreshSwitch b ok) s t ∧ (t.blk b.val).use = 7 ∧ (t.blk n).use = x.use ∧
          t.evf.spare = s.evf.spare - 1 ∧ t.evf.retired = s.evf.retired + 1 ∧ t.dur = s.dur)) ∧
    (x.holds = false ∨ s.pwr.up = false ∨ pool = none → Leaves (.nandProgramFailure b) s s)) ∧
  (∀ s : State, s.tdl.sealing = false → Leaves .storeSealRecord s s)

/-! ## Instances -/

/-- R336, R337, R374: a command of the keeper is ignored while one is in progress, and ends INSTANCE_STATE from a state that
it is not permitted in. RESTORE needs an offer of the instance. -/
def Sys2Proof.Say.CommandsRefused : Prop :=
  ∀ (s : State) (p : Instr × Nat) (m : MigImage), p ∈ insRows →
    (s.kpr.running = false ∨ s.ins.busy ≠ none → Leaves p.1 s s ∧ Leaves (.restore m) s s) ∧
    (s.kpr.running = true → s.ins.busy = none → isel s ≠ 0 →
      (insFrom p.2 (s.inst (isel s)).state = false → Leaves p.1 s (cmdEnded s p.2 St.instanceState)) ∧
      ((s.inst (isel s)).state ≠ 0 ∨ sget (fun _ => none) s.dur.offers (isel s) = none →
        Leaves (.restore m) s (cmdEnded s 13 St.instanceState))) ∧
    (s.kpr.running = true → s.ins.busy = none → isel s = 0 →
      Leaves (.restore m) s (cmdEnded s 13 St.instanceState) ∧
      (p.2 ≠ 8 → Leaves p.1 s (cmdEnded s p.2 St.instanceState)))

/-- R337, R341, R347, R348: a command whose checks fail ends with what failed. -/
def Sys2Proof.Say.CommandsFail : Prop :=
  ∀ (s u : State), s.kpr.running = true → s.ins.busy = none → isel s ≠ 0 →
    let i := isel s
    let x := s.inst i
    (∀ st, x.state = 0 → readDesc (cmdBegun s 1) i true = (.error st, u) →
      Leaves .createInst s { u with ins := { u.ins with busy := none, held := 0, stat := st } }) ∧
    (x.state = 1 → ∀ p,
      engRead (cmdBegun s 2) (s.descF i .imgBase) (s.descF i .imgLen) 0x28 none false = (.ok p, cmdBegun s 2) →
      genBytes 48 (Config.hashByte 2 p.bytes) ≠ slice x.desc 0x60 48 → Leaves .installImage s (cmdEnded s 2 St.imageMismatch)) ∧
    (x.state = 1 →
      (x.installed = false → Leaves .startInst s (cmdEnded s 3 St.instanceState)) ∧
      (x.installed = true → s.mode ≠ Mode.service → Leaves .startInst s (cmdEnded s 3 St.modeRefused)) ∧
      (∀ st, x.installed = true → s.mode = Mode.service → etab (cmdBegun s 3) x.desc = (.error st, cmdBegun s 3) →
        Leaves .startInst s (cmdEnded s 3 st))) ∧
    (x.state = 4 ∨ x.state = 5 → s.mode ≠ Mode.service → Leaves .resumeInst s (cmdEnded s 5 St.modeRefused)) ∧
    (x.state = 4 → ringsEmpty s i = false → Leaves .freeze s (cmdEnded s 10 St.ringsNotEmpty))

/-- R351-R353, R372: the steps of a quiesce that find nothing to do. -/
def Sys2Proof.Say.QuiesceWaits : Prop :=
  ∀ (s : State) (i : Fin 64),
    let x := s.inst i.val
    (x.state ≠ 3 ∨ x.drain = false ∨ s.mode = Mode.standby → Leaves (.drainWindowEnd i) s s) ∧
    (x.state ≠ 3 ∨ x.drain = true ∨ (∀ c ∈ s.tdl.waiting, c.src ≠ i.val) → Leaves (.quiesceBoundExpiry (some i)) s s) ∧
    (s.kpr.standby ≠ 2 → Leaves (.quiesceBoundExpiry none) s s) ∧
    (i = 0 ∨ x.state ≠ 3 ∨ x.drain = true ∨ instQuiet s i.val = false → Leaves (.quiesceComplete i) s s)

/-- R364, R366, R369: what OFFER, SAVE and RESTORE refuse. -/
def Sys2Proof.Say.MigrationRefused : Prop :=
  ∀ (s u : State), s.kpr.running = true → s.ins.busy = none → isel s ≠ 0 →
    let i := isel s
    let x := s.inst i
    let rev := fld (s.reg Reg.KPR_ID_REV).toNat 8 8
    (x.state = 0 → rngDraw (cmdBegun s 12) 32 = (.fatal, u) →
      Leaves .offer s { u with ins := { u.ins with busy := none, held := 0, stat := St.rngFatal } }) ∧
    (x.state = 5 → ∀ b, migBuffer (cmdBegun s 11) = (some b, cmdBegun s 11) →
      (offerOk (cmdBegun s 11) b = false → Leaves .save s (cmdEnded s 11 St.migOfferInvalid)) ∧
      (offerOk (cmdBegun s 11) b = true →
        (getLe b 0x19 1 < rev → Leaves .save s (cmdEnded s 11 St.imageNewer)) ∧
        (rev ≤ getLe b 0x19 1 → x.snap = none → Leaves .save s (cmdEnded s 11 St.migImageInvalid)))) ∧
    (∀ m d b st, x.state = 0 → sget (fun _ => none) s.dur.offers i ≠ none →
      readDesc (cmdBegun s 13) i true = (.ok d, cmdBegun s 13) →
      migBuffer (cmdBegun s 13) = (some b, cmdBegun s 13) → imageCheck (cmdBegun s 13) i b m = .error st →
      Leaves (.restore m) s (cmdEnded s 13 st))

/-- R366, R367: the stream of a saved image waits for room in its ring, and ends the SAVE with its last entry. -/
def Sys2Proof.Say.ImageStreams : Prop :=
  ∀ (s u : State),
    (s.ins.busy = none ∨ s.ins.image = [] ∨ s.ins.held ≠ 0 → Leaves .saveImageStream s s) ∧
    (∀ j, s.ins.busy = some (j, 11) → (s.inst j).state = 6 → s.ins.image ≠ [] → s.ins.held = 0 →
      let b := s.ins.image.drop s.ins.sent
      (migPut s b = (false, u) → Leaves .saveImageStream s u) ∧
      (migPut s b = (true, u) → s.ins.image.length ≤ s.ins.sent + 1024 →
        ∃ t, Leaves .saveImageStream s t ∧ t.ins.busy = none ∧ t.ins.stat = St.ok ∧ t.ins.image = []))

/-! ## Ports -/

/-- R512-R515: an entry goes onto the ring of the port's binding if it has room; else it is held, while the buffer takes
it; else it is dropped and counted. A port without a binding posts nothing. -/
def Sys2Proof.Say.PortsPostEntries : Prop :=
  ∀ (s u : State) (k : Nat) (e : Payload) (p : Port),
    (portBinding s k = none → postEntry s k e = s) ∧
    (∀ i r r', portBinding s k = some (i, r, r') → (s.pbuf k).held = [] → (s.pbuf k).dropped = 0 →
      (postRing s r e = (true, u) → postEntry s k e = u.setPbuf k (s.pbuf k)) ∧
      (postRing s r e = (false, u) → bufRoom s k = true →
        (postEntry s k e).pbuf k = { s.pbuf k with held := [e] }) ∧
      (postRing s r e = (false, u) → bufRoom s k = false →
        ((postEntry s k e).pbuf k).dropped = 1 ∧ ((postEntry s k e).pbuf k).held = [])) ∧
    ((s.pbuf (portNumber p)).held = [] → Leaves (.portBufferDrain p) s s) ∧
    (∀ i r r', portBinding s (portNumber p) = some (i, r, r') → (s.pbuf (portNumber p)).held = [e] →
      (s.pbuf (portNumber p)).dropped = 0 → postRing s r e = (false, u) → Leaves (.portBufferDrain p) s s)

/-- R517-R527, R570: a request that the bus may not take waits; one whose fields are wrong ends with ARG_INVALID, one for a
card of a removed slot with CARD_ABSENT; one for a card that is not selected begins with its selection. How a request goes
on: at a status, at a block, at a wrong CRC, and where the card does not answer in time. -/
def Sys2Proof.Say.CardRequestsEndOtherwise : Prop :=
  (∀ (s u : State) (b : Fin 5) (p : Instr × Nat), CardRow b p →
    (crdOn s = false ∨ s.ports.crd.run ≠ none ∨ s.pwr.flush ≠ 0 ∨ nextCardBind s ≠ some b.val → Leaves p.1 s s) ∧
    (∀ q, BusTakes s b p.2 → takeReq (turned s b) b.val = (some q, u) →
      let c := u.card q.unit
      let known := (u.ports.crd.cards.any fun p => p.1 == q.unit) = true ∧ slotBind c.slot = q.bind
      (cardReqOk q = false → Leaves p.1 s (complete u q St.argInvalid)) ∧
      (cardReqOk q = true → known →
        (c.state = 0 → Leaves p.1 s (complete u q St.cardAbsent 0 (c.status.setWidth 64))) ∧
        (c.state = 2 → u.pwr.viocOk = true → q.op ≠ 4 → q.op ≠ 5 → (q.op = 2 → fld c.status.toNat 26 2 = 0) →
          (q.op = 6 → q.arg = 1 → u.mode = Mode.workshop) →
          let run : CardRun := { req := q, rca := q.unit, stage := 0 }
          let send := fun v => sendCommand (setRun v run) run
          Leaves p.1 s (if q.op = 2 then transmit u q 0x34 send else send u))))) ∧
  (∀ (s : State) (q : CardRun),
    (s.ports.crd.run = none → (∀ r, Leaves (.cardResponse r) s s) ∧ Leaves .busyRelease s s ∧
      Leaves .cardResponseTimeout s s ∧ Leaves .cardBusyTimeout s s) ∧
    (Busy s q →
      let seen := fun (st : Word32) => setCard s q.rca { s.card q.rca with status := st }
      (q.stage = 1 → q.req.op = 1 → ∀ st,
        Leaves (.cardResponse (.status st true)) s (setRun (seen st) { q with stage := 2 })) ∧
      (q.stage = 1 → q.req.op = 2 → ∀ st : Word32,
        (fld st.toNat 26 2 = 0 → Leaves (.cardResponse (.status st true)) s { setRun (seen st) { q with stage := 3 } with
          outbox := s.outbox ++ [.cardBlock q.req.data] }) ∧
        (fld st.toNat 26 2 ≠ 0 → Leaves (.cardResponse (.status st true)) s (cardEnd (seen st) q St.writeProtected))) ∧
      (q.stage = 3 → ∀ x, x ≠ 0x5C → Leaves (.cardResponse (.ack x)) s (cardEnd s q St.portCrc)) ∧
      (q.stage = 2 → q.req.op = 1 → q.tries < 2 → ∀ d, d.length = 512 →
        ∃ t, Leaves (.cardResponse (.block d false)) s t ∧
          Busy t { q with stage := 1, tries := q.tries + 1, again := false } ∧
          t.outbox = s.outbox ++ [.cardCmd 0x8 q.rca q.req.arg]) ∧
      (q.stage = 2 → q.tries = 2 → ∀ d, d.length = 512 →
        Leaves (.cardResponse (.block d false)) s (cardEnd (s.incReg Reg.CRD_CRCERR) q St.portCrc)) ∧
      (q.stage ≠ 4 → Leaves .busyRelease s s ∧ Leaves .cardBusyTimeout s s) ∧
      (q.stage ≤ 1 → q.again = false →
        ∃ t, Leaves .cardResponseTimeout s t ∧ Busy t { q with again := true } ∧
          t.outbox = s.outbox ++ [let c := if q.stage = 0 then (0x3, 0#32) else cardCommand q.req
                                  .cardCmd c.1 q.rca c.2])) ∧
    (∀ st, Busy s q → (cardEnd s q st).ports.crd.run = none))

/-- R522-R524, R528: where the slots stay as they are; ENABLE without fixed cards; a card that comes while the bus is off; and
the count of the removals. -/
def Sys2Proof.Say.CardsStay : Prop :=
  ∀ (s : State) (n : Fin 4),
    (∀ l, crdOn s = true ∨ portMode s = false → Leaves (.cardBusEnable l) s s) ∧
    (s.kpr.running = true → crdOn s = false → portMode s = true →
      Leaves (.cardBusEnable []) s (s.setReg Reg.CRD_CTRL (s.reg Reg.CRD_CTRL ||| 1))) ∧
    (s.pwr.up = false ∨ s.pwr.viocOk = false → (∀ l, Leaves (.cardInsertion n l) s s) ∧ Leaves (.cardRemoval n) s s) ∧
    (s.ports.crd.det.getLsbD n.val = false → Leaves (.cardRemoval n) s s) ∧
    (s.pwr.up = true → s.pwr.viocOk = true → s.regBit Reg.KPR_WAKE_EN 4 = false →
      (s.ports.crd.det.getLsbD n.val = false → crdOn s = false → ∀ l, Leaves (.cardInsertion n l) s
        (setCrd s { s.ports.crd with det := s.ports.crd.det ||| BitVec.ofNat 4 (2 ^ n.val) })) ∧
      (s.ports.crd.det.getLsbD n.val = true → crdOn s = true → portMode s = true → s.ports.crd.run = none →
        ∃ t, Leaves (.cardRemoval n) s t ∧
          t.reg Reg.CRD_REMOVALS = (s.incReg Reg.CRD_REMOVALS).reg Reg.CRD_REMOVALS))

/-- R532-R534: where an ISO port takes no request; the requests that it ends at once; and how one in progress goes on: with
a warm reset, with its response, or given up. -/
def Sys2Proof.Say.IsoPortsOtherwise : Prop :=
  ∀ (s u : State) (p : Fin 2) (q : PortReq),
    let x := s.isoPort p.val
    let y := u.isoPort p.val
    let k := 5 + p.val
    (isoOn s p.val = false ∨ x.run ≠ none ∨ s.pwr.flush ≠ 0 ∨ reqWaits s k = false →
      Leaves (.activate p) s s ∧ Leaves (.exchange p) s s ∧ Leaves (.deactivate p) s s) ∧
    (isoOn s p.val = true → x.run = none → FromRing s k q u →
      let ends := fun c st => Leaves c s (complete u q st)
      (q.op = 1 ∧ q.unit ≠ p.val → ends (.activate p) St.argInvalid) ∧
      (q.op = 1 → q.unit = p.val → u.pwr.viocOk = false → ends (.activate p) St.portTimeout) ∧
      (q.unit = p.val → u.pwr.viocOk = true →
        (q.op = 1 → q.data = [] → y.present = false → ends (.activate p) St.cardAbsent) ∧
        (q.op = 2 → q.data ≠ [] → q.data.length ≤ 261 → y.present = true → y.state ≠ 2 →
          ends (.exchange p) St.cardState))) ∧
    (x.run = some q →
      (x.state = 1 → x.warm = false → Leaves (.isoCardReceive p .broken) s { setIso s p.val { x with warm := true } with
        outbox := s.outbox ++ [.isoActivate p.val true] }) ∧
      (x.state = 1 → x.warm = true → Leaves (.isoCardReceive p .broken) s (complete (setIso (isoError s p.val) p.val { x with
        state := 0, proto := 0, run := none, warm := false, allSent := false }) q St.isoProtocol)) ∧
      (x.state = 3 → (∀ b, Leaves (.isoCardReceive p (.response b)) s (complete (setIso s p.val { x with
          state := 2, run := none, warm := false, allSent := false }) q St.ok 0 0 b)) ∧
        Leaves (.isoCardReceive p .allSent) s (setIso s p.val { x with allSent := true }))) ∧
    (x.state = 0 → Leaves (.isoWaitingTimeExpiry p) s s ∧ ∀ r, Leaves (.isoCardReceive p r) s s) ∧
    (s.pwr.up = false ∨ s.pwr.viocOk = false → ∀ b, Leaves (.isoCardPresence p b) s s) ∧
    Leaves (.isoCardPresence p x.present) s s

/-- R535-R537: where a CAN controller takes nothing; a frame that no filter accepts; a request of a controller that is
bus-off; and the error that takes it there. -/
def Sys2Proof.Say.CanOtherwise : Prop :=
  ∀ (s u : State) (c : Fin 2) (f : CanFrame) (q : PortReq) (n : Nat),
    let x := s.canCtl c.val
    let k := 7 + c.val
    (canOn s c.val = false ∨ portMode s = false ∨ x.busOff = true → Leaves (.canFrameReceived c f) s s) ∧
    (canOn s c.val = true → portMode s = true → x.busOff = false → (f.fd = true → canCtrlBit s c.val 1 = true) →
      canLenOk f.fd f.data.length = true → (∀ j, j < 64 → canFilter s c.val j f = false) →
      Leaves (.canFrameReceived c f) s (setCan s c.val { x with recv := x.recv - 1 })) ∧
    (canCtrlBit s c.val 0 = false ∨ canCtrlBit s c.val 3 = true ∨ 3 ≤ x.held.length ∨ s.pwr.flush ≠ 0 ∨
      reqWaits s k = false → Leaves (.canTransmit c) s s) ∧
    (canCtrlBit s c.val 0 = true → canCtrlBit s c.val 3 = false → x.held.length < 3 → FromRing s k q u → q.op = 2 →
      q.unit = c.val → q.data.length ≤ 8 → (reqFrame q).fd = false → (reqFrame q).ide = true →
      (u.pwr.viohOk = true → x.busOff = true → Leaves (.canTransmit c) s (complete u q St.canBusOff)) ∧
      (u.pwr.viohOk = false → Leaves (.canTransmit c) s (complete u q St.portTimeout))) ∧
    (x.held = [] → Leaves (.canTransmitAck c) s s) ∧
    (canOn s c.val = false ∨ x.busOff = true → ∀ tx, Leaves (.canErrorDetected c tx n) s s) ∧
    (canOn s c.val = true → x.busOff = false → 255 < x.tec + n →
      ∃ t, Leaves (.canErrorDetected c true n) s t ∧ (t.canCtl c.val).busOff = true ∧ (t.canCtl c.val).held = []) ∧
    (x.busOff = false ∨ canOn s c.val = false ∨ canCtrlBit s c.val 2 = false → Leaves (.canBusOffRecovery c) s s)

/-- R538-R540, R580: the pulses that do not count; where no period is reported and no request sent; a pairing outside
Workshop; and an answer with a wrong CRC, or of a pairing. -/
def Sys2Proof.Say.SensorPortOtherwise : Prop :=
  ∀ (s u : State) (n : Fin 2) (q : PortReq),
    (∀ ns b, s.regBit Reg.SNS_CTRL n.val = false ∨ portMode s = false ∨ s.pwr.viohOk = false ∨ ns < 2000 ∨
      (ns < 2040 ∧ b = false) → Leaves (.pulseEdge n ns b) s s) ∧
    (s.regBit Reg.SNS_CTRL n.val = false ∨ portRuns s 9 = false → Leaves (.pulseReport n) s s) ∧
    (linkOn s = false ∨ s.ports.sensor ≠ none ∨ s.pwr.flush ≠ 0 ∨ reqWaits s 9 = false → Leaves .sensorLinkRequest s s) ∧
    (linkOn s = true → s.ports.sensor = none → FromRing s 9 q u → q.data.length ≤ 200 → q.unit = 0 →
      let ty := q.arg.toNat % 256
      (0x10 ≤ ty → ty < 0x20 → u.mode ≠ Mode.workshop →
        Leaves .sensorLinkRequest s (complete u q St.pairingRefused)) ∧
      (ty < 0x10 → u.pwr.viohOk = false → Leaves .sensorLinkRequest s (complete u q St.portTimeout))) ∧
    (s.ports.sensor = none → Leaves .sensorAnswerTimeout s s ∧ ∀ ty b ok, Leaves (.sensorAnswer ty b ok) s s) ∧
    (s.ports.sensor = some q →
      (∀ ty b, Leaves (.sensorAnswer ty b false) s (sensorEnd (s.incReg Reg.SNS_LINKERR) q St.portCrc)) ∧
      (∀ (ty : Byte) b, b.length ≤ 200 → 0x10 ≤ ty.toNat → ty.toNat < 0x20 → s.mode ≠ Mode.workshop →
        Leaves (.sensorAnswer ty b true) s (s.incReg Reg.SNS_LINKERR)))

/-- R541-R544, R57: the GNSS port where it does not run; an edge that is too short; and the sets of the time that are
refused. -/
def Sys2Proof.Say.TimeOtherwise : Prop :=
  ∀ s : State,
    let x := s.ports.gnss
    (∀ b, s.regBit Reg.GNS_CTRL 0 = false ∨ portRuns s 10 = false ∨ s.pwr.viohOk = false → Leaves (.gnssUartByte b) s s) ∧
    (x.bytes = [] → Leaves .gnssEventClose s s) ∧
    (∀ ns, (s.pwr.up = false → Leaves (.ppsEdge ns) s s) ∧
      (s.regBit Reg.KPR_WAKE_EN 2 = false →
        s.regBit Reg.GNS_CTRL 1 = false ∨ portMode s = false ∨ s.pwr.viohOk = false ∨ ns < 1000 →
        Leaves (.ppsEdge ns) s s)) ∧
    (s.kpr.running = false → Leaves .hostSet s s ∧ Leaves .ppsSet s s) ∧
    (s.kpr.running = true → x.pps = none ∨ x.hostSet = true →
      Leaves .ppsSet s (setGnss s { x with stat := St.timeRefused }))

/-! ## Tamper, supplies, epochs -/

/-- R548-R550, R553-R557: before start-up monitors run nothing is raised; a level or event source raises nothing with a value
that does not meet its condition, nor a level source that is not armed. A raise is recorded in its registers and, at level
1, by an interrupt of the keeper; its record waits for its commit. -/
def Sys2Proof.Say.TamperOtherwise : Prop :=
  ∀ (s : State) (t : Fin 24) (v : Word32) (who : Option (Fin 64)),
    (s.tmp.on = false → Leaves (.tamperRaise t v who) s s ∧ (∀ b, Leaves (.tamperRearm t b) s s) ∧ Leaves (.nearMiss t) s s) ∧
    (tKind t.val ≠ .rate → raiseHolds s t.val v = false → Leaves (.tamperRaise t v who) s s) ∧
    (tKind t.val = .level → v.toNat < 2 ^ 24 → s.tmp.armed.getLsbD t.val = false → Leaves (.tamperRaise t v who) s s) ∧
    (tKind t.val ≠ .level → (∀ b, Leaves (.tamperRearm t b) s s) ∧ Leaves (.nearMiss t) s s) ∧
    (t.val ≠ 2 → s.tmp.armed.getLsbD t.val = false → Leaves (.nearMiss t) s s) ∧
    (tKind t.val ≠ .rate → Leaves (.rateWindowExpiry t) s s) ∧
    (s.terminated = false → sget (fun _ => 0) s.tmp.lastRaise t.val ≤ s.kpr.devtime →
      effLevel s t.val = 0 ∨ effLevel s t.val = 1 →
      s.regBit Reg.KPR_WAKE_EN 5 = false → s.queued < 32 → s.pwr.low = false → resets s t.val (effLevel s t.val) = false →
      let u := tamperRaise s t.val v
      u.reg Reg.TMP_LASTVAL = v ∧ u.reg Reg.TMP_LAST = BitVec.ofNat 32 (256 * t.val + effLevel s t.val) ∧
        u.tmp.sticky = s.tmp.sticky ||| BitVec.ofNat 24 (2 ^ t.val) ∧
        (effLevel s t.val = 1 → (u.reg Reg.TMP_PEND).getLsbD t.val = true ∧ 5 ∈ (u.inst 0).irq) ∧
        (effLevel s t.val = 0 → u.reg Reg.TMP_PEND = s.reg Reg.TMP_PEND) ∧
        ∃ c, u.tdl.waiting = s.tdl.waiting ++ [c] ∧ c.reserve = true ∧
          c.intents = [.devRec 0 0x0004 ([BitVec.ofNat 8 t.val, BitVec.ofNat 8 (effLevel s t.val), s.mode.setWidth 8, 0] ++
            leBytes 4 v.toNat)])

/-- R551, R570, R574, R583, R592: without power nothing is measured; the governor steps down below its hysteresis, and stays
between; an I/O supply keeps the class that it first entered, and a request on the pins of one that is not good ends. The
test-access port answers in Blank only. -/
def Sys2Proof.Say.SuppliesOtherwise : Prop :=
  ∀ (s : State) (q : Temps) (mv : Word16),
    let hi := max (max q.t0 q.t1) (max q.t2 q.t3)
    let lo := min (min q.t0 q.t1) (min q.t2 q.t3)
    let g := s.regFld Reg.PWR_GOV 0 2
    let thresh := s.regFld Reg.PWR_GOV 8 8
    (s.pwr.up = false → Leaves (.vbatMeasurement mv) s s ∧ Leaves (.governorEvaluation q) s s ∧
      ∀ a b c, Leaves (.vioSupplyChange a b c) s s) ∧
    (s.pwr.up = true →
      (∃ t, Leaves (.governorEvaluation q) s t ∧ dieTemp t 3 = (BitVec.ofInt 16 q.t3).toInt ∧
        t.reg Reg.TMP_GRAD = (BitVec.ofInt 16 (hi - lo)).setWidth 32 ∧
        (0 < g → g ≤ 3 → hi ≤ (((thresh + 10 * (g - 1)) * 10 : Nat) : Int) - 30 → t.regFld Reg.PWR_GOV 0 2 = g - 1) ∧
        (g ≤ 3 → hi ≤ (((thresh + 10 * g) * 10 : Nat) : Int) →
          (0 < g → (((thresh + 10 * (g - 1)) * 10 : Nat) : Int) - 30 < hi) → t.reg Reg.PWR_GOV = s.reg Reg.PWR_GOV)) ∧
      (∀ c, s.pwr.viohHi = none → Leaves (.vioSupplyChange false true c) s
        { s with pwr := { s.pwr with viohOk := true, viohHi := some c } }) ∧
      (∀ c d, s.pwr.viohHi = some d → s.ports.sensor = none → (s.canCtl 0).held = [] → (s.canCtl 1).held = [] →
        ∃ t, Leaves (.vioSupplyChange false false c) s t ∧ t.pwr.viohOk = false ∧ t.pwr.viohHi = some d ∧
          t.mem = s.mem ∧ t.kpr = s.kpr) ∧
      (∀ c d r, s.pwr.viocHi = some d → c ≠ d → s.ports.crd.run = some r →
        ∃ t, Leaves (.vioSupplyChange true true c) s t ∧ t.pwr.viocOk = false ∧ t.pwr.viocHi = some d ∧
          t.ports.crd.run = none)) ∧
    (s.mode ≠ Mode.blank → ∀ a b, Leaves (.boundaryScanAccess a b) s s)

/-- R356, R358: before its time an epoch does not end; past the limit its number stays. -/
def Sys2Proof.Say.EpochsOtherwise : Prop :=
  ∀ (s : State) (m : Int) (ok : Bool),
    let n := s.reg Reg.STAT_EPOCH
    (s.pwr.up = false ∨ s.kpr.devtime.toNat < s.reg64 Reg.STAT_NEXT_LO → Leaves (.epochBoundary m ok) s s) ∧
    (s.pwr.up = true → s.reg64 Reg.STAT_NEXT_LO ≤ s.kpr.devtime.toNat →
      ∃ t, Leaves (.epochBoundary m ok) s t ∧ t.kpr = s.kpr ∧ sget (fun _ => 0) t.statPub 0x18 = s.kpr.devtime.toNat ∧
        (s.dur.epochLimit ≤ n.toNat + 1 → t.reg Reg.STAT_EPOCH = n))
end

