-- ==== Sys2Proof/Certificates/Slice0/Obligations.lean ====
section
/-! DEFINITION. The statements for the provers. Each docstring names the rules of the spec that a statement follows, and
the log entry where a clause is the model's own choice. In every clause `Leaves c s t` says that `exec c s` answers the
next state `t`, the queue as it was; `RunsA i s x c b op d` (and RunsM, RunsC, RunsD) that a ready syllable of the unit
completes: `exec (i x) s` answers the next state with the context `d`, or with its bundle committed. Words.lean defines the
words, and Details.lean says what else the commands do. -/

open Sys2Proof Sys2Proof.Machine

open Sys2Proof.Say

/-! ## The queue, the reset state, and what every step keeps -/

/-- A step takes the command at the front of the queue and runs it with the queue's rest. -/
def Obligations.StepRunsTheFrontCommand : Prop :=
  ∀ (c : Instr) (l : List Instr) (s : State), step { s with pending := c :: l } = exec c { s with pending := l }

/-- On an empty queue the device idles (log entry 3): DEVTIME counts a nanosecond while the device has power, and nothing
else changes. -/
def Obligations.StepOnAnEmptyQueueIdles : Prop :=
  ∀ s : State, s.pending = [] →
    (s.pwr.up = true → step s = .next { s with kpr := { s.kpr with devtime := s.kpr.devtime + 1 } }) ∧
    (s.pwr.up = false → step s = .next s)

/-- The memory of the machine after reset is in canonical form, and its one-time counts are within their fields. -/
def Obligations.ResetIsCanonical : Prop := State.reset.Canonical ∧ CellsFit State.reset.otp

/-- Every step keeps the canonical form of the tagged memory. -/
def Obligations.EveryStepKeepsMemoryCanonical : Prop :=
  ∀ s t : State, s.Canonical → step s = .next t → t.Canonical

/-- R46, R70, R473, R474: no step clears a one-time cell. The lifecycle state, the lifecycle counters, the swap counter and
the Recovery-pending counts only fill, within their fields, and the serial number stays. -/
def Obligations.OneTimeCellsOnlyFill : Prop :=
  ∀ s t : State, CellsFit s.otp → step s = .next t → CellsFit t.otp ∧ Filled s.otp t.otp

/-! ## Unit A -/

/-- R270, R271, R272: ADD and SUB complete for every pair of tags that the table gives, in both models, and ADDI; every
other pair takes TAG_CHECK. -/
def Obligations.AddAndSubtract : Prop :=
  (∀ (s : State) (x : Syl) (c : Ctx) (b : Bundle) (v w : TWord),
    let A := fun i op d => RunsA i s x c b op d
    let p := v.data
    let q := w.data
    (Operands2 s x c b v w →
      let sum := fun t => A .add 0x08 (Result2 c c.r ⟨t, p + q⟩)
      let diff := fun r t => A .sub 0x09 (Result2 c r ⟨t, p - q⟩)
      (v.tag = Tag.int → w.tag = Tag.int →
        A .add 0x08 (Result2 c { sumFlags c.r p q with hcv := nibbleCarry p q } (intW (p + q))) ∧
          diff (diffFlags c.r p q) Tag.int) ∧
      (AddrTag v.tag → w.tag = Tag.int → sum v.tag ∧ diff c.r v.tag) ∧
      (v.tag = Tag.int → AddrTag w.tag → sum w.tag) ∧
      (v.tag = w.tag → v.tag = Tag.ptr ∨ v.tag = Tag.time → diff (diffFlags c.r p q) Tag.int)) ∧
    (∀ l, c.acc = false → c.r.ds.items = v :: l → 8 * (l.length + 1) ≤ c.r.ds.size →
      let n := BitVec.ofInt 64 (imm x)
      (v.tag = Tag.int →
        A .addi 0x0A { c with r := withDs (sumFlags c.r p n) (intW (p + n) :: l) }) ∧
      (AddrTag v.tag → A .addi 0x0A (Holding c (⟨v.tag, p + n⟩ :: l))))) ∧
  Say.SumsRefused

/-- R269, R271: MUL, MULH, DIV and REM complete on two INT words; a divisor of zero takes DIV_ZERO, another tag
TAG_CHECK. -/
def Obligations.MultiplyAndDivide : Prop :=
  (∀ (s : State) (x : Syl) (c : Ctx) (b : Bundle) (v w : TWord), Operands2 s x c b v w → v.tag = Tag.int → w.tag = Tag.int →
    let A := fun i op d => RunsA i s x c b op d
    let m := v.data.toInt
    let n := w.data.toInt
    let out := fun (d : Word64) (cf vf : Bool) => Result2 c (intFlags c.r d cf vf) (intW d)
    let past := m == -(2 ^ 63) && n == -1
    (let o := decide ((v.data * w.data).toInt ≠ m * n)
     A .mul 0x0B (out (v.data * w.data) o o)) ∧
    A .mulh 0x0C (out (BitVec.ofInt 64 (m * n / 2 ^ 64)) false false) ∧
    (w.data ≠ 0 → A .div 0x0D (out (BitVec.ofInt 64 (m.tdiv n)) false past) ∧
      A .rem 0x0E (out (BitVec.ofInt 64 (m.tmod n)) false past))) ∧
  Say.ProductsRefused

/-- R269, R271: AND, OR, XOR and the shifts SHL, SHR and SAR complete on RAW and INT words; the flags follow a result
tagged INT only; another tag takes TAG_CHECK. -/
def Obligations.LogicAndShifts : Prop :=
  (∀ (s : State) (x : Syl) (c : Ctx) (b : Bundle) (v w : TWord), Operands2 s x c b v w → PlainTag v.tag →
    let A := fun i op d => RunsA i s x c b op d
    let p := v.data
    let n := w.data.toNat % 64
    (PlainTag w.tag →
      let out := fun (d : Word64) =>
        if v.tag = Tag.int ∧ w.tag = Tag.int then Result2 c (intFlags c.r d false false) (intW d)
        else Result2 c c.r (rawW d)
      A .bitAnd 0x10 (out (p &&& w.data)) ∧ A .bitOr 0x11 (out (p ||| w.data)) ∧
        A .bitXor 0x12 (out (p ^^^ w.data))) ∧
    (w.tag = Tag.int →
      let out := fun (d : Word64) (cf : Bool) =>
        Result2 c (if v.tag = Tag.int then intFlags c.r d (decide (n ≠ 0) && cf) false else c.r) ⟨v.tag, d⟩
      A .shl 0x14 (out (p <<< n) (p.getLsbD (64 - n))) ∧
        A .shr 0x15 (out (p >>> n) (p.getLsbD (n - 1))) ∧
        A .sar 0x16 (out (p.sshiftRight n) (p.getLsbD (n - 1))))) ∧
  Say.LogicRefused

/-- R269, R271: CMP of two words of one tag, NOT, NEG and TST complete; other tags take TAG_CHECK. -/
def Obligations.CompareAndOneOperand : Prop :=
  (∀ (s : State) (x : Syl) (c : Ctx) (b : Bundle) (v w : TWord),
    let A := fun i op d => RunsA i s x c b op d
    let p := v.data
    (Operands2 s x c b v w → v.tag = w.tag → v.tag = Tag.int ∨ AddrTag v.tag →
      A .cmp 0x18 (Flags2 c (diffFlags c.r p w.data))) ∧
    (Operand1 x c v →
      (v.tag = Tag.int →
        A .bitNot 0x13 (Result1 c (intFlags c.r (~~~p) false false) (intW (~~~p))) ∧
        A .neg 0x17
          (Result1 c (intFlags c.r (-p) (decide (p ≠ 0)) (decide (p.toInt = -(2 ^ 63)))) (intW (-p)))) ∧
      (v.tag = Tag.raw → A .bitNot 0x13 (Result1 c c.r (rawW (~~~p)))) ∧
      A .tst 0x19 { c with r := { c.r with z := p == 0, n := p.msb } })) ∧
  Say.OperandsRefused

/-- R239, R242, R246, R269: the syllables that move words complete. NOP and LIT; DUP, DROP, SWAP, OVER, ROT and NIP in the
stack model; RPUSH, RPOP and RCOPY between the stacks, where a RET word stays on the return stack; TAX0, TAX1, TXA0, TXA1
and LEA of the index registers, which take PTR words only. The stacks keep to their areas. -/
def Obligations.MovesAndStacks : Prop :=
  (∀ (s : State) (x : Syl) (c : Ctx) (b : Bundle),
    let A := fun i op d => RunsA i s x c b op d
    (x.operand = 0 → A .nop 0x00 c) ∧
    (HasRoom c c.r 1 → (c.acc = true → amode x = 3) →
      A .lit 0x01 (Delivered c c.r (intW (BitVec.ofInt 64 (if c.acc then disp x else imm x))))) ∧
    (x.operand = 0 → c.acc = false → 8 * c.r.ds.items.length ≤ c.r.ds.size → ∀ (u v w : TWord) (l : List TWord),
      let ds := c.r.ds.items
      let rs := fun (c : Ctx) l => ({ c with r := { c.r with rs := { c.r.rs with items := l } } } : Ctx)
      (ds = u :: l →
        A .drop 0x03 (Holding c l) ∧
        (HasRoom c c.r 1 → A .dup 0x02 (Holding c (u :: u :: l))) ∧
        (8 * (c.r.rs.items.length + 1) ≤ c.r.rs.size →
          A .rpush 0x1A (rs (Holding c l) (u :: c.r.rs.items)))) ∧
      (ds = v :: u :: l →
        A .swap 0x04 (Holding c (u :: v :: l)) ∧ A .nip 0x07 (Holding c (v :: l)) ∧
        (HasRoom c c.r 1 → A .over 0x05 (Holding c (u :: v :: u :: l)))) ∧
      (ds = w :: v :: u :: l → A .rot 0x06 (Holding c (u :: w :: v :: l))) ∧
      (c.r.rs.items = u :: l → HasRoom c c.r 1 → u.tag ≠ Tag.ret →
        A .rpop 0x1B (rs (Holding c (u :: ds)) l) ∧ A .rcopy 0x1C (Holding c (u :: ds)))) ∧
    (x.operand = 0 →
      (c.r.acc.tag = Tag.ptr →
        A .tax0 0x20 { c with r := { c.r with x0 := c.r.acc } } ∧
        A .tax1 0x21 { c with r := { c.r with x1 := c.r.acc } }) ∧
      A .txa0 0x22 { c with r := { c.r with acc := c.r.x0 } } ∧
      A .txa1 0x23 { c with r := { c.r with acc := c.r.x1 } }) ∧
    (let lea := fun p => A .lea 0x24 { c with r := { c.r with acc := ptrW p } }
     (amode x = 0 → lea (BitVec.ofNat 64 (c.dbase + 8 * udisp x))) ∧
     (amode x = 1 → lea (c.r.x0.data + BitVec.ofInt 64 (8 * disp x))) ∧
     (amode x = 2 → lea (c.r.x1.data + BitVec.ofInt 64 (8 * disp x))))) ∧
  Say.StackLimits ∧ Say.MovesRefused

/-! ## Unit M -/

/-- The checks of an access, in their order, and the regions and default map that decide it (R27, R221, R224, R305, R329,
R330, R332). -/
def Obligations.AccessChecks : Prop := Say.AccessChecksInOrder ∧ Say.RegionsDecideAnAccess

/-- R218, R220, R246, R273, R275: LDW, LDWK, LDA, LDX0, LDX1, LDS, LD8, LD16 and LD32 complete with the word that a load
delivers, seen as the bundle has left memory; LDWK keeps its pointer; a partial load of a device register also counts as
a read of it when the bundle commits. -/
def Obligations.LoadsDeliver : Prop :=
  (∀ (s : State) (x : Syl) (c : Ctx) (b : Bundle) (p : Word64) (r : CpuRegs) (w : TWord), Address c x p r →
    HasRoom c r 1 →
    let M := fun i op d => RunsM i s x c b op d
    let load := fun lds => loadWord (viewOf s b) (key x / 64) c.r.level p x.upset lds
    let part := fun n => loadPart (viewOf s b) (key x / 64) (key x % 64) c.r.level p n x.upset
    (load false = .ok w →
      M .ldw 0x00 (Delivered c r w) ∧ M .lda 0x20 (Delivered c r w) ∧
      (HasRoom c c.r 1 → M .ldwk 0x01 (Delivered c c.r w)) ∧
      (w.tag = Tag.ptr → M .ldx0 0x22 { c with r := { c.r with x0 := w } } ∧
        M .ldx1 0x23 { c with r := { c.r with x1 := w } })) ∧
    (load true = .ok w → M .lds 0x0A (Delivered c r w)) ∧
    (∀ ps, let d := Delivered (Effects c b ps) r w
      (part 1 = .ok (w, ps) → M .ld8 0x04 d) ∧ (part 2 = .ok (w, ps) → M .ld16 0x05 d) ∧
      (part 4 = .ok (w, ps) → M .ld32 0x06 d))) ∧
  Say.WhatAFullWordLoadDelivers ∧ Say.PartialLoads ∧ Say.AccessesRefused

/-- R219, R220, R233, R273: STW, STWK, ST8, ST16, ST32, STA, STX0 and STX1 complete; the store is made when the bundle
commits. A partial store of a word that is neither RAW nor INT takes TAG_CHECK. -/
def Obligations.StoresWrite : Prop :=
  (∀ (s : State) (x : Syl) (c : Ctx) (b : Bundle) (p : Word64) (r : CpuRegs) (ps : List Pend), Address c x p r →
    let M := fun i op d => RunsM i s x c b op d
    let store := fun w => storeWord (viewOf s b) (key x / 64) c.r.level p w x.upset = .ok ps
    let part := fun n w => storePart (viewOf s b) (key x / 64) c.r.level p n w x.upset = .ok ps
    (∀ w rest, c.acc = false → r.ds.items = w :: rest → 8 * (rest.length + 2) ≤ r.ds.size →
      let d := Effects { c with r := withDs r rest } b ps
      (store w → M .stw 0x02 d ∧
        M .stwk 0x03 (Effects { c with r := withDs r (c.r.ds.items.headD (rawW 0) :: rest) } b ps)) ∧
      (PlainTag w.tag → (part 1 w → M .st8 0x07 d) ∧ (part 2 w → M .st16 0x08 d) ∧
        (part 4 w → M .st32 0x09 d))) ∧
    (store c.r.acc → M .sta 0x21 (Effects c b ps)) ∧
    (store c.r.x0 → M .stx0 0x24 (Effects c b ps)) ∧
    (store c.r.x1 → M .stx1 0x25 (Effects c b ps))) ∧
  Say.WhatAStoreWrites

/-- R236, R273, R276, R278, R320: LDR takes the reservation of its granule; STC stores when the context holds it, says
whether it did, and clears it in any case; TAS reads a RAW or INT word and writes INT 1; each reaches tagged SRAM and DRAM
only. FENCE changes nothing of its context; REGP gives the base of an enabled region of the set in force. -/
def Obligations.AtomicsAndOrder : Prop :=
  (∀ (s : State) (x : Syl) (c : Ctx) (b : Bundle) (p : Word64) (r : CpuRegs) (a : Nat) (w : TWord), Address c x p r →
    let M := fun i op d => RunsM i s x c b op d
    let mem := rangeOf a = some 1 ∨ rangeOf a = some 6 ∨ rangeOf a = some 7
    let v := viewOf s b
    let i := key x / 64
    (accessCheck v i c.r.level p 8 .r = .ok a → mem → HasRoom c r 1 → loadWord v i c.r.level p x.upset = .ok w →
      M .ldr 0x0B (Delivered c { r with resv := some (a / 64) } w)) ∧
    (accessCheck v i c.r.level p 8 .w = .ok a → mem →
      ∀ rest, (c.acc = true → w = c.r.acc ∧ r = c.r) →
        (c.acc = false → r.ds.items = w :: rest ∧ 8 * (rest.length + 1) ≤ r.ds.size) →
      let r' := fun ok => if c.acc then { r with resv := none, z := !ok }
        else withDs { r with resv := none } (intW (if ok then 1 else 0) :: rest)
      (c.r.resv = some (a / 64) → x.upset = .none → v.isBad a = false →
        M .stc 0x0C (Effects { c with r := r' true } b
          [.stc a (if inX v i c.r.level a then rawW w.data else w)])) ∧
      (c.r.resv ≠ some (a / 64) → M .stc 0x0C { c with r := r' false })) ∧
    (accessCheck v i c.r.level p 8 .rw = .ok a → mem → HasRoom c r 1 → fetchWord v a x.upset = .ok w → PlainTag w.tag →
      let r' := if c.acc then { r with acc := w, z := w.data == 0 } else withDs r (w :: r.ds.items)
      M .tas 0x0D (Effects { c with r := r' } b [.tas a w]))) ∧
  (∀ (s : State) (x : Syl) (c : Ctx) (b : Bundle),
    let M := fun i op d => RunsM i s x c b op d
    (x.operand = 0 → M .fence 0x0E c) ∧
    (∀ n, n < 16 → (c.acc = true → amode x = 3 ∧ fld x.operand.toNat 0 18 = n) →
      (c.acc = false → x.operand.toNat = n) →
      let g := ((viewOf s b).mpuSet (if c.r.level.val = 2 then 0 else key x / 64)).region n
      rgnEn g = true → rgnMin g ≤ c.r.level.val → HasRoom c c.r 1 →
        M .regp 0x0F (Delivered c c.r (ptrW (BitVec.ofNat 64 (rgnBase g)))))) ∧
  Say.AtomicsRefused

/-! ## Unit C -/

/-- R280, R281, R252, R238: BR, BEQ, BNE, BLT, BGE, BLTU, BGEU, BDC, BRZ and BRNZ complete: they lead to the address of
their bundle's first syllable plus four times the offset where their condition holds, at the end of the bundle, and change
nothing else; BRZ and BRNZ pop the word they test. LOOP starts a loop of its count and length at the end of the bundle;
GETCST delivers CST; SETFL and SETMASK write the flags and MASK from an INT; YIELD ends the slice and its reservation. -/
def Obligations.BranchesAndLoops : Prop :=
  ∀ (s : State) (x : Syl) (c : Ctx) (b : Bundle),
    let C := fun i op d => RunsC i s x c b op d
    ((c.acc = true → amode x = 3) →
      let t := (BitVec.ofInt 64 (c.r.pc + 4 * (if c.acc then disp x else imm x))).toNat
      let out := fun (cond : Bool) => if cond then Leads c b t true else c
      C .br 0x00 (out true) ∧ C .beq 0x01 (out c.r.z) ∧ C .bne 0x02 (out (!c.r.z)) ∧
      C .blt 0x03 (out (c.r.n != c.r.v)) ∧ C .bge 0x04 (out (c.r.n == c.r.v)) ∧
      C .bltu 0x05 (out c.r.c) ∧ C .bgeu 0x06 (out (!c.r.c)) ∧
      C .bdc 0x07 (out c.r.dc) ∧
      (∀ w rest, c.r.ds.items = w :: rest →
        let d := Holding c rest
        C .brz 0x08 (if w.data = 0 then Leads d b t true else d) ∧
        C .brnz 0x09 (if w.data = 0 then d else Leads d b t true))) ∧
    (x.operand.toNat < 4096 → c.r.loops.length < 2 →
      let loop := fun (c : Ctx) (n : Nat) => ({ c with bundle := some { b with newLoop := some (n, x.operand.toNat) } } : Ctx)
      (∀ l : BitVec 28, x.ext = some l → l.toNat < 65536 → C .hwLoop 0x1C (loop c l.toNat)) ∧
      (x.ext = none → ∀ (n : Word64) l, n.toNat < 65536 → OnTop c (intW n) l →
        C .hwLoop 0x1C (loop (Holding c l) n.toNat))) ∧
    (x.operand = 0 →
      (HasRoom c c.r 1 → C .getcst 0x20 (Delivered c c.r (intW (cstWord (key x / 64) c c.r)))) ∧
      C .yield 0x23 { c with bundle := some { b with yields := true }, r := { c.r with resv := none } }) ∧
    (∀ (n : Word64) l,
      (c.acc = true → l = c.r.ds.items ∧ opdVal (viewOf s b) (key x / 64) c x = .ok (intW n)) →
      (c.acc = false → x.operand = 0 ∧ c.r.ds.items = intW n :: l) →
      let bit := n.toNat.testBit
      let r := withDs c.r l
      (Ready s x 3 0x21 (opdMem s x) c b → Completes (.setfl x) s x
        { c with r := { r with z := bit 0, n := bit 1, c := bit 2, v := bit 3, dc := bit 4 } }) ∧
      (Ready s x 3 0x22 (opdMem s x) c b → Completes (.setmask x) s x
        { c with r := if key x = keeperKey ∧ inLevel7 c = true then r else { r with mask := BitVec.ofNat 3 n.toNat } }))

/-- R241, R282, R317: CALL and CALLI lead to their target and are marked to push the RET word and the shadow entry as the
bundle commits; JMPI leads to its target; RETURN takes the RET word that the shadow stack confirms; a RET word that
differs, or that meets no call entry there, takes SHADOW, and a word of another tag TAG_CHECK. CADR delivers a CODE word.
CALLI and JMPI take TAG_CHECK on a target not tagged CODE. -/
def Obligations.CallsAndReturns : Prop :=
  (∀ (s : State) (x : Syl) (c : Ctx) (b : Bundle),
    let C := fun i op d => RunsC i s x c b op d
    let t := BitVec.ofInt 64 (c.r.pc + 4 * (if c.acc then disp x else imm x))
    let called := fun (c : Ctx) a => ({ c with bundle := some { b with target := some (a, false), call := true } } : Ctx)
    let free := 8 * (c.r.rs.items.length + 1) ≤ c.r.rs.size ∧ 1 ≤ shadowFree c.shadow
    ((c.acc = true → amode x = 3) →
      (free → C .call 0x10 (called c t.toNat)) ∧
      (HasRoom c c.r 1 → C .cadr 0x14 (Delivered c c.r (codeW t)))) ∧
    (x.operand = 0 → ∀ (w : TWord) l, OnTop c w l → w.tag = Tag.code → w.data.toNat < 2 ^ 40 →
      (free → C .calli 0x11 (called (Holding c l) w.data.toNat)) ∧
      C .jmpi 0x12 (Leads (Holding c l) b w.data.toNat true)) ∧
    (x.operand = 0 → ∀ w rest a sh, c.r.rs.items = w :: rest → w.tag = Tag.ret → c.shadow = .call a :: sh → w.data.toNat = a →
      C .ret 0x13
        (Leads { c with r := { c.r with rs := { c.r.rs with items := rest } }, shadow := sh } b a false))) ∧
  Say.CallsRefused

/-- R309-R311: GATE completes where its descriptor, arguments and buffers pass every check and the stack entries move to
their areas: it leads to the gate's entry, in the context that `GateRun.entered` gives. -/
def Obligations.GateCalls : Prop :=
  (∀ (s : State) (x : Syl) (c : Ctx) (b : Bundle) (q : GateRun), q.Holds s x c b →
    Completes (.gate x) s x (Leads (q.entered x c) { b with pend := b.pend ++ q.moved ++ q.stored } q.g.entry false)) ∧
  Say.GateChecks

/-- R234, R312, R313, R314, R327, R328: GRET completes where the return that it asks for can be made, and makes it at the
end of its bundle: from a gate, with the results on the caller's stack; from an exception, with what its frame holds. -/
def Obligations.GateAndExceptionReturns : Prop :=
  (∀ (s : State) (x : Syl) (c d : Ctx) (b : Bundle), Ready s x 3 0x19 true c b → x.operand = 0 →
    gretAct (viewOf s b) (key x) c x.upset = .ok d →
      Completes (.gret x) s x { c with bundle := some { b with ret := true } }) ∧
  Say.GateReturn ∧ Say.ExceptionReturn

/-! ## Unit D -/

/-- R222, R223, R283, R284: DADD, DSUB, DMUL10 and DCMP complete on DEC words of 15 digits. A magnitude past 15 digits
keeps the low digits with the true sign and sets DC and V. Other tags take TAG_CHECK. -/
def Obligations.Decimals : Prop :=
  (∀ (s : State) (x : Syl) (c : Ctx) (b : Bundle) (v w : TWord), Operands2 s x c b v w →
    let D := fun i op d => RunsD i s x c b op d
    let out := fun (q : Int) =>
      let m := q.natAbs % 10 ^ 15
      let big := decide (10 ^ 15 ≤ q.natAbs)
      Result2 c { c.r with z := m == 0, n := decide (q < 0) && m != 0, dc := big, v := big } (decW (decMake (decide (q < 0)) m))
    (v.tag = Tag.dec → w.tag = Tag.dec →
      let p := decVal v.data
      let q := decVal w.data
      D .dadd 0x00 (out (p + q)) ∧ D .dsub 0x01 (out (p - q)) ∧
      D .dcmp 0x06 (Flags2 c { c.r with z := decide (p = q), n := decide (p < q) })) ∧
    (v.tag = Tag.dec → w.tag = Tag.int → w.data.toNat ≤ 9 →
      let m := 10 * decMag v.data + w.data.toNat
      D .dmul10 0x02 (out (if decNeg v.data then -(m : Int) else m)))) ∧
  Say.DecimalWords ∧ Say.DecimalsRefused

/-- R222, R283-R286: BIN2DEC, DEC2BIN, TODEC, TOINT, TOTIME, TORAW, DADJ, KHANDLE, DSHR, DSHL and TAGOF complete. -/
def Obligations.Conversions : Prop :=
  (∀ (s : State) (x : Syl) (c : Ctx) (b : Bundle) (v : TWord),
    let D := fun i op d => RunsD i s x c b op d
    let d := v.data
    (Operand1 x c v →
      let out := Result1 c c.r
      (v.tag = Tag.int →
        (d.toInt.natAbs < 10 ^ 15 →
          D .bin2dec 0x08 (out (decW (decMake (decide (d.toInt < 0)) d.toInt.natAbs)))) ∧
        (∀ u r, opDadj c.r d = some (u, r) → D .dadj 0x05 (Result1 c r u)) ∧
        (d.toNat < 4096 → keySlotIn (viewOf s b) (key x / 64) d.toNat = true →
          D .khandle 0x10 (out ⟨Tag.keyh, BitVec.ofNat 64 (key x / 64 * 2 ^ 32 + d.toNat)⟩))) ∧
      (v.tag = Tag.dec → D .dec2bin 0x09 (out (intW (BitVec.ofInt 64 (decVal d))))) ∧
      (v.tag = Tag.raw → decValid d = true →
        D .todec 0x0A (out (decW (decMake (decNeg d) (decMag d))))) ∧
      (PlainTag v.tag ∨ v.tag = Tag.time → D .toint 0x0B (out (intW d))) ∧
      (PlainTag v.tag → D .totime 0x0C (out (timeW d))) ∧
      (v.tag ≠ Tag.poison → D .toraw 0x0D (out (rawW d)))) ∧
    (∀ n : Nat, n ≤ 15 → v.tag = Tag.dec → (c.acc = true → amode x = 3 ∧ disp x = n ∧ c.r.acc = v) →
      (c.acc = false → imm x = n ∧ ∃ rest, c.r.ds.items = v :: rest ∧ 8 * (rest.length + 1) ≤ c.r.ds.size) →
      let m := decMag d
      let out := fun (q : Nat) (lost : Bool) =>
        Result1 c { c.r with z := q == 0, n := decNeg d && q != 0, dc := lost } (decW (decMake (decNeg d) q))
      D .dshr 0x03 (out (m / 10 ^ n) (m % 10 ^ n != 0)) ∧
      D .dshl 0x04 (out (m * 10 ^ n % 10 ^ 15) (m * 10 ^ n / 10 ^ 15 != 0))) ∧
    (let t := intW (v.tag.setWidth 64)
     (c.acc = true → opdVal (viewOf s b) (key x / 64) c x = .ok v →
       D .tagof 0x0E { c with r := { c.r with acc := t } }) ∧
     (∀ l, c.acc = false → x.operand = 0 → c.r.ds.items = v :: l → HasRoom c c.r 1 →
       D .tagof 0x0E (Holding c (t :: v :: l))))) ∧
  Say.ConversionsRefused

/-! ## Unit X -/

/-- R287, R288, R291, R293-R302: each X syllable issues its request when it passes the checks: QGET, QPUT, SEAL, OPEN, SIGN,
VERIFY, AGREE by its four SELs, HASH, LOOK, CLOAD, CSTORE, CNEW, CFREE, INTENT, COMMIT, RAND, TIME by its two SELs, FLOP and
AIRX by their five. -/
def Obligations.RequestsAreIssued : Prop :=
  ∀ (s : State) (x : Syl),
    let go := fun i code => IssuesRequest i s x code {}
    (∀ h, IssuesRequest (.qget x h) s x 0x11 h) ∧ go (.qput x) 0x10 ∧ go (.sealAead x) 0x20 ∧ go (.openAead x) 0x21 ∧
    go (.sign x) 0x28 ∧ go (.verify x) 0x29 ∧ go (.hash x) 0x30 ∧ go (.look x) 0x38 ∧ go (.cload x) 0x40 ∧
    go (.cstore x) 0x41 ∧ go (.cnew x) 0x42 ∧ go (.cfree x) 0x43 ∧ go (.intent x) 0x48 ∧ go (.commit x) 0x49 ∧
    go (.rand x) 0x50 ∧
    (rowSel s x = 0 → go (.timeRead x) 0x51) ∧
    (rowSel s x = 1 → go (.timeWait x) 0x51 ∧ go (.agreeEcdhSlot x) 0x2A ∧ go (.flopProgramCode x) 0x58 ∧
      go (.airBind x) 0x60) ∧
    (rowSel s x = 2 → go (.agreeEcdhEphemeral x) 0x2A ∧ go (.flopProgramData x) 0x58 ∧ go (.airUnbind x) 0x60) ∧
    (rowSel s x = 3 → go (.agreeMlkemDecapsulate x) 0x2A ∧ go (.flopErase x) 0x58 ∧ go (.airLink x) 0x60) ∧
    (rowSel s x = 4 → go (.agreeMlkemEncapsulate x) 0x2A ∧ go (.flopMarginRead x) 0x58 ∧ go (.airInventory x) 0x60) ∧
    (rowSel s x = 5 → go (.flopBootSwap x) 0x58 ∧ go (.arearead x) 0x60)

/-- R259-R264, R288-R290: WAITT of a complete ticket delivers the results and the completion word and frees the entry; of
one that is not complete, the context waits; a word that names no ticket of the instance takes DEVICE_SYNC. TESTT shows
whether the ticket is complete. An issue takes a ticket, whose word names it. -/
def Obligations.Tickets : Prop :=
  (∀ (s : State) (x : Syl) (c : Ctx) (b : Bundle) (w : TWord) (t : Nat) (e : Ticket) (l : List TWord), x.operand = 0 →
    let i := key x / 64
    OnTop c w l → ticketOf (viewOf s b) i w = .ok (t, e) →
      (Ready s x 5 0x00 (s.ctx (key x)).acc c b →
        (e.done = true → c.acc = false → 8 * (l.length + e.results.length + 1) ≤ c.r.ds.size →
          Issues (.waitt x) s x (Holding c (completionWord t e :: (e.results.reverse ++ l))) (collect i t)) ∧
        (∀ ps, e.done = true → c.acc = true →
          (∀ a, e.block = some a → blockStores (viewOf s b) i c.r.level x.upset a e.results = .ok ps) →
          (e.block = none → ps = []) →
          let d := Effects c b ps
          Issues (.waitt x) s x { d with r := { d.r with acc := completionWord t e } } (collect i t)) ∧
        (e.done = false → exec (.waitt x) s =
          .next (chargeCore (s.setCtx (key x) { s.ctx (key x) with waiting := some x }) (key x)))) ∧
      (Ready s x 5 0x01 false c b →
        (c.acc = true → Completes (.testt x) s x { c with r := { c.r with z := !e.done } }) ∧
        (c.acc = false → HasRoom c c.r 1 →
          Completes (.testt x) s x (Holding c (intW (BitVec.ofNat 64 (b2n e.done)) :: w :: l))))) ∧
  Say.AnIssueTakesATicket ∧ Say.TicketWords ∧ Say.WaitsRefused

/-- R262, R265, R291, R295, R300, R301, R422, R425: a WAITT that waits executes again once its ticket may be complete; a TIME
ends once DEVTIME has reached its target; an engine that holds the units it needs ends a request with its digest. -/
def Obligations.OperationsEnd : Prop :=
  (∀ (s : State) (n m : Fin 64) (x : Syl),
    let k := ctxKey n.val m.val
    let u := s.setCtx k { s.ctx k with waiting := none }
    (s.ctx k).run = .running → (s.ctx k).waiting = some x →
    Leaves (.waittResume n m) s (waitt u x)) ∧
  (∀ (s : State) (n : Fin 64) (t : Byte) (data : List Payload) (w : TWord) (g : Nat),
    let k := s.tk n.val t.toNat
    k.used = true → k.done = false → k.op = .x 0x51 1 [w] data g → w.data.toNat ≤ s.kpr.devtime.toNat →
    Leaves (.timeWaitReached n t) s
      (s.tkDone n.val t.toNat St.ok [timeW s.kpr.devtime] (if s.kpr.timeSet then 1 else 0))) ∧
  (∀ (s v : State) (i : Fin 64) (t : Byte) (e : EngineEnv) (sel : Nat) (args : List TWord) (data : List Payload)
    (p : Payload) (g : Nat),
    let u := arbitrate s
    let k := u.tk i.val t.toNat
    let o := Op.x 0x30 sel args data g
    k.used = true → k.done = false → u.pwr.flush = 0 → granted u i.val t.toNat = true → k.op = o → srcBusy u o = false →
    takeSources u (some i.val) o e.upset e.memUpset = (.ok [p], v) → ∀ n, digestLen o = some n → o.num 2 < 2 ^ 32 →
      let d := genBytes n (Config.hashByte sel p.bytes)
      Leaves (.engineCompletion i t e) s (arbitrate ((hashCount v p.bytes.length).tkDone i.val t.toNat St.ok
        ((List.range 8).map fun j => ⟨Tag.chk, BitVec.ofNat 64 (getLe d (8 * j) 8)⟩) n))) ∧
  Say.EnginesEnd

/-- R293, R396, R401: a QPUT that waits on a ring puts its entry once the slots are free; a QGET that waits delivers the
entry that came. -/
def Obligations.RingWaiters : Prop :=
  (∀ (s u : State) (r : Fin 4096) (i t sel : Nat) (args : List TWord) (data : List Payload) (g : Nat) (p : Payload),
    let x := s.ring r.val
    let o := Op.x 0x10 sel args data g
    let n := o.num 3
    ringWaiter s r.val 0x10 = some (i, t) → (s.tk i t).op = o → o.num 1 = r.val → ringBound s i r.val = true →
    x.en = true → x.outbound = true → x.inHost = false → x.st = 1 → 1 ≤ n → n ≤ 16 → srcBusy s o = false →
    takeSources s (some i) o false = (.ok [p], u) → countOk x p n = true → n ≤ x.size → n ≤ x.free →
    Leaves (.qputWaitSatisfied r) s ((ringPut (ringUnwait u i t r.val) r.val p n).tkDone i t St.ok [] n)) ∧
  (∀ (s : State) (r : Fin 4096) (h : HostFetch) (i t sel n : Nat) (args : List TWord) (data : List Payload) (g : Nat)
    (ls : List Nat),
    let x := s.ring r.val
    let o := Op.x 0x11 sel args data g
    let u := ringUnwait s i t r.val
    let y := u.ring r.val
    let slot := fun k => x.slotAddr (x.head + BitVec.ofNat 32 k)
    ringWaiter s r.val 0x11 = some (i, t) → x.waiters.head? = some (i, t) → (s.tk i t).op = o → o.num 1 = r.val →
    ringBound s i r.val = true → x.en = true → x.outbound = false → x.inHost = false → x.st = 1 → 1 ≤ o.num 3 →
    o.num 3 ≤ 16 → x.used ≠ 0 → x.lens = n :: ls →
    n ≤ o.num 3 → (∀ k, k < n → u.isBad (slot k) = false) →
      let v := (u.setRing r.val { y with head := y.head + BitVec.ofNat 32 n, lens := ls }).statInc (ringStat r.val 4)
      Leaves (.qgetWaitSatisfied r h) s
        (deliverTo v i t (o.num 2) ⟨64 * n, ((List.range n).map fun k => u.rdWords (slot k) 8).flatten⟩ false n)) ∧
  Say.RingWaitersStay

/-! ## Rings and the host -/

/-- R392, R395, R397, R403: the keeper enables a ring, which begins empty and Active, discards its entries, resumes and stops
it. A host discards or resumes a Halted or Stopped ring of its window, and writes its staging buffer. -/
def Obligations.RingControl : Prop :=
  (∀ s : State,
    let r := rsel s
    let x := s.ring r
    let cfg := (x.cfg &&& 0x7FC007E0) ||| BitVec.ofNat 32 (2048 * x.eslots + fld x.cfg.toNat 0 5)
    s.kpr.running = true →
    (x.en = false → x.eslots ≤ 16 → 1 ≤ fld x.cfg.toNat 0 5 → fld x.cfg.toNat 0 5 ≤ 16 →
      ringRules s r { x with cfg := cfg } = true → (x.inHost = false ∨ busMaster s x.owner = true) →
      Leaves .ringEnable s (s.setRing r { x with
        cfg := cfg ||| 0x80000000, head := 0, tail := 0, lens := [], haltAt := 0, err := 0, st := 1 })) ∧
    Leaves .ringCtrlDiscard s (s.setRing r { x with head := x.tail, lens := [] }) ∧
    (x.st = 2 ∨ x.st = 3 → (x.inHost = false ∨ busMaster s x.owner = true) →
      Leaves .ringCtrlResume s (s.setRing r { x with st := 1, err := 0, haltAt := 0 })) ∧
    (x.st = 1 → x.waiters = [] → ∃ t, Leaves .ringCtrlStop s t ∧
      t.ring r = { x with st := 3, err := St.ringStopped } ∧ (∀ q, q ≠ r → t.ring q = s.ring q) ∧
      t.mem = s.mem ∧ t.tickets = s.tickets)) ∧
  (∀ (s : State) (p : Iface) (w : Fin 64) (k : Fin 1024) (o : Fin 256) (v : Word32), reaches s p w.val = true →
    serving s = true →
    (∀ r, windowRing s w.val k.val = some r →
      let x := s.ring r
      x.st = 2 ∨ x.st = 3 →
        Leaves (.rctlDiscard p w k) s (s.setRing r { x with head := x.tail, lens := [] }) ∧
        (x.inHost = false → Leaves (.rctlResume p w k) s (s.setRing r { x with st := 1, err := 0, haltAt := 0 }))) ∧
    (let y := s.hport p w.val
     o.val / 16 ∉ y.stagingBad → Leaves (.stagingBufferWrite p w o v false) s
      (s.setHport p w.val { y with staging := sset (fun _ => 0) y.staging o.val v }))) ∧
  Say.RingsThatStay

/-- R58, R394, R401: a doorbell of a host-memory ring moves the count that the host owns, where the new value keeps the
rules. During start-up a doorbell is held; those held act in their order once the mode is set. -/
def Obligations.HostDoorbells : Prop :=
  (∀ (s : State) (p : Iface) (w : Fin 64) (k : Fin 1024) (v : Word32), reaches s p w.val = true → s.terminated = false →
    (s.mode = Mode.starting →
      Leaves (.doorbell p w k v) s { s with host := { s.host with heldDb := s.host.heldDb ++ [(w.val, k.val, v)] } }) ∧
    (∀ r, s.mode = Mode.service → s.kpr.standby = 0 → windowRing s w.val k.val = some r →
      let x := s.ring r
      x.st = 1 → x.inHost = true →
      (x.outbound = true → (v - x.head).toNat ≤ x.used →
        Leaves (.doorbell p w k v) s (s.setRing r { x with head := v })) ∧
      (x.outbound = false → ownerRuns s x.owner = true →
        let d := (v - x.tail).toNat
        let u := s.setRing r { x with tail := v }
        d ≠ 0 → d % x.eslots = 0 → d ≤ x.free →
          Leaves (.doorbell p w k v) s (if x.used = 0 then ringIrq u r else u)))) ∧
  (∀ (s : State) (w k : Nat) (v : Word32), s.host.heldDb = [(w, k, v)] → s.mode ≠ Mode.starting →
    Leaves .heldDoorbellRelease s (doorbell { s with host := { s.host with heldDb := [] } } w k v)) ∧
  Say.DoorbellsRefused

/-- R376, R387-R391, R395, R396: a push puts the staged entry onto an inbound device ring that has the space and ends OK;
a pop takes the oldest entry of an outbound device ring into the port's buffer. Reads over the local bus and QSPI send
out the words of the window, writes are made word by word, and a status read clears the status. -/
def Obligations.HostWindows : Prop :=
  (∀ (s : State) (p : Iface) (w : Fin 64) (v : Word32) (r : Nat), reaches s p w.val = true → serving s = true →
    windowRing s w.val (fld v.toNat 16 10) = some r →
    let x := s.ring r
    let port := s.hport p w.val
    x.en = true → x.inHost = false → x.st = 1 →
    (x.outbound = false →
      let n := fld v.toNat 0 5
      let half := fun k => (sget (fun _ => (0 : Word32)) port.staging k).setWidth 64
      let d : Payload := ⟨64 * n, (List.range (8 * n)).map fun k => rawW (half (2 * k) ||| half (2 * k + 1) <<< 32)⟩
      ownerRuns s x.owner = true → 1 ≤ n → n ≤ 16 → (∀ k, k < n → k ∉ port.stagingBad) → countOk x d n = true →
      n ≤ x.size → n ≤ x.free → Leaves (.push p w v) s (pushEnd (ringPut s r d n) p w.val St.ok)) ∧
    (x.outbound = true → ∀ n ls, x.lens = n :: ls →
      let slot := fun k => x.slotAddr (x.head + BitVec.ofNat 32 k)
      (∀ k, k < n → s.isBad (slot k) = false) → ∃ t, Leaves (.pop p w v) s t ∧
        t.ring r = { x with head := x.head + BitVec.ofNat 32 n, lens := ls } ∧
        t.hport p w.val = { port with
          popBuf := ((List.range n).map fun k => s.rdWords (slot k) 8).flatten, popStat := St.ok, popped := n } ∧
        t.mem = s.mem ∧ t.tags = s.tags)) ∧
  (∀ (s : State) (a n : Nat) (v : Word32) (d : List Byte) (crcOk : Bool), winAddr a = true →
    (reaches s .lbus 0 = true →
      Leaves (.localBusRead a) s (hostRead s .lbus a) ∧
      Leaves (.localBusWrite a v) s (winWrite s .lbus (a / 65536) (a % 65536) v)) ∧
    (reaches s .qspi 0 = true →
      (let t := (List.range n).foldl (fun s k => hostRead s .qspi (a + 4 * k)) s
       a % 65536 + 4 * n ≤ 65536 → t.regBit Reg.RING_HIF 3 = false →
        Leaves (.read1 a n) s t ∧ Leaves (.read4 a n) s t) ∧
      (d.length = 4 → s.regBit Reg.RING_HIF 3 = false ∨ crcOk = true →
        let t := winWrite s .qspi (a / 65536) (a % 65536) (BitVec.ofNat 32 (getLe d 0 4))
        Leaves (.write1 a d crcOk) s t ∧ Leaves (.write4 a d crcOk) s t) ∧
      Leaves .qspiStatus s { s with
        outbox := s.outbox ++ [.qspiStatus (s.host.qstat ||| if s.host.notify = [] then 0 else 0x80)]
        host := { s.host with qstat := 0 } } ∧
      Leaves .qspiReadTimeout s { s with host := { s.host with qstat := s.host.qstat ||| 8 } })) ∧
  Say.WindowsRefuse ∧ Say.WindowsAreRead

/-- R381, R384, R385, R386: a function-level reset, a cleared Bus Master Enable, a link that goes down, functions that
cease to be and a disabled endpoint each stop the host-memory rings that they reach, and no device ring. -/
def Obligations.FunctionsStopTheirRings : Prop :=
  ∀ (s : State) (f : Fin 64),
    let stopped := fun (t : State) (hit : Nat → Bool) =>
      ∀ r, (t.ring r).st = (if ((s.ring r).st = 1 ∨ (s.ring r).st = 2) ∧ (s.ring r).inHost = true ∧
          hit (s.ring r).owner = true then 3 else (s.ring r).st) ∧
        (t.ring r).head = (s.ring r).head ∧ (t.ring r).tail = (s.ring r).tail ∧ (t.ring r).cfg = (s.ring r).cfg
    (reaches s .pcie f.val = true →
      (∃ t, Leaves (.functionLevelReset f) s t ∧
        stopped t (fun w => f == 0 || w == f.val) ∧ f.val ∉ t.host.bmeOff ∧ (f = 0 → t.host.numVfs = 0) ∧
        t.reg Reg.RING_FLRCNT = BitVec.ofNat 32 (min ((s.reg Reg.RING_FLRCNT).toNat + 1) 0xFFFFFFFF)) ∧
      (∃ t, Leaves (.busMasterDisable f) s t ∧ stopped t (· == f.val) ∧ f.val ∈ t.host.bmeOff)) ∧
    (reaches s .pcie 0 = true → ∀ en (n : Fin 64),
      ∃ t, Leaves (.vfEnableChange en n) s t ∧ stopped t (fun w => decide ((if en then n.val else 0) < w)) ∧
        t.host.vfEnable = en) ∧
    (s.pwr.up = true → s.regBit Reg.RING_HIF 0 = true → ∀ width speed,
      (width ≠ 0 → speed ≠ 0 → Leaves (.pcieLinkStateChange width speed) s
        { s with host := { s.host with width := width, speed := speed } }) ∧
      (∃ t, Leaves (.pcieLinkStateChange 0 speed) s t ∧ stopped t (fun _ => true) ∧ t.host.width = 0)) ∧
    (s.kpr.running = true → ∀ v : Word32, ∃ t, Leaves (.hifEnableChange v) s t ∧
      t.reg Reg.RING_HIF = v &&& 0x1F ∧ (v.getLsbD 0 = false → stopped t (fun _ => true) ∧ t.host.width = 0))

/-! ## The commit and the evidence store -/

/-- R104, R106, R109, R116, R117: the one waiting commit, whose checks pass and which fits the stored energy and the journal,
is admitted with the next commit number and its cost. One whose timeout runs out fails with HOLDUP_LOW, or with
JOURNAL_BUSY where the journal has no room. -/
def Obligations.ACommitIsAdmitted : Prop :=
  ∀ (s : State) (c : Commit), s.tdl.waiting = [c] → c.src < 65 →
    (let u := flushSample s
     let r := resolveAll u c u.projected u.tdl.next
     s.kpr.replayDone = true → s.pwr.low = false → s.kpr.records = true → s.tdl.admitted.any Commit.last = false →
      c.purpose ≠ .startup → (∀ n, c.purpose ≠ .transition n) → (∀ a, c.purpose ≠ .fold a) →
      checkState u c u.projected = none → s.kpr.brkReady = true → fits u c = true → r.devFull = [] →
      ∃ t, Leaves .commitAdmission s t ∧ t.tdl.waiting = [] ∧ t.tdl.next = s.tdl.next + 1 ∧
        (∃ c', t.tdl.admitted = s.tdl.admitted ++ [c'] ∧ c'.num = s.tdl.next ∧ c'.id = c.id ∧ c'.src = c.src ∧
          c'.intents = c.intents ∧ c'.codes = r.codes ∧ c'.cost = costOf u 0 + (r.codes.map (costOf u)).sum) ∧
        t.mem = s.mem ∧ t.tickets = s.tickets ∧ t.kpr = s.kpr) ∧
    (s.kpr.brkReady = true → c.reserve = false → s.mode ≠ Mode.standby →
      Leaves (.commitAdmissionTimeout c.id) s (commitFails (unqueue s c) c
        (if journalFree s (intentPages (resolveAll s c s.projected s.tdl.next)) = true then St.holdupLow
          else St.journalBusy))) ∧
    Say.NothingIsAdmitted s c

/-- R105-R108, R110, R291: the mark of the one admitted commit makes it last marked and completes its ticket OK with the
commit number and the first SEQ; then its results are applied, and its applied mark frees its pages. A page that fails
to program counts against its commits, page by page; at the third failure of one the commit completes with
JOURNAL_FAULT. -/
def Obligations.CommitsEnd : Prop :=
  ∀ (s : State) (c : Commit),
    (∀ (n i t : Nat) (a b : List Nat), s.tdl.admitted = [c] → c.purpose = .none → c.ticket = some t → c.src = i →
      i < 64 → t < 256 → c.deliver = .commit → (s.tk i t).used = true → (s.tk i t).done = false →
      ∃ u, Leaves (.commitMark n a b) s u ∧ u.tdl.admitted = [] ∧
        u.tdl.marked = s.tdl.marked ++ [{ c with before := some ⟨s.dur, s.tdl.lastMarked, s.tdl.lastTime⟩ }] ∧
        u.tdl.lastMarked = c.num ∧ (u.tk i t).done = true ∧ (u.tk i t).status = St.ok ∧
        (u.tk i t).results = [intW (BitVec.ofNat 64 c.num), intW (BitVec.ofNat 64 c.firstSeq)] ∧ u.mem = s.mem) ∧
    (∀ cs, s.pwr.flush = 0 → s.tdl.marked = c :: cs → Leaves .commitApply s { s with
      dur := c.effs.foldl applyHome s.dur
      tdl := { s.tdl with
        marked := cs, applied := s.tdl.applied ++ [{ c with before := none }], lastApplied := c.num } }) ∧
    (s.tdl.admitted = [] → s.tdl.marked = [] →
      Leaves .appliedMark s { s with tdl := { s.tdl with applied := [], pages := [] } }) ∧
    (∀ (page : Option (Fin 3)) (n : Nat), s.tdl.admitted = [c] →
      (page = none → 1 ≤ n) → (∀ k, page = some k → n = c.num ∧ k.val < c.pages) →
      let key := match page with | some k => k.val | none => 3
      let fails := sget (fun _ => 0) c.failed key
      (fails < 2 → Leaves (.journalProgramFailure page n) s { s.incReg Reg.TDL_PFAIL with tdl := { s.tdl with
        pfail := s.tdl.pfail + 1, admitted := [{ c with failed := sset (fun _ => 0) c.failed key (fails + 1) }] } }) ∧
      (∀ i t, 2 ≤ fails → c.ticket = some t → c.src = i → i < 64 → t < 256 → c.purpose = .none →
        (s.tk i t).used = true → (s.tk i t).done = false →
        ∃ u, Leaves (.journalProgramFailure page n) s u ∧ u.tdl.admitted = [] ∧ (u.tk i t).done = true ∧
          (u.tk i t).status = St.journalFault ∧ u.dur.ctrs = s.dur.ctrs)) ∧
    Say.NothingIsMarked s c

/-- R111, R576: at a loss of main supply every ring stops, contexts between bundles stop, and no new work begins; when
every admitted commit has its mark the device goes on to its stop, and at the stop only the durable state, the one-time
cells and the roots remain. A short dip is only counted. -/
def Obligations.MainLoss : Prop :=
  (∀ s : State,
    (s.pwr.up = true → s.pwr.flush = 0 → s.tmp.pendFlags = 0 →
      ∃ t, Leaves .mainLoss s t ∧ t.pwr.flush = 1 ∧ (∀ r, (t.ring r).st ≠ 1 ∧ (t.ring r).st ≠ 2) ∧
        t.tdl = s.tdl ∧ t.dur = s.dur ∧ t.roots = s.roots) ∧
    (s.pwr.up = true → s.pwr.flush = 0 → Leaves .shortDip s (s.statInc 0x40)) ∧
    (s.pwr.flush = 1 → s.tdl.admitted = [] →
      Leaves .flushMarksWritten s { s with pwr := { s.pwr with flush := 2 } }) ∧
    (s.pwr.flush = 2 → s.tdl.admitted = [] →
      ∃ t, Leaves .deviceStop s t ∧ t.pwr.up = false ∧ t.kpr.mode = Mode.starting ∧ t.kpr.running = false ∧
        t.otp = s.otp ∧ t.roots = s.roots ∧ t.dur = durAfterReset s.dur ∧ t.tdl.marked = s.tdl.marked ∧ t.tickets = [] ∧
        t.ctxs = [])) ∧
  Say.NoLoss

/-- R53, R85-R92, R98-R101, R590: a volume idle for a second closes its open strip for reason 2. The lowest closed strip of
a volume gets its trailer, which takes it off the strips that wait; a band whose strip 63 has its trailer gets its seal.
A read of evidence is answered once the replay is complete, in the requester's buffer, with the items that fit. -/
def Obligations.EvidenceCloses : Prop :=
  (∀ (s : State) (v : Fin 64),
    let x := s.projected.vol v.val
    let y := s.dur.vol v.val
    x.exist = true → x.isOpen = true → Leaves (.stripIdleClose v) s (settleVol { s with
      dur := s.dur.setVol v.val { y with
        reqs := y.reqs ++ [(x.strip, 2, s.kpr.devtime, (s.reg Reg.STAT_EPOCH).toNat)] } } v.val)) ∧
  (∀ (s u : State) (v : Fin 64) (r : Nat) (g : List Byte), s.pwr.flush = 0 → stripRoot s = some r →
    let x := s.dur.vol v.val
    let key := pairValue s Lbl.strip r
    let signed := fun h => hybridSign s key h = (.ok g, u)
    (∀ t q, x.strips.find? (·.closed.isSome) = some t → t.closed = some q →
      let h := trailerHead x v.val t q (keyId (pubKey 0x18 key))
      signed h → ∃ w, Leaves (.stripSigned v true) s w ∧
        (w.dur.vol v.val).trailers = (u.dur.vol v.val).trailers ++ [(t.num, h ++ g ++ zeros 19)] ∧
        (w.dur.vol v.val).strips = (u.dur.vol v.val).strips.filter (·.num ≠ t.num) ∧ w.mem = u.mem) ∧
    (∀ b, nextSeal x = some b →
      let h := sealHead s x v.val b (keyId (pubKey 0x18 key))
      signed h → Leaves (.bandSeal v) s { u with
        dur := u.dur.setVol v.val { u.dur.vol v.val with seals := x.seals ++ [(b, h ++ g ++ zeros 35)] } })) ∧
  (∀ (s : State) (q : StrataReq), s.kpr.replayDone = true →
    let serves := fun (c : Instr) (op : Nat) =>
      ∀ r u st l n loc v, readRequest s op q = some (.ok r, u) → strataRead u op r = (st, l) →
        readDeliver u r (readOwner r.who) l 0 = (n, loc, v) →
        Leaves c s { v with
          outbox := v.outbox ++ [.readCompletion r.who (if loc = 0 then st else St.carryFault) n loc] }
    serves (.readRecords q) 1 ∧ serves (.readTrailer q) 2 ∧ serves (.readSeal q) 3 ∧ serves (.readCounter q) 4 ∧
      serves (.readVolumeState q) 5) ∧
  Say.StripsThatWait ∧ Say.EvidenceRequests

/-! ## The cipher lanes -/

/-- R405-R407, R410, R412: the grant of a lane. The next requester's oldest request leaves the queue; a key that fails its
check completes the request with that status; a good key takes the lane with the next counter value, or waits in it for
its reservation, whose advance lets it go on. -/
def Obligations.LanesAreGranted : Prop :=
  (∀ (s : State) (ok : Bool) (i n t sel : Nat) (args : List TWord) (data p : List Payload), slotsReady s = true →
    s.pwr.flush = 0 → nextRequester s = some i → freeLane s = some n → s.cip.queue.find? (·.1 == i) = some (i, t) →
    let o := (s.tk i t).op
    o = .x 0x20 sel args data 0 → srcBusy s o = false →
    let u := { s with cip := { s.cip with queue := s.cip.queue.erase (i, t), ptr := (i + 1) % 64 } }
    takeSources u (some i) o false = (.ok p, u) →
    ∀ st ref key long good, cipherKey u i (o.word 1) = (st, ref, key, long, good) →
    (st ≠ St.ok → Leaves (.laneGrant ok) s (u.tkDone i t st)) ∧
    (let q := keyCtr s.dur ref
     st = St.ok → ok = true → good = true → q.exhausted = false → q.ivctr < 2 ^ q.limlog →
      ∃ w l, Leaves (.laneGrant ok) s w ∧ (n, l) ∈ w.cip.lanes ∧ l.inst = i ∧ l.ticket = t ∧ l.mode = sel ∧ l.ref = ref ∧
        l.key = key ∧ l.long = long ∧ w.mem = s.mem ∧ l.c = if q.ivctr < q.reslim then some q.ivctr else none)) ∧
  (∀ (s : State) (k : KeyRef) (n : Nat) (l : Lane), s.cip.lanes = [(n, l)] → l.ref = k → l.c = none → s.air.held = [] →
    s.air.due = [] → s.air.heldTx = [] → s.pwr.flush = 0 →
    let q := keyCtr s.dur k
    q.exhausted = false → q.ivctr < 2 ^ q.limlog → q.ivctr < q.reslim →
    ∃ w, Leaves (.reservationResume k) s w ∧ w.cip.lanes = [(n, { l with c := some q.ivctr })]) ∧
  Say.LanesThatWait

/-! ## Sessions, the standing list, keys -/

/-- R147, R158: once the replay is complete the context rebuild can end, and the generations of the standing list are
loaded, the active one first; an inactive one without a seal comes up empty. -/
def Obligations.SessionContexts : Prop :=
  (∀ s : State, s.kpr.replayDone = true →
    Leaves .shingleRebuildComplete s { s with shg := { s.shg with rebuilt := true } } ∧
    (∀ g : Fin 2, s.stlLoaded g.val = false →
      (s.dur.stlActive = g.val ∨ (s.dur.stlActive = 1 - g.val ∧ s.stlLoaded (1 - g.val) = true)) →
      ∃ t, Leaves (.stlGenerationLoaded g) s t ∧ t.stlLoaded g.val = true ∧ t.stlGen g.val =
        if s.dur.stlActive = g.val ∨ (s.dur.stlHome g.val).sealed = true then s.dur.stlHome g.val
        else { s.dur.stlHome g.val with entries := [] })) ∧
  Say.SessionsWait ∧ Say.NewContexts

/-- R149, R150, R154-R157, R162: in Service an edit of the standing list takes the entry registers and sets BUSY. When it
completes, on the inactive generation: DELETE takes the entry out and clears the seal, CLEAR takes all out, SET_SALT sets
the salt of an empty one, PERSIST seals the durable copy. Lookups release the generation made inactive. -/
def Obligations.StandingLists : Prop :=
  (∀ s : State, s.kpr.running = true → s.indigo = true → s.stl.busy = none →
    let begins := fun (op : Nat) =>
      { s with stl := { s.stl with busy := some { op := op, entry := stlEntryBytes s, refused := stlSwitching s } } }
    Leaves .stlInsert s (begins 1) ∧ Leaves .stlDelete s (begins 2) ∧ Leaves .stlClear s (begins 3) ∧
      Leaves .stlSetSalt s (begins 4) ∧ Leaves .stlPersist s (begins 5)) ∧
  (∀ (s : State) (b : StlEdit), s.stl.busy = some b → s.dur.stlActive ≤ 1 → s.indigo = true → b.refused = false →
    stlSwitching s = false →
    let k := 1 - s.dur.stlActive
    let g := s.stlGen k
    let ends := fun (g' home : StlGen) =>
      ∃ t, Leaves .stlEditComplete s t ∧ t.stl.busy = none ∧ t.stl.stat = St.ok ∧ t.stlGen k = g' ∧ t.dur.stlHome k = home ∧
        t.stlGen (1 - k) = s.stlGen (1 - k) ∧ t.dur.stlHome (1 - k) = s.dur.stlHome (1 - k)
    let unsealed := { s.dur.stlHome k with sealed := false }
    Leaves .stlGenerationRelease s { s with stl := { s.stl with releasing := false } } ∧
    (s.stlLoaded k = true → s.stl.releasing = false →
      (b.op = 1 → ∀ h m, g.insert (stlEntry b.entry) s.freeCtr = some (h, m) → ends h unsealed) ∧
      (b.op = 2 → ∀ p e, g.find (b.entry.take 16) = some (p, e) → ends { g with entries := sdel p g.entries } unsealed) ∧
      (b.op = 3 → ends { g with entries := [] } unsealed) ∧
      (b.op = 4 → g.entries = [] → ends { g with salt := b.entry.take 16 } unsealed) ∧
      (b.op = 5 → ends g { g with sealed := true }))) ∧
  Say.EditsRefused ∧ Say.Lookups

/-- R443, R444, R445: a key command of the keeper in Service or Workshop on an empty slot, with attributes that R444
takes, issues the device commit of the new slot: GENERATE with a draw, DERIVE and the imports with a value made from the
argument; ZEROISE commits an empty slot. -/
def Obligations.KeyCommands : Prop :=
  (∀ (s u : State) (p : Payload), s.kpr.running = true → s.key.cmd = none → s.mode = Mode.workshop ∨ s.mode = Mode.service →
    slotsReady s = true →
    let n := s.regFld Reg.KEY_SSEL 0 12
    let x := nattrSlot s
    let begun := fun (op : Nat) => { s with key := { s.key with cmd := some op } }
    let arg := s.reg64 Reg.KEY_ARG_LO
    let arg2 := (s.reg Reg.KEY_ARG2).toNat
    let took := fun op len => inKeeperData arg len = true ∧ engRead (begun op) arg len 0x28 none false = (.ok p, u)
    Leaves .zeroise s (keyCommit (begun 5) n {}) ∧
    (attrOk s n x cmdKinds = true → (s.slot n).kind = 0 →
      (∀ r, rngDraw (begun 1) 32 = (.ok r, u) → Leaves .generate s (keyCommit u n (x.fresh r))) ∧
      (took 2 16 →
        Leaves .derive s (keyCommit u n (x.fresh (kdf Lbl.slot (u.root x.root).bits (leBytes 2 n ++ p.bytes) 32)))) ∧
      (let i := fld arg2 24 8
       let secret := fun v => agreeSecret v 0 i (fld arg2 0 24)
       ∀ z, secret s = some z → secret u = some z → took 3 16 →
        Leaves .importAgree s (keyCommit (dropSecret u 0 i) n (x.fresh (kdf Lbl.agree z p.bytes 32)))) ∧
      (let kek := fld arg2 0 12
       ∀ v, slotCheck s 0 0 kek (· == 0x50) = St.ok → took 4 40 →
        unwrapKey (kdf Lbl.importKey (u.slot kek).v [] 32) p.bytes 32 = some v →
        Leaves .importWrap s (keyCommit u n (x.fresh v))))) ∧
  Say.KeyCommandsRefused

/-- R420, R421, R442, R450, R457-R464: EXPORT writes the public key of a slot into the keeper data area; LOAD takes one from
there and issues its commit; an attestation statement is written once it is signed. The slots of the root in use are
loaded. A block of raw samples that passes its tests counts towards the first seed or refills the seed buffer, one that
fails restarts the noise source, and a restart ends. -/
def Obligations.PublicKeysAndRandomness : Prop :=
  (∀ (s u : State) (p : Payload), s.kpr.running = true → s.mode = Mode.workshop ∨ s.mode = Mode.service →
    (s.pke.busy = none → slotsReady s = true →
      let n := s.regFld Reg.PKE_PUB_SLOT 0 12
      let a := s.reg64 Reg.PKE_PUB_ADDR_LO
      let len := s.regFld Reg.PKE_PUB_LEN 0 16
      let x := s.slot n
      let y := nattrSlot s
      let begun := fun (op : Nat) => { s with pke := { s.pke with busy := some op } }
      (slotCheck s 0 0 n (fun k => !(aeadKind k || k == 0x50)) = St.ok →
        let out := if 0x41 ≤ x.kind then x.pubRec else pubKey x.kind x.v
        out.length ≤ len → inKeeperData a out.length = true → engWrite (begun 1) a (rawPayload out) none = (true, u) →
        Leaves .exportKey s (pubFail (u.setReg Reg.PKE_PUB_LEN (BitVec.ofNat 32 out.length)) St.ok)) ∧
      (attrOk s n y (fun k => 0x41 ≤ k && k ≤ 0x49) = true → len = pubLen y.kind → inKeeperData a len = true →
        x.kind = 0 → engRead (begun 2) a len 0x27 none false = (.ok p, u) →
        Leaves .loadKeyRecord s ({ u with pke := { u.pke with busy := some 3 } }.devCommit
          [.effects [.slot n { y with v := genBytes 32 (Config.hashByte 1 p.bytes), pubRec := p.bytes }]] (.pubLoad n)))) ∧
    (s.key.att = false →
      let a := s.reg64 Reg.KEY_ATT_ADDR_LO
      let cap := s.regFld Reg.KEY_ATT_LEN 0 16
      0xC8 + 104 * (measured s).length + 3429 ≤ cap → inKeeperData a cap = true → ∀ v st w,
      engRead { s with key := { s.key with att := true } } a 32 0x28 none false = (.ok p, u) →
      signedStatement u p.bytes = (.ok st, v) → engWrite v a (rawPayload st) none = (true, w) →
      Leaves .attestationStatement s (attFail (w.setReg Reg.KEY_ATT_LEN (BitVec.ofNat 32 st.length)) St.ok))) ∧
  (∀ s : State,
    (s.kpr.replayDone = true → s.key.loaded = false → rootOf s.mode ≠ 4 →
      Leaves (.keySlotLoad [] []) s (keyResume { s with key := { s.key with
        loaded := true
        bad := s.key.bad.filter fun n => !decide ((s.slot n).kind ≠ 0 ∧ (s.slot n).root = rootOf s.mode) } })) ∧
    (∀ a b, s.pwr.up = true → s.rng.fatal = false → s.rng.restarting = false →
      let l := rawSamples a b
      let rep := repetitionFails l
      let prop := proportionFails l
      let u := (rngBlock s rep prop).2
      (s.kpr.seedDone = true → rep = false → prop = false → s.rng.waiting = false →
        Leaves (.rawBlockTested a b) s (putSeed u l)) ∧
      (s.kpr.seedDone = false → rep = false → prop = false → s.rng.passes < 16 →
        Leaves (.rawBlockTested a b) s { u with rng := { u.rng with passes := s.rng.passes + 1 } }) ∧
      (s.kpr.seedDone = true → s.rng.epfail < 3 → rep = true ∨ prop = true →
        ∃ t, Leaves (.rawBlockTested a b) s t ∧ t.rng.restarting = true ∧ t.rng.fatal = false ∧ t.rng.cond = 0 ∧
          t.rng.epfail = s.rng.epfail + 1)) ∧
    Leaves .noiseRestartDone s { s with rng := { s.rng with restarting := false } }) ∧
  Say.KeeperCommandsWait ∧ Say.RandomSource

/-! ## Registers, power, start-up, modes -/

/-- R7, R8, R29, R30, R328, R333: the keeper's write of a plain register follows its access codes; a read of an RC register
leaves what hardware adds meanwhile; a read of a lower half fixes what the same agent's next read of the upper half
returns. A protection register changes its fields in the set shown alone. -/
def Obligations.Registers : Prop :=
  (∀ (s : State) (a : Nat) (v : Word32),
    (s.kpr.running = true → ∀ d, regDesc a = some d →
      (a ∉ commandRegs → isMpuReg a = false → bindShut s a = false →
        Leaves (.registerWrite a v) s (s.setReg a (regWritten d (s.reg a) v))) ∧
      (d.rc = true → Leaves (.rcRegisterRead a v) s (s.setReg a v))) ∧
    (isLower a = true → ∀ r, ∃ t, Leaves (.upperHalfLatch r a) s t ∧
      regLoad t (agentOf r) (a + 4) = regRead s (a + 4) ∧ t.regs = s.regs ∧ t.mem = s.mem) ∧
    (s.kpr.running = true →
      let i := misel s
      let m := s.mpuSet i
      let gives := fun b m' => Leaves (.mpuSetUpdate b v) s (s.setMpu i m')
      gives Reg.MPU_DMAP { m with dmap := v &&& 0x00FFFFFF } ∧
      gives Reg.MPU_GATE_LO { m with gateLoLatch := v &&& 0xFFFFFFC0 } ∧
      gives Reg.MPU_GATE_HI { m with gateLo := m.gateLoLatch, gateHi := v &&& 0xFF } ∧
      ∀ n, n < 16 →
        (∃ t, Leaves (.mpuSetUpdate (Reg.MPU_RGN_LO + 8 * n) v) s t ∧ (∀ j, (t.mpuSet i).region j = m.region j) ∧
          ∀ j, j ≠ i → t.mpuSet j = s.mpuSet j) ∧
        Leaves (.mpuSetUpdate (Reg.MPU_RGN_LO + 8 * n + 4) v) s (rgnHi s n v))) ∧
  Say.AccessCodes ∧ Say.NoAccess

/-- R10, R50, R51, R55, R56, R59, R60, R576: power-up and the resets, and what a device reset leaves. -/
def Obligations.PowerAndReset : Prop :=
  (∀ s : State,
    (s.pwr.up = false → ∀ e, ∃ t, Leaves (.powerOn true e true true) s t ∧ t.pwr.up = true ∧ t.kpr.monOk = true ∧
      t.kpr.devtime = s.tdl.lastTime ∧ t.kpr.timeSet = false ∧ t.kpr.cause = 0 ∧ t.roots = s.roots ∧ t.tmp.on = true ∧
      t.pwr.vhold = e.vholdMv ∧ t.mem = s.mem ∧ t.dur = s.dur) ∧
    (s.pwr.up = true → s.pwr.flush = 0 → ∀ ns, 1000 ≤ ns → Leaves (.resetNLow ns) s (deviceReset s 1)) ∧
    (reqReady s = true → Leaves .deviceResetRequest s (deviceReset s 2))) ∧
  Say.PowerStays ∧ Say.WhatADeviceResetLeaves

/-- R45, R51, R53-R55, R113, R115, R126: the replay, the measurement of the capacitance, and the records of start-up. -/
def Obligations.StartUpCompletes : Prop :=
  (∀ s : State,
    (s.pwr.up = true → s.kpr.replayDone = false → s.pwr.flush = 0 → s.tdl.unread = (0, 0) →
      let u := { s with
        kpr := { s.kpr with replayDone := true }
        dur := s.tdl.marked.foldl (fun d c => c.effs.foldl applyHome d) s.dur
        tdl := { s.tdl with
          replayed := (s.tdl.marked ++ s.tdl.applied).length, discarded := s.tdl.lost.length, lost := [], marked := []
          applied := [], pages := [], lastApplied := s.tdl.lastMarked }
        evf := { s.evf with catchup := true } }
      Leaves .replayComplete s (svcResume (keyResume (spentKeys (limitRaise (rebuildStrips u)))))) ∧
    (s.kpr.running = true → Leaves .brkMeasure s (s.setReg Reg.BRK_CTRL (s.reg Reg.BRK_CTRL ||| 0x100))) ∧
    (s.pwr.up = true → s.pwr.flush = 0 → s.pwr.measuring = false →
      (∃ t, Leaves .vholdCharged s t ∧ t.pwr.charged = true ∧ t.pwr.vhold = 16000 ∧ t.kpr = s.kpr) ∧
      (s.pwr.charged = true → s.pwr.want = true → s.tdl.waiting = [] →
        ∃ t, Leaves .capacitanceMeasurementStart s t ∧ t.pwr.measuring = true ∧ t.pwr.want = false ∧
          (t.reg Reg.BRK_CTRL).getLsbD 8 = false)) ∧
    (s.pwr.measuring = true → ∀ n, s.regFld Reg.BRK_CAP_MIN 0 16 ≤ n / 160 →
      ∃ t, Leaves (.capacitanceMeasured n) s t ∧ t.kpr.brkReady = true ∧ t.pwr.low = false ∧ t.pwr.cmeas = n / 160 ∧
        t.pwr.measuring = false ∧ t.reg Reg.BRK_MEAS = BitVec.ofNat 32 n ∧ t.tdl = s.tdl) ∧
    (s.pwr.up = true → s.kpr.brkReady = false → s.pwr.charged = false → s.pwr.vhold < 15000 →
      Leaves .vholdChargeTimeout s (brkLow s (BitVec.ofNat 32 s.pwr.vhold))) ∧
    (s.kpr.records = false → s.kpr.replayDone = true → s.kpr.brkReady = true → s.terminated = false →
      s.mode ≠ Mode.starting →
      ∃ t, Leaves .startupRecordsCommit s t ∧ t.kpr.records = true ∧ t.mem = s.mem ∧ t.dur = s.dur ∧
        (t.tdl.waiting.drop s.tdl.waiting.length).map (·.intents) = startupIntents s ∧
        ∀ c ∈ t.tdl.waiting.drop s.tdl.waiting.length, c.src = 64 ∧ c.purpose = .startup)) ∧
  Say.StartUpWaits

/-- R39-R42, R61, R561: the requests for a mode, and the two evaluations of a decision. -/
def Obligations.ModesChange : Prop :=
  (∀ s : State,
    (reqReady s = true →
      (s.mode = Mode.service → Leaves .modeReqWorkshop s (decisionBegin s .workshop) ∧
        Leaves .modeReqStandby s
          (decisionBegin ((List.range 64).foldl endWaits { s with kpr := { s.kpr with standby := 1 } }) .standby)) ∧
      (s.mode = Mode.workshop → Leaves .modeReqService s (decisionBegin s (.service 0))) ∧
      Leaves .modeReqDecommission s (decisionBegin s .decommission) ∧
      (∀ g : Word4, g ≠ 2 → g ≠ 3 → g ≠ 4 → g ≠ 15 → Leaves (.modeReqRefused g) s (modeEnd s St.modeRefused))) ∧
    (∀ d u b, s.kpr.decision = some (d, none) → s.rng.fatal = false → decisionBlocked s = false →
      rngDraw s 1 = (.ok b, u) → Leaves .decisionDeferredStart s (firstEvaluation u d)) ∧
    (∀ d, s.kpr.decision = some (d, some St.ok) → evaluate s d = St.ok → d.waits s = false →
      let u := { s with kpr := { s.kpr with decision := none } }
      Leaves (.decisionSecondEvaluation true) s (match d with
        | .startup => imageDecided s true
        | .startMode good => startMode u good
        | d => decisionAct u d))) ∧
  Say.DecisionsBegin ∧ Say.DecisionsRefused

/-- R43, R46, R49, R63-R67: into and out of Workshop and Standby. -/
def Obligations.WorkshopAndStandby : Prop :=
  (∀ s : State,
    (∀ n, s.kpr.decision = some (.service n, some St.ok) → s.mode = Mode.workshop → s.key.cmd = none →
      ∃ t, Leaves (.decisionSecondEvaluation true) s t ∧ t.kpr.mode = Mode.service ∧ t.kpr.decision = none ∧
        t.kpr.running = true ∧ t.kpr.notAfter = none ∧ (t.ctx 0).run = .running ∧ (t.ctx 0).r.level = 2 ∧
        (t.ctx 0).r.mask = 0 ∧ (t.ctx 0).r.pc = romEntry ∧
        (∀ a, 0x1C0000000 ≤ a → a < 0x1CE000000 → t.rdByte a = 0 ∧ t.rdTag a = Tag.raw) ∧
        ∃ c l, t.tdl.waiting = l ++ [c] ∧ c.src = 64 ∧ c.purpose = .transition n ∧
          c.intents = [transitionRec Mode.workshop Mode.service n]) ∧
    (s.mode = Mode.workshop → s.kpr.decision = none →
      Leaves .workshopInactivityExpiry s (decisionBegin s (.service 10)) ∧
      ∀ n, s.kpr.notAfter = some n → s.kpr.timeSet = true → n < s.kpr.devtime →
        Leaves .credentialWithdrawal s (decisionBegin s (.service 11))) ∧
    (s.kpr.standby = 2 → deviceQuiet s = true → s.terminated = false →
      ∃ t c, Leaves .standbyDrainEnd s t ∧ t.kpr = s.kpr ∧ t.tdl.waiting = [c] ∧ c.src = 64 ∧ c.purpose = .standby ∧
        c.intents = [transitionRec Mode.service Mode.standby 0]) ∧
    (s.kpr.standby = 3 → signQueue s = 0 → s.kpr.waking = false →
      ∃ t, Leaves .standbyStripsSigned s t ∧ t.kpr.mode = Mode.standby ∧ t.kpr.running = false ∧ t.kpr.modeStat = St.ok) ∧
    (∀ (k : Fin 6) (u : State) (b : List Byte), s.regBit Reg.KPR_WAKE_EN k.val = true → s.mode = Mode.standby →
      s.kpr.decision = none → let w := wakeSource s k.val
      w.rng.fatal = false → decisionBlocked w = false → rngDraw w 1 = (.ok b, u) →
      Leaves (.wakeEvent k) s (firstEvaluation u .wake) ∧ (w.reg Reg.KPR_WAKE_CAUSE).getLsbD k.val = true)) ∧
  Say.WorkshopStays ∧ Say.TheWake

/-- R37, R46, R68, R71, R72, R382, R453-R455, R472, R487-R489: the services of the ROM in the modes that offer them. -/
def Obligations.RomServices : Prop :=
  (∀ (s : State) (req : List Byte), s.pwr.up = true → svcBusy s = false →
    let decides := fun c code d => Leaves c s (decisionBegin (called s req code) d)
    let ends := fun c (more : State → Prop) => ∃ t, Leaves c s t ∧ t.host.svcStat = St.ok ∧ more t
    (s.mode = Mode.blank → decides (.persoBegin req) 0x01 .persoBegin) ∧
    (s.mode = Mode.personalise →
      decides (.persoClose req) 0x06 .persoClose ∧
      (s.otp.tagged = false → req.length = 8 →
        ends (.persoTagid req) fun t => t.otp.tagged = true ∧ t.reg64 Reg.AIR_TAGID_LO = getLe req 0 8) ∧
      (∀ r, WritesSegment s false req r → ends (.persoImage req r) fun t => SegmentWritten s t false req) ∧
      (s.rng.fatal = false → s.rng.q + 4 ≤ 2 ^ 24 → ends (.persoKeygen req) fun t =>
        t.host.svcLen = 16 + 6 * 2049 + 1184 ∧ (∀ r, 1 ≤ r → r ≤ 3 → (t.root r).bits.length = 32) ∧ t.otp.certs = []) ∧
      (req.length = 64 → req.head? = some 0x50 → slice req 1 3 = zeros 3 → (∀ q ∈ s.otp.certs, q.1 ≠ 0x50) →
        ends (.persoCert req) fun t => sget (fun _ => []) t.otp.certs 0x50 = req.drop 4)) ∧
    (s.mode = Mode.recovery →
      (s.otp.swapCtr < 64 → decides (.imageSwap req) 0x13 .imageSwap) ∧
      (s.otp.rpSet < 1024 → decides (.recoveryExit req) 0x14 .recoveryExit) ∧
      Leaves (.nonce req) s (svcEnd (called s req 0x15) 0x15 St.ok s.kpr.dnonce) ∧
      (req.length = 32 → ∀ st u, signedStatement (called s req 0x11) req = (.ok st, u) →
        Leaves (.attest req) s (svcEnd u 0x11 St.ok st)) ∧
      (s.kpr.replayDone = true → req.length = 64 → 1 ≤ getLe req 0 1 → getLe req 0 1 ≤ 5 → getLe req 1 1 < 64 →
        let q : StrataReq := {
          who := .rom, volume := Fin.ofNat 64 (getLe req 1 1), count := getLe req 2 2, start := getLe req 8 8, dest := 0
          dlen := min (getLe req 0x18 4) 16383 }
        ∃ t, Leaves (.readEvidence req) s t ∧ t.mem = s.mem ∧
          t.host.svcStat = (strataRead (called s req 0x10) (getLe req 0 1) q).1) ∧
      (∀ r, WritesSegment s (!s.kpr.bootsel) req r → s.cfl.swapped = false →
        ends (.imageWrite req r) fun t => SegmentWritten s t (!s.kpr.bootsel) req)) ∧
    (∀ code, s.mode ≠ Mode.starting → s.terminated = false → svcModes code.toNat = none →
      ∃ t, Leaves (.svcCodeUnknown code) s t ∧ t.host.svcStat = St.argInvalid ∧ t.host.svcCode = code)) ∧
  Say.ServicesAreRefused ∧ Say.ServicesEndOtherwise

/-! ## The air link -/

/-- R175, R177, R185, R192: the states of a tag: WAKE latches its reader and channel, IDENT is answered by the tags with the
prefix, SELECT makes it Active, DESELECT, HALT, an inactive link and a lost field end the link. -/
def Obligations.TagFrames : Prop :=
  (∀ (s : State) (f : AirFrame),
    let u := rx s
    let off := fun n (t : State) => t.air.tstate = n ∧ t.air.bound = [] ∧ t.air.unlocked = []
    (Good s f → f.cmd = 0x01 → f.dest = broadcast → f.payload.length = 8 →
      let id := BitVec.ofNat 64 (getLe f.payload 0 8)
      (s.air.tstate = 0 ∨ ((s.air.tstate = 1 ∨ s.air.tstate = 3) ∧ id ≠ s.air.reader) → Leaves (.airWake f) s
        { u with air := { s.air with tstate := 1, reader := id, channel := f.channel.val } }) ∧
      (s.air.tstate = 3 → id = s.air.reader → f.flags.getLsbD 2 = true →
        Leaves (.airWake f) s { u with air := { s.air with tstate := 1 } })) ∧
    (Good s f → f.cmd = 0x02 → s.air.tstate = 1 → f.channel.val = s.air.channel → f.dest = broadcast →
      f.payload.length = 9 → ∀ n, n = getLe f.payload 0 1 → n ≤ 64 → getLe f.payload 1 8 = (tagId s).toNat % 2 ^ n →
        ∃ t b, Leaves (.airIdent f) s t ∧
          t.outbox = s.outbox ++ [.identResponse (tagId s) (s.reg Reg.KPR_ID_REV) b s.air.channel] ∧
          t.air = { s.air with bsLast := b }) ∧
    (Clear s f → f.cmd = 0x03 → s.air.tstate = 1 →
      ∃ q, Answers (.airSelect f) s f St.ok (leBytes 4 (s.reg Reg.KPR_ID_REV).toNat ++ [q]) fun t => t.air.tstate = 2) ∧
    (Clear s f → f.cmd = 0x04 → s.air.tstate = 2 → Answers (.airDeselect f) s f St.ok [] (off 1)) ∧
    (Clear s f → f.cmd = 0x05 → s.air.tstate = 1 ∨ s.air.tstate = 2 → Answers (.airHalt f) s f St.ok [] (off 3)) ∧
    (s.air.tstate = 2 → ∃ t, Leaves .activeTimeout s t ∧ off 1 t ∧ t.air.kept = []) ∧
    (s.air.tstate ≠ 0 → ∃ t, Leaves .fieldLoss s t ∧ off 0 t ∧ t.air.field = false ∧ ∀ o ∈ t.air.ops, o.live = false)) ∧
  Say.FramesAreFiltered ∧ Say.StatesThatStay

/-- R177, R179, R181, R195-R198: the services that an Active tag gives in clear: PING, READ, APP, GET_RESULT, and a code of no
command. -/
def Obligations.AirAnswers : Prop :=
  (∀ (s : State) (f : AirFrame), Clear s f →
    let a := getLe f.payload 0 1
    let x := s.area a
    let off := getLe f.payload 1 2
    let n := getLe f.payload 3 2
    (f.cmd = 0x07 → s.air.tstate = 1 ∨ s.air.tstate = 2 → f.payload.length ≤ 32 →
      Answers (.airPing f) s f St.ok (f.payload ++ leBytes 2 (BitVec.ofInt 16 f.rssi).toNat) fun _ => True) ∧
    (s.air.tstate = 2 →
      (f.cmd = 0x10 → s.kpr.replayDone = true → a ≤ 63 → x.size ≠ 0 →
        x.read = 0 ∨ (x.read = 1 ∧ a ∈ s.air.unlocked) → off + n ≤ x.size → n ≤ 248 →
        ∃ t, Leaves (.airRead f) s t ∧ (Passes s → t.dur = s.dur ∧ t.mem = s.mem ∧
          Replied s t f.seq St.ok (leBytes 8 x.newest.1 ++ slice (wordsBytes x.newest.2) off n))) ∧
      (f.cmd = 0x20 → a ≤ 15 → ∀ b, airBinding s a = some b → ∃ t, Leaves (.airApp f) s t ∧
        { b := a, seq := f.seq, bs := f.flags.getLsbD 1 } ∈ t.air.apps ∧ t.outbox = s.outbox) ∧
      (f.cmd = 0x06 → f.payload = [f.seq] → ∀ r, s.air.kept.find? (·.seq == f.seq) = some r → r.ref = none →
        Answers (.getResult f) s f r.status r.payload fun t => ∀ q ∈ t.air.kept, q.seq ≠ f.seq)) ∧
    (f.cmd ∉ ([1, 2, 3, 4, 5, 6, 7, 0x10, 0x11, 0x12, 0x20] : List Byte) → s.air.tstate ≠ 0 →
      Answers (.unknownCommand f) s f St.cmdUnknown [] fun _ => True)) ∧
  Say.AnswersOtherwise ∧ Say.SealedFrames

/-- R179, R183, R195, R197, R201-R209, R211: the writes of the field, from the command to its reply, and the replies of the
application. -/
def Obligations.AirOperations : Prop :=
  (∀ (s : State) (f : AirFrame), Clear s f → s.air.tstate = 2 → s.terminated = false →
    let a := getLe f.payload 0 1
    let x := s.area a
    let off := getLe f.payload 1 2
    let ver := getLe f.payload 3 8
    let d := f.payload.drop 11
    a ≤ 63 → x.size ≠ 0 → fieldMay s a = true →
    let commits := fun c intent p => ∃ t q, Leaves c s t ∧ lockOf t a = some .field ∧ t.dur = s.dur ∧
      t.tdl.waiting = s.tdl.waiting ++ [q] ∧ q.src = x.owner ∧ q.purpose = p ∧ q.intents = [intent]
    (f.cmd = 0x11 → x.write = 0 ∨ (x.write = 1 ∧ a ∈ s.air.unlocked) → off + d.length ≤ x.size →
      dwellShort (rx s) (f.flags.getLsbD 1) 8 (shadowMode s) = false → ver = 0 ∨ ver = x.newest.1 →
      (shadowMode s = false → commits (.airWrite f)
        (.area (BitVec.ofNat 64 a) (BitVec.ofNat 64 x.newest.1) ⟨x.size, overlay x.newest.2 off d⟩) (.areaWrite a)) ∧
      (shadowMode s = true →
        ∃ t o, Leaves (.airWrite f) s t ∧ lockOf t a = some .field ∧ t.tdl = s.tdl ∧ t.air.ops.getLast? = some o ∧
          o.area = a ∧ o.stage = 3 ∧ o.offset = off ∧ o.data = d ∧ (t.area a).newest = x.newest)) ∧
    (f.cmd = 0x12 → s.kpr.replayDone = true → x.password ≠ 0 → x.attempts < x.limit → x.openClear = true →
      dwellShort (rx s) (f.flags.getLsbD 1) 1 false = false →
      commits (.airPwd f) (.pwAttempt (BitVec.ofNat 64 a) 0) (.pwIncr a))) ∧
  (∀ (s : State) (o : FieldOp), s.air.ops = [o] → o.live = true → o.deferred = false → o.ref = none →
    (s.air.tstate = 2 → ∃ t, Leaves (.resultWindowExpiry o.seq) s t ∧ Replied s t o.seq St.pending [] ∧
      t.air.ops = [{ o with deferred := true }]) ∧
    (∀ a : Fin 64, o.area = a.val →
      (o.stage = 3 → let y := (s.area a.val).newest
        ∃ t, Leaves (.shadowWriteComplete a true) s t ∧ Replied s t o.seq St.ok (leBytes 8 (y.1 + 1)) ∧
          (t.area a.val).newest = (y.1 + 1, overlay y.2 o.offset o.data) ∧ lockOf t a.val = none) ∧
      (o.stage = 0 → o.pwd = true → fieldMay s a.val = true → s.terminated = false →
        (s.area a.val).attempts < (s.area a.val).limit → dwellShort s o.bs 1 false = false →
        ∃ t c, Leaves (.areaLockGrant a) s t ∧ lockOf t a.val = some .field ∧ t.tdl.waiting = s.tdl.waiting ++ [c] ∧
          c.purpose = .pwIncr a.val))) ∧
  (∀ (s : State) (a : Nat) (x : Area) (h : ShadowSlot), s.mode = Mode.service → s.admits = true → s.dur.areas = [(a, x)] →
    x.shadow = some h → a ∉ s.air.folds → lockOf s a = none →
    ∃ t c, Leaves .foldShadows s t ∧ t.tdl.waiting = s.tdl.waiting ++ [c] ∧ c.src = x.owner ∧ c.purpose = .fold a ∧
      c.intents = [.fold a h.version h.content] ∧ lockOf t a = some .fold) ∧
  (∀ (s u : State) (b : Fin 16) (i r r' : Nat) (p : Payload) (c : AppCmd), airBinding s b.val = some (i, r, r') →
    readerRole s = false → airEnabled u = true → takeRing s r' = (some p, u) → p.poisoned = false → u.air.tstate = 2 →
    u.air.apps = [c] → c.b = b.val → c.seq = p.bytes.getD 0x0A 0 → c.deferred = false →
    getLe p.bytes 0 8 = u.air.reader.toNat →
    ∃ t, Leaves (.appReply b) s t ∧ (Passes u → t.air.apps = [] ∧ Replied u t c.seq
      (BitVec.ofNat 16 (getLe p.bytes 0x0C 2)) (slice p.bytes 0x20 (min 256 (getLe p.bytes 0x0E 2))))) ∧
  Say.AirWritesRefused ∧ Say.CommandsWait

/-- R163, R164, R181, R187, R191-R193, R199: the control of the link and its signal, and the reader role. -/
def Obligations.LinkAndReader : Prop :=
  (∀ s : State, s.kpr.running = true →
    (∀ ok, s.mode = Mode.workshop ∨ s.mode = Mode.service →
      Leaves (.airEnable ok) s { s.setReg Reg.AIR_CTRL (s.reg Reg.AIR_CTRL ||| 1) with
        air := { s.air with roleLocked := true, txfail := if readerRole s then s.air.txfail else !ok } }) ∧
    (∃ t, Leaves .airDisable s t ∧ airEnabled t = false ∧ t.air.tstate = 0 ∧ t.air.bound = [])) ∧
  (∀ (s : State) (x : Int), airEnabled s = true → readerRole s = false → s.mode = Mode.service →
    ∃ t, Leaves (.readerSignalSample x) s t ∧ t.air.samples.length ≤ 16 ∧ t.air.samples.getLast? = some x ∧
      t.air.field = decide (floorCdb s < x) ∧ t.air.dwell = dwellUs t ∧ (s.air.samples.length < 15 → t.regs = s.regs)) ∧
  (∀ (s u : State) (b : Fin 16), airEnabled s = true → readerRole s = true →
    (∀ i r p, airBinding s b.val = some (i, r) → s.pwr.flush = 0 → (s.air.sent.any fun q => q.1 == b.val) = false →
      takeRing s r.2 = (some p, u) → p.poisoned = false →
      s.rdByte ((s.ring r.2).slotAddr (s.ring r.2).head + 9) &&& 1 = 0 →
      ∃ t f, Leaves (.readerCommandSend b) s t ∧ (Passes u → t.outbox = u.outbox ++ [.downlink f] ∧
        f.dest = BitVec.ofNat 64 (getLe p.bytes 0 8) ∧ f.cmd = p.bytes.getD 8 0 ∧ f.seq = p.bytes.getD 0x0A 0 ∧
        (b.val, { peer := f.dest, cmd := f.cmd, seq := f.seq }) ∈ t.air.sent ∧ t.mem = u.mem)) ∧
    (∀ c, s.air.sent.find? (·.1 == b.val) = some (b.val, c) →
      let freed := fun (t : State) => t.air.sent = sdel b.val s.air.sent ∧ t.outbox = s.outbox
      (∀ f, f.src = c.peer → f.seq = c.seq → ∃ t, Leaves (.readerReplyReceived b f) s t ∧ freed t) ∧
      (∃ t, Leaves (.readerReplyTimeout b) s t ∧ freed t)) ∧
    (∀ (r : IdentReply) l plen pre rest, s.air.waiting = false → s.regBit Reg.AIR_INV 16 = true →
      s.air.invStack = (plen, pre) :: rest → r.silent = true →
      ∃ t f, Leaves (.inventoryRound r l) s t ∧ t.air.invStack = rest ∧ t.outbox = s.outbox ++ [.downlink f] ∧ f.cmd = 2 ∧
        f.payload = BitVec.ofNat 8 plen :: leBytes 8 pre.toNat) ∧
    (s.regBit Reg.AIR_CTRL 4 = true → Leaves .waitModeEntry s { s with air := { s.air with waiting := true } }) ∧
    (s.air.waiting = true → ∀ x, Leaves (.waitProbe x true) s
      { s with outbox := s.outbox ++ [.probe (s.regFld Reg.AIR_CTRL 8 2)] })) ∧
  Say.LinkStays ∧ Say.ReaderWaits

/-! ## How contexts execute -/

/-- R226-R230, R256, R266-R268: the checks before a syllable's own work: the bundle is fetched and decoded whole as it
begins, and each syllable is the next one of its code words. -/
def Obligations.SyllablesAreChecked : Prop := Say.ABundleIsFetched ∧ Say.TheNextSyllable

/-- R232-R234, R240, R241, R253: a bundle commits: it goes on at the next bundle or at its target, its effects are made in
order, and every byte outside what it stores reads as before. -/
def Obligations.BundlesCommit : Prop := Say.WhereABundleLeads ∧ Say.WhatABundleChanges ∧ Say.StacksSettle

/-- R322, R324-R326: an exception whose level is above MASK, and which the handler's table and stack take, enters its
handler; otherwise it escalates, and in keeper code at MASK 7 it is fatal. -/
def Obligations.ExceptionsAreTaken : Prop := Say.HandlersAreEntered ∧ Say.ExceptionsEscalate

/-- R306, R321, R322, R328, R349: the highest pending source that a context of the instance takes enters its handler, and
stops pending. The end of a time slice takes the reservation. ESC_CTRL resumes a held context or halts its instance. -/
def Obligations.InterruptsAndSlices : Prop :=
  (∀ (s : State) (i c : Fin 64) (core : Fin 13),
    let k := ctxKey i.val c.val
    let x := s.ctx k
    (∀ src level, irqNext s i.val = some (src, level) → i ≠ 0 → takesIrq s k level = true → x.undone.r.level ≠ 2 →
      (∀ n : Fin 64, n ≠ c → takesIrq s (ctxKey i.val n.val) level = false) → ∀ g, readGate s i.val 256 = some g →
      let y := x.undone
      let z := s.inst i.val
      let u := s.setInst i.val { z with irq := z.irq.filter (· ≠ src), irqPtr := src + 1, ctxPtr := (c.val + 1) % 64 }
      let cause := causeWord src 0 0 0 y.r.level.val level Cls.interrupt
      ∀ t, enterHandler u i.val k core.val y (frameWords i.val c.val core.val y cause 0 0) level false .none = .ok t →
        t.mode = s.mode →
        Leaves (.interruptTaken i c core) s (t.statInc (instStat i.val 0x30)) ∧ src ∉ (t.inst i.val).irq ∧
          (t.ctx k).r.level = 1 ∧ (t.ctx k).r.mask = BitVec.ofNat 3 level ∧ (t.ctx k).r.pc = g.entry) ∧
    (i ≠ 0 → x.run = .running → x.waiting = none →
      ∃ t, Leaves (.timeSliceEnd i c) s t ∧ t.mem = s.mem ∧ (t.ctx k).r.pc = x.r.pc ∧
        (x.r.level ≠ 2 → (t.ctx k).r.resv = none)) ∧
    (s.kpr.running = true → i ≠ 0 → x.run = .held →
      Leaves (.escResume i c) s (s.setCtx k { x with run := .running }) ∧
      ((s.inst i.val).state = 2 → s.terminated = false →
        ∃ t q, Leaves (.escHalt i c) s t ∧ (t.inst i.val).zeroDrain = true ∧ t.tdl.waiting = s.tdl.waiting ++ [q] ∧
          q.intents = stateIntents i.val 2 3))) ∧
  Say.NoInterrupt ∧ Say.SlicesThatStay

/-! ## Flash -/

/-- R476, R482, R483, R489, R491, R493: the end of an operation of a code-flash array; the retention stress. -/
def Obligations.CodeFlash : Prop :=
  (∀ (s : State) (k : Fin 4) (r : FlopRun) (e : FlopEnv), s.cfl.busy.find? (·.1 == k.val) = some (k.val, r) →
    Waits s r.inst r.ticket → e.ok = true →
    let ends := fun st (more : State → Prop) => ∃ t, Leaves (.flopComplete k e) s t ∧ FlopEnded t k.val r e st ∧ more t
    (r.sel = 1 ∨ r.sel = 2 → s.kpr.standby = 0 → r.len = 32 → r.addr % 32 = 0 → s.isBad r.addr = false →
      ends St.ok fun t => t.written r.addr = true ∧
        (r.addr = phys s r.addr → 0x40000 ≤ r.addr → t.rdWords r.addr 4 = unitWords r.src 0)) ∧
    (r.sel = 3 → r.addr % 65536 = 0 → 0x20000000 ≤ r.addr → r.addr < 0x22000000 →
      ends St.ok fun t => ∀ a, r.addr ≤ a → a < r.addr + 65536 → t.rdByte a = 0 ∧ t.rdTag a = Tag.raw ∧ t.written a = false) ∧
    (r.sel = 4 → s.kpr.standby = 0 → ends St.ok fun t =>
      t.reg Reg.CFL_MARGIN = BitVec.ofNat 32 (65536 * (e.weak % 65536) + e.topped % 65536) ∧ t.mem = s.mem) ∧
    (r.sel = 5 → r.first = true → imageOk s (!s.kpr.bootsel) = true → e.second = true → ends St.ok fun t =>
      t.otp.swapCtr = min 64 (s.otp.swapCtr + 1) ∧ t.cfl.swapped = true ∧ t.mem = s.mem)) ∧
  (∀ s : State,
    (s.pwr.up = true → s.pwr.flush = 0 → (∀ n, n < 4 → dieTemp s n = 1050) →
      Leaves .retentionStressUpdate s { s with cfl := { s.cfl with stress := s.cfl.stress + 2 ^ 32 } }) ∧
    (s.kpr.running = true → ∀ h,
      Leaves (.rsadd h) s { s with cfl := { s.cfl with stress := s.cfl.stress + h.toNat * (3600 * 2 ^ 32) } })) ∧
  Say.FlashEndsOtherwise

/-- R498, R500-R507: the care of the evidence flash: patrol, refresh, retirement, and the seal of the store. -/
def Obligations.EvidenceFlashCare : Prop :=
  (∀ (s : State) (b : Fin 43520),
    let x := s.blk b.val
    x.holds = true → s.kpr.replayDone = true →
      Leaves (.patrolLate b) s { s with evf := { s.evf with late := true } } ∧
      (s.pwr.flush = 0 →
        (∀ m, ∃ t, Leaves (.patrolRead b m false) s t ∧ (t.blk b.val).maxcb = m.toNat ∧
          (t.blk b.val).seen = s.kpr.devtime ∧ (t.blk b.val).use = x.use ∧ t.mem = s.mem ∧ t.dur = s.dur) ∧
        (∀ n, findUse s 0 (Config.pick s.freeCtr % 43520) = some n → 217 < s.evf.spare - 1 → s.evf.margin = 0 →
          (refreshAt s ≤ x.maxcb → x.maxcb < retireAt s → ∃ t, Leaves (.refreshSwitch b true) s t ∧ (t.blk b.val).use = 0 ∧
            (t.blk b.val).ecount = min (x.ecount + 1) 65535 ∧ (t.blk n).use = x.use ∧ t.evf.spare = s.evf.spare ∧
            t.dur = s.dur) ∧
          (s.pwr.up = true → ∃ t, Leaves (.nandProgramFailure b) s t ∧ (t.blk b.val).use = 7 ∧ (t.blk n).use = x.use ∧
            t.evf.spare = s.evf.spare - 1 ∧ t.dur = s.dur)))) ∧
  (∀ s : State, s.tdl.sealing = true → s.tdl.waiting = [] → s.tdl.admitted = [] → signQueue s = 0 → s.terminated = false →
    ∃ t c, Leaves .storeSealRecord s t ∧ t.tdl.waiting = [c] ∧ c.purpose = .sealRec ∧ c.reserve = true ∧
      c.intents = [.devRec 0 0x000B (leBytes 4 (s.evf.spare * 10000 / 43520))]) ∧
  Say.BlocksThatStay

/-! ## Instances -/

/-- R335-R337, R343, R347, R348, R354, R355: what each command of an instance does once its checks pass. -/
def Obligations.InstanceCommands : Prop :=
  (∀ (s : State) (d : List Byte), s.kpr.running = true → s.ins.busy = none → isel s ≠ 0 → s.terminated = false →
    let i := isel s
    let x := s.inst i
    (x.state = 0 → readDesc (cmdBegun s 1) i true = (.ok d, cmdBegun s 1) →
      CmdWaits .createInst s 1 1 (.desc i d :: (volumeIntents s i d).1) (volumeIntents s i d).2) ∧
    (x.state = 1 → s.descF i .imgBase % 64 = 0 → ∀ p,
      engRead (cmdBegun s 2) (s.descF i .imgBase) (s.descF i .imgLen) 0x28 none false = (.ok p, cmdBegun s 2) →
      let h := genBytes 48 (Config.hashByte 2 p.bytes)
      h = slice x.desc 0x60 48 → ∃ t, Leaves .installImage s t ∧ t.ins.busy = none ∧ t.ins.stat = St.ok ∧
        (t.inst i).installed = true ∧ (t.inst i).measImage = h ∧ t.mem = s.mem ∧
        (0x100000000 ≤ s.descF i .imgBase → s.descF i .imgLen % 8 = 0 → ∀ k, 8 * k < s.descF i .imgLen →
          t.rdTag (s.descF i .imgBase + 8 * k) = Tag.code)) ∧
    (x.state = 1 → x.installed = true → s.mode = Mode.service →
      ∀ ws, etab (cmdBegun s 3) x.desc = (.ok ws, cmdBegun s 3) → CmdWaits .startInst s 3 2 [] []) ∧
    (x.state = 2 → CmdWaits .quiesce s 4 3 [] []) ∧
    (x.state = 4 ∨ x.state = 5 → s.mode = Mode.service → CmdWaits .resumeInst s 5 2 [] []) ∧
    (x.state = 4 → CmdWaits .resetInst s 6 1 [] []) ∧
    (x.state = 1 ∨ x.state = 4 ∨ x.state = 6 →
      CmdWaits .removeInst s 7 0 (.retain i (x.state == 6) :: .desc i [] :: giveUp s i) []) ∧
    (1 ≤ x.state → x.state ≤ 4 →
      (readDesc (cmdBegun s 8) i false = (.ok d, cmdBegun s 8) →
        Leaves .stage s ((cmdEnded s 8 St.ok).setInst i { x with staged := some d })) ∧
      Leaves .unstage s ((cmdEnded s 9 St.ok).setInst i { x with staged := none })) ∧
    (x.state = 4 → ringsEmpty s i = true → x.staged = none → (∀ p ∈ instCtxs s i, p.2.run ≠ .held) →
      CmdWaits .freeze s 10 5 [] [])) ∧
  Say.CommandsRefused ∧ Say.CommandsFail

/-- R351-R353: the end of the drain window, the bound, and the commit of Quiesced. -/
def Obligations.QuiesceSteps : Prop :=
  (∀ (s : State) (i : Fin 64),
    let x := s.inst i.val
    x.state = 3 →
      (x.drain = true → s.mode ≠ Mode.standby → ∃ t, Leaves (.drainWindowEnd i) s t ∧ (t.inst i.val).closed = true ∧
        (t.inst i.val).drain = false ∧ (t.inst i.val).stopping = true ∧ t.mem = s.mem ∧ t.dur = s.dur) ∧
      (x.drain = false → Leaves (.quiesceBoundExpiry (some i)) s (boundExpiry s (· == i.val))) ∧
      (i ≠ 0 → x.drain = false → instQuiet s i.val = true → s.terminated = false →
        ∃ t c, Leaves (.quiesceComplete i) s t ∧ t.tdl.waiting = s.tdl.waiting ++ [c] ∧ c.purpose = .instCmd i.val 4 4 ∧
          c.intents = stateIntents i.val 3 4 ∧ (t.inst i.val).state = 3 ∧ t.mem = s.mem)) ∧
  Say.QuiesceWaits

/-- R363-R369: migration: OFFER, SAVE, the stream of the image, and RESTORE. -/
def Obligations.Migration : Prop :=
  (∀ (s u : State),
    let i := isel s
    let x := s.inst i
    (s.kpr.running = true → s.ins.busy = none → i ≠ 0 → s.terminated = false →
      (∀ n, x.state = 0 → rngDraw (cmdBegun s 12) 32 = (.ok n, u) → u.tdl = s.tdl → u.terminated = false →
        ∃ t c, Leaves .offer s t ∧ t.ins.busy = u.ins.busy ∧ t.tdl.waiting = s.tdl.waiting ++ [c] ∧
          c.purpose = .instCmd i 12 0 ∧ c.intents = [.effects [.offer i (some n)]]) ∧
      (∀ b, x.state = 5 → migBuffer (cmdBegun s 11) = (some b, cmdBegun s 11) → offerOk (cmdBegun s 11) b = true →
        fld (s.reg Reg.KPR_ID_REV).toNat 8 8 ≤ getLe b 0x19 1 → x.snap ≠ none →
        CmdWaits .save s 11 6 (.migctr (s.dur.migctr + 1) :: .retain i true :: giveUp s i) []) ∧
      (∀ m d b q n, x.state = 0 → sget (fun _ => none) s.dur.offers i = some n →
        readDesc (cmdBegun s 13) i true = (.ok d, cmdBegun s 13) →
        migBuffer (cmdBegun s 13) = (some b, cmdBegun s 13) → imageCheck (cmdBegun s 13) i b m = .ok q →
        restoreFits d q = true → q.shg = [] →
        ∃ t c, Leaves (.restore m) s t ∧ t.ins.busy = some (i, 13) ∧ t.tdl.waiting = s.tdl.waiting ++ [c] ∧
          c.purpose = .instCmd i 13 4 ∧ (t.inst i).desc = d ∧ t.mem = s.mem)) ∧
    (∀ j, s.ins.busy = some (j, 11) → (s.inst j).state = 6 → s.ins.image ≠ [] → s.ins.held = 0 →
      migPut s (s.ins.image.drop s.ins.sent) = (true, u) → s.ins.sent + 1024 < s.ins.image.length →
      ∃ t, Leaves .saveImageStream s t ∧ t.ins.sent = s.ins.sent + 1024 ∧ t.rings = u.rings ∧ t.mem = u.mem)) ∧
  Say.MigrationRefused ∧ Say.ImageStreams

/-! ## Ports -/

/-- R512-R519, R522-R528, R570: the entries of the ports; the requests and the slots of the card bus. -/
def Obligations.CardBus : Prop :=
  (∀ (s u : State) (p : Port) (e : Payload) (i r r' : Nat), let k := portNumber p
    portBinding s k = some (i, r, r') → (s.pbuf k).held = [e] → (s.pbuf k).dropped = 0 → postRing s r e = (true, u) →
    ∃ t, Leaves (.portBufferDrain p) s t ∧ (t.pbuf k).held = [] ∧ t.rings = u.rings ∧ t.mem = u.mem) ∧
  (∀ (s u : State) (b : Fin 5) (q : PortReq),
    let begins := fun c => BusTakes s b q.op → takeReq (turned s b) b.val = (some q, u) → CardMay u q →
      let send := fun v => sendCommand (setRun v { req := q, rca := q.unit, stage := 1 }) { req := q, rca := q.unit, stage := 1 }
      Leaves c s (if q.op = 2 then transmit u q 0x34 send else send u)
    (q.op = 1 → begins (.cardRead b)) ∧ (q.op = 2 → begins (.cardWrite b)) ∧ (q.op = 3 → begins (.cardStatus b)) ∧
    (q.op = 4 → begins (.cardSleep b)) ∧ (q.op = 5 → begins (.cardWake b)) ∧ (q.op = 6 → begins (.cardSetwp b)) ∧
    (q.op = 7 → begins (.cardClrwp b))) ∧
  (∀ (s : State) (q : CardRun), Busy s q →
    (q.stage = 1 → q.req.op = 3 → ∀ st, Leaves (.cardResponse (.status st true)) s
      (cardEnd (setCard s q.rca { s.card q.rca with status := st }) q St.ok)) ∧
    (q.stage = 2 → ∀ d, d.length = 512 → Leaves (.cardResponse (.block d true)) s (cardEnd s q St.ok d)) ∧
    (q.stage = 3 → Leaves (.cardResponse (.ack 0x5C)) s (setRun s { q with stage := 4 })) ∧
    (q.stage = 4 → Leaves .busyRelease s (cardEnd s q St.ok) ∧ Leaves .cardBusyTimeout s (cardEnd s q St.outcomeUnknown)) ∧
    (q.stage ≤ 1 → q.again = true → Leaves .cardResponseTimeout s (cardEnd (s.incReg Reg.CRD_TIMEOUTS) q St.portTimeout))) ∧
  (∀ (s : State) (n : Fin 4) (cid : Word128), portMode s = true →
    (s.kpr.running = true → crdOn s = false → freeRca s = some 1 →
      ∃ t, Leaves (.cardBusEnable [cid]) s t ∧ t.card 1 = { state := 2, slot := 15, cid := cid }) ∧
    (s.pwr.up = true → s.pwr.viocOk = true → s.regBit Reg.KPR_WAKE_EN 4 = false → crdOn s = true →
      (s.ports.crd.det.getLsbD n.val = false → (∀ p ∈ s.ports.crd.cards, p.2.state ≠ 0 → p.2.slot ≠ n.val) →
        ∀ k, freeRca s = some k → ∃ t, Leaves (.cardInsertion n [cid]) s t ∧
          t.card k = { state := 2, slot := n.val, cid := cid } ∧ ∀ j, j ≠ k → t.card j = s.card j) ∧
      (s.ports.crd.det.getLsbD n.val = true → s.ports.crd.run = none →
        ∃ t, Leaves (.cardRemoval n) s t ∧ t.ports.crd.det.getLsbD n.val = false ∧
          ∀ p ∈ s.ports.crd.cards, p.2.slot = n.val → (t.card p.1).state = 0))) ∧
  Say.PortsPostEntries ∧ Say.CardRequestsEndOtherwise ∧ Say.CardsStay

/-- R532-R537: the ISO/IEC 7816-3 ports and the CAN FD controllers. -/
def Obligations.IsoAndCan : Prop :=
  (∀ (s u : State) (p : Fin 2) (q : PortReq),
    let x := s.isoPort p.val
    let y := u.isoPort p.val
    (isoOn s p.val = true → x.run = none → FromRing s (5 + p.val) q u → q.unit = p.val → u.pwr.viocOk = true →
      (q.op = 1 → q.data = [] → y.present = true → Leaves (.activate p) s { setIso u p.val { y with
          state := 1, proto := 0, run := some q, warm := false, allSent := false } with
        outbox := u.outbox ++ [.isoActivate p.val false] }) ∧
      (q.op = 2 → q.data ≠ [] → q.data.length ≤ 261 → y.present = true → y.state = 2 →
        Leaves (.exchange p) s (transmit u q 0x35 fun v =>
          { setIso v p.val { y with state := 3, run := some q, allSent := false } with
            outbox := v.outbox ++ [.isoSend p.val q.data] })) ∧
      (q.op = 3 → q.data = [] → Leaves (.deactivate p) s (complete { setIso u p.val { y with state := 0, proto := 0 } with
        outbox := u.outbox ++ [.isoOff p.val] } q St.ok))) ∧
    (x.run = some q → x.state = 1 →
      (∀ b t1, Leaves (.isoCardReceive p (.atr b true t1)) s (complete (setIso s p.val { x with
        state := 2, proto := if t1 then 2 else 1, run := none, warm := false, allSent := false }) q St.ok
        (if t1 then 1 else 0) 0 b)) ∧
      (x.warm = false → Leaves (.isoWaitingTimeExpiry p) s { setIso s p.val { x with warm := true } with
        outbox := s.outbox ++ [.isoActivate p.val true] })) ∧
    (s.pwr.up = true → s.pwr.viocOk = true → s.regBit Reg.KPR_WAKE_EN 4 = false → isoOn s p.val = false →
      Leaves (.isoCardPresence p (!x.present)) s (setIso s p.val { x with present := !x.present }))) ∧
  (∀ (s u : State) (c : Fin 2) (f : CanFrame) (q : PortReq) (n : Nat),
    let x := s.canCtl c.val
    let k := 7 + c.val
    let put := setCan s c.val
    (canOn s c.val = true → x.busOff = false →
      (portMode s = true → (f.fd = true → canCtrlBit s c.val 1 = true) → canLenOk f.fd f.data.length = true →
        ∀ j, j < 64 → canFilter s c.val j f = true → Leaves (.canFrameReceived c f) s
          (event (put { x with recv := x.recv - 1 }) k St.ok 1 c.val (canArg f) s.kpr.devtime (canArg2 f) f.data)) ∧
      Leaves (.canErrorDetected c false n) s (put { x with recv := min 255 (x.recv + n) }) ∧
      (x.tec + n ≤ 255 → Leaves (.canErrorDetected c true n) s (put { x with tec := x.tec + n }))) ∧
    (canOn s c.val = true → canCtrlBit s c.val 3 = false → x.held.length < 3 → x.busOff = false →
      FromRing s k q u → q.op = 2 → q.unit = c.val → q.data.length ≤ 8 → (reqFrame q).fd = false →
      (reqFrame q).ide = true → u.pwr.viohOk = true → Leaves (.canTransmit c) s (transmit u q 0x36 fun v =>
        { setCan v c.val { v.canCtl c.val with held := (v.canCtl c.val).held ++ [q] } with
          outbox := v.outbox ++ [.canSent c.val (reqFrame q)] })) ∧
    (∀ l, x.held = q :: l → Leaves (.canTransmitAck c) s (complete (put { x with held := l, tec := x.tec - 1 }) q St.ok)) ∧
    (x.busOff = true → canOn s c.val = true → canCtrlBit s c.val 2 = true →
      Leaves (.canBusOffRecovery c) s (put { x with tec := 0, recv := 0, busOff := false }))) ∧
  Say.IsoPortsOtherwise ∧ Say.CanOtherwise

/-- R57, R538-R544, R580: the sensor port, the GNSS port and the time. -/
def Obligations.SensorsAndTime : Prop :=
  (∀ (s u : State) (n : Fin 2) (q : PortReq),
    let x := s.pulse n.val
    (s.regBit Reg.SNS_CTRL n.val = true →
      (∀ ns b, portMode s = true → s.pwr.viohOk = true → 2040 ≤ ns ∨ (2000 ≤ ns ∧ b = true) →
        ∃ t, Leaves (.pulseEdge n ns b) s t ∧ (t.pulse n.val).count = x.count + 1 ∧ (t.pulse n.val).edges = x.edges + 1 ∧
          (t.pulse n.val).last = some s.kpr.devtime) ∧
      (∀ l d, portRuns s 9 = true → x.edges ≠ 0 → x.last = some l → x.shortest = some d →
        let t := setPulse { s with freeCtr := s.freeCtr + 3 } n.val { count := x.count, last := x.last }
        Leaves (.pulseReport n) s (event t 9 St.ok 1 n.val (BitVec.ofNat 32 x.edges) x.first
          (BitVec.ofNat 64 (min (d / 100) 0xFFFFFFFF)) (leBytes 8 l.toNat)))) ∧
    (linkOn s = true → s.ports.sensor = none → FromRing s 9 q u → q.data.length ≤ 200 → q.unit = 0 → u.pwr.viohOk = true →
      let ty := q.arg.toNat % 256
      ty < 0x10 ∨ 0x20 ≤ ty ∨ u.mode = Mode.workshop → Leaves .sensorLinkRequest s (transmit u q 0x37 fun v => { v with
        ports := { v.ports with sensor := some q }, outbox := v.outbox ++ [.sensorSent (BitVec.ofNat 8 ty) q.data] })) ∧
    (s.ports.sensor = some q →
      Leaves .sensorAnswerTimeout s (sensorEnd (s.incReg Reg.SNS_LINKERR) q St.portTimeout) ∧
      ∀ (ty : Byte) b, b.length ≤ 200 → ty.toNat < 0x10 ∨ 0x20 ≤ ty.toNat ∨ s.mode = Mode.workshop →
        Leaves (.sensorAnswer ty b true) s (sensorEnd s q St.ok (ty.setWidth 32) b))) ∧
  (∀ s : State,
    let x := s.ports.gnss
    (∀ b, s.regBit Reg.GNS_CTRL 0 = true → portRuns s 10 = true → s.pwr.viohOk = true → x.bytes.length < 255 →
      Leaves (.gnssUartByte b) s (setGnss s { x with
        bytes := x.bytes ++ [b], first := if x.bytes = [] then s.kpr.devtime else x.first })) ∧
    (x.bytes ≠ [] → ∃ op n, Leaves .gnssEventClose s
      (event (setGnss { s with freeCtr := n } { x with bytes := [] }) 10 St.ok op 0 0 x.first 0 x.bytes)) ∧
    (s.pwr.up = true → s.regBit Reg.KPR_WAKE_EN 2 = false → s.regBit Reg.GNS_CTRL 1 = true → portMode s = true →
      s.pwr.viohOk = true → x.source = 0 → ∀ ns, 1000 ≤ ns → let t := BitVec.ofNat 64 (s.kpr.devtime.toNat / 10 * 10)
      Leaves (.ppsEdge ns) s (event (setGnss s { x with pps := some t }) 10 St.ok 2 0 0 t 0)) ∧
    (s.kpr.running = true →
      let v := BitVec.ofNat 64 (s.reg64 Reg.GNS_TSET_LO)
      let sets := fun c (d : Word64) => ∃ t, Leaves c s t ∧ t.kpr.timeSet = true ∧ t.kpr.devtime = d ∧
        t.ports.gnss.stat = St.ok
      sets .hostSet v ∧ (∀ e, x.pps = some e → x.hostSet = false → sets .ppsSet (s.kpr.devtime + (v - e))))) ∧
  Say.SensorPortOtherwise ∧ Say.TimeOtherwise

/-! ## Tamper, supplies, epochs -/

/-- R344, R350, R356-R359, R548-R551, R553-R557, R570, R574, R583, R592: tamper sources, supplies, the governor, epochs, and the
test-access port of Blank. -/
def Obligations.TamperSuppliesEpochs : Prop :=
  (∀ (s : State) (t : Fin 24) (v : Word32) (who : Option (Fin 64)), s.tmp.on = true → v.toNat < 2 ^ 24 →
    let bit : BitVec 25 := BitVec.ofNat 25 (2 ^ t.val)
    let l := sget (fun _ => []) s.tmp.win t.val
    let win := fun l => { s with tmp := { s.tmp with win := sset (fun _ => []) s.tmp.win t.val l } }
    let armed := fun a => { s with tmp := { s.tmp with armed := a } }
    (tKind t.val = .level → s.tmp.armed.getLsbD t.val = true →
      (raiseHolds s t.val v = true → t.val ≠ 5 → Leaves (.tamperRaise t v who) s
        (tamperRaise (armed (s.tmp.armed &&& ~~~bit)) t.val v)) ∧
      Leaves (.nearMiss t) s ((s.statInc (0x2C0 + 8 * t.val)).incReg Reg.TMP_NEAR)) ∧
    (tKind t.val = .level → t.val ≠ 4 → Leaves (.tamperRearm t false) s (armed (s.tmp.armed ||| bit))) ∧
    (tKind t.val = .event → raiseHolds s t.val v = true → Leaves (.tamperRaise t v who) s (tamperRaise s t.val v)) ∧
    (tKind t.val = .rate →
      (l.length + 1 < rateCount s t.val → Leaves (.tamperRaise t v who) s (win (l ++ [who.map (·.val)]))) ∧
      Leaves (.rateWindowExpiry t) s (win []))) ∧
  (∀ (s : State) (q : Temps) (mv : Word16), s.pwr.up = true →
    Leaves (.vbatMeasurement mv) s { s.setReg Reg.PWR_VBAT (mv.setWidth 32) with
      pwr := { s.pwr with vbatLow := decide (mv.toNat < 2100) } } ∧
    (let hi := max (max q.t0 q.t1) (max q.t2 q.t3)
     let g := s.regFld Reg.PWR_GOV 0 2
     ∃ t, Leaves (.governorEvaluation q) s t ∧ dieTemp t 0 = (BitVec.ofInt 16 q.t0).toInt ∧
       (g < 3 → (((s.regFld Reg.PWR_GOV 8 8 + 10 * g) * 10 : Nat) : Int) < hi → t.regFld Reg.PWR_GOV 0 2 = g + 1)) ∧
    (∀ c, s.pwr.viocHi = none → Leaves (.vioSupplyChange true true c) s
      { s with pwr := { s.pwr with viocOk := true, viocHi := some c } }) ∧
    (∀ m ok, s.reg64 Reg.STAT_NEXT_LO ≤ s.kpr.devtime.toNat →
      let n := s.reg Reg.STAT_EPOCH
      ∃ t, Leaves (.epochBoundary m ok) s t ∧ t.mem = s.mem ∧ t.rng.epfail = 0 ∧
        (n.toNat + 1 < s.dur.epochLimit → t.reg Reg.STAT_EPOCH = n + 1) ∧ sget (fun _ => 0) t.statPub 0x08 = n.toNat ∧
        ∀ i : Fin 64, (s.inst i.val).state = 2 → 0 ∈ (t.inst i.val).irq)) ∧
  (∀ (s : State) (a b : Bool), s.mode = Mode.blank → ∃ o, Leaves (.boundaryScanAccess a b) s
    { s with outbox := s.outbox ++ [.tdo o], freeCtr := s.freeCtr + 1 }) ∧
  Say.TamperOtherwise ∧ Say.SuppliesOtherwise ∧ Say.EpochsOtherwise
end

