-- ==== Sys2Proof/Laws/Sparse.lean ====
section
/-! SUPPORT. The laws of the sparse maps: what reading gives after a write, and that writing keeps the canonical
form. -/

namespace Sys2Proof.Machine

variable {α : Type}

/-- Every key of the map is above `k`. -/
def sabove (k : Nat) (m : List (Nat × α)) : Prop := ∀ p ∈ m, k < p.1

theorem srising_cons (p : Nat × α) (m : List (Nat × α)) :
    srising (p :: m) = true ↔ sabove p.1 m ∧ srising m = true := by
  induction m generalizing p with
  | nil => simp [srising, sabove]
  | cons q m ih =>
    simp only [srising, Bool.and_eq_true, decide_eq_true_eq, sabove, List.mem_cons, forall_eq_or_imp]
    constructor
    · rintro ⟨h, hr⟩
      exact ⟨⟨h, fun r hm => Nat.lt_trans h (((ih q).1 hr).1 r hm)⟩, hr⟩
    · rintro ⟨⟨h, _⟩, hr⟩
      exact ⟨h, hr⟩

theorem sget_above (d : Nat → α) {k : Nat} : ∀ {m : List (Nat × α)}, sabove k m → sget d m k = d k
  | [], _ => rfl
  | (j, v) :: m, h => by
    have hj : k < j := h (j, v) (by simp)
    have : ¬ j = k := by omega
    simp only [sget, this, if_false]
    exact sget_above d fun p hp => h p (by simp [hp])

theorem sdel_mem {k : Nat} {p : Nat × α} : ∀ {m : List (Nat × α)}, p ∈ sdel k m → p ∈ m
  | [], h => by simp [sdel] at h
  | (j, v) :: m, h => by
    unfold sdel at h
    split at h
    · exact List.mem_cons_of_mem _ (sdel_mem h)
    · rcases List.mem_cons.1 h with h | h
      · simp [h]
      · exact List.mem_cons_of_mem _ (sdel_mem h)

theorem sput_mem {k : Nat} {v : α} {p : Nat × α} : ∀ {m : List (Nat × α)}, p ∈ sput k v m → p = (k, v) ∨ p ∈ m
  | [], h => by simpa [sput] using h
  | (j, w) :: m, h => by
    unfold sput at h
    split at h
    · rcases List.mem_cons.1 h with h | h
      · simp [h]
      · rcases sput_mem h with h | h
        · exact .inl h
        · exact .inr (List.mem_cons_of_mem _ h)
    · split at h
      · rcases List.mem_cons.1 h with h | h
        · exact .inl h
        · exact .inr (List.mem_cons_of_mem _ h)
      · rcases List.mem_cons.1 h with h | h
        · exact .inl h
        · exact .inr h

theorem srising_sdel {k : Nat} : ∀ {m : List (Nat × α)}, srising m = true → srising (sdel k m) = true
  | [], _ => rfl
  | (j, v) :: m, h => by
    rw [srising_cons] at h
    unfold sdel
    split
    · exact srising_sdel h.2
    · rw [srising_cons]
      exact ⟨fun p hp => h.1 p (sdel_mem hp), srising_sdel h.2⟩

theorem srising_sput {k : Nat} {v : α} : ∀ {m : List (Nat × α)}, srising m = true → srising (sput k v m) = true
  | [], _ => rfl
  | (j, w) :: m, h => by
    rw [srising_cons] at h
    unfold sput
    split
    · rename_i hj
      rw [srising_cons]
      refine ⟨fun p hp => ?_, srising_sput h.2⟩
      rcases sput_mem hp with hp | hp
      · simpa [hp] using hj
      · exact h.1 p hp
    · split
      · rename_i _ hj
        rw [srising_cons]
        exact ⟨fun p hp => by have := h.1 p hp; simp only at this ⊢; omega, h.2⟩
      · rename_i h1 h2
        rw [srising_cons]
        refine ⟨fun p hp => ?_, (srising_cons _ _).2 h⟩
        rcases List.mem_cons.1 hp with hp | hp
        · simp only [hp]; omega
        · have := h.1 p hp; simp only at this ⊢; omega

/-- Writing keeps the canonical form. -/
@[simp] theorem swf_sset [DecidableEq α] (d : Nat → α) (m : List (Nat × α)) (k : Nat) (v : α)
    (h : swf d m = true) : swf d (sset d m k v) = true := by
  simp only [swf, Bool.and_eq_true, List.all_eq_true, decide_eq_true_eq] at h ⊢
  unfold sset
  split
  · exact ⟨srising_sdel h.1, fun p hp => h.2 p (sdel_mem hp)⟩
  · rename_i hv
    refine ⟨srising_sput h.1, fun p hp => ?_⟩
    rcases sput_mem hp with hp | hp
    · simpa [hp] using hv
    · exact h.2 p hp

/-- Taking entries out keeps the canonical form. -/
@[simp] theorem swf_filter [DecidableEq α] (d : Nat → α) (m : List (Nat × α)) (f : Nat × α → Bool)
    (h : swf d m = true) : swf d (m.filter f) = true := by
  simp only [swf, Bool.and_eq_true, List.all_eq_true, decide_eq_true_eq] at h ⊢
  refine ⟨?_, fun p hp => h.2 p (List.mem_filter.1 hp).1⟩
  have hr := h.1
  clear h
  induction m with
  | nil => rfl
  | cons p m ih =>
    rw [srising_cons] at hr
    by_cases hf : f p
    · rw [List.filter_cons_of_pos hf, srising_cons]
      exact ⟨fun q hq => hr.1 q (List.mem_filter.1 hq).1, ih hr.2⟩
    · rw [List.filter_cons_of_neg hf]
      exact ih hr.2

@[simp] theorem swf_nil [DecidableEq α] (d : Nat → α) : swf d [] = true := rfl

theorem sget_sdel_self (d : Nat → α) (k : Nat) : ∀ m : List (Nat × α), sget d (sdel k m) k = d k
  | [] => rfl
  | (j, v) :: m => by
    unfold sdel
    split
    · exact sget_sdel_self d k m
    · rename_i hj
      simp only [sget, hj, if_false]
      exact sget_sdel_self d k m

theorem sget_sdel_ne (d : Nat → α) {k j : Nat} (hk : j ≠ k) : ∀ m : List (Nat × α), sget d (sdel k m) j = sget d m j
  | [] => rfl
  | (i, v) :: m => by
    unfold sdel
    split
    · rename_i hi
      have : ¬ i = j := by omega
      simp only [sget, this, if_false, sget_sdel_ne d hk m]
    · simp only [sget, sget_sdel_ne d hk m]

theorem sget_sput_self (d : Nat → α) (k : Nat) (v : α) : ∀ m : List (Nat × α), sget d (sput k v m) k = v
  | [] => by simp [sput, sget]
  | (j, w) :: m => by
    unfold sput
    split
    · rename_i hj
      have : ¬ j = k := by omega
      simp only [sget, this, if_false, sget_sput_self d k v m]
    · split <;> simp [sget]

theorem sget_sput_ne (d : Nat → α) {k j : Nat} (hk : j ≠ k) (v : α) :
    ∀ m : List (Nat × α), sget d (sput k v m) j = sget d m j
  | [] => by have : ¬ k = j := by omega
             simp [sput, sget, this]
  | (i, w) :: m => by
    unfold sput
    split
    · simp only [sget, sget_sput_ne d hk v m]
    · have hkj : ¬ k = j := by omega
      split
      · rename_i hi
        subst hi
        simp [sget, hkj]
      · simp [sget, hkj]

/-- Reading after writing the same key. -/
@[simp] theorem sget_sset_self [DecidableEq α] (d : Nat → α) (m : List (Nat × α)) (k : Nat) (v : α) :
    sget d (sset d m k v) k = v := by
  unfold sset
  split
  · rename_i hv
    rw [sget_sdel_self, hv]
  · exact sget_sput_self d k v m

/-- Writing leaves every other key. -/
theorem sget_sset_ne [DecidableEq α] (d : Nat → α) (m : List (Nat × α)) {k j : Nat} (v : α) (h : j ≠ k) :
    sget d (sset d m k v) j = sget d m j := by
  unfold sset
  split
  · exact sget_sdel_ne d h m
  · exact sget_sput_ne d h v m

end Sys2Proof.Machine
end

