-- ==== Sys2Proof/Laws/State.lean ====
section
/-! SUPPORT. What each named update of the state leaves alone, one lemma per field, and what it writes. -/

namespace Sys2Proof.Machine

variable (s : State)

@[simp] theorem State.setReg_kpr (a : Nat) (v : Word32) : (s.setReg a v).kpr = s.kpr := rfl
@[simp] theorem State.setReg_pwr (a : Nat) (v : Word32) : (s.setReg a v).pwr = s.pwr := rfl
@[simp] theorem State.setReg_otp (a : Nat) (v : Word32) : (s.setReg a v).otp = s.otp := rfl
@[simp] theorem State.setReg_tmp (a : Nat) (v : Word32) : (s.setReg a v).tmp = s.tmp := rfl
@[simp] theorem State.setReg_cfl (a : Nat) (v : Word32) : (s.setReg a v).cfl = s.cfl := rfl
@[simp] theorem State.setReg_evf (a : Nat) (v : Word32) : (s.setReg a v).evf = s.evf := rfl
@[simp] theorem State.setReg_latch (a : Nat) (v : Word32) : (s.setReg a v).latch = s.latch := rfl
@[simp] theorem State.setReg_mem (a : Nat) (v : Word32) : (s.setReg a v).mem = s.mem := rfl
@[simp] theorem State.setReg_tags (a : Nat) (v : Word32) : (s.setReg a v).tags = s.tags := rfl
@[simp] theorem State.setReg_checks (a : Nat) (v : Word32) : (s.setReg a v).checks = s.checks := rfl
@[simp] theorem State.setReg_eras (a : Nat) (v : Word32) : (s.setReg a v).eras = s.eras := rfl
@[simp] theorem State.setReg_dur (a : Nat) (v : Word32) : (s.setReg a v).dur = s.dur := rfl
@[simp] theorem State.setReg_tdl (a : Nat) (v : Word32) : (s.setReg a v).tdl = s.tdl := rfl
@[simp] theorem State.setReg_ctxs (a : Nat) (v : Word32) : (s.setReg a v).ctxs = s.ctxs := rfl
@[simp] theorem State.setReg_tickets (a : Nat) (v : Word32) : (s.setReg a v).tickets = s.tickets := rfl
@[simp] theorem State.setReg_mpu (a : Nat) (v : Word32) : (s.setReg a v).mpu = s.mpu := rfl
@[simp] theorem State.setReg_insts (a : Nat) (v : Word32) : (s.setReg a v).insts = s.insts := rfl
@[simp] theorem State.setReg_ins (a : Nat) (v : Word32) : (s.setReg a v).ins = s.ins := rfl
@[simp] theorem State.setReg_escQ (a : Nat) (v : Word32) : (s.setReg a v).escQ = s.escQ := rfl
@[simp] theorem State.setReg_roots (a : Nat) (v : Word32) : (s.setReg a v).roots = s.roots := rfl
@[simp] theorem State.setReg_key (a : Nat) (v : Word32) : (s.setReg a v).key = s.key := rfl
@[simp] theorem State.setReg_rng (a : Nat) (v : Word32) : (s.setReg a v).rng = s.rng := rfl
@[simp] theorem State.setReg_cip (a : Nat) (v : Word32) : (s.setReg a v).cip = s.cip := rfl
@[simp] theorem State.setReg_pke (a : Nat) (v : Word32) : (s.setReg a v).pke = s.pke := rfl
@[simp] theorem State.setReg_units (a : Nat) (v : Word32) : (s.setReg a v).units = s.units := rfl
@[simp] theorem State.setReg_ivPrefix (a : Nat) (v : Word32) : (s.setReg a v).ivPrefix = s.ivPrefix := rfl
@[simp] theorem State.setReg_rings (a : Nat) (v : Word32) : (s.setReg a v).rings = s.rings := rfl
@[simp] theorem State.setReg_host (a : Nat) (v : Word32) : (s.setReg a v).host = s.host := rfl
@[simp] theorem State.setReg_air (a : Nat) (v : Word32) : (s.setReg a v).air = s.air := rfl
@[simp] theorem State.setReg_ports (a : Nat) (v : Word32) : (s.setReg a v).ports = s.ports := rfl
@[simp] theorem State.setReg_shg (a : Nat) (v : Word32) : (s.setReg a v).shg = s.shg := rfl
@[simp] theorem State.setReg_stl (a : Nat) (v : Word32) : (s.setReg a v).stl = s.stl := rfl
@[simp] theorem State.setReg_stat (a : Nat) (v : Word32) : (s.setReg a v).stat = s.stat := rfl
@[simp] theorem State.setReg_statPub (a : Nat) (v : Word32) : (s.setReg a v).statPub = s.statPub := rfl
@[simp] theorem State.setReg_freeCtr (a : Nat) (v : Word32) : (s.setReg a v).freeCtr = s.freeCtr := rfl
@[simp] theorem State.setReg_outbox (a : Nat) (v : Word32) : (s.setReg a v).outbox = s.outbox := rfl
@[simp] theorem State.setReg_pending (a : Nat) (v : Word32) : (s.setReg a v).pending = s.pending := rfl

@[simp] theorem State.setCtx_kpr (k : Nat) (c : Ctx) : (s.setCtx k c).kpr = s.kpr := rfl
@[simp] theorem State.setCtx_pwr (k : Nat) (c : Ctx) : (s.setCtx k c).pwr = s.pwr := rfl
@[simp] theorem State.setCtx_otp (k : Nat) (c : Ctx) : (s.setCtx k c).otp = s.otp := rfl
@[simp] theorem State.setCtx_tmp (k : Nat) (c : Ctx) : (s.setCtx k c).tmp = s.tmp := rfl
@[simp] theorem State.setCtx_cfl (k : Nat) (c : Ctx) : (s.setCtx k c).cfl = s.cfl := rfl
@[simp] theorem State.setCtx_evf (k : Nat) (c : Ctx) : (s.setCtx k c).evf = s.evf := rfl
@[simp] theorem State.setCtx_regs (k : Nat) (c : Ctx) : (s.setCtx k c).regs = s.regs := rfl
@[simp] theorem State.setCtx_latch (k : Nat) (c : Ctx) : (s.setCtx k c).latch = s.latch := rfl
@[simp] theorem State.setCtx_mem (k : Nat) (c : Ctx) : (s.setCtx k c).mem = s.mem := rfl
@[simp] theorem State.setCtx_tags (k : Nat) (c : Ctx) : (s.setCtx k c).tags = s.tags := rfl
@[simp] theorem State.setCtx_checks (k : Nat) (c : Ctx) : (s.setCtx k c).checks = s.checks := rfl
@[simp] theorem State.setCtx_eras (k : Nat) (c : Ctx) : (s.setCtx k c).eras = s.eras := rfl
@[simp] theorem State.setCtx_dur (k : Nat) (c : Ctx) : (s.setCtx k c).dur = s.dur := rfl
@[simp] theorem State.setCtx_tdl (k : Nat) (c : Ctx) : (s.setCtx k c).tdl = s.tdl := rfl
@[simp] theorem State.setCtx_tickets (k : Nat) (c : Ctx) : (s.setCtx k c).tickets = s.tickets := rfl
@[simp] theorem State.setCtx_mpu (k : Nat) (c : Ctx) : (s.setCtx k c).mpu = s.mpu := rfl
@[simp] theorem State.setCtx_insts (k : Nat) (c : Ctx) : (s.setCtx k c).insts = s.insts := rfl
@[simp] theorem State.setCtx_ins (k : Nat) (c : Ctx) : (s.setCtx k c).ins = s.ins := rfl
@[simp] theorem State.setCtx_escQ (k : Nat) (c : Ctx) : (s.setCtx k c).escQ = s.escQ := rfl
@[simp] theorem State.setCtx_roots (k : Nat) (c : Ctx) : (s.setCtx k c).roots = s.roots := rfl
@[simp] theorem State.setCtx_key (k : Nat) (c : Ctx) : (s.setCtx k c).key = s.key := rfl
@[simp] theorem State.setCtx_rng (k : Nat) (c : Ctx) : (s.setCtx k c).rng = s.rng := rfl
@[simp] theorem State.setCtx_cip (k : Nat) (c : Ctx) : (s.setCtx k c).cip = s.cip := rfl
@[simp] theorem State.setCtx_pke (k : Nat) (c : Ctx) : (s.setCtx k c).pke = s.pke := rfl
@[simp] theorem State.setCtx_units (k : Nat) (c : Ctx) : (s.setCtx k c).units = s.units := rfl
@[simp] theorem State.setCtx_ivPrefix (k : Nat) (c : Ctx) : (s.setCtx k c).ivPrefix = s.ivPrefix := rfl
@[simp] theorem State.setCtx_rings (k : Nat) (c : Ctx) : (s.setCtx k c).rings = s.rings := rfl
@[simp] theorem State.setCtx_host (k : Nat) (c : Ctx) : (s.setCtx k c).host = s.host := rfl
@[simp] theorem State.setCtx_air (k : Nat) (c : Ctx) : (s.setCtx k c).air = s.air := rfl
@[simp] theorem State.setCtx_ports (k : Nat) (c : Ctx) : (s.setCtx k c).ports = s.ports := rfl
@[simp] theorem State.setCtx_shg (k : Nat) (c : Ctx) : (s.setCtx k c).shg = s.shg := rfl
@[simp] theorem State.setCtx_stl (k : Nat) (c : Ctx) : (s.setCtx k c).stl = s.stl := rfl
@[simp] theorem State.setCtx_stat (k : Nat) (c : Ctx) : (s.setCtx k c).stat = s.stat := rfl
@[simp] theorem State.setCtx_statPub (k : Nat) (c : Ctx) : (s.setCtx k c).statPub = s.statPub := rfl
@[simp] theorem State.setCtx_freeCtr (k : Nat) (c : Ctx) : (s.setCtx k c).freeCtr = s.freeCtr := rfl
@[simp] theorem State.setCtx_outbox (k : Nat) (c : Ctx) : (s.setCtx k c).outbox = s.outbox := rfl
@[simp] theorem State.setCtx_pending (k : Nat) (c : Ctx) : (s.setCtx k c).pending = s.pending := rfl

@[simp] theorem State.setInst_kpr (i : Nat) (x : Inst) : (s.setInst i x).kpr = s.kpr := rfl
@[simp] theorem State.setInst_pwr (i : Nat) (x : Inst) : (s.setInst i x).pwr = s.pwr := rfl
@[simp] theorem State.setInst_otp (i : Nat) (x : Inst) : (s.setInst i x).otp = s.otp := rfl
@[simp] theorem State.setInst_tmp (i : Nat) (x : Inst) : (s.setInst i x).tmp = s.tmp := rfl
@[simp] theorem State.setInst_cfl (i : Nat) (x : Inst) : (s.setInst i x).cfl = s.cfl := rfl
@[simp] theorem State.setInst_evf (i : Nat) (x : Inst) : (s.setInst i x).evf = s.evf := rfl
@[simp] theorem State.setInst_regs (i : Nat) (x : Inst) : (s.setInst i x).regs = s.regs := rfl
@[simp] theorem State.setInst_latch (i : Nat) (x : Inst) : (s.setInst i x).latch = s.latch := rfl
@[simp] theorem State.setInst_mem (i : Nat) (x : Inst) : (s.setInst i x).mem = s.mem := rfl
@[simp] theorem State.setInst_tags (i : Nat) (x : Inst) : (s.setInst i x).tags = s.tags := rfl
@[simp] theorem State.setInst_checks (i : Nat) (x : Inst) : (s.setInst i x).checks = s.checks := rfl
@[simp] theorem State.setInst_eras (i : Nat) (x : Inst) : (s.setInst i x).eras = s.eras := rfl
@[simp] theorem State.setInst_dur (i : Nat) (x : Inst) : (s.setInst i x).dur = s.dur := rfl
@[simp] theorem State.setInst_tdl (i : Nat) (x : Inst) : (s.setInst i x).tdl = s.tdl := rfl
@[simp] theorem State.setInst_ctxs (i : Nat) (x : Inst) : (s.setInst i x).ctxs = s.ctxs := rfl
@[simp] theorem State.setInst_tickets (i : Nat) (x : Inst) : (s.setInst i x).tickets = s.tickets := rfl
@[simp] theorem State.setInst_mpu (i : Nat) (x : Inst) : (s.setInst i x).mpu = s.mpu := rfl
@[simp] theorem State.setInst_ins (i : Nat) (x : Inst) : (s.setInst i x).ins = s.ins := rfl
@[simp] theorem State.setInst_escQ (i : Nat) (x : Inst) : (s.setInst i x).escQ = s.escQ := rfl
@[simp] theorem State.setInst_roots (i : Nat) (x : Inst) : (s.setInst i x).roots = s.roots := rfl
@[simp] theorem State.setInst_key (i : Nat) (x : Inst) : (s.setInst i x).key = s.key := rfl
@[simp] theorem State.setInst_rng (i : Nat) (x : Inst) : (s.setInst i x).rng = s.rng := rfl
@[simp] theorem State.setInst_cip (i : Nat) (x : Inst) : (s.setInst i x).cip = s.cip := rfl
@[simp] theorem State.setInst_pke (i : Nat) (x : Inst) : (s.setInst i x).pke = s.pke := rfl
@[simp] theorem State.setInst_units (i : Nat) (x : Inst) : (s.setInst i x).units = s.units := rfl
@[simp] theorem State.setInst_ivPrefix (i : Nat) (x : Inst) : (s.setInst i x).ivPrefix = s.ivPrefix := rfl
@[simp] theorem State.setInst_rings (i : Nat) (x : Inst) : (s.setInst i x).rings = s.rings := rfl
@[simp] theorem State.setInst_host (i : Nat) (x : Inst) : (s.setInst i x).host = s.host := rfl
@[simp] theorem State.setInst_air (i : Nat) (x : Inst) : (s.setInst i x).air = s.air := rfl
@[simp] theorem State.setInst_ports (i : Nat) (x : Inst) : (s.setInst i x).ports = s.ports := rfl
@[simp] theorem State.setInst_shg (i : Nat) (x : Inst) : (s.setInst i x).shg = s.shg := rfl
@[simp] theorem State.setInst_stl (i : Nat) (x : Inst) : (s.setInst i x).stl = s.stl := rfl
@[simp] theorem State.setInst_stat (i : Nat) (x : Inst) : (s.setInst i x).stat = s.stat := rfl
@[simp] theorem State.setInst_statPub (i : Nat) (x : Inst) : (s.setInst i x).statPub = s.statPub := rfl
@[simp] theorem State.setInst_freeCtr (i : Nat) (x : Inst) : (s.setInst i x).freeCtr = s.freeCtr := rfl
@[simp] theorem State.setInst_outbox (i : Nat) (x : Inst) : (s.setInst i x).outbox = s.outbox := rfl
@[simp] theorem State.setInst_pending (i : Nat) (x : Inst) : (s.setInst i x).pending = s.pending := rfl

@[simp] theorem State.modInst_kpr (i : Nat) (f : Inst → Inst) : (s.modInst i f).kpr = s.kpr := rfl
@[simp] theorem State.modInst_pwr (i : Nat) (f : Inst → Inst) : (s.modInst i f).pwr = s.pwr := rfl
@[simp] theorem State.modInst_otp (i : Nat) (f : Inst → Inst) : (s.modInst i f).otp = s.otp := rfl
@[simp] theorem State.modInst_tmp (i : Nat) (f : Inst → Inst) : (s.modInst i f).tmp = s.tmp := rfl
@[simp] theorem State.modInst_cfl (i : Nat) (f : Inst → Inst) : (s.modInst i f).cfl = s.cfl := rfl
@[simp] theorem State.modInst_evf (i : Nat) (f : Inst → Inst) : (s.modInst i f).evf = s.evf := rfl
@[simp] theorem State.modInst_regs (i : Nat) (f : Inst → Inst) : (s.modInst i f).regs = s.regs := rfl
@[simp] theorem State.modInst_latch (i : Nat) (f : Inst → Inst) : (s.modInst i f).latch = s.latch := rfl
@[simp] theorem State.modInst_mem (i : Nat) (f : Inst → Inst) : (s.modInst i f).mem = s.mem := rfl
@[simp] theorem State.modInst_tags (i : Nat) (f : Inst → Inst) : (s.modInst i f).tags = s.tags := rfl
@[simp] theorem State.modInst_checks (i : Nat) (f : Inst → Inst) : (s.modInst i f).checks = s.checks := rfl
@[simp] theorem State.modInst_eras (i : Nat) (f : Inst → Inst) : (s.modInst i f).eras = s.eras := rfl
@[simp] theorem State.modInst_dur (i : Nat) (f : Inst → Inst) : (s.modInst i f).dur = s.dur := rfl
@[simp] theorem State.modInst_tdl (i : Nat) (f : Inst → Inst) : (s.modInst i f).tdl = s.tdl := rfl
@[simp] theorem State.modInst_ctxs (i : Nat) (f : Inst → Inst) : (s.modInst i f).ctxs = s.ctxs := rfl
@[simp] theorem State.modInst_tickets (i : Nat) (f : Inst → Inst) : (s.modInst i f).tickets = s.tickets := rfl
@[simp] theorem State.modInst_mpu (i : Nat) (f : Inst → Inst) : (s.modInst i f).mpu = s.mpu := rfl
@[simp] theorem State.modInst_ins (i : Nat) (f : Inst → Inst) : (s.modInst i f).ins = s.ins := rfl
@[simp] theorem State.modInst_escQ (i : Nat) (f : Inst → Inst) : (s.modInst i f).escQ = s.escQ := rfl
@[simp] theorem State.modInst_roots (i : Nat) (f : Inst → Inst) : (s.modInst i f).roots = s.roots := rfl
@[simp] theorem State.modInst_key (i : Nat) (f : Inst → Inst) : (s.modInst i f).key = s.key := rfl
@[simp] theorem State.modInst_rng (i : Nat) (f : Inst → Inst) : (s.modInst i f).rng = s.rng := rfl
@[simp] theorem State.modInst_cip (i : Nat) (f : Inst → Inst) : (s.modInst i f).cip = s.cip := rfl
@[simp] theorem State.modInst_pke (i : Nat) (f : Inst → Inst) : (s.modInst i f).pke = s.pke := rfl
@[simp] theorem State.modInst_units (i : Nat) (f : Inst → Inst) : (s.modInst i f).units = s.units := rfl
@[simp] theorem State.modInst_ivPrefix (i : Nat) (f : Inst → Inst) : (s.modInst i f).ivPrefix = s.ivPrefix := rfl
@[simp] theorem State.modInst_rings (i : Nat) (f : Inst → Inst) : (s.modInst i f).rings = s.rings := rfl
@[simp] theorem State.modInst_host (i : Nat) (f : Inst → Inst) : (s.modInst i f).host = s.host := rfl
@[simp] theorem State.modInst_air (i : Nat) (f : Inst → Inst) : (s.modInst i f).air = s.air := rfl
@[simp] theorem State.modInst_ports (i : Nat) (f : Inst → Inst) : (s.modInst i f).ports = s.ports := rfl
@[simp] theorem State.modInst_shg (i : Nat) (f : Inst → Inst) : (s.modInst i f).shg = s.shg := rfl
@[simp] theorem State.modInst_stl (i : Nat) (f : Inst → Inst) : (s.modInst i f).stl = s.stl := rfl
@[simp] theorem State.modInst_stat (i : Nat) (f : Inst → Inst) : (s.modInst i f).stat = s.stat := rfl
@[simp] theorem State.modInst_statPub (i : Nat) (f : Inst → Inst) : (s.modInst i f).statPub = s.statPub := rfl
@[simp] theorem State.modInst_freeCtr (i : Nat) (f : Inst → Inst) : (s.modInst i f).freeCtr = s.freeCtr := rfl
@[simp] theorem State.modInst_outbox (i : Nat) (f : Inst → Inst) : (s.modInst i f).outbox = s.outbox := rfl
@[simp] theorem State.modInst_pending (i : Nat) (f : Inst → Inst) : (s.modInst i f).pending = s.pending := rfl

@[simp] theorem State.setMpu_kpr (i : Nat) (m : MpuSet) : (s.setMpu i m).kpr = s.kpr := rfl
@[simp] theorem State.setMpu_pwr (i : Nat) (m : MpuSet) : (s.setMpu i m).pwr = s.pwr := rfl
@[simp] theorem State.setMpu_otp (i : Nat) (m : MpuSet) : (s.setMpu i m).otp = s.otp := rfl
@[simp] theorem State.setMpu_tmp (i : Nat) (m : MpuSet) : (s.setMpu i m).tmp = s.tmp := rfl
@[simp] theorem State.setMpu_cfl (i : Nat) (m : MpuSet) : (s.setMpu i m).cfl = s.cfl := rfl
@[simp] theorem State.setMpu_evf (i : Nat) (m : MpuSet) : (s.setMpu i m).evf = s.evf := rfl
@[simp] theorem State.setMpu_regs (i : Nat) (m : MpuSet) : (s.setMpu i m).regs = s.regs := rfl
@[simp] theorem State.setMpu_latch (i : Nat) (m : MpuSet) : (s.setMpu i m).latch = s.latch := rfl
@[simp] theorem State.setMpu_mem (i : Nat) (m : MpuSet) : (s.setMpu i m).mem = s.mem := rfl
@[simp] theorem State.setMpu_tags (i : Nat) (m : MpuSet) : (s.setMpu i m).tags = s.tags := rfl
@[simp] theorem State.setMpu_checks (i : Nat) (m : MpuSet) : (s.setMpu i m).checks = s.checks := rfl
@[simp] theorem State.setMpu_eras (i : Nat) (m : MpuSet) : (s.setMpu i m).eras = s.eras := rfl
@[simp] theorem State.setMpu_dur (i : Nat) (m : MpuSet) : (s.setMpu i m).dur = s.dur := rfl
@[simp] theorem State.setMpu_tdl (i : Nat) (m : MpuSet) : (s.setMpu i m).tdl = s.tdl := rfl
@[simp] theorem State.setMpu_ctxs (i : Nat) (m : MpuSet) : (s.setMpu i m).ctxs = s.ctxs := rfl
@[simp] theorem State.setMpu_tickets (i : Nat) (m : MpuSet) : (s.setMpu i m).tickets = s.tickets := rfl
@[simp] theorem State.setMpu_insts (i : Nat) (m : MpuSet) : (s.setMpu i m).insts = s.insts := rfl
@[simp] theorem State.setMpu_ins (i : Nat) (m : MpuSet) : (s.setMpu i m).ins = s.ins := rfl
@[simp] theorem State.setMpu_escQ (i : Nat) (m : MpuSet) : (s.setMpu i m).escQ = s.escQ := rfl
@[simp] theorem State.setMpu_roots (i : Nat) (m : MpuSet) : (s.setMpu i m).roots = s.roots := rfl
@[simp] theorem State.setMpu_key (i : Nat) (m : MpuSet) : (s.setMpu i m).key = s.key := rfl
@[simp] theorem State.setMpu_rng (i : Nat) (m : MpuSet) : (s.setMpu i m).rng = s.rng := rfl
@[simp] theorem State.setMpu_cip (i : Nat) (m : MpuSet) : (s.setMpu i m).cip = s.cip := rfl
@[simp] theorem State.setMpu_pke (i : Nat) (m : MpuSet) : (s.setMpu i m).pke = s.pke := rfl
@[simp] theorem State.setMpu_units (i : Nat) (m : MpuSet) : (s.setMpu i m).units = s.units := rfl
@[simp] theorem State.setMpu_ivPrefix (i : Nat) (m : MpuSet) : (s.setMpu i m).ivPrefix = s.ivPrefix := rfl
@[simp] theorem State.setMpu_rings (i : Nat) (m : MpuSet) : (s.setMpu i m).rings = s.rings := rfl
@[simp] theorem State.setMpu_host (i : Nat) (m : MpuSet) : (s.setMpu i m).host = s.host := rfl
@[simp] theorem State.setMpu_air (i : Nat) (m : MpuSet) : (s.setMpu i m).air = s.air := rfl
@[simp] theorem State.setMpu_ports (i : Nat) (m : MpuSet) : (s.setMpu i m).ports = s.ports := rfl
@[simp] theorem State.setMpu_shg (i : Nat) (m : MpuSet) : (s.setMpu i m).shg = s.shg := rfl
@[simp] theorem State.setMpu_stl (i : Nat) (m : MpuSet) : (s.setMpu i m).stl = s.stl := rfl
@[simp] theorem State.setMpu_stat (i : Nat) (m : MpuSet) : (s.setMpu i m).stat = s.stat := rfl
@[simp] theorem State.setMpu_statPub (i : Nat) (m : MpuSet) : (s.setMpu i m).statPub = s.statPub := rfl
@[simp] theorem State.setMpu_freeCtr (i : Nat) (m : MpuSet) : (s.setMpu i m).freeCtr = s.freeCtr := rfl
@[simp] theorem State.setMpu_outbox (i : Nat) (m : MpuSet) : (s.setMpu i m).outbox = s.outbox := rfl
@[simp] theorem State.setMpu_pending (i : Nat) (m : MpuSet) : (s.setMpu i m).pending = s.pending := rfl

@[simp] theorem State.setTk_kpr (i t : Nat) (x : Ticket) : (s.setTk i t x).kpr = s.kpr := rfl
@[simp] theorem State.setTk_pwr (i t : Nat) (x : Ticket) : (s.setTk i t x).pwr = s.pwr := rfl
@[simp] theorem State.setTk_otp (i t : Nat) (x : Ticket) : (s.setTk i t x).otp = s.otp := rfl
@[simp] theorem State.setTk_tmp (i t : Nat) (x : Ticket) : (s.setTk i t x).tmp = s.tmp := rfl
@[simp] theorem State.setTk_cfl (i t : Nat) (x : Ticket) : (s.setTk i t x).cfl = s.cfl := rfl
@[simp] theorem State.setTk_evf (i t : Nat) (x : Ticket) : (s.setTk i t x).evf = s.evf := rfl
@[simp] theorem State.setTk_regs (i t : Nat) (x : Ticket) : (s.setTk i t x).regs = s.regs := rfl
@[simp] theorem State.setTk_latch (i t : Nat) (x : Ticket) : (s.setTk i t x).latch = s.latch := rfl
@[simp] theorem State.setTk_mem (i t : Nat) (x : Ticket) : (s.setTk i t x).mem = s.mem := rfl
@[simp] theorem State.setTk_tags (i t : Nat) (x : Ticket) : (s.setTk i t x).tags = s.tags := rfl
@[simp] theorem State.setTk_checks (i t : Nat) (x : Ticket) : (s.setTk i t x).checks = s.checks := rfl
@[simp] theorem State.setTk_eras (i t : Nat) (x : Ticket) : (s.setTk i t x).eras = s.eras := rfl
@[simp] theorem State.setTk_dur (i t : Nat) (x : Ticket) : (s.setTk i t x).dur = s.dur := rfl
@[simp] theorem State.setTk_tdl (i t : Nat) (x : Ticket) : (s.setTk i t x).tdl = s.tdl := rfl
@[simp] theorem State.setTk_ctxs (i t : Nat) (x : Ticket) : (s.setTk i t x).ctxs = s.ctxs := rfl
@[simp] theorem State.setTk_mpu (i t : Nat) (x : Ticket) : (s.setTk i t x).mpu = s.mpu := rfl
@[simp] theorem State.setTk_insts (i t : Nat) (x : Ticket) : (s.setTk i t x).insts = s.insts := rfl
@[simp] theorem State.setTk_ins (i t : Nat) (x : Ticket) : (s.setTk i t x).ins = s.ins := rfl
@[simp] theorem State.setTk_escQ (i t : Nat) (x : Ticket) : (s.setTk i t x).escQ = s.escQ := rfl
@[simp] theorem State.setTk_roots (i t : Nat) (x : Ticket) : (s.setTk i t x).roots = s.roots := rfl
@[simp] theorem State.setTk_key (i t : Nat) (x : Ticket) : (s.setTk i t x).key = s.key := rfl
@[simp] theorem State.setTk_rng (i t : Nat) (x : Ticket) : (s.setTk i t x).rng = s.rng := rfl
@[simp] theorem State.setTk_cip (i t : Nat) (x : Ticket) : (s.setTk i t x).cip = s.cip := rfl
@[simp] theorem State.setTk_pke (i t : Nat) (x : Ticket) : (s.setTk i t x).pke = s.pke := rfl
@[simp] theorem State.setTk_units (i t : Nat) (x : Ticket) : (s.setTk i t x).units = s.units := rfl
@[simp] theorem State.setTk_ivPrefix (i t : Nat) (x : Ticket) : (s.setTk i t x).ivPrefix = s.ivPrefix := rfl
@[simp] theorem State.setTk_rings (i t : Nat) (x : Ticket) : (s.setTk i t x).rings = s.rings := rfl
@[simp] theorem State.setTk_host (i t : Nat) (x : Ticket) : (s.setTk i t x).host = s.host := rfl
@[simp] theorem State.setTk_air (i t : Nat) (x : Ticket) : (s.setTk i t x).air = s.air := rfl
@[simp] theorem State.setTk_ports (i t : Nat) (x : Ticket) : (s.setTk i t x).ports = s.ports := rfl
@[simp] theorem State.setTk_shg (i t : Nat) (x : Ticket) : (s.setTk i t x).shg = s.shg := rfl
@[simp] theorem State.setTk_stl (i t : Nat) (x : Ticket) : (s.setTk i t x).stl = s.stl := rfl
@[simp] theorem State.setTk_stat (i t : Nat) (x : Ticket) : (s.setTk i t x).stat = s.stat := rfl
@[simp] theorem State.setTk_statPub (i t : Nat) (x : Ticket) : (s.setTk i t x).statPub = s.statPub := rfl
@[simp] theorem State.setTk_freeCtr (i t : Nat) (x : Ticket) : (s.setTk i t x).freeCtr = s.freeCtr := rfl
@[simp] theorem State.setTk_outbox (i t : Nat) (x : Ticket) : (s.setTk i t x).outbox = s.outbox := rfl
@[simp] theorem State.setTk_pending (i t : Nat) (x : Ticket) : (s.setTk i t x).pending = s.pending := rfl

@[simp] theorem State.statInc_kpr (o n : Nat) : (s.statInc o n).kpr = s.kpr := rfl
@[simp] theorem State.statInc_pwr (o n : Nat) : (s.statInc o n).pwr = s.pwr := rfl
@[simp] theorem State.statInc_otp (o n : Nat) : (s.statInc o n).otp = s.otp := rfl
@[simp] theorem State.statInc_tmp (o n : Nat) : (s.statInc o n).tmp = s.tmp := rfl
@[simp] theorem State.statInc_cfl (o n : Nat) : (s.statInc o n).cfl = s.cfl := rfl
@[simp] theorem State.statInc_evf (o n : Nat) : (s.statInc o n).evf = s.evf := rfl
@[simp] theorem State.statInc_regs (o n : Nat) : (s.statInc o n).regs = s.regs := rfl
@[simp] theorem State.statInc_latch (o n : Nat) : (s.statInc o n).latch = s.latch := rfl
@[simp] theorem State.statInc_mem (o n : Nat) : (s.statInc o n).mem = s.mem := rfl
@[simp] theorem State.statInc_tags (o n : Nat) : (s.statInc o n).tags = s.tags := rfl
@[simp] theorem State.statInc_checks (o n : Nat) : (s.statInc o n).checks = s.checks := rfl
@[simp] theorem State.statInc_eras (o n : Nat) : (s.statInc o n).eras = s.eras := rfl
@[simp] theorem State.statInc_dur (o n : Nat) : (s.statInc o n).dur = s.dur := rfl
@[simp] theorem State.statInc_tdl (o n : Nat) : (s.statInc o n).tdl = s.tdl := rfl
@[simp] theorem State.statInc_ctxs (o n : Nat) : (s.statInc o n).ctxs = s.ctxs := rfl
@[simp] theorem State.statInc_tickets (o n : Nat) : (s.statInc o n).tickets = s.tickets := rfl
@[simp] theorem State.statInc_mpu (o n : Nat) : (s.statInc o n).mpu = s.mpu := rfl
@[simp] theorem State.statInc_insts (o n : Nat) : (s.statInc o n).insts = s.insts := rfl
@[simp] theorem State.statInc_ins (o n : Nat) : (s.statInc o n).ins = s.ins := rfl
@[simp] theorem State.statInc_escQ (o n : Nat) : (s.statInc o n).escQ = s.escQ := rfl
@[simp] theorem State.statInc_roots (o n : Nat) : (s.statInc o n).roots = s.roots := rfl
@[simp] theorem State.statInc_key (o n : Nat) : (s.statInc o n).key = s.key := rfl
@[simp] theorem State.statInc_rng (o n : Nat) : (s.statInc o n).rng = s.rng := rfl
@[simp] theorem State.statInc_cip (o n : Nat) : (s.statInc o n).cip = s.cip := rfl
@[simp] theorem State.statInc_pke (o n : Nat) : (s.statInc o n).pke = s.pke := rfl
@[simp] theorem State.statInc_units (o n : Nat) : (s.statInc o n).units = s.units := rfl
@[simp] theorem State.statInc_ivPrefix (o n : Nat) : (s.statInc o n).ivPrefix = s.ivPrefix := rfl
@[simp] theorem State.statInc_rings (o n : Nat) : (s.statInc o n).rings = s.rings := rfl
@[simp] theorem State.statInc_host (o n : Nat) : (s.statInc o n).host = s.host := rfl
@[simp] theorem State.statInc_air (o n : Nat) : (s.statInc o n).air = s.air := rfl
@[simp] theorem State.statInc_ports (o n : Nat) : (s.statInc o n).ports = s.ports := rfl
@[simp] theorem State.statInc_shg (o n : Nat) : (s.statInc o n).shg = s.shg := rfl
@[simp] theorem State.statInc_stl (o n : Nat) : (s.statInc o n).stl = s.stl := rfl
@[simp] theorem State.statInc_statPub (o n : Nat) : (s.statInc o n).statPub = s.statPub := rfl
@[simp] theorem State.statInc_freeCtr (o n : Nat) : (s.statInc o n).freeCtr = s.freeCtr := rfl
@[simp] theorem State.statInc_outbox (o n : Nat) : (s.statInc o n).outbox = s.outbox := rfl
@[simp] theorem State.statInc_pending (o n : Nat) : (s.statInc o n).pending = s.pending := rfl

@[simp] theorem State.statInc64_kpr (o n : Nat) : (s.statInc64 o n).kpr = s.kpr := rfl
@[simp] theorem State.statInc64_pwr (o n : Nat) : (s.statInc64 o n).pwr = s.pwr := rfl
@[simp] theorem State.statInc64_otp (o n : Nat) : (s.statInc64 o n).otp = s.otp := rfl
@[simp] theorem State.statInc64_tmp (o n : Nat) : (s.statInc64 o n).tmp = s.tmp := rfl
@[simp] theorem State.statInc64_cfl (o n : Nat) : (s.statInc64 o n).cfl = s.cfl := rfl
@[simp] theorem State.statInc64_evf (o n : Nat) : (s.statInc64 o n).evf = s.evf := rfl
@[simp] theorem State.statInc64_regs (o n : Nat) : (s.statInc64 o n).regs = s.regs := rfl
@[simp] theorem State.statInc64_latch (o n : Nat) : (s.statInc64 o n).latch = s.latch := rfl
@[simp] theorem State.statInc64_mem (o n : Nat) : (s.statInc64 o n).mem = s.mem := rfl
@[simp] theorem State.statInc64_tags (o n : Nat) : (s.statInc64 o n).tags = s.tags := rfl
@[simp] theorem State.statInc64_checks (o n : Nat) : (s.statInc64 o n).checks = s.checks := rfl
@[simp] theorem State.statInc64_eras (o n : Nat) : (s.statInc64 o n).eras = s.eras := rfl
@[simp] theorem State.statInc64_dur (o n : Nat) : (s.statInc64 o n).dur = s.dur := rfl
@[simp] theorem State.statInc64_tdl (o n : Nat) : (s.statInc64 o n).tdl = s.tdl := rfl
@[simp] theorem State.statInc64_ctxs (o n : Nat) : (s.statInc64 o n).ctxs = s.ctxs := rfl
@[simp] theorem State.statInc64_tickets (o n : Nat) : (s.statInc64 o n).tickets = s.tickets := rfl
@[simp] theorem State.statInc64_mpu (o n : Nat) : (s.statInc64 o n).mpu = s.mpu := rfl
@[simp] theorem State.statInc64_insts (o n : Nat) : (s.statInc64 o n).insts = s.insts := rfl
@[simp] theorem State.statInc64_ins (o n : Nat) : (s.statInc64 o n).ins = s.ins := rfl
@[simp] theorem State.statInc64_escQ (o n : Nat) : (s.statInc64 o n).escQ = s.escQ := rfl
@[simp] theorem State.statInc64_roots (o n : Nat) : (s.statInc64 o n).roots = s.roots := rfl
@[simp] theorem State.statInc64_key (o n : Nat) : (s.statInc64 o n).key = s.key := rfl
@[simp] theorem State.statInc64_rng (o n : Nat) : (s.statInc64 o n).rng = s.rng := rfl
@[simp] theorem State.statInc64_cip (o n : Nat) : (s.statInc64 o n).cip = s.cip := rfl
@[simp] theorem State.statInc64_pke (o n : Nat) : (s.statInc64 o n).pke = s.pke := rfl
@[simp] theorem State.statInc64_units (o n : Nat) : (s.statInc64 o n).units = s.units := rfl
@[simp] theorem State.statInc64_ivPrefix (o n : Nat) : (s.statInc64 o n).ivPrefix = s.ivPrefix := rfl
@[simp] theorem State.statInc64_rings (o n : Nat) : (s.statInc64 o n).rings = s.rings := rfl
@[simp] theorem State.statInc64_host (o n : Nat) : (s.statInc64 o n).host = s.host := rfl
@[simp] theorem State.statInc64_air (o n : Nat) : (s.statInc64 o n).air = s.air := rfl
@[simp] theorem State.statInc64_ports (o n : Nat) : (s.statInc64 o n).ports = s.ports := rfl
@[simp] theorem State.statInc64_shg (o n : Nat) : (s.statInc64 o n).shg = s.shg := rfl
@[simp] theorem State.statInc64_stl (o n : Nat) : (s.statInc64 o n).stl = s.stl := rfl
@[simp] theorem State.statInc64_statPub (o n : Nat) : (s.statInc64 o n).statPub = s.statPub := rfl
@[simp] theorem State.statInc64_freeCtr (o n : Nat) : (s.statInc64 o n).freeCtr = s.freeCtr := rfl
@[simp] theorem State.statInc64_outbox (o n : Nat) : (s.statInc64 o n).outbox = s.outbox := rfl
@[simp] theorem State.statInc64_pending (o n : Nat) : (s.statInc64 o n).pending = s.pending := rfl

@[simp] theorem State.statMax_kpr (o v : Nat) : (s.statMax o v).kpr = s.kpr := rfl
@[simp] theorem State.statMax_pwr (o v : Nat) : (s.statMax o v).pwr = s.pwr := rfl
@[simp] theorem State.statMax_otp (o v : Nat) : (s.statMax o v).otp = s.otp := rfl
@[simp] theorem State.statMax_tmp (o v : Nat) : (s.statMax o v).tmp = s.tmp := rfl
@[simp] theorem State.statMax_cfl (o v : Nat) : (s.statMax o v).cfl = s.cfl := rfl
@[simp] theorem State.statMax_evf (o v : Nat) : (s.statMax o v).evf = s.evf := rfl
@[simp] theorem State.statMax_regs (o v : Nat) : (s.statMax o v).regs = s.regs := rfl
@[simp] theorem State.statMax_latch (o v : Nat) : (s.statMax o v).latch = s.latch := rfl
@[simp] theorem State.statMax_mem (o v : Nat) : (s.statMax o v).mem = s.mem := rfl
@[simp] theorem State.statMax_tags (o v : Nat) : (s.statMax o v).tags = s.tags := rfl
@[simp] theorem State.statMax_checks (o v : Nat) : (s.statMax o v).checks = s.checks := rfl
@[simp] theorem State.statMax_eras (o v : Nat) : (s.statMax o v).eras = s.eras := rfl
@[simp] theorem State.statMax_dur (o v : Nat) : (s.statMax o v).dur = s.dur := rfl
@[simp] theorem State.statMax_tdl (o v : Nat) : (s.statMax o v).tdl = s.tdl := rfl
@[simp] theorem State.statMax_ctxs (o v : Nat) : (s.statMax o v).ctxs = s.ctxs := rfl
@[simp] theorem State.statMax_tickets (o v : Nat) : (s.statMax o v).tickets = s.tickets := rfl
@[simp] theorem State.statMax_mpu (o v : Nat) : (s.statMax o v).mpu = s.mpu := rfl
@[simp] theorem State.statMax_insts (o v : Nat) : (s.statMax o v).insts = s.insts := rfl
@[simp] theorem State.statMax_ins (o v : Nat) : (s.statMax o v).ins = s.ins := rfl
@[simp] theorem State.statMax_escQ (o v : Nat) : (s.statMax o v).escQ = s.escQ := rfl
@[simp] theorem State.statMax_roots (o v : Nat) : (s.statMax o v).roots = s.roots := rfl
@[simp] theorem State.statMax_key (o v : Nat) : (s.statMax o v).key = s.key := rfl
@[simp] theorem State.statMax_rng (o v : Nat) : (s.statMax o v).rng = s.rng := rfl
@[simp] theorem State.statMax_cip (o v : Nat) : (s.statMax o v).cip = s.cip := rfl
@[simp] theorem State.statMax_pke (o v : Nat) : (s.statMax o v).pke = s.pke := rfl
@[simp] theorem State.statMax_units (o v : Nat) : (s.statMax o v).units = s.units := rfl
@[simp] theorem State.statMax_ivPrefix (o v : Nat) : (s.statMax o v).ivPrefix = s.ivPrefix := rfl
@[simp] theorem State.statMax_rings (o v : Nat) : (s.statMax o v).rings = s.rings := rfl
@[simp] theorem State.statMax_host (o v : Nat) : (s.statMax o v).host = s.host := rfl
@[simp] theorem State.statMax_air (o v : Nat) : (s.statMax o v).air = s.air := rfl
@[simp] theorem State.statMax_ports (o v : Nat) : (s.statMax o v).ports = s.ports := rfl
@[simp] theorem State.statMax_shg (o v : Nat) : (s.statMax o v).shg = s.shg := rfl
@[simp] theorem State.statMax_stl (o v : Nat) : (s.statMax o v).stl = s.stl := rfl
@[simp] theorem State.statMax_statPub (o v : Nat) : (s.statMax o v).statPub = s.statPub := rfl
@[simp] theorem State.statMax_freeCtr (o v : Nat) : (s.statMax o v).freeCtr = s.freeCtr := rfl
@[simp] theorem State.statMax_outbox (o v : Nat) : (s.statMax o v).outbox = s.outbox := rfl
@[simp] theorem State.statMax_pending (o v : Nat) : (s.statMax o v).pending = s.pending := rfl

@[simp] theorem State.wrByte_kpr (a : Nat) (b : Byte) : (s.wrByte a b).kpr = s.kpr := rfl
@[simp] theorem State.wrByte_pwr (a : Nat) (b : Byte) : (s.wrByte a b).pwr = s.pwr := rfl
@[simp] theorem State.wrByte_otp (a : Nat) (b : Byte) : (s.wrByte a b).otp = s.otp := rfl
@[simp] theorem State.wrByte_tmp (a : Nat) (b : Byte) : (s.wrByte a b).tmp = s.tmp := rfl
@[simp] theorem State.wrByte_cfl (a : Nat) (b : Byte) : (s.wrByte a b).cfl = s.cfl := rfl
@[simp] theorem State.wrByte_evf (a : Nat) (b : Byte) : (s.wrByte a b).evf = s.evf := rfl
@[simp] theorem State.wrByte_regs (a : Nat) (b : Byte) : (s.wrByte a b).regs = s.regs := rfl
@[simp] theorem State.wrByte_latch (a : Nat) (b : Byte) : (s.wrByte a b).latch = s.latch := rfl
@[simp] theorem State.wrByte_tags (a : Nat) (b : Byte) : (s.wrByte a b).tags = s.tags := rfl
@[simp] theorem State.wrByte_checks (a : Nat) (b : Byte) : (s.wrByte a b).checks = s.checks := rfl
@[simp] theorem State.wrByte_eras (a : Nat) (b : Byte) : (s.wrByte a b).eras = s.eras := rfl
@[simp] theorem State.wrByte_dur (a : Nat) (b : Byte) : (s.wrByte a b).dur = s.dur := rfl
@[simp] theorem State.wrByte_tdl (a : Nat) (b : Byte) : (s.wrByte a b).tdl = s.tdl := rfl
@[simp] theorem State.wrByte_ctxs (a : Nat) (b : Byte) : (s.wrByte a b).ctxs = s.ctxs := rfl
@[simp] theorem State.wrByte_tickets (a : Nat) (b : Byte) : (s.wrByte a b).tickets = s.tickets := rfl
@[simp] theorem State.wrByte_mpu (a : Nat) (b : Byte) : (s.wrByte a b).mpu = s.mpu := rfl
@[simp] theorem State.wrByte_insts (a : Nat) (b : Byte) : (s.wrByte a b).insts = s.insts := rfl
@[simp] theorem State.wrByte_ins (a : Nat) (b : Byte) : (s.wrByte a b).ins = s.ins := rfl
@[simp] theorem State.wrByte_escQ (a : Nat) (b : Byte) : (s.wrByte a b).escQ = s.escQ := rfl
@[simp] theorem State.wrByte_roots (a : Nat) (b : Byte) : (s.wrByte a b).roots = s.roots := rfl
@[simp] theorem State.wrByte_key (a : Nat) (b : Byte) : (s.wrByte a b).key = s.key := rfl
@[simp] theorem State.wrByte_rng (a : Nat) (b : Byte) : (s.wrByte a b).rng = s.rng := rfl
@[simp] theorem State.wrByte_cip (a : Nat) (b : Byte) : (s.wrByte a b).cip = s.cip := rfl
@[simp] theorem State.wrByte_pke (a : Nat) (b : Byte) : (s.wrByte a b).pke = s.pke := rfl
@[simp] theorem State.wrByte_units (a : Nat) (b : Byte) : (s.wrByte a b).units = s.units := rfl
@[simp] theorem State.wrByte_ivPrefix (a : Nat) (b : Byte) : (s.wrByte a b).ivPrefix = s.ivPrefix := rfl
@[simp] theorem State.wrByte_rings (a : Nat) (b : Byte) : (s.wrByte a b).rings = s.rings := rfl
@[simp] theorem State.wrByte_host (a : Nat) (b : Byte) : (s.wrByte a b).host = s.host := rfl
@[simp] theorem State.wrByte_air (a : Nat) (b : Byte) : (s.wrByte a b).air = s.air := rfl
@[simp] theorem State.wrByte_ports (a : Nat) (b : Byte) : (s.wrByte a b).ports = s.ports := rfl
@[simp] theorem State.wrByte_shg (a : Nat) (b : Byte) : (s.wrByte a b).shg = s.shg := rfl
@[simp] theorem State.wrByte_stl (a : Nat) (b : Byte) : (s.wrByte a b).stl = s.stl := rfl
@[simp] theorem State.wrByte_stat (a : Nat) (b : Byte) : (s.wrByte a b).stat = s.stat := rfl
@[simp] theorem State.wrByte_statPub (a : Nat) (b : Byte) : (s.wrByte a b).statPub = s.statPub := rfl
@[simp] theorem State.wrByte_freeCtr (a : Nat) (b : Byte) : (s.wrByte a b).freeCtr = s.freeCtr := rfl
@[simp] theorem State.wrByte_outbox (a : Nat) (b : Byte) : (s.wrByte a b).outbox = s.outbox := rfl
@[simp] theorem State.wrByte_pending (a : Nat) (b : Byte) : (s.wrByte a b).pending = s.pending := rfl

@[simp] theorem State.wrTag_kpr (a : Nat) (t : Word4) : (s.wrTag a t).kpr = s.kpr := rfl
@[simp] theorem State.wrTag_pwr (a : Nat) (t : Word4) : (s.wrTag a t).pwr = s.pwr := rfl
@[simp] theorem State.wrTag_otp (a : Nat) (t : Word4) : (s.wrTag a t).otp = s.otp := rfl
@[simp] theorem State.wrTag_tmp (a : Nat) (t : Word4) : (s.wrTag a t).tmp = s.tmp := rfl
@[simp] theorem State.wrTag_cfl (a : Nat) (t : Word4) : (s.wrTag a t).cfl = s.cfl := rfl
@[simp] theorem State.wrTag_evf (a : Nat) (t : Word4) : (s.wrTag a t).evf = s.evf := rfl
@[simp] theorem State.wrTag_regs (a : Nat) (t : Word4) : (s.wrTag a t).regs = s.regs := rfl
@[simp] theorem State.wrTag_latch (a : Nat) (t : Word4) : (s.wrTag a t).latch = s.latch := rfl
@[simp] theorem State.wrTag_mem (a : Nat) (t : Word4) : (s.wrTag a t).mem = s.mem := rfl
@[simp] theorem State.wrTag_checks (a : Nat) (t : Word4) : (s.wrTag a t).checks = s.checks := rfl
@[simp] theorem State.wrTag_eras (a : Nat) (t : Word4) : (s.wrTag a t).eras = s.eras := rfl
@[simp] theorem State.wrTag_dur (a : Nat) (t : Word4) : (s.wrTag a t).dur = s.dur := rfl
@[simp] theorem State.wrTag_tdl (a : Nat) (t : Word4) : (s.wrTag a t).tdl = s.tdl := rfl
@[simp] theorem State.wrTag_ctxs (a : Nat) (t : Word4) : (s.wrTag a t).ctxs = s.ctxs := rfl
@[simp] theorem State.wrTag_tickets (a : Nat) (t : Word4) : (s.wrTag a t).tickets = s.tickets := rfl
@[simp] theorem State.wrTag_mpu (a : Nat) (t : Word4) : (s.wrTag a t).mpu = s.mpu := rfl
@[simp] theorem State.wrTag_insts (a : Nat) (t : Word4) : (s.wrTag a t).insts = s.insts := rfl
@[simp] theorem State.wrTag_ins (a : Nat) (t : Word4) : (s.wrTag a t).ins = s.ins := rfl
@[simp] theorem State.wrTag_escQ (a : Nat) (t : Word4) : (s.wrTag a t).escQ = s.escQ := rfl
@[simp] theorem State.wrTag_roots (a : Nat) (t : Word4) : (s.wrTag a t).roots = s.roots := rfl
@[simp] theorem State.wrTag_key (a : Nat) (t : Word4) : (s.wrTag a t).key = s.key := rfl
@[simp] theorem State.wrTag_rng (a : Nat) (t : Word4) : (s.wrTag a t).rng = s.rng := rfl
@[simp] theorem State.wrTag_cip (a : Nat) (t : Word4) : (s.wrTag a t).cip = s.cip := rfl
@[simp] theorem State.wrTag_pke (a : Nat) (t : Word4) : (s.wrTag a t).pke = s.pke := rfl
@[simp] theorem State.wrTag_units (a : Nat) (t : Word4) : (s.wrTag a t).units = s.units := rfl
@[simp] theorem State.wrTag_ivPrefix (a : Nat) (t : Word4) : (s.wrTag a t).ivPrefix = s.ivPrefix := rfl
@[simp] theorem State.wrTag_rings (a : Nat) (t : Word4) : (s.wrTag a t).rings = s.rings := rfl
@[simp] theorem State.wrTag_host (a : Nat) (t : Word4) : (s.wrTag a t).host = s.host := rfl
@[simp] theorem State.wrTag_air (a : Nat) (t : Word4) : (s.wrTag a t).air = s.air := rfl
@[simp] theorem State.wrTag_ports (a : Nat) (t : Word4) : (s.wrTag a t).ports = s.ports := rfl
@[simp] theorem State.wrTag_shg (a : Nat) (t : Word4) : (s.wrTag a t).shg = s.shg := rfl
@[simp] theorem State.wrTag_stl (a : Nat) (t : Word4) : (s.wrTag a t).stl = s.stl := rfl
@[simp] theorem State.wrTag_stat (a : Nat) (t : Word4) : (s.wrTag a t).stat = s.stat := rfl
@[simp] theorem State.wrTag_statPub (a : Nat) (t : Word4) : (s.wrTag a t).statPub = s.statPub := rfl
@[simp] theorem State.wrTag_freeCtr (a : Nat) (t : Word4) : (s.wrTag a t).freeCtr = s.freeCtr := rfl
@[simp] theorem State.wrTag_outbox (a : Nat) (t : Word4) : (s.wrTag a t).outbox = s.outbox := rfl
@[simp] theorem State.wrTag_pending (a : Nat) (t : Word4) : (s.wrTag a t).pending = s.pending := rfl

@[simp] theorem State.raiseIrq_kpr (i n : Nat) : (s.raiseIrq i n).kpr = s.kpr := rfl
@[simp] theorem State.raiseIrq_pwr (i n : Nat) : (s.raiseIrq i n).pwr = s.pwr := rfl
@[simp] theorem State.raiseIrq_otp (i n : Nat) : (s.raiseIrq i n).otp = s.otp := rfl
@[simp] theorem State.raiseIrq_tmp (i n : Nat) : (s.raiseIrq i n).tmp = s.tmp := rfl
@[simp] theorem State.raiseIrq_cfl (i n : Nat) : (s.raiseIrq i n).cfl = s.cfl := rfl
@[simp] theorem State.raiseIrq_evf (i n : Nat) : (s.raiseIrq i n).evf = s.evf := rfl
@[simp] theorem State.raiseIrq_regs (i n : Nat) : (s.raiseIrq i n).regs = s.regs := rfl
@[simp] theorem State.raiseIrq_latch (i n : Nat) : (s.raiseIrq i n).latch = s.latch := rfl
@[simp] theorem State.raiseIrq_mem (i n : Nat) : (s.raiseIrq i n).mem = s.mem := rfl
@[simp] theorem State.raiseIrq_tags (i n : Nat) : (s.raiseIrq i n).tags = s.tags := rfl
@[simp] theorem State.raiseIrq_checks (i n : Nat) : (s.raiseIrq i n).checks = s.checks := rfl
@[simp] theorem State.raiseIrq_eras (i n : Nat) : (s.raiseIrq i n).eras = s.eras := rfl
@[simp] theorem State.raiseIrq_dur (i n : Nat) : (s.raiseIrq i n).dur = s.dur := rfl
@[simp] theorem State.raiseIrq_tdl (i n : Nat) : (s.raiseIrq i n).tdl = s.tdl := rfl
@[simp] theorem State.raiseIrq_ctxs (i n : Nat) : (s.raiseIrq i n).ctxs = s.ctxs := rfl
@[simp] theorem State.raiseIrq_tickets (i n : Nat) : (s.raiseIrq i n).tickets = s.tickets := rfl
@[simp] theorem State.raiseIrq_mpu (i n : Nat) : (s.raiseIrq i n).mpu = s.mpu := rfl
@[simp] theorem State.raiseIrq_ins (i n : Nat) : (s.raiseIrq i n).ins = s.ins := rfl
@[simp] theorem State.raiseIrq_escQ (i n : Nat) : (s.raiseIrq i n).escQ = s.escQ := rfl
@[simp] theorem State.raiseIrq_roots (i n : Nat) : (s.raiseIrq i n).roots = s.roots := rfl
@[simp] theorem State.raiseIrq_key (i n : Nat) : (s.raiseIrq i n).key = s.key := rfl
@[simp] theorem State.raiseIrq_rng (i n : Nat) : (s.raiseIrq i n).rng = s.rng := rfl
@[simp] theorem State.raiseIrq_cip (i n : Nat) : (s.raiseIrq i n).cip = s.cip := rfl
@[simp] theorem State.raiseIrq_pke (i n : Nat) : (s.raiseIrq i n).pke = s.pke := rfl
@[simp] theorem State.raiseIrq_units (i n : Nat) : (s.raiseIrq i n).units = s.units := rfl
@[simp] theorem State.raiseIrq_ivPrefix (i n : Nat) : (s.raiseIrq i n).ivPrefix = s.ivPrefix := rfl
@[simp] theorem State.raiseIrq_rings (i n : Nat) : (s.raiseIrq i n).rings = s.rings := rfl
@[simp] theorem State.raiseIrq_host (i n : Nat) : (s.raiseIrq i n).host = s.host := rfl
@[simp] theorem State.raiseIrq_air (i n : Nat) : (s.raiseIrq i n).air = s.air := rfl
@[simp] theorem State.raiseIrq_ports (i n : Nat) : (s.raiseIrq i n).ports = s.ports := rfl
@[simp] theorem State.raiseIrq_shg (i n : Nat) : (s.raiseIrq i n).shg = s.shg := rfl
@[simp] theorem State.raiseIrq_stl (i n : Nat) : (s.raiseIrq i n).stl = s.stl := rfl
@[simp] theorem State.raiseIrq_stat (i n : Nat) : (s.raiseIrq i n).stat = s.stat := rfl
@[simp] theorem State.raiseIrq_statPub (i n : Nat) : (s.raiseIrq i n).statPub = s.statPub := rfl
@[simp] theorem State.raiseIrq_freeCtr (i n : Nat) : (s.raiseIrq i n).freeCtr = s.freeCtr := rfl
@[simp] theorem State.raiseIrq_outbox (i n : Nat) : (s.raiseIrq i n).outbox = s.outbox := rfl
@[simp] theorem State.raiseIrq_pending (i n : Nat) : (s.raiseIrq i n).pending = s.pending := rfl

@[simp] theorem State.setRing_kpr (r : Nat) (x : Ring) : (s.setRing r x).kpr = s.kpr := rfl
@[simp] theorem State.setRing_pwr (r : Nat) (x : Ring) : (s.setRing r x).pwr = s.pwr := rfl
@[simp] theorem State.setRing_otp (r : Nat) (x : Ring) : (s.setRing r x).otp = s.otp := rfl
@[simp] theorem State.setRing_tmp (r : Nat) (x : Ring) : (s.setRing r x).tmp = s.tmp := rfl
@[simp] theorem State.setRing_cfl (r : Nat) (x : Ring) : (s.setRing r x).cfl = s.cfl := rfl
@[simp] theorem State.setRing_evf (r : Nat) (x : Ring) : (s.setRing r x).evf = s.evf := rfl
@[simp] theorem State.setRing_regs (r : Nat) (x : Ring) : (s.setRing r x).regs = s.regs := rfl
@[simp] theorem State.setRing_latch (r : Nat) (x : Ring) : (s.setRing r x).latch = s.latch := rfl
@[simp] theorem State.setRing_mem (r : Nat) (x : Ring) : (s.setRing r x).mem = s.mem := rfl
@[simp] theorem State.setRing_tags (r : Nat) (x : Ring) : (s.setRing r x).tags = s.tags := rfl
@[simp] theorem State.setRing_checks (r : Nat) (x : Ring) : (s.setRing r x).checks = s.checks := rfl
@[simp] theorem State.setRing_eras (r : Nat) (x : Ring) : (s.setRing r x).eras = s.eras := rfl
@[simp] theorem State.setRing_dur (r : Nat) (x : Ring) : (s.setRing r x).dur = s.dur := rfl
@[simp] theorem State.setRing_tdl (r : Nat) (x : Ring) : (s.setRing r x).tdl = s.tdl := rfl
@[simp] theorem State.setRing_ctxs (r : Nat) (x : Ring) : (s.setRing r x).ctxs = s.ctxs := rfl
@[simp] theorem State.setRing_tickets (r : Nat) (x : Ring) : (s.setRing r x).tickets = s.tickets := rfl
@[simp] theorem State.setRing_mpu (r : Nat) (x : Ring) : (s.setRing r x).mpu = s.mpu := rfl
@[simp] theorem State.setRing_insts (r : Nat) (x : Ring) : (s.setRing r x).insts = s.insts := rfl
@[simp] theorem State.setRing_ins (r : Nat) (x : Ring) : (s.setRing r x).ins = s.ins := rfl
@[simp] theorem State.setRing_escQ (r : Nat) (x : Ring) : (s.setRing r x).escQ = s.escQ := rfl
@[simp] theorem State.setRing_roots (r : Nat) (x : Ring) : (s.setRing r x).roots = s.roots := rfl
@[simp] theorem State.setRing_key (r : Nat) (x : Ring) : (s.setRing r x).key = s.key := rfl
@[simp] theorem State.setRing_rng (r : Nat) (x : Ring) : (s.setRing r x).rng = s.rng := rfl
@[simp] theorem State.setRing_cip (r : Nat) (x : Ring) : (s.setRing r x).cip = s.cip := rfl
@[simp] theorem State.setRing_pke (r : Nat) (x : Ring) : (s.setRing r x).pke = s.pke := rfl
@[simp] theorem State.setRing_units (r : Nat) (x : Ring) : (s.setRing r x).units = s.units := rfl
@[simp] theorem State.setRing_ivPrefix (r : Nat) (x : Ring) : (s.setRing r x).ivPrefix = s.ivPrefix := rfl
@[simp] theorem State.setRing_host (r : Nat) (x : Ring) : (s.setRing r x).host = s.host := rfl
@[simp] theorem State.setRing_air (r : Nat) (x : Ring) : (s.setRing r x).air = s.air := rfl
@[simp] theorem State.setRing_ports (r : Nat) (x : Ring) : (s.setRing r x).ports = s.ports := rfl
@[simp] theorem State.setRing_shg (r : Nat) (x : Ring) : (s.setRing r x).shg = s.shg := rfl
@[simp] theorem State.setRing_stl (r : Nat) (x : Ring) : (s.setRing r x).stl = s.stl := rfl
@[simp] theorem State.setRing_stat (r : Nat) (x : Ring) : (s.setRing r x).stat = s.stat := rfl
@[simp] theorem State.setRing_statPub (r : Nat) (x : Ring) : (s.setRing r x).statPub = s.statPub := rfl
@[simp] theorem State.setRing_freeCtr (r : Nat) (x : Ring) : (s.setRing r x).freeCtr = s.freeCtr := rfl
@[simp] theorem State.setRing_outbox (r : Nat) (x : Ring) : (s.setRing r x).outbox = s.outbox := rfl
@[simp] theorem State.setRing_pending (r : Nat) (x : Ring) : (s.setRing r x).pending = s.pending := rfl

@[simp] theorem State.setHport_kpr (p : Iface) (w : Nat) (x : HostPort) : (s.setHport p w x).kpr = s.kpr := rfl
@[simp] theorem State.setHport_pwr (p : Iface) (w : Nat) (x : HostPort) : (s.setHport p w x).pwr = s.pwr := rfl
@[simp] theorem State.setHport_otp (p : Iface) (w : Nat) (x : HostPort) : (s.setHport p w x).otp = s.otp := rfl
@[simp] theorem State.setHport_tmp (p : Iface) (w : Nat) (x : HostPort) : (s.setHport p w x).tmp = s.tmp := rfl
@[simp] theorem State.setHport_cfl (p : Iface) (w : Nat) (x : HostPort) : (s.setHport p w x).cfl = s.cfl := rfl
@[simp] theorem State.setHport_evf (p : Iface) (w : Nat) (x : HostPort) : (s.setHport p w x).evf = s.evf := rfl
@[simp] theorem State.setHport_regs (p : Iface) (w : Nat) (x : HostPort) : (s.setHport p w x).regs = s.regs := rfl
@[simp] theorem State.setHport_latch (p : Iface) (w : Nat) (x : HostPort) : (s.setHport p w x).latch = s.latch := rfl
@[simp] theorem State.setHport_mem (p : Iface) (w : Nat) (x : HostPort) : (s.setHport p w x).mem = s.mem := rfl
@[simp] theorem State.setHport_tags (p : Iface) (w : Nat) (x : HostPort) : (s.setHport p w x).tags = s.tags := rfl
@[simp] theorem State.setHport_checks (p : Iface) (w : Nat) (x : HostPort) : (s.setHport p w x).checks = s.checks := rfl
@[simp] theorem State.setHport_eras (p : Iface) (w : Nat) (x : HostPort) : (s.setHport p w x).eras = s.eras := rfl
@[simp] theorem State.setHport_dur (p : Iface) (w : Nat) (x : HostPort) : (s.setHport p w x).dur = s.dur := rfl
@[simp] theorem State.setHport_tdl (p : Iface) (w : Nat) (x : HostPort) : (s.setHport p w x).tdl = s.tdl := rfl
@[simp] theorem State.setHport_ctxs (p : Iface) (w : Nat) (x : HostPort) : (s.setHport p w x).ctxs = s.ctxs := rfl
@[simp] theorem State.setHport_tickets (p : Iface) (w : Nat) (x : HostPort) : (s.setHport p w x).tickets = s.tickets := rfl
@[simp] theorem State.setHport_mpu (p : Iface) (w : Nat) (x : HostPort) : (s.setHport p w x).mpu = s.mpu := rfl
@[simp] theorem State.setHport_insts (p : Iface) (w : Nat) (x : HostPort) : (s.setHport p w x).insts = s.insts := rfl
@[simp] theorem State.setHport_ins (p : Iface) (w : Nat) (x : HostPort) : (s.setHport p w x).ins = s.ins := rfl
@[simp] theorem State.setHport_escQ (p : Iface) (w : Nat) (x : HostPort) : (s.setHport p w x).escQ = s.escQ := rfl
@[simp] theorem State.setHport_roots (p : Iface) (w : Nat) (x : HostPort) : (s.setHport p w x).roots = s.roots := rfl
@[simp] theorem State.setHport_key (p : Iface) (w : Nat) (x : HostPort) : (s.setHport p w x).key = s.key := rfl
@[simp] theorem State.setHport_rng (p : Iface) (w : Nat) (x : HostPort) : (s.setHport p w x).rng = s.rng := rfl
@[simp] theorem State.setHport_cip (p : Iface) (w : Nat) (x : HostPort) : (s.setHport p w x).cip = s.cip := rfl
@[simp] theorem State.setHport_pke (p : Iface) (w : Nat) (x : HostPort) : (s.setHport p w x).pke = s.pke := rfl
@[simp] theorem State.setHport_units (p : Iface) (w : Nat) (x : HostPort) : (s.setHport p w x).units = s.units := rfl
@[simp] theorem State.setHport_ivPrefix (p : Iface) (w : Nat) (x : HostPort) : (s.setHport p w x).ivPrefix = s.ivPrefix := rfl
@[simp] theorem State.setHport_rings (p : Iface) (w : Nat) (x : HostPort) : (s.setHport p w x).rings = s.rings := rfl
@[simp] theorem State.setHport_air (p : Iface) (w : Nat) (x : HostPort) : (s.setHport p w x).air = s.air := rfl
@[simp] theorem State.setHport_ports (p : Iface) (w : Nat) (x : HostPort) : (s.setHport p w x).ports = s.ports := rfl
@[simp] theorem State.setHport_shg (p : Iface) (w : Nat) (x : HostPort) : (s.setHport p w x).shg = s.shg := rfl
@[simp] theorem State.setHport_stl (p : Iface) (w : Nat) (x : HostPort) : (s.setHport p w x).stl = s.stl := rfl
@[simp] theorem State.setHport_stat (p : Iface) (w : Nat) (x : HostPort) : (s.setHport p w x).stat = s.stat := rfl
@[simp] theorem State.setHport_statPub (p : Iface) (w : Nat) (x : HostPort) : (s.setHport p w x).statPub = s.statPub := rfl
@[simp] theorem State.setHport_freeCtr (p : Iface) (w : Nat) (x : HostPort) : (s.setHport p w x).freeCtr = s.freeCtr := rfl
@[simp] theorem State.setHport_outbox (p : Iface) (w : Nat) (x : HostPort) : (s.setHport p w x).outbox = s.outbox := rfl
@[simp] theorem State.setHport_pending (p : Iface) (w : Nat) (x : HostPort) : (s.setHport p w x).pending = s.pending := rfl

@[simp] theorem State.setSlot_kpr (n : Nat) (x : Slot) : (s.setSlot n x).kpr = s.kpr := rfl
@[simp] theorem State.setSlot_pwr (n : Nat) (x : Slot) : (s.setSlot n x).pwr = s.pwr := rfl
@[simp] theorem State.setSlot_otp (n : Nat) (x : Slot) : (s.setSlot n x).otp = s.otp := rfl
@[simp] theorem State.setSlot_tmp (n : Nat) (x : Slot) : (s.setSlot n x).tmp = s.tmp := rfl
@[simp] theorem State.setSlot_cfl (n : Nat) (x : Slot) : (s.setSlot n x).cfl = s.cfl := rfl
@[simp] theorem State.setSlot_evf (n : Nat) (x : Slot) : (s.setSlot n x).evf = s.evf := rfl
@[simp] theorem State.setSlot_regs (n : Nat) (x : Slot) : (s.setSlot n x).regs = s.regs := rfl
@[simp] theorem State.setSlot_latch (n : Nat) (x : Slot) : (s.setSlot n x).latch = s.latch := rfl
@[simp] theorem State.setSlot_mem (n : Nat) (x : Slot) : (s.setSlot n x).mem = s.mem := rfl
@[simp] theorem State.setSlot_tags (n : Nat) (x : Slot) : (s.setSlot n x).tags = s.tags := rfl
@[simp] theorem State.setSlot_checks (n : Nat) (x : Slot) : (s.setSlot n x).checks = s.checks := rfl
@[simp] theorem State.setSlot_eras (n : Nat) (x : Slot) : (s.setSlot n x).eras = s.eras := rfl
@[simp] theorem State.setSlot_tdl (n : Nat) (x : Slot) : (s.setSlot n x).tdl = s.tdl := rfl
@[simp] theorem State.setSlot_ctxs (n : Nat) (x : Slot) : (s.setSlot n x).ctxs = s.ctxs := rfl
@[simp] theorem State.setSlot_tickets (n : Nat) (x : Slot) : (s.setSlot n x).tickets = s.tickets := rfl
@[simp] theorem State.setSlot_mpu (n : Nat) (x : Slot) : (s.setSlot n x).mpu = s.mpu := rfl
@[simp] theorem State.setSlot_insts (n : Nat) (x : Slot) : (s.setSlot n x).insts = s.insts := rfl
@[simp] theorem State.setSlot_ins (n : Nat) (x : Slot) : (s.setSlot n x).ins = s.ins := rfl
@[simp] theorem State.setSlot_escQ (n : Nat) (x : Slot) : (s.setSlot n x).escQ = s.escQ := rfl
@[simp] theorem State.setSlot_roots (n : Nat) (x : Slot) : (s.setSlot n x).roots = s.roots := rfl
@[simp] theorem State.setSlot_key (n : Nat) (x : Slot) : (s.setSlot n x).key = s.key := rfl
@[simp] theorem State.setSlot_rng (n : Nat) (x : Slot) : (s.setSlot n x).rng = s.rng := rfl
@[simp] theorem State.setSlot_cip (n : Nat) (x : Slot) : (s.setSlot n x).cip = s.cip := rfl
@[simp] theorem State.setSlot_pke (n : Nat) (x : Slot) : (s.setSlot n x).pke = s.pke := rfl
@[simp] theorem State.setSlot_units (n : Nat) (x : Slot) : (s.setSlot n x).units = s.units := rfl
@[simp] theorem State.setSlot_ivPrefix (n : Nat) (x : Slot) : (s.setSlot n x).ivPrefix = s.ivPrefix := rfl
@[simp] theorem State.setSlot_rings (n : Nat) (x : Slot) : (s.setSlot n x).rings = s.rings := rfl
@[simp] theorem State.setSlot_host (n : Nat) (x : Slot) : (s.setSlot n x).host = s.host := rfl
@[simp] theorem State.setSlot_air (n : Nat) (x : Slot) : (s.setSlot n x).air = s.air := rfl
@[simp] theorem State.setSlot_ports (n : Nat) (x : Slot) : (s.setSlot n x).ports = s.ports := rfl
@[simp] theorem State.setSlot_shg (n : Nat) (x : Slot) : (s.setSlot n x).shg = s.shg := rfl
@[simp] theorem State.setSlot_stl (n : Nat) (x : Slot) : (s.setSlot n x).stl = s.stl := rfl
@[simp] theorem State.setSlot_stat (n : Nat) (x : Slot) : (s.setSlot n x).stat = s.stat := rfl
@[simp] theorem State.setSlot_statPub (n : Nat) (x : Slot) : (s.setSlot n x).statPub = s.statPub := rfl
@[simp] theorem State.setSlot_freeCtr (n : Nat) (x : Slot) : (s.setSlot n x).freeCtr = s.freeCtr := rfl
@[simp] theorem State.setSlot_outbox (n : Nat) (x : Slot) : (s.setSlot n x).outbox = s.outbox := rfl
@[simp] theorem State.setSlot_pending (n : Nat) (x : Slot) : (s.setSlot n x).pending = s.pending := rfl

@[simp] theorem State.setSctx_kpr (k : Nat) (c : ShgCtx) : (s.setSctx k c).kpr = s.kpr := rfl
@[simp] theorem State.setSctx_pwr (k : Nat) (c : ShgCtx) : (s.setSctx k c).pwr = s.pwr := rfl
@[simp] theorem State.setSctx_otp (k : Nat) (c : ShgCtx) : (s.setSctx k c).otp = s.otp := rfl
@[simp] theorem State.setSctx_tmp (k : Nat) (c : ShgCtx) : (s.setSctx k c).tmp = s.tmp := rfl
@[simp] theorem State.setSctx_cfl (k : Nat) (c : ShgCtx) : (s.setSctx k c).cfl = s.cfl := rfl
@[simp] theorem State.setSctx_evf (k : Nat) (c : ShgCtx) : (s.setSctx k c).evf = s.evf := rfl
@[simp] theorem State.setSctx_regs (k : Nat) (c : ShgCtx) : (s.setSctx k c).regs = s.regs := rfl
@[simp] theorem State.setSctx_latch (k : Nat) (c : ShgCtx) : (s.setSctx k c).latch = s.latch := rfl
@[simp] theorem State.setSctx_mem (k : Nat) (c : ShgCtx) : (s.setSctx k c).mem = s.mem := rfl
@[simp] theorem State.setSctx_tags (k : Nat) (c : ShgCtx) : (s.setSctx k c).tags = s.tags := rfl
@[simp] theorem State.setSctx_checks (k : Nat) (c : ShgCtx) : (s.setSctx k c).checks = s.checks := rfl
@[simp] theorem State.setSctx_eras (k : Nat) (c : ShgCtx) : (s.setSctx k c).eras = s.eras := rfl
@[simp] theorem State.setSctx_tdl (k : Nat) (c : ShgCtx) : (s.setSctx k c).tdl = s.tdl := rfl
@[simp] theorem State.setSctx_ctxs (k : Nat) (c : ShgCtx) : (s.setSctx k c).ctxs = s.ctxs := rfl
@[simp] theorem State.setSctx_tickets (k : Nat) (c : ShgCtx) : (s.setSctx k c).tickets = s.tickets := rfl
@[simp] theorem State.setSctx_mpu (k : Nat) (c : ShgCtx) : (s.setSctx k c).mpu = s.mpu := rfl
@[simp] theorem State.setSctx_insts (k : Nat) (c : ShgCtx) : (s.setSctx k c).insts = s.insts := rfl
@[simp] theorem State.setSctx_ins (k : Nat) (c : ShgCtx) : (s.setSctx k c).ins = s.ins := rfl
@[simp] theorem State.setSctx_escQ (k : Nat) (c : ShgCtx) : (s.setSctx k c).escQ = s.escQ := rfl
@[simp] theorem State.setSctx_roots (k : Nat) (c : ShgCtx) : (s.setSctx k c).roots = s.roots := rfl
@[simp] theorem State.setSctx_key (k : Nat) (c : ShgCtx) : (s.setSctx k c).key = s.key := rfl
@[simp] theorem State.setSctx_rng (k : Nat) (c : ShgCtx) : (s.setSctx k c).rng = s.rng := rfl
@[simp] theorem State.setSctx_cip (k : Nat) (c : ShgCtx) : (s.setSctx k c).cip = s.cip := rfl
@[simp] theorem State.setSctx_pke (k : Nat) (c : ShgCtx) : (s.setSctx k c).pke = s.pke := rfl
@[simp] theorem State.setSctx_units (k : Nat) (c : ShgCtx) : (s.setSctx k c).units = s.units := rfl
@[simp] theorem State.setSctx_ivPrefix (k : Nat) (c : ShgCtx) : (s.setSctx k c).ivPrefix = s.ivPrefix := rfl
@[simp] theorem State.setSctx_rings (k : Nat) (c : ShgCtx) : (s.setSctx k c).rings = s.rings := rfl
@[simp] theorem State.setSctx_host (k : Nat) (c : ShgCtx) : (s.setSctx k c).host = s.host := rfl
@[simp] theorem State.setSctx_air (k : Nat) (c : ShgCtx) : (s.setSctx k c).air = s.air := rfl
@[simp] theorem State.setSctx_ports (k : Nat) (c : ShgCtx) : (s.setSctx k c).ports = s.ports := rfl
@[simp] theorem State.setSctx_shg (k : Nat) (c : ShgCtx) : (s.setSctx k c).shg = s.shg := rfl
@[simp] theorem State.setSctx_stl (k : Nat) (c : ShgCtx) : (s.setSctx k c).stl = s.stl := rfl
@[simp] theorem State.setSctx_stat (k : Nat) (c : ShgCtx) : (s.setSctx k c).stat = s.stat := rfl
@[simp] theorem State.setSctx_statPub (k : Nat) (c : ShgCtx) : (s.setSctx k c).statPub = s.statPub := rfl
@[simp] theorem State.setSctx_freeCtr (k : Nat) (c : ShgCtx) : (s.setSctx k c).freeCtr = s.freeCtr := rfl
@[simp] theorem State.setSctx_outbox (k : Nat) (c : ShgCtx) : (s.setSctx k c).outbox = s.outbox := rfl
@[simp] theorem State.setSctx_pending (k : Nat) (c : ShgCtx) : (s.setSctx k c).pending = s.pending := rfl

@[simp] theorem State.setArea_kpr (a : Nat) (x : Area) : (s.setArea a x).kpr = s.kpr := rfl
@[simp] theorem State.setArea_pwr (a : Nat) (x : Area) : (s.setArea a x).pwr = s.pwr := rfl
@[simp] theorem State.setArea_otp (a : Nat) (x : Area) : (s.setArea a x).otp = s.otp := rfl
@[simp] theorem State.setArea_tmp (a : Nat) (x : Area) : (s.setArea a x).tmp = s.tmp := rfl
@[simp] theorem State.setArea_cfl (a : Nat) (x : Area) : (s.setArea a x).cfl = s.cfl := rfl
@[simp] theorem State.setArea_evf (a : Nat) (x : Area) : (s.setArea a x).evf = s.evf := rfl
@[simp] theorem State.setArea_regs (a : Nat) (x : Area) : (s.setArea a x).regs = s.regs := rfl
@[simp] theorem State.setArea_latch (a : Nat) (x : Area) : (s.setArea a x).latch = s.latch := rfl
@[simp] theorem State.setArea_mem (a : Nat) (x : Area) : (s.setArea a x).mem = s.mem := rfl
@[simp] theorem State.setArea_tags (a : Nat) (x : Area) : (s.setArea a x).tags = s.tags := rfl
@[simp] theorem State.setArea_checks (a : Nat) (x : Area) : (s.setArea a x).checks = s.checks := rfl
@[simp] theorem State.setArea_eras (a : Nat) (x : Area) : (s.setArea a x).eras = s.eras := rfl
@[simp] theorem State.setArea_tdl (a : Nat) (x : Area) : (s.setArea a x).tdl = s.tdl := rfl
@[simp] theorem State.setArea_ctxs (a : Nat) (x : Area) : (s.setArea a x).ctxs = s.ctxs := rfl
@[simp] theorem State.setArea_tickets (a : Nat) (x : Area) : (s.setArea a x).tickets = s.tickets := rfl
@[simp] theorem State.setArea_mpu (a : Nat) (x : Area) : (s.setArea a x).mpu = s.mpu := rfl
@[simp] theorem State.setArea_insts (a : Nat) (x : Area) : (s.setArea a x).insts = s.insts := rfl
@[simp] theorem State.setArea_ins (a : Nat) (x : Area) : (s.setArea a x).ins = s.ins := rfl
@[simp] theorem State.setArea_escQ (a : Nat) (x : Area) : (s.setArea a x).escQ = s.escQ := rfl
@[simp] theorem State.setArea_roots (a : Nat) (x : Area) : (s.setArea a x).roots = s.roots := rfl
@[simp] theorem State.setArea_key (a : Nat) (x : Area) : (s.setArea a x).key = s.key := rfl
@[simp] theorem State.setArea_rng (a : Nat) (x : Area) : (s.setArea a x).rng = s.rng := rfl
@[simp] theorem State.setArea_cip (a : Nat) (x : Area) : (s.setArea a x).cip = s.cip := rfl
@[simp] theorem State.setArea_pke (a : Nat) (x : Area) : (s.setArea a x).pke = s.pke := rfl
@[simp] theorem State.setArea_units (a : Nat) (x : Area) : (s.setArea a x).units = s.units := rfl
@[simp] theorem State.setArea_ivPrefix (a : Nat) (x : Area) : (s.setArea a x).ivPrefix = s.ivPrefix := rfl
@[simp] theorem State.setArea_rings (a : Nat) (x : Area) : (s.setArea a x).rings = s.rings := rfl
@[simp] theorem State.setArea_host (a : Nat) (x : Area) : (s.setArea a x).host = s.host := rfl
@[simp] theorem State.setArea_air (a : Nat) (x : Area) : (s.setArea a x).air = s.air := rfl
@[simp] theorem State.setArea_ports (a : Nat) (x : Area) : (s.setArea a x).ports = s.ports := rfl
@[simp] theorem State.setArea_shg (a : Nat) (x : Area) : (s.setArea a x).shg = s.shg := rfl
@[simp] theorem State.setArea_stl (a : Nat) (x : Area) : (s.setArea a x).stl = s.stl := rfl
@[simp] theorem State.setArea_stat (a : Nat) (x : Area) : (s.setArea a x).stat = s.stat := rfl
@[simp] theorem State.setArea_statPub (a : Nat) (x : Area) : (s.setArea a x).statPub = s.statPub := rfl
@[simp] theorem State.setArea_freeCtr (a : Nat) (x : Area) : (s.setArea a x).freeCtr = s.freeCtr := rfl
@[simp] theorem State.setArea_outbox (a : Nat) (x : Area) : (s.setArea a x).outbox = s.outbox := rfl
@[simp] theorem State.setArea_pending (a : Nat) (x : Area) : (s.setArea a x).pending = s.pending := rfl

@[simp] theorem State.setPbuf_kpr (k : Nat) (x : PortBuf) : (s.setPbuf k x).kpr = s.kpr := rfl
@[simp] theorem State.setPbuf_pwr (k : Nat) (x : PortBuf) : (s.setPbuf k x).pwr = s.pwr := rfl
@[simp] theorem State.setPbuf_otp (k : Nat) (x : PortBuf) : (s.setPbuf k x).otp = s.otp := rfl
@[simp] theorem State.setPbuf_tmp (k : Nat) (x : PortBuf) : (s.setPbuf k x).tmp = s.tmp := rfl
@[simp] theorem State.setPbuf_cfl (k : Nat) (x : PortBuf) : (s.setPbuf k x).cfl = s.cfl := rfl
@[simp] theorem State.setPbuf_evf (k : Nat) (x : PortBuf) : (s.setPbuf k x).evf = s.evf := rfl
@[simp] theorem State.setPbuf_regs (k : Nat) (x : PortBuf) : (s.setPbuf k x).regs = s.regs := rfl
@[simp] theorem State.setPbuf_latch (k : Nat) (x : PortBuf) : (s.setPbuf k x).latch = s.latch := rfl
@[simp] theorem State.setPbuf_mem (k : Nat) (x : PortBuf) : (s.setPbuf k x).mem = s.mem := rfl
@[simp] theorem State.setPbuf_tags (k : Nat) (x : PortBuf) : (s.setPbuf k x).tags = s.tags := rfl
@[simp] theorem State.setPbuf_checks (k : Nat) (x : PortBuf) : (s.setPbuf k x).checks = s.checks := rfl
@[simp] theorem State.setPbuf_eras (k : Nat) (x : PortBuf) : (s.setPbuf k x).eras = s.eras := rfl
@[simp] theorem State.setPbuf_dur (k : Nat) (x : PortBuf) : (s.setPbuf k x).dur = s.dur := rfl
@[simp] theorem State.setPbuf_tdl (k : Nat) (x : PortBuf) : (s.setPbuf k x).tdl = s.tdl := rfl
@[simp] theorem State.setPbuf_ctxs (k : Nat) (x : PortBuf) : (s.setPbuf k x).ctxs = s.ctxs := rfl
@[simp] theorem State.setPbuf_tickets (k : Nat) (x : PortBuf) : (s.setPbuf k x).tickets = s.tickets := rfl
@[simp] theorem State.setPbuf_mpu (k : Nat) (x : PortBuf) : (s.setPbuf k x).mpu = s.mpu := rfl
@[simp] theorem State.setPbuf_insts (k : Nat) (x : PortBuf) : (s.setPbuf k x).insts = s.insts := rfl
@[simp] theorem State.setPbuf_ins (k : Nat) (x : PortBuf) : (s.setPbuf k x).ins = s.ins := rfl
@[simp] theorem State.setPbuf_escQ (k : Nat) (x : PortBuf) : (s.setPbuf k x).escQ = s.escQ := rfl
@[simp] theorem State.setPbuf_roots (k : Nat) (x : PortBuf) : (s.setPbuf k x).roots = s.roots := rfl
@[simp] theorem State.setPbuf_key (k : Nat) (x : PortBuf) : (s.setPbuf k x).key = s.key := rfl
@[simp] theorem State.setPbuf_rng (k : Nat) (x : PortBuf) : (s.setPbuf k x).rng = s.rng := rfl
@[simp] theorem State.setPbuf_cip (k : Nat) (x : PortBuf) : (s.setPbuf k x).cip = s.cip := rfl
@[simp] theorem State.setPbuf_pke (k : Nat) (x : PortBuf) : (s.setPbuf k x).pke = s.pke := rfl
@[simp] theorem State.setPbuf_units (k : Nat) (x : PortBuf) : (s.setPbuf k x).units = s.units := rfl
@[simp] theorem State.setPbuf_ivPrefix (k : Nat) (x : PortBuf) : (s.setPbuf k x).ivPrefix = s.ivPrefix := rfl
@[simp] theorem State.setPbuf_rings (k : Nat) (x : PortBuf) : (s.setPbuf k x).rings = s.rings := rfl
@[simp] theorem State.setPbuf_host (k : Nat) (x : PortBuf) : (s.setPbuf k x).host = s.host := rfl
@[simp] theorem State.setPbuf_air (k : Nat) (x : PortBuf) : (s.setPbuf k x).air = s.air := rfl
@[simp] theorem State.setPbuf_shg (k : Nat) (x : PortBuf) : (s.setPbuf k x).shg = s.shg := rfl
@[simp] theorem State.setPbuf_stl (k : Nat) (x : PortBuf) : (s.setPbuf k x).stl = s.stl := rfl
@[simp] theorem State.setPbuf_stat (k : Nat) (x : PortBuf) : (s.setPbuf k x).stat = s.stat := rfl
@[simp] theorem State.setPbuf_statPub (k : Nat) (x : PortBuf) : (s.setPbuf k x).statPub = s.statPub := rfl
@[simp] theorem State.setPbuf_freeCtr (k : Nat) (x : PortBuf) : (s.setPbuf k x).freeCtr = s.freeCtr := rfl
@[simp] theorem State.setPbuf_outbox (k : Nat) (x : PortBuf) : (s.setPbuf k x).outbox = s.outbox := rfl
@[simp] theorem State.setPbuf_pending (k : Nat) (x : PortBuf) : (s.setPbuf k x).pending = s.pending := rfl

@[simp] theorem State.setStlGen_kpr (k : Nat) (g : StlGen) : (s.setStlGen k g).kpr = s.kpr := rfl
@[simp] theorem State.setStlGen_pwr (k : Nat) (g : StlGen) : (s.setStlGen k g).pwr = s.pwr := rfl
@[simp] theorem State.setStlGen_otp (k : Nat) (g : StlGen) : (s.setStlGen k g).otp = s.otp := rfl
@[simp] theorem State.setStlGen_tmp (k : Nat) (g : StlGen) : (s.setStlGen k g).tmp = s.tmp := rfl
@[simp] theorem State.setStlGen_cfl (k : Nat) (g : StlGen) : (s.setStlGen k g).cfl = s.cfl := rfl
@[simp] theorem State.setStlGen_evf (k : Nat) (g : StlGen) : (s.setStlGen k g).evf = s.evf := rfl
@[simp] theorem State.setStlGen_regs (k : Nat) (g : StlGen) : (s.setStlGen k g).regs = s.regs := rfl
@[simp] theorem State.setStlGen_latch (k : Nat) (g : StlGen) : (s.setStlGen k g).latch = s.latch := rfl
@[simp] theorem State.setStlGen_mem (k : Nat) (g : StlGen) : (s.setStlGen k g).mem = s.mem := rfl
@[simp] theorem State.setStlGen_tags (k : Nat) (g : StlGen) : (s.setStlGen k g).tags = s.tags := rfl
@[simp] theorem State.setStlGen_checks (k : Nat) (g : StlGen) : (s.setStlGen k g).checks = s.checks := rfl
@[simp] theorem State.setStlGen_eras (k : Nat) (g : StlGen) : (s.setStlGen k g).eras = s.eras := rfl
@[simp] theorem State.setStlGen_dur (k : Nat) (g : StlGen) : (s.setStlGen k g).dur = s.dur := rfl
@[simp] theorem State.setStlGen_tdl (k : Nat) (g : StlGen) : (s.setStlGen k g).tdl = s.tdl := rfl
@[simp] theorem State.setStlGen_ctxs (k : Nat) (g : StlGen) : (s.setStlGen k g).ctxs = s.ctxs := rfl
@[simp] theorem State.setStlGen_tickets (k : Nat) (g : StlGen) : (s.setStlGen k g).tickets = s.tickets := rfl
@[simp] theorem State.setStlGen_mpu (k : Nat) (g : StlGen) : (s.setStlGen k g).mpu = s.mpu := rfl
@[simp] theorem State.setStlGen_insts (k : Nat) (g : StlGen) : (s.setStlGen k g).insts = s.insts := rfl
@[simp] theorem State.setStlGen_ins (k : Nat) (g : StlGen) : (s.setStlGen k g).ins = s.ins := rfl
@[simp] theorem State.setStlGen_escQ (k : Nat) (g : StlGen) : (s.setStlGen k g).escQ = s.escQ := rfl
@[simp] theorem State.setStlGen_roots (k : Nat) (g : StlGen) : (s.setStlGen k g).roots = s.roots := rfl
@[simp] theorem State.setStlGen_key (k : Nat) (g : StlGen) : (s.setStlGen k g).key = s.key := rfl
@[simp] theorem State.setStlGen_rng (k : Nat) (g : StlGen) : (s.setStlGen k g).rng = s.rng := rfl
@[simp] theorem State.setStlGen_cip (k : Nat) (g : StlGen) : (s.setStlGen k g).cip = s.cip := rfl
@[simp] theorem State.setStlGen_pke (k : Nat) (g : StlGen) : (s.setStlGen k g).pke = s.pke := rfl
@[simp] theorem State.setStlGen_units (k : Nat) (g : StlGen) : (s.setStlGen k g).units = s.units := rfl
@[simp] theorem State.setStlGen_ivPrefix (k : Nat) (g : StlGen) : (s.setStlGen k g).ivPrefix = s.ivPrefix := rfl
@[simp] theorem State.setStlGen_rings (k : Nat) (g : StlGen) : (s.setStlGen k g).rings = s.rings := rfl
@[simp] theorem State.setStlGen_host (k : Nat) (g : StlGen) : (s.setStlGen k g).host = s.host := rfl
@[simp] theorem State.setStlGen_air (k : Nat) (g : StlGen) : (s.setStlGen k g).air = s.air := rfl
@[simp] theorem State.setStlGen_ports (k : Nat) (g : StlGen) : (s.setStlGen k g).ports = s.ports := rfl
@[simp] theorem State.setStlGen_shg (k : Nat) (g : StlGen) : (s.setStlGen k g).shg = s.shg := rfl
@[simp] theorem State.setStlGen_stat (k : Nat) (g : StlGen) : (s.setStlGen k g).stat = s.stat := rfl
@[simp] theorem State.setStlGen_statPub (k : Nat) (g : StlGen) : (s.setStlGen k g).statPub = s.statPub := rfl
@[simp] theorem State.setStlGen_freeCtr (k : Nat) (g : StlGen) : (s.setStlGen k g).freeCtr = s.freeCtr := rfl
@[simp] theorem State.setStlGen_outbox (k : Nat) (g : StlGen) : (s.setStlGen k g).outbox = s.outbox := rfl
@[simp] theorem State.setStlGen_pending (k : Nat) (g : StlGen) : (s.setStlGen k g).pending = s.pending := rfl

@[simp] theorem State.reg_setReg_self (a : Nat) (v : Word32) : (s.setReg a v).reg a = v := by
  simp [State.reg, State.setReg]

theorem State.reg_setReg_ne {a b : Nat} (v : Word32) (h : b ≠ a) : (s.setReg a v).reg b = s.reg b := by
  simp [State.reg, State.setReg, sget_sset_ne _ _ v h]

@[simp] theorem State.ctx_setCtx_self (k : Nat) (c : Ctx) : (s.setCtx k c).ctx k = c := by
  simp [State.ctx, State.setCtx]

theorem State.ctx_setCtx_ne {k j : Nat} (c : Ctx) (h : j ≠ k) : (s.setCtx k c).ctx j = s.ctx j := by
  simp [State.ctx, State.setCtx, sget_sset_ne _ _ c h]

@[simp] theorem State.inst_setInst_self (i : Nat) (x : Inst) : (s.setInst i x).inst i = x := by
  simp [State.inst, State.setInst]

theorem State.inst_setInst_ne {i j : Nat} (x : Inst) (h : j ≠ i) : (s.setInst i x).inst j = s.inst j := by
  simp [State.inst, State.setInst, sget_sset_ne _ _ x h]

@[simp] theorem State.inst_modInst_self (i : Nat) (f : Inst → Inst) : (s.modInst i f).inst i = f (s.inst i) := by
  simp [State.modInst]

theorem State.inst_modInst_ne {i j : Nat} (f : Inst → Inst) (h : j ≠ i) : (s.modInst i f).inst j = s.inst j := by
  simp [State.modInst, State.inst_setInst_ne s _ h]

@[simp] theorem State.mpuSet_setMpu_self (i : Nat) (m : MpuSet) : (s.setMpu i m).mpuSet i = m := by
  simp [State.mpuSet, State.setMpu]

theorem State.mpuSet_setMpu_ne {i j : Nat} (m : MpuSet) (h : j ≠ i) : (s.setMpu i m).mpuSet j = s.mpuSet j := by
  simp [State.mpuSet, State.setMpu, sget_sset_ne _ _ m h]

@[simp] theorem State.tk_setTk_self (i t : Nat) (x : Ticket) : (s.setTk i t x).tk i t = x := by
  simp [State.tk, State.setTk]

theorem State.tk_setTk_ne {i t j u : Nat} (x : Ticket) (h : 256 * j + u ≠ 256 * i + t) :
    (s.setTk i t x).tk j u = s.tk j u := by
  simp [State.tk, State.setTk, sget_sset_ne _ _ x h]

end Sys2Proof.Machine
end

