-- ==== Sys2Proof/Laws/Memory.lean ====
section
/-! SUPPORT. The laws of the tagged memory: reading after a write, and that every memory operation keeps the canonical
form. -/

namespace Sys2Proof.Machine

variable {s : State}

/-- The ROM of the first 256 KiB is read elsewhere than it is written; every other address reads what was written
there. -/
theorem State.rdByte_wrByte_self (s : State) {a : Nat} (b : Byte) (h : 0x40000 ≤ a) : (s.wrByte a b).rdByte a = b := by
  have : ¬ a < 0x40000 := by omega
  simp [State.rdByte, State.wrByte, this, phys]

theorem State.rdByte_wrByte_ne (s : State) {a c : Nat} (b : Byte) (h : phys s c ≠ phys s a) :
    (s.wrByte a b).rdByte c = s.rdByte c := by
  unfold State.rdByte
  split
  · rfl
  · have hp : phys (s.wrByte a b) c = phys s c := rfl
    rw [hp]
    exact sget_sset_ne _ _ b h

@[simp] theorem State.rdByte_wrTag (s : State) (a c : Nat) (t : Word4) : (s.wrTag a t).rdByte c = s.rdByte c := rfl

theorem State.rdTag_wrTag_self (s : State) {a : Nat} (t : Word4) (h : 0x40000 ≤ a) : (s.wrTag a t).rdTag a = t := by
  have : ¬ a < 0x40000 := by omega
  simp [State.rdTag, State.wrTag, this, phys]

/-! ## The canonical form -/

theorem State.reset_canonical : State.reset.Canonical := ⟨rfl, rfl⟩

/-- The form depends on the bytes and the tags only. -/
theorem State.Canonical.of_eq {t : State} (h : s.Canonical) (hm : t.mem = s.mem) (ht : t.tags = s.tags) :
    t.Canonical := ⟨hm ▸ h.mem, ht ▸ h.tags⟩

theorem State.Canonical.wrByte (h : s.Canonical) (a : Nat) (b : Byte) : (s.wrByte a b).Canonical :=
  ⟨swf_sset _ _ _ _ h.mem, h.tags⟩

theorem State.Canonical.wrTag (h : s.Canonical) (a : Nat) (t : Word4) : (s.wrTag a t).Canonical :=
  ⟨h.mem, swf_sset _ _ _ _ h.tags⟩

/-- Items written one after the other by a function that keeps the form. -/
theorem State.Canonical.foldAddr {β : Type} {f : State → Nat → β → State}
    (hf : ∀ t a b, t.Canonical → (f t a b).Canonical) (h : s.Canonical) (n a : Nat) (l : List β) :
    (foldAddr f n s a l).Canonical := by
  induction l generalizing s a with
  | nil => exact h
  | cons b l ih => exact ih (hf s a b h) (a + n)

theorem State.Canonical.wrBytes (h : s.Canonical) (a : Nat) (l : List Byte) : (wrBytes s a l).Canonical :=
  h.foldAddr (fun _ _ _ ht => ht.wrByte _ _) 1 a l

theorem State.Canonical.wrWord (h : s.Canonical) (a : Nat) (w : TWord) : (s.wrWord a w).Canonical :=
  (h.wrBytes a _).wrTag a _

theorem State.Canonical.wrWords (h : s.Canonical) (a : Nat) (l : List TWord) : (wrWords s a l).Canonical :=
  h.foldAddr (fun _ _ _ ht => ht.wrWord _ _) 8 a l

/-- A fold of a function that keeps the form. -/
theorem State.Canonical.foldl {β : Type} {f : State → β → State} (hf : ∀ t b, t.Canonical → (f t b).Canonical)
    (h : s.Canonical) (l : List β) : (l.foldl f s).Canonical := by
  induction l generalizing s with
  | nil => exact h
  | cons b l ih => exact ih (hf s b h)

theorem State.Canonical.claim (h : s.Canonical) (a : Nat) : (s.claim a).Canonical := by
  unfold State.claim
  split
  · exact h.of_eq rfl rfl
  · exact h

theorem State.Canonical.newCheck (h : s.Canonical) (a : Nat) : (s.newCheck a).Canonical :=
  (h.claim a).of_eq rfl rfl

theorem State.Canonical.poisonUnit (h : s.Canonical) (a : Nat) : (s.poisonUnit a).Canonical := by
  unfold State.poisonUnit
  dsimp only
  split
  · exact h
  · exact (h.foldl (fun _ _ ht => ht.wrTag _ _) _).newCheck _

theorem State.Canonical.wrPayload (h : s.Canonical) (a : Nat) (p : Payload) : (s.wrPayload a p).Canonical := by
  unfold State.wrPayload
  dsimp only
  split
  · split
    · exact h.wrWords _ _
    · split
      · exact ((h.wrWords _ _).wrBytes _ _).wrTag _ _
      · exact h.wrWords _ _
  · exact (h.wrBytes _ _).foldl (fun _ _ ht => ht.wrTag _ _) _

theorem State.Canonical.breakResv (h : s.Canonical) (a n : Nat) : (s.breakResv a n).Canonical := by
  unfold State.breakResv
  split
  · exact h
  · refine h.foldl (fun t p ht => ?_) _
    dsimp only
    split
    · exact ht
    · exact ht.of_eq rfl rfl

end Sys2Proof.Machine
end

