-- ==== Sys2Proof/Laws/Kept.lean ====
section
/-! SUPPORT. What the operations keep, one lemma each: the canonical form of the tagged memory, and the one-time cells, which
only fill (`Kept`). This file: the relation and the first operations. -/

namespace Sys2Proof.Machine

set_option linter.all false

/-- What a step may do to the one-time cells, and the bounds they stay within: no bit is cleared (R46, R70, R473, R474). -/
structure Otp.Fills (o p : Otp) : Prop where
  serial : p.serial = o.serial
  begun : o.persoBegun = true → p.persoBegun = true
  closed : o.persoClosed = true → p.persoClosed = true
  terminal : o.terminal = true → p.terminal = true
  swap : o.swapCtr ≤ p.swapCtr
  workshop : o.lcWorkshop ≤ p.lcWorkshop
  recovery : o.lcRecovery ≤ p.lcRecovery
  fatal : o.lcFatal ≤ p.lcFatal
  set : o.rpSet ≤ p.rpSet
  clear : o.rpClear ≤ p.rpClear
  swap64 : p.swapCtr ≤ 64
  workshop1024 : p.lcWorkshop ≤ 1024
  recovery1024 : p.lcRecovery ≤ 1024
  fatal1024 : p.lcFatal ≤ 1024
  set1024 : p.rpSet ≤ 1024
  clearSet : p.rpClear ≤ p.rpSet

theorem Otp.fills_iff (o p : Otp) : o.Fills p ↔ (p.serial = o.serial ∧ (o.persoBegun = true → p.persoBegun = true) ∧ (o.persoClosed = true → p.persoClosed = true) ∧ (o.terminal = true → p.terminal = true) ∧ o.swapCtr ≤ p.swapCtr ∧ o.lcWorkshop ≤ p.lcWorkshop ∧ o.lcRecovery ≤ p.lcRecovery ∧ o.lcFatal ≤ p.lcFatal ∧ o.rpSet ≤ p.rpSet ∧ o.rpClear ≤ p.rpClear ∧ p.swapCtr ≤ 64 ∧ p.lcWorkshop ≤ 1024 ∧ p.lcRecovery ≤ 1024 ∧ p.lcFatal ≤ 1024 ∧ p.rpSet ≤ 1024 ∧ p.rpClear ≤ p.rpSet) :=
  ⟨fun ⟨a,b,c,d,e,f,g,h,i,j,k,l,m,n,q,r⟩ => ⟨a,b,c,d,e,f,g,h,i,j,k,l,m,n,q,r⟩, fun ⟨a,b,c,d,e,f,g,h,i,j,k,l,m,n,q,r⟩ => ⟨a,b,c,d,e,f,g,h,i,j,k,l,m,n,q,r⟩⟩

/-- What is kept, and since when: the canonical form if it held at the start, and the one-time cells `otp` of the start if
they were within their fields. -/
structure Seen where
  canonical : Prop
  fit : Prop
  otp : Otp

/-- The three parts of a state that the kept facts are about. -/
def KeptF (o : Seen) (m : List Host.Cell) (t : List (Nat × Word4)) (p : Otp) : Prop :=
  (o.canonical → Memory.wf m = true ∧ swf (fun _ => 0) t = true) ∧ (o.fit → o.otp.Fills p)

/-- The state keeps what was seen at the start. -/
abbrev Kept (o : Seen) (s : State) : Prop := KeptF o s.mem s.tags s.otp

theorem keptF_otp {o : Seen} {p q : Otp} {m t} (h : KeptF o m t p) (hq : o.otp.Fills p → o.otp.Fills q) : KeptF o m t q :=
  ⟨h.1, fun f => hq (h.2 f)⟩

/-! ## Lists of changes, and the writes to memory -/

theorem foldl_kept {α} {o : Seen} {f : State → α → State} (h : ∀ s a, Kept o s → Kept o (f s a)) (s : State) (l : List α) (hs : Kept o s) : Kept o (l.foldl f s) := by
  induction l generalizing s with
  | nil => exact hs
  | cons a l ih => exact ih _ (h _ _ hs)

theorem foldl2_kept {α β} {o : Seen} {f : β × State → α → β × State} (h : ∀ s a, Kept o s.2 → Kept o (f s a).2) (s : β × State) (l : List α) (hs : Kept o s.2) : Kept o (l.foldl f s).2 := by
  induction l generalizing s with
  | nil => exact hs
  | cons a l ih => exact ih _ (h _ _ hs)

theorem foldAddr_kept {α : Type} {o : Seen} {f : State → Nat → α → State} (h : ∀ s a b, Kept o s → Kept o (f s a b)) (n : Nat) (s : State) (a : Nat) (l : List α) (hs : Kept o s) : Kept o (foldAddr f n s a l) := by
  induction l generalizing s a with
  | nil => exact hs
  | cons b l ih => exact ih _ _ (h _ _ _ hs)

theorem State.wrByte_kept (o : Seen) (s : State) (a b) (h : Kept o s) : Kept o (s.wrByte a b) := ⟨fun c => ⟨swf_sset _ _ _ _ (h.1 c).1, (h.1 c).2⟩, h.2⟩

theorem State.wrTag_kept (o : Seen) (s : State) (a b) (h : Kept o s) : Kept o (s.wrTag a b) := ⟨fun c => ⟨(h.1 c).1, swf_sset _ _ _ _ (h.1 c).2⟩, h.2⟩

theorem wrBytes_kept (o : Seen) (s : State) (a b) (h : Kept o s) : Kept o (wrBytes s a b) := foldAddr_kept (f := State.wrByte) (fun _ _ _ h => State.wrByte_kept _ _ _ _ h) _ _ _ _ h

theorem State.wrWord_kept (o : Seen) (s : State) (a b) (h : Kept o s) : Kept o (s.wrWord a b) := State.wrTag_kept _ _ _ _ (wrBytes_kept _ _ _ _ h)

theorem wrWords_kept (o : Seen) (s : State) (a b) (h : Kept o s) : Kept o (wrWords s a b) := foldAddr_kept (f := State.wrWord) (fun _ _ _ h => State.wrWord_kept _ _ _ _ h) _ _ _ _ h

theorem keptF_filter {o : Seen} {m t p} (f g) (h : KeptF o m t p) : KeptF o (m.filter f) (t.filter g) p :=
  ⟨fun c => ⟨swf_filter _ m f (h.1 c).1, swf_filter _ t g (h.1 c).2⟩, h.2⟩

/-- What leaves the bytes, the tags and the one-time cells as they are keeps what is kept. -/
theorem kept_of {o : Seen} {s t : State} (h : Kept o s) (hm : t.mem = s.mem) (ht : t.tags = s.tags) (hp : t.otp = s.otp) :
    Kept o t := by
  unfold Kept; rw [hm, ht, hp]; exact h

theorem if_kept {o : Seen} {p : Prop} [Decidable p] {s t : State} (hs : Kept o s) (ht : Kept o t) :
    Kept o (if p then s else t) := by
  split
  · exact hs
  · exact ht

/-- A step that is made in one of two cases. -/
theorem if_last {o : Seen} {p : Prop} [Decidable p] {s t : State} (ht : Kept o t) (hs : Kept o t → Kept o s) :
    Kept o (if p then s else t) := if_kept (hs ht) ht

/-- Two steps, one in each case, from one state. -/
theorem if_both {o : Seen} {p : Prop} [Decidable p] {r s t : State} (hs : Kept o r → Kept o s) (ht : Kept o r → Kept o t)
    (hr : Kept o r) : Kept o (if p then s else t) := if_kept (hs hr) (ht hr)

theorem swap_fills {o p : Otp} (h : o.Fills p) : o.Fills { p with swapCtr := min 64 (p.swapCtr + 1) } := by
  rw [Otp.fills_iff] at h ⊢; obtain ⟨a, b, c, d, e⟩ := h; refine ⟨a, b, c, d, ?_⟩; simp only at *; omega

theorem rpSet_fills {o p : Otp} (h : o.Fills p) : o.Fills { p with rpSet := min 1024 (p.rpSet + 1) } := by
  rw [Otp.fills_iff] at h ⊢; obtain ⟨a, b, c, d, e⟩ := h; refine ⟨a, b, c, d, ?_⟩; simp only at *; omega

theorem rpSet_fatal_fills {o p : Otp} (h : o.Fills p) :
    o.Fills { p with rpSet := min 1024 (p.rpSet + 1), fatalPending := true } := by
  rw [Otp.fills_iff] at h ⊢; obtain ⟨a, b, c, d, e⟩ := h; refine ⟨a, b, c, d, ?_⟩; simp only at *; omega

theorem certs_fills {o p : Otp} {c} (h : o.Fills p) : o.Fills { p with certs := c } := by
  rw [Otp.fills_iff] at h ⊢; exact h

theorem erase_fills {o p : Otp} {c b} (h : o.Fills p) : o.Fills { p with certs := c, tagged := b } := by
  rw [Otp.fills_iff] at h ⊢; exact h

theorem tagged_fills {o p : Otp} {b} (h : o.Fills p) : o.Fills { p with tagged := b } := by
  rw [Otp.fills_iff] at h ⊢; exact h

theorem statement_fills {o p : Otp} {b} (h : o.Fills p) : o.Fills { p with statement := b } := by
  rw [Otp.fills_iff] at h ⊢; exact h

theorem recov_fills {o p : Otp} {b : Bool} (h : o.Fills p) : o.Fills { p with lcRecovery := min 1024 (p.lcRecovery + 1), lcFatal := if b then min 1024 (p.lcFatal + 1) else p.lcFatal, fatalPending := false } := by
  rw [Otp.fills_iff] at h ⊢; obtain ⟨a, b, c, d, e⟩ := h; refine ⟨a, b, c, d, ?_⟩; simp only at *; split <;> omega

theorem workshop_fills {o p : Otp} (h : o.Fills p) : o.Fills { p with lcWorkshop := min 1024 (p.lcWorkshop + 1) } := by
  rw [Otp.fills_iff] at h ⊢; obtain ⟨a, b, c, d, e⟩ := h; refine ⟨a, b, c, d, ?_⟩; simp only at *; omega

theorem begun_fills {o p : Otp} (h : o.Fills p) : o.Fills { p with persoBegun := true } := by
  rw [Otp.fills_iff] at h ⊢; obtain ⟨a, b, c, d, e⟩ := h; exact ⟨a, fun _ => rfl, c, d, e⟩

theorem closed_fills {o p : Otp} (h : o.Fills p) : o.Fills { p with persoClosed := true } := by
  rw [Otp.fills_iff] at h ⊢; obtain ⟨a, b, c, d, e⟩ := h; exact ⟨a, b, fun _ => rfl, d, e⟩

theorem clear_fills {o p : Otp} (h : o.Fills p) :
    o.Fills { p with rpClear := if p.rpClear < p.rpSet then p.rpClear + 1 else p.rpClear } := by
  rw [Otp.fills_iff] at h ⊢; obtain ⟨a, b, c, d, e⟩ := h; refine ⟨a, b, c, d, ?_⟩; simp only at *; split <;> omega

theorem except_bind_ok {ε α β : Type} {x : Except ε α} {f : α → Except ε β} {r : β} (h : (x >>= f) = .ok r) :
    ∃ a, x = .ok a ∧ f a = .ok r := by
  cases x with
  | error e => cases h
  | ok a => exact ⟨a, rfl, h⟩

/-- The state that a computation answers, read off its result. -/
theorem snd_of {α : Type} {o : Seen} {z : α × State} {a : α} {s : State} (e : z = (a, s)) (h : Kept o z.2) : Kept o s := by
  subst e; exact h

/-- Both outcomes of a delivery keep what is kept. -/
def KeptD (o : Seen) (r : Except State State) : Prop :=
  (∀ t, r = .error t → Kept o t) ∧ (∀ t, r = .ok t → Kept o t)

theorem keptD_ok {o : Seen} {t : State} (h : Kept o t) : KeptD o (.ok t) := ⟨fun _ e => (by cases e), fun _ e => (by cases e; exact h)⟩

theorem keptD_error {o : Seen} {t : State} (h : Kept o t) : KeptD o (.error t) := ⟨fun _ e => (by cases e; exact h), fun _ e => (by cases e)⟩

theorem if_keptD {o : Seen} {p : Prop} [Decidable p] {s t : Except State State} (hs : KeptD o s) (ht : KeptD o t) :
    KeptD o (if p then s else t) := by
  split
  · exact hs
  · exact ht

theorem snd_snd_of {α β : Type} {o : Seen} {z : α × β × State} {a : α} {b : β} {s : State} (e : z = (a, b, s))
    (h : Kept o z.2.2) : Kept o s := by subst e; exact h

theorem State.setArea_kept : ∀ (o : Seen) s x1 x2, Kept o s → Kept o (@State.setArea s x1 x2) := by
  intros; unfold State.setArea; grind [foldl_kept, foldl2_kept]

theorem State.enqueue_kept : ∀ (o : Seen) s x1, Kept o s → Kept o (@State.enqueue s x1) := by
  intros; unfold State.enqueue; grind [foldl_kept, foldl2_kept]

theorem State.devCommit_kept : ∀ (o : Seen) s x1 x2 x3, Kept o s → Kept o (@State.devCommit s x1 x2 x3) := by
  intros; unfold State.devCommit; grind [foldl_kept, foldl2_kept, State.enqueue_kept]

theorem State.setReg_kept : ∀ (o : Seen) s x1 x2, Kept o s → Kept o (@State.setReg s x1 x2) := by
  intros; unfold State.setReg; grind [foldl_kept, foldl2_kept]

theorem State.incReg_kept : ∀ (o : Seen) s x1 x2, Kept o s → Kept o (@State.incReg s x1 x2) := by
  intros; unfold State.incReg; grind [foldl_kept, foldl2_kept, State.setReg_kept]

theorem issueAdvance_kept : ∀ (o : Seen) s x1, Kept o s → Kept o (@issueAdvance s x1) := by
  intros; unfold issueAdvance; grind [foldl_kept, foldl2_kept, State.devCommit_kept, State.incReg_kept]

theorem afterTake_kept : ∀ (o : Seen) s x1, Kept o s → Kept o (@afterTake s x1) := by
  intros; unfold afterTake; grind [foldl_kept, foldl2_kept, State.devCommit_kept, issueAdvance_kept]

theorem State.setSlot_kept : ∀ (o : Seen) s x1 x2, Kept o s → Kept o (@State.setSlot s x1 x2) := by
  intros; unfold State.setSlot; grind [foldl_kept, foldl2_kept]

theorem State.setSctx_kept : ∀ (o : Seen) s x1 x2, Kept o s → Kept o (@State.setSctx s x1 x2) := by
  intros; unfold State.setSctx; grind [foldl_kept, foldl2_kept]

theorem setIvctr_kept : ∀ (o : Seen) s x1 x2, Kept o s → Kept o (@setIvctr s x1 x2) := by
  intros; unfold setIvctr; grind [foldl_kept, foldl2_kept, State.setSlot_kept, State.setSctx_kept]

theorem airCounter_kept : ∀ (o : Seen) s x1, Kept o s → Kept o (((@airCounter s x1).2).2) := by
  intros; unfold airCounter; grind [foldl_kept, foldl2_kept, afterTake_kept, setIvctr_kept, issueAdvance_kept, State.incReg_kept]

theorem airPut_kept : ∀ (o : Seen) s x1 x2 x3 x4, Kept o s → Kept o (@airPut s x1 x2 x3 x4) := by
  intros; unfold airPut; grind [foldl_kept, foldl2_kept, State.incReg_kept]

theorem airSend_kept : ∀ (o : Seen) s x1, Kept o s → Kept o (@airSend s x1) := by
  intros; unfold airSend; grind [foldl_kept, foldl2_kept, airPut_kept, airCounter_kept]

theorem keepResult_kept : ∀ (o : Seen) s x1, Kept o s → Kept o (@keepResult s x1) := by
  intros; unfold keepResult; grind [foldl_kept, foldl2_kept]

theorem airResult_kept : ∀ (o : Seen) s x1 x2 x3 x4, Kept o s → Kept o (@airResult s x1 x2 x3 x4) := by
  intros; unfold airResult; grind [foldl_kept, foldl2_kept, keepResult_kept, airSend_kept]

theorem State.statInc_kept : ∀ (o : Seen) s x1 x2, Kept o s → Kept o (@State.statInc s x1 x2) := by
  intros; unfold State.statInc; grind [foldl_kept, foldl2_kept]

theorem State.claim_kept : ∀ (o : Seen) s x1, Kept o s → Kept o (@State.claim s x1) := by
  intros; unfold State.claim; grind [foldl_kept, foldl2_kept]

theorem State.newCheck_kept : ∀ (o : Seen) s x1, Kept o s → Kept o (@State.newCheck s x1) := by
  intros; unfold State.newCheck; grind [foldl_kept, foldl2_kept, State.claim_kept]

theorem State.setCtx_kept : ∀ (o : Seen) s x1 x2, Kept o s → Kept o (@State.setCtx s x1 x2) := by
  intros; unfold State.setCtx; grind [foldl_kept, foldl2_kept]

theorem State.breakResv_kept : ∀ (o : Seen) s x1 x2, Kept o s → Kept o (@State.breakResv s x1 x2) := by
  intros; unfold State.breakResv; grind [foldl_kept, foldl2_kept, State.setCtx_kept]

theorem State.setRing_kept : ∀ (o : Seen) s x1 x2, Kept o s → Kept o (@State.setRing s x1 x2) := by
  intros; unfold State.setRing; grind [foldl_kept, foldl2_kept]

theorem State.statMax_kept : ∀ (o : Seen) s x1 x2, Kept o s → Kept o (@State.statMax s x1 x2) := by
  intros; unfold State.statMax; grind [foldl_kept, foldl2_kept]

theorem ringPutStat_kept : ∀ (o : Seen) s x1, Kept o s → Kept o (@ringPutStat s x1) := by
  intros; unfold ringPutStat; grind [foldl_kept, foldl2_kept, State.statMax_kept, State.statInc_kept]

theorem State.setInst_kept : ∀ (o : Seen) s x1 x2, Kept o s → Kept o (@State.setInst s x1 x2) := by
  intros; unfold State.setInst; grind [foldl_kept, foldl2_kept]

theorem State.modInst_kept : ∀ (o : Seen) s x1 x2, Kept o s → Kept o (@State.modInst s x1 x2) := by
  intros; unfold State.modInst; grind [foldl_kept, foldl2_kept, State.setInst_kept]

theorem State.raiseIrq_kept : ∀ (o : Seen) s x1 x2, Kept o s → Kept o (@State.raiseIrq s x1 x2) := by
  intros; unfold State.raiseIrq; grind [foldl_kept, foldl2_kept, State.modInst_kept]

theorem ringIrq_kept : ∀ (o : Seen) s x1, Kept o s → Kept o (@ringIrq s x1) := by
  intros; unfold ringIrq; grind [foldl_kept, foldl2_kept, State.raiseIrq_kept]

theorem sendMsix_kept : ∀ (o : Seen) s x1 x2, Kept o s → Kept o (@sendMsix s x1 x2) := by
  intros; unfold sendMsix; grind [foldl_kept, foldl2_kept]

theorem hostNotify_kept : ∀ (o : Seen) s x1, Kept o s → Kept o (@hostNotify s x1) := by
  intros; unfold hostNotify; grind [foldl_kept, foldl2_kept, sendMsix_kept]

theorem ringPut_kept : ∀ (o : Seen) s x1 x2 x3, Kept o s → Kept o (@ringPut s x1 x2 x3) := by
  intros; unfold ringPut; grind [foldl_kept, foldl2_kept, State.newCheck_kept, State.breakResv_kept, wrWords_kept, State.setRing_kept,
    ringPutStat_kept, ringIrq_kept, hostNotify_kept]

theorem postRing_kept : ∀ (o : Seen) s x1 x2, Kept o s → Kept o ((@postRing s x1 x2).2) := by
  intros; unfold postRing; grind [foldl_kept, foldl2_kept, State.statInc_kept, ringPut_kept]

theorem airPost_kept : ∀ (o : Seen) s x1 x2, Kept o s → Kept o (@airPost s x1 x2) := by
  intros; unfold airPost; grind [foldl_kept, foldl2_kept, postRing_kept]

theorem dropLink_kept : ∀ (o : Seen) s, Kept o s → Kept o (@dropLink s) := by
  intros; unfold dropLink; grind [foldl_kept, foldl2_kept]

theorem airIdle_kept : ∀ (o : Seen) s, Kept o s → Kept o (@airIdle s) := by
  intros; unfold airIdle; grind [foldl_kept, foldl2_kept, dropLink_kept]

theorem airClose_kept : ∀ (o : Seen) s, Kept o s → Kept o (@airClose s) := by
  intros; unfold airClose; grind [foldl_kept, foldl2_kept, airIdle_kept]

theorem takeLock_kept : ∀ (o : Seen) s x1 x2, Kept o s → Kept o (@takeLock s x1 x2) := by
  intros; unfold takeLock; grind [foldl_kept, foldl2_kept]

theorem dropLock_kept : ∀ (o : Seen) s x1, Kept o s → Kept o (@dropLock s x1) := by
  intros; unfold dropLock; grind [foldl_kept, foldl2_kept]

theorem lockFor_kept : ∀ (o : Seen) s x1 x2, Kept o s → Kept o (@lockFor s x1 x2) := by
  intros; unfold lockFor; grind [foldl_kept, foldl2_kept, takeLock_kept]

theorem freeLocks_kept : ∀ (o : Seen) s x1, Kept o s → Kept o (@freeLocks s x1) := by
  intros; unfold freeLocks; grind [foldl_kept, foldl2_kept]

theorem opEnd_kept : ∀ (o : Seen) s x1 x2 x3, Kept o s → Kept o (@opEnd s x1 x2 x3) := by
  intros; unfold opEnd; grind [foldl_kept, foldl2_kept, dropLock_kept, airResult_kept]

theorem linkLost_kept : ∀ (o : Seen) s x1 x2, Kept o s → Kept o (@linkLost s x1 x2) := by
  intros; unfold linkLost; grind [foldl_kept, foldl2_kept, airPost_kept]

theorem setOp_kept : ∀ (o : Seen) s x1, Kept o s → Kept o (@setOp s x1) := by
  intros; unfold setOp; grind [foldl_kept, foldl2_kept]

theorem State.behalfCommit_kept : ∀ (o : Seen) s x1 x2 x3, Kept o s → Kept o (@State.behalfCommit s x1 x2 x3) := by
  intros; unfold State.behalfCommit; grind [foldl_kept, foldl2_kept, State.enqueue_kept]

theorem opGo_kept : ∀ (o : Seen) s x1, Kept o s → Kept o (@opGo s x1) := by
  intros; unfold opGo; grind [foldl_kept, foldl2_kept, setOp_kept, opEnd_kept, State.behalfCommit_kept, State.setArea_kept]

theorem opStart_kept : ∀ (o : Seen) s x1, Kept o s → Kept o (@opStart s x1) := by
  intros; unfold opStart; grind [foldl_kept, foldl2_kept, opGo_kept, takeLock_kept]

theorem areaLockGrant_kept : ∀ (o : Seen) s x1, Kept o s → Kept o (@areaLockGrant s x1) := by
  intros; unfold areaLockGrant; grind [foldl_kept, foldl2_kept, opGo_kept, takeLock_kept]

theorem shadowDone_kept : ∀ (o : Seen) s x1 x2, Kept o s → Kept o (@shadowDone s x1 x2) := by
  intros; unfold shadowDone; grind [foldl_kept, foldl2_kept, State.setArea_kept, opEnd_kept, linkLost_kept]

theorem areaMarked_kept : ∀ (o : Seen) s x1, Kept o s → Kept o (@areaMarked s x1) := by
  intros; unfold areaMarked; grind [foldl_kept, foldl2_kept, opEnd_kept, linkLost_kept]

theorem pwOk_kept : ∀ (o : Seen) s x1, Kept o s → Kept o (@pwOk s x1) := by
  intros; unfold pwOk; grind [foldl_kept, foldl2_kept, opEnd_kept, linkLost_kept]

theorem pwMarked_kept : ∀ (o : Seen) s x1, Kept o s → Kept o (@pwMarked s x1) := by
  intros; unfold pwMarked; grind [foldl_kept, foldl2_kept, pwOk_kept, State.behalfCommit_kept, setOp_kept, opEnd_kept, linkLost_kept]

theorem fieldRefused_kept : ∀ (o : Seen) s x1 x2, Kept o s → Kept o (@fieldRefused s x1 x2) := by
  intros; unfold fieldRefused; grind [foldl_kept, foldl2_kept, pwOk_kept, opEnd_kept]

theorem foldShadows_kept : ∀ (o : Seen) s, Kept o s → Kept o (@foldShadows s) := by
  intros; unfold foldShadows; grind [foldl_kept, foldl2_kept, State.behalfCommit_kept, takeLock_kept]

theorem foldAdmitted_kept : ∀ (o : Seen) s x1, Kept o s → Kept o (@foldAdmitted s x1) := by
  intros; unfold foldAdmitted; grind [foldl_kept, foldl2_kept]

theorem foldEnd_kept : ∀ (o : Seen) s x1, Kept o s → Kept o (@foldEnd s x1) := by
  intros; unfold foldEnd; grind [foldl_kept, foldl2_kept, foldAdmitted_kept, dropLock_kept]

theorem airOpen_kept : ∀ (o : Seen) s x1, Kept o s → Kept o ((@airOpen s x1).2) := by
  intros; unfold airOpen; grind [foldl_kept, foldl2_kept, airCounter_kept]

theorem State.devRecord_kept : ∀ (o : Seen) s x1 x2, Kept o s → Kept o (@State.devRecord s x1 x2) := by
  intros; unfold State.devRecord; grind [foldl_kept, foldl2_kept, State.devCommit_kept]

theorem State.setTk_kept : ∀ (o : Seen) s x1 x2 x3, Kept o s → Kept o (@State.setTk s x1 x2 x3) := by
  intros; unfold State.setTk; grind [foldl_kept, foldl2_kept]

theorem State.tkDone_kept : ∀ (o : Seen) s x1 x2 x3 x4 x5 x6, Kept o s → Kept o (@State.tkDone s x1 x2 x3 x4 x5 x6) := by
  intros; unfold State.tkDone; grind [foldl_kept, foldl2_kept, State.setTk_kept]

theorem endRequests_kept : ∀ (o : Seen) s, Kept o s → Kept o (@endRequests s) := by
  intros; unfold endRequests; grind [foldl_kept, foldl2_kept, State.tkDone_kept]

theorem State.wrPayload_kept : ∀ (o : Seen) s x1 x2, Kept o s → Kept o (@State.wrPayload s x1 x2) := by
  intros; unfold State.wrPayload; grind [foldl_kept, foldl2_kept, wrWords_kept, State.wrTag_kept, wrBytes_kept]

theorem sealSpoil_kept : ∀ (o : Seen) s x1, Kept o s → Kept o (@sealSpoil s x1) := by
  intros; unfold sealSpoil; grind [foldl_kept, foldl2_kept, State.breakResv_kept, State.wrPayload_kept]

theorem clearLanes_kept : ∀ (o : Seen) s, Kept o s → Kept o (@clearLanes s) := by
  intros; unfold clearLanes; grind [foldl_kept, foldl2_kept, State.tkDone_kept, sealSpoil_kept]

theorem destroyAll_kept : ∀ (o : Seen) s x1, Kept o s → Kept o (@destroyAll s x1) := by
  intro o s c h
  unfold destroyAll
  have h1 := endRequests_kept o _ (clearLanes_kept o s h)
  generalize endRequests (clearLanes s) = t at h1
  refine keptF_filter _ _ (keptF_otp h1 fun hq => ?_)
  rw [Otp.fills_iff] at hq ⊢
  obtain ⟨a, b, c, d, e⟩ := hq
  exact ⟨a, b, c, fun _ => rfl, e⟩

theorem wakeSource_kept : ∀ (o : Seen) s x1, Kept o s → Kept o (@wakeSource s x1) := by
  intros; unfold wakeSource; grind [foldl_kept, foldl2_kept, State.setReg_kept]

theorem endWaits_kept : ∀ (o : Seen) s x1, Kept o s → Kept o (@endWaits s x1) := by
  intros; unfold endWaits; grind [foldl_kept, foldl2_kept, State.tkDone_kept]

theorem State.statInc64_kept : ∀ (o : Seen) s x1 x2, Kept o s → Kept o (@State.statInc64 s x1 x2) := by
  intros; unfold State.statInc64; grind [foldl_kept, foldl2_kept]

theorem chargeCore_kept : ∀ (o : Seen) s x1, Kept o s → Kept o (@chargeCore s x1) := by
  intros; unfold chargeCore; grind [foldl_kept, foldl2_kept, State.statInc64_kept, State.modInst_kept, State.setCtx_kept]

theorem closeIssue_kept : ∀ (o : Seen) s x1 x2, Kept o s → Kept o (@closeIssue s x1 x2) := by
  intros; unfold closeIssue; grind [foldl_kept, foldl2_kept, State.modInst_kept, endWaits_kept, chargeCore_kept, State.setCtx_kept]

theorem haltInst_kept : ∀ (o : Seen) s x1, Kept o s → Kept o (@haltInst s x1) := by
  intros; unfold haltInst; grind [foldl_kept, foldl2_kept, State.devCommit_kept, State.modInst_kept, closeIssue_kept]

theorem zeroiseWorking_kept : ∀ (o : Seen) s, Kept o s → Kept o (@zeroiseWorking s) := by
  intros; unfold zeroiseWorking; grind [foldl_kept, foldl2_kept, clearLanes_kept, State.devCommit_kept]

theorem State.setSector_kept : ∀ (o : Seen) s x1 x2, Kept o s → Kept o (@State.setSector s x1 x2) := by
  intros; unfold State.setSector; grind [foldl_kept, foldl2_kept]

theorem State.setUnitFlags_kept : ∀ (o : Seen) s x1 x2, Kept o s → Kept o (@State.setUnitFlags s x1 x2) := by
  intros; unfold State.setUnitFlags; grind [foldl_kept, foldl2_kept]

theorem progUnit_kept : ∀ (o : Seen) s x1 x2 x3, Kept o s → Kept o (@progUnit s x1 x2 x3) := by
  intros; unfold progUnit; grind [foldl_kept, foldl2_kept, State.setSector_kept, State.setUnitFlags_kept, State.newCheck_kept, wrWords_kept]

theorem blankCells_kept : ∀ (o : Seen) s x1 x2, Kept o s → Kept o (@blankCells s x1 x2) := by
  intro o s a n h; exact keptF_filter _ _ h

theorem freeFill_kept : ∀ (o : Seen) s x1 x2, Kept o s → Kept o (@freeFill s x1 x2) := by
  intros; unfold freeFill; grind [foldl_kept, foldl2_kept, wrWords_kept]

theorem freeCell_kept : ∀ (o : Seen) s x1, Kept o s → Kept o (@freeCell s x1) := by
  intros; unfold freeCell; grind [foldl_kept, foldl2_kept, freeFill_kept]

theorem freeUnit_kept : ∀ (o : Seen) s x1, Kept o s → Kept o (@freeUnit s x1) := by
  intros; unfold freeUnit; grind [foldl_kept, foldl2_kept, blankCells_kept, freeCell_kept, State.setUnitFlags_kept]

theorem freeSector_kept : ∀ (o : Seen) s x1, Kept o s → Kept o (@freeSector s x1) := by
  intros; unfold freeSector; grind [foldl_kept, foldl2_kept, freeUnit_kept]

theorem flopStop_kept : ∀ (o : Seen) s, Kept o s → Kept o (@flopStop s) := by
  intro o s h
  unfold flopStop
  refine foldl_kept (fun s p hs => ?_) _ _ h
  dsimp only
  have h1 : ∀ k, Kept o ((List.range k).foldl (fun s j => progUnit s (p.2.addr + 32 * j) (unitWords p.2.src j) 1)
      { s with freeCtr := s.freeCtr + 1 }) := fun k => foldl_kept (fun s a hs => progUnit_kept o s _ _ _ hs) _ _ hs
  split
  · exact if_kept (freeUnit_kept o _ _ (h1 _)) (h1 _)
  · exact if_kept (freeUnit_kept o _ _ (h1 _)) (h1 _)
  · exact freeSector_kept o _ _ hs
  · exact if_kept (freeCell_kept o _ _ hs) hs
  · exact if_kept (keptF_otp hs swap_fills) hs

theorem deviceReset_kept : ∀ (o : Seen) s x1, Kept o s → Kept o (@deviceReset s x1) := by
  intro o s c h
  unfold deviceReset
  have h1 := flopStop_kept o s h
  generalize flopStop s = t at h1
  exact keptF_filter _ _ h1

theorem tamperReset_kept : ∀ (o : Seen) s x1, Kept o s → Kept o (@tamperReset s x1) := by
  intro o s t h
  unfold tamperReset
  exact if_kept (deviceReset_kept o _ _ h) (if_kept (deviceReset_kept o _ _ (keptF_otp h rpSet_fills)) (deviceReset_kept o _ _ h))

theorem tamperRaise_kept : ∀ (o : Seen) s x1 x2 x3, Kept o s → Kept o (@tamperRaise s x1 x2 x3) := by
  intro o s t v evs h
  delta tamperRaise
  extract_lets bit t0 l a1 a2 t1 a3 body t2 a4 a5 a6 a7 a8 full t3 a9 a10 t4 a11
  refine if_kept (kept_of h rfl rfl rfl) (if_kept (State.statInc_kept o _ _ _ h) ?_)
  have h0 : Kept o a2 := State.statInc_kept o _ _ _ (State.setReg_kept o _ _ _ (State.setReg_kept o _ _ _ h))
  have h1 : Kept o a3 := kept_of (s := a2) h0 rfl rfl rfl
  have h5 : Kept o a5 := State.devCommit_kept o _ _ _ _ (kept_of h1 rfl rfl rfl)
  have h6 : Kept o a6 := if_kept (State.raiseIrq_kept o _ _ _ (State.setReg_kept o _ _ _ h1)) h1
  have h7 : Kept o a7 := if_kept (wakeSource_kept o _ _ h6) h6
  have h8 : Kept o a8 := if_kept (foldl_kept (fun s i hs => haltInst_kept o s i hs) _ _ h7) h7
  have h9 : Kept o a9 := if_kept (kept_of h8 rfl rfl rfl) (State.devCommit_kept o _ _ _ _ h8)
  have h10 : Kept o a10 := if_kept (zeroiseWorking_kept o _ h9) h9
  clear_value a5 a10
  exact if_kept (destroyAll_kept o _ _ h5) (if_kept (if_kept (tamperReset_kept o _ _ h10)
    (if_kept (foldl_kept (fun s i hs => closeIssue_kept o s i _ hs) _ _ (kept_of h10 rfl rfl rfl)) h10)) h10)

theorem rateEvent_kept : ∀ (o : Seen) s x1 x2, Kept o s → Kept o (@rateEvent s x1 x2) := by
  intros; unfold rateEvent; grind [foldl_kept, foldl2_kept, tamperRaise_kept]

theorem carryFault_kept : ∀ (o : Seen) s x1 x2 x3, Kept o s → Kept o (@carryFault s x1 x2 x3) := by
  intros; unfold carryFault; grind [foldl_kept, foldl2_kept, State.statInc_kept, State.devRecord_kept, rateEvent_kept]

theorem egress_kept : ∀ (o : Seen) s x1 x2, Kept o s → Kept o ((@egress s x1 x2).2) := by
  intros; unfold egress; grind [foldl_kept, foldl2_kept, carryFault_kept]

theorem airServe_kept : ∀ (o : Seen) s x1 x2 x3, Kept o s → Kept o (@airServe s x1 x2 x3) := by
  intros; unfold airServe; grind [foldl_kept, foldl2_kept, airResult_kept, egress_kept, opStart_kept]

theorem setTstate_kept : ∀ (o : Seen) s x1, Kept o s → Kept o (@setTstate s x1) := by
  intros; unfold setTstate; grind [foldl_kept, foldl2_kept]

theorem airLinkCmd_kept : ∀ (o : Seen) s x1 x2 x3, Kept o s → Kept o (@airLinkCmd s x1 x2 x3) := by
  intros; unfold airLinkCmd; grind [foldl_kept, foldl2_kept, airSend_kept, setTstate_kept, dropLink_kept]

theorem airService_kept : ∀ (o : Seen) s x1, Kept o s → Kept o (@airService s x1) := by
  intros; unfold airService; grind [foldl_kept, foldl2_kept, airSend_kept, airOpen_kept, airResult_kept, airLinkCmd_kept, airServe_kept]

theorem airRx_kept : ∀ (o : Seen) s x1 x2 x3, Kept o s → ((∀ y20_0, Kept o y20_0 → Kept o (x3 y20_0))) → Kept o (@airRx s x1 x2 x3) := by
  intros; unfold airRx; grind [foldl_kept, foldl2_kept, State.incReg_kept]

theorem airReplyTo_kept : ∀ (o : Seen) s x1 x2 x3, Kept o s → Kept o (@airReplyTo s x1 x2 x3) := by
  intros; unfold airReplyTo; grind [foldl_kept, foldl2_kept, airSend_kept]

theorem sameSeq_kept : ∀ (o : Seen) s x1, Kept o s → Kept o (@sameSeq s x1) := by
  intros; unfold sameSeq; grind [foldl_kept, foldl2_kept]

theorem airServed_kept : ∀ (o : Seen) s x1 x2 x3, Kept o s → Kept o (@airServed s x1 x2 x3) := by
  intros; unfold airServed; grind [foldl_kept, foldl2_kept, airRx_kept, airService_kept, sameSeq_kept]

theorem windowExpiry_kept : ∀ (o : Seen) s x1, Kept o s → Kept o (@windowExpiry s x1) := by
  intros; unfold windowExpiry; grind [foldl_kept, foldl2_kept, airSend_kept, setOp_kept, airPut_kept, keepResult_kept]

theorem State.poisonUnit_kept : ∀ (o : Seen) s x1, Kept o s → Kept o (@State.poisonUnit s x1) := by
  intros; unfold State.poisonUnit; grind [foldl_kept, foldl2_kept, State.newCheck_kept, State.wrTag_kept]

theorem unitFails_kept : ∀ (o : Seen) s x1 x2 x3, Kept o s → Kept o (@unitFails s x1 x2 x3) := by
  intros; unfold unitFails; grind [foldl_kept, foldl2_kept, State.claim_kept, State.incReg_kept, carryFault_kept, State.poisonUnit_kept]

theorem ringHeadEntry_kept : ∀ (o : Seen) s x1 x2, Kept o s → (∀ t0, @ringHeadEntry s x1 x2 = some t0 → Kept o ((((t0).2).2).2)) := by
  intro o s r who h t e
  unfold ringHeadEntry at e
  dsimp only at e
  split at e
  · cases e
  · cases e
    exact kept_of (foldl_kept (fun s a hs => unitFails_kept o s _ _ _ hs) _ _ h) rfl rfl rfl

theorem takeRing_kept : ∀ (o : Seen) s x1, Kept o s → Kept o ((@takeRing s x1).2) := by
  intro o s r h
  unfold takeRing
  dsimp only
  split
  · exact h
  · split
    · next e => exact ringHeadEntry_kept o s r none h _ e
    · next e => exact ringHeadEntry_kept o s r none h _ e
    · exact h

theorem appReply_kept : ∀ (o : Seen) s x1, Kept o s → Kept o (@appReply s x1) := by
  intros; simp only [appReply]; (repeat' split) <;> grind [foldl_kept, foldl2_kept, takeRing_kept, egress_kept, airResult_kept, State.incReg_kept]

theorem airEnable_kept : ∀ (o : Seen) s x1, Kept o s → Kept o (@airEnable s x1) := by
  intros; unfold airEnable; grind [foldl_kept, foldl2_kept, State.setReg_kept]

theorem airDisable_kept : ∀ (o : Seen) s, Kept o s → Kept o (@airDisable s) := by
  intros; unfold airDisable; grind [foldl_kept, foldl2_kept, airIdle_kept, State.setReg_kept]

theorem airCtrl_kept : ∀ (o : Seen) s x1, Kept o s → Kept o (@airCtrl s x1) := by
  intros; unfold airCtrl; grind [foldl_kept, foldl2_kept, State.setReg_kept, airEnable_kept, airDisable_kept]

theorem airDown_kept : ∀ (o : Seen) s x1, Kept o s → Kept o (@airDown s x1) := by
  intros; unfold airDown; grind [foldl_kept, foldl2_kept, State.incReg_kept]

theorem airCommand_kept : ∀ (o : Seen) s x1 x2 x3, Kept o s → Kept o (@airCommand s x1 x2 x3) := by
  intros; unfold airCommand; grind [foldl_kept, foldl2_kept, airDown_kept]

theorem readerSend_kept : ∀ (o : Seen) s x1 x2, Kept o s → Kept o (@readerSend s x1 x2) := by
  intro o s b r h
  delta readerSend
  extract_lets x k flags cmd wants
  split
  · next e =>
    split at e
    · cases hk : k with
      | none => rw [hk] at e; cases e
      | some q =>
        rw [hk] at e
        exact kept_of (s := (airCounter s q.1).2.2) (airCounter_kept o s q.1 h) rfl rfl rfl |> fun h1 => by
          simp only [Option.map, Option.some.injEq] at e
          rw [e] at h1
          exact h1
    · cases e
  · split
    · next e => exact snd_of e (takeRing_kept o _ _ h)
    · next e =>
      have h1 := snd_of e (takeRing_kept o _ _ h)
      extract_lets ev f ends
      have he : ∀ (s : State) st, Kept o s → Kept o (ends s st) := fun s st h => airPost_kept o _ _ _ h
      clear_value ends
      split
      · next e =>
        split at e
        · cases e; exact he _ _ h1
        · exact he _ _ (snd_of e (egress_kept o _ _ _ h1))
      · next e =>
        split at e
        · cases e
        · have h2 := snd_of e (egress_kept o _ _ _ h1)
          split
          · exact he _ _ h2
          · split
            · exact he _ _ h2
            · split
              · next e => exact airCommand_kept o _ _ _ _ (snd_snd_of e (airCounter_kept o _ _ h2))
              · next e => exact he _ _ (snd_snd_of e (airCounter_kept o _ _ h2))
          · exact airCommand_kept o _ _ _ _ h2

theorem readerCommandSend_kept : ∀ (o : Seen) s x1, Kept o s → Kept o (@readerCommandSend s x1) := by
  intros; unfold readerCommandSend; grind [foldl_kept, foldl2_kept, readerSend_kept]

theorem heard_kept : ∀ (o : Seen) s x1 x2 x3, Kept o s → Kept o (@heard s x1 x2 x3) := by
  intros; unfold heard; grind [foldl_kept, foldl2_kept, State.incReg_kept]

theorem replyReceived_kept : ∀ (o : Seen) s x1 x2, Kept o s → Kept o (@replyReceived s x1 x2) := by
  intros; unfold replyReceived; grind [foldl_kept, foldl2_kept, airPost_kept, heard_kept, State.incReg_kept]

theorem airSelectTag_kept : ∀ (o : Seen) s x1 x2, Kept o s → Kept o (@airSelectTag s x1 x2) := by
  intros; unfold airSelectTag; grind [foldl_kept, foldl2_kept, airDown_kept, airPost_kept, heard_kept]

theorem inventoryRound_kept : ∀ (o : Seen) s x1 x2, Kept o s → Kept o (@inventoryRound s x1 x2) := by
  intros; unfold inventoryRound; grind [foldl_kept, foldl2_kept, airDown_kept, State.incReg_kept, airSelectTag_kept]

theorem airxBind_kept : ∀ (o : Seen) s x1 x2 x3 x4, Kept o s → Kept o (@airxBind s x1 x2 x3 x4) := by
  intros; unfold airxBind; grind [foldl_kept, foldl2_kept, State.tkDone_kept]

theorem airxLink_kept : ∀ (o : Seen) s x1 x2 x3, Kept o s → Kept o (@airxLink s x1 x2 x3) := by
  intros; unfold airxLink; grind [foldl_kept, foldl2_kept, State.tkDone_kept]

theorem newChecks_kept : ∀ (o : Seen) s x1 x2, Kept o s → Kept o (@newChecks s x1 x2) := by
  intros; unfold newChecks; grind [foldl_kept, foldl2_kept, State.newCheck_kept]

theorem engWrite_kept : ∀ (o : Seen) s x1 x2 x3 x4, Kept o s → Kept o ((@engWrite s x1 x2 x3 x4).2) := by
  intros; unfold engWrite; grind [foldl_kept, foldl2_kept, State.breakResv_kept, newChecks_kept, State.wrPayload_kept, unitFails_kept,
    wrWords_kept]

theorem deliverTo_kept : ∀ (o : Seen) s x1 x2 x3 x4 x5 x6 x7, Kept o s → Kept o (@deliverTo s x1 x2 x3 x4 x5 x6 x7) := by
  intros; unfold deliverTo; grind [foldl_kept, foldl2_kept, engWrite_kept, State.tkDone_kept]

theorem airx_kept : ∀ (o : Seen) s x1 x2 x3, Kept o s → Kept o (@airx s x1 x2 x3) := by
  intros; unfold airx; grind [foldl_kept, foldl2_kept, airxBind_kept, State.tkDone_kept, airxLink_kept, State.setReg_kept, deliverTo_kept]

theorem airClosed_kept : ∀ (o : Seen) s, Kept o s → Kept o (@airClosed s) := by
  intros; unfold airClosed; grind [foldl_kept, foldl2_kept, airIdle_kept]

theorem airResume_kept : ∀ (o : Seen) s, Kept o s → Kept o (@airResume s) := by
  intros; unfold airResume; grind [foldl_kept, foldl2_kept, airSend_kept, airService_kept, airClosed_kept, readerCommandSend_kept]

theorem airFailed_kept : ∀ (o : Seen) s x1 x2, Kept o s → Kept o (@airFailed s x1 x2) := by
  intros; unfold airFailed; grind [foldl_kept, foldl2_kept, airResult_kept, airClosed_kept, airPut_kept]

theorem eraseCells_kept : ∀ (o : Seen) s x1 x2, Kept o s → Kept o (@eraseCells s x1 x2) := by
  intros; unfold eraseCells; grind [foldl_kept, foldl2_kept, blankCells_kept]

theorem eraseSector_kept : ∀ (o : Seen) s x1 x2 x3, Kept o s → Kept o (@eraseSector s x1 x2 x3) := by
  intros; unfold eraseSector; grind [foldl_kept, foldl2_kept, State.setSector_kept, eraseCells_kept, freeSector_kept]

theorem lowVhold_kept : ∀ (o : Seen) s x1, Kept o s → Kept o (@lowVhold s x1) := by
  intros; unfold lowVhold; grind [foldl_kept, foldl2_kept]

theorem sampleVhold_kept : ∀ (o : Seen) s x1, Kept o s → Kept o (@sampleVhold s x1) := by
  intros; unfold sampleVhold; grind [foldl_kept, foldl2_kept, lowVhold_kept]

theorem holdVhold_kept : ∀ (o : Seen) s x1, Kept o s → Kept o (@holdVhold s x1) := by
  intros; unfold holdVhold; grind [foldl_kept, foldl2_kept, lowVhold_kept]

theorem flushSample_kept : ∀ (o : Seen) s, Kept o s → Kept o (@flushSample s) := by
  intros; unfold flushSample; grind [foldl_kept, foldl2_kept, sampleVhold_kept]

theorem spillAll_kept : ∀ (o : Seen) s x1, Kept o s → Kept o (@spillAll s x1) := by
  intros; unfold spillAll; grind [foldl_kept, foldl2_kept, State.wrWord_kept, State.breakResv_kept]

theorem deliveryFails_kept : ∀ (o : Seen) s x1 x2, Kept o s → ((∀ t0, @deliveryFails s x1 x2 = Except.error t0 → Kept o (t0)) ∧ (∀ t0, @deliveryFails s x1 x2 = Except.ok t0 → Kept o (t0))) := by
  intros; unfold deliveryFails; grind [foldl_kept, foldl2_kept, unitFails_kept]

theorem enterHandler_kept : ∀ (o : Seen) s x1 x2 x3 x4 x5 x6 x7 x8, Kept o s → ((∀ t0, @enterHandler s x1 x2 x3 x4 x5 x6 x7 x8 = Except.error t0 → Kept o (t0)) ∧ (∀ t0, @enterHandler s x1 x2 x3 x4 x5 x6 x7 x8 = Except.ok t0 → Kept o (t0))) := by
  intro o s tbl k core c fr lv esc up h
  change KeptD o _
  have fl : ∀ p, KeptD o (deliveryFails s k p) := fun p => deliveryFails_kept o s k p h
  delta enterHandler
  split
  · exact fl _
  · exact keptD_error h
  · extract_lets
    refine if_keptD (keptD_error h) ?_
    split
    · split
      · exact fl _
      · exact keptD_error h
    · exact fl _
    · exact keptD_ok (State.setCtx_kept o _ _ _ (State.breakResv_kept o _ _ _ (wrWords_kept o _ _ _
        (spillAll_kept o _ _ h))))

theorem State.setReg64_kept : ∀ (o : Seen) s x1 x2, Kept o s → Kept o (@State.setReg64 s x1 x2) := by
  intros; unfold State.setReg64; grind [foldl_kept, foldl2_kept, State.setReg_kept]

theorem fatalEscalation_kept : ∀ (o : Seen) s x1 x2 x3, Kept o s → Kept o (@fatalEscalation s x1 x2 x3) := by
  intro o s a b c h
  unfold fatalEscalation
  exact deviceReset_kept o _ _ (keptF_otp h rpSet_fatal_fills)

theorem takeEscalation_kept : ∀ (o : Seen) s, Kept o s → Kept o (@takeEscalation s) := by
  intro o s h
  unfold takeEscalation
  split
  · exact h
  · next e rest _ =>
    dsimp only
    refine if_kept h ?_
    have h1 := fun c fr => enterHandler_kept o { s with escQ := rest } 0 keeperKey 12 c fr 7 true .none h
    split
    · next e => exact (h1 _ _).2 _ e
    · next e => exact fatalEscalation_kept o _ _ _ _ ((h1 _ _).1 _ e)

theorem escalate_kept : ∀ (o : Seen) s x1 x2 x3 x4 x5, Kept o s → Kept o (@escalate s x1 x2 x3 x4 x5) := by
  intros; unfold escalate; grind [foldl_kept, foldl2_kept, State.statInc_kept, chargeCore_kept, State.setCtx_kept, takeEscalation_kept]

theorem delivered_kept : ∀ (o : Seen) s x1 x2 x3 x4 x5 x6, Kept o s → (((∀ t20, x6 = Except.error t20 → Kept o (t20)) ∧ (∀ t20, x6 = Except.ok t20 → Kept o (t20)))) → Kept o (@delivered s x1 x2 x3 x4 x5 x6) := by
  intros; unfold delivered; grind [foldl_kept, foldl2_kept, State.statInc_kept, escalate_kept]

theorem takeException_kept : ∀ (o : Seen) s x1 x2 x3 x4 x5 x6, Kept o s → Kept o (@takeException s x1 x2 x3 x4 x5 x6) := by
  intro o s k core e slot syl up h
  delta takeException
  extract_lets i mode s1 s2 e1 s3 c s4 tbl cause
  have h1 : Kept o s1 := by
    dsimp only [s1]
    split
    · exact unitFails_kept o _ _ _ _ h
    · exact h
  have h2 : Kept o s2 := if_kept (rateEvent_kept o _ _ _ (State.statInc_kept o _ _ _ (State.incReg_kept o _ _ _ h1))) h1
  have h3 : Kept o s4 := State.setCtx_kept o _ _ _ (kept_of h2 rfl rfl rfl)
  clear_value s4
  refine if_kept h2 (if_kept (fatalEscalation_kept o _ _ _ _ h3) (if_kept (escalate_kept o _ _ _ _ _ _ h3) ?_))
  exact delivered_kept o _ _ _ _ _ _ _ h3 (enterHandler_kept o _ _ _ _ _ _ _ _ _ h3)

end Sys2Proof.Machine
end

