-- ==== Sys2Proof/Laws/KeptStates.lean ====
section
/-! SUPPORT. What the operations keep, continued. -/

namespace Sys2Proof.Machine

set_option linter.all false

theorem engRead_kept : ∀ (o : Seen) s x1 x2 x3 x4 x5 x6, Kept o s → Kept o ((@engRead s x1 x2 x3 x4 x5 x6).2) := by
  intros; unfold engRead; grind [foldl_kept, foldl2_kept, unitFails_kept]

theorem takeSources_kept : ∀ (o : Seen) s x1 x2 x3 x4, Kept o s → Kept o ((@takeSources s x1 x2 x3 x4).2) := by
  intros; unfold takeSources; grind [foldl_kept, foldl2_kept, engRead_kept]

theorem srcFault_kept : ∀ (o : Seen) s x1 x2 x3, Kept o s → Kept o (@srcFault s x1 x2 x3) := by
  intros; unfold srcFault; grind [foldl_kept, foldl2_kept, State.tkDone_kept]

theorem engineFault_kept : ∀ (o : Seen) s x1 x2, Kept o s → Kept o (@engineFault s x1 x2) := by
  intros; unfold engineFault; grind [foldl_kept, foldl2_kept, rateEvent_kept, State.incReg_kept]

theorem laneTake_kept : ∀ (o : Seen) s x1 x2, Kept o s → Kept o (@laneTake s x1 x2) := by
  intros; unfold laneTake; grind [foldl_kept, foldl2_kept, State.tkDone_kept, afterTake_kept, setIvctr_kept, issueAdvance_kept]

theorem resumeKey_kept : ∀ (o : Seen) s x1, Kept o s → Kept o (@resumeKey s x1) := by
  intros; unfold resumeKey; grind [foldl_kept, foldl2_kept, laneTake_kept]

theorem advanceFailed_kept : ∀ (o : Seen) s x1 x2, Kept o s → Kept o (@advanceFailed s x1 x2) := by
  intros; unfold advanceFailed; grind [foldl_kept, foldl2_kept, State.tkDone_kept]

theorem cipherIssue_kept : ∀ (o : Seen) s x1 x2 x3, Kept o s → Kept o (@cipherIssue s x1 x2 x3) := by
  intros; unfold cipherIssue; grind [foldl_kept, foldl2_kept, State.tkDone_kept]

theorem busFailure_kept : ∀ (o : Seen) s, Kept o s → Kept o (@busFailure s) := by
  intros; unfold busFailure; grind [foldl_kept, foldl2_kept, rateEvent_kept, State.incReg_kept]

theorem laneGrant_kept : ∀ (o : Seen) s x1, Kept o s → Kept o (@laneGrant s x1) := by
  intros; simp only [laneGrant]; (repeat' split) <;> grind [foldl_kept, foldl2_kept, takeSources_kept, srcFault_kept, State.tkDone_kept, busFailure_kept, rateEvent_kept, State.incReg_kept, State.setTk_kept, laneTake_kept]

theorem laneDone_kept : ∀ (o : Seen) s x1 x2 x3, Kept o s → Kept o (@laneDone s x1 x2 x3) := by
  intros; simp only [laneDone]; (repeat' split) <;> grind [foldl_kept, foldl2_kept, State.statInc_kept, State.tkDone_kept, sealSpoil_kept, takeSources_kept, srcFault_kept, deliverTo_kept, engineFault_kept, State.incReg_kept]

theorem grantUnit_kept : ∀ (o : Seen) s x1 x2, Kept o s → Kept o (@grantUnit s x1 x2) := by
  intros; unfold grantUnit; grind [foldl_kept, foldl2_kept]

theorem arbitrate_kept : ∀ (o : Seen) s, Kept o s → Kept o (@arbitrate s) := by
  intros; unfold arbitrate; grind [foldl_kept, foldl2_kept, grantUnit_kept]

theorem reseed_kept : ∀ (o : Seen) s, Kept o s → Kept o (@reseed s) := by
  intros; unfold reseed; grind [foldl_kept, foldl2_kept, State.statInc_kept, State.incReg_kept]

theorem rngDraw_kept : ∀ (o : Seen) s x1, Kept o s → Kept o ((@rngDraw s x1).2) := by
  intros; unfold rngDraw; grind [foldl_kept, foldl2_kept, reseed_kept, State.statInc_kept, State.incReg_kept]

theorem signDone_kept : ∀ (o : Seen) s x1 x2 x3 x4, Kept o s → Kept o (@signDone s x1 x2 x3 x4) := by
  intros; unfold signDone; grind [foldl_kept, foldl2_kept, State.tkDone_kept, takeSources_kept, srcFault_kept, busFailure_kept,
    engineFault_kept, deliverTo_kept, State.incReg_kept, rngDraw_kept]

theorem verifyDone_kept : ∀ (o : Seen) s x1 x2 x3 x4, Kept o s → Kept o (@verifyDone s x1 x2 x3 x4) := by
  intros; simp only [verifyDone]; (repeat' split) <;> grind [foldl_kept, foldl2_kept, State.tkDone_kept, takeSources_kept, srcFault_kept, busFailure_kept, State.incReg_kept]

theorem agreed_kept : ∀ (o : Seen) s x1 x2 x3, Kept o s → Kept o (@agreed s x1 x2 x3) := by
  intros; unfold agreed; grind [foldl_kept, foldl2_kept, State.setTk_kept, State.incReg_kept]

theorem agreeDone_kept : ∀ (o : Seen) s x1 x2 x3 x4, Kept o s → Kept o (@agreeDone s x1 x2 x3 x4) := by
  intro o s i t p e h
  unfold agreeDone
  dsimp only
  refine if_kept (State.tkDone_kept o _ _ _ _ _ _ _ h) (if_kept h ?_)
  have h1 := takeSources_kept o s (some i) p e.upset e.memUpset h
  generalize takeSources s (some i) p e.upset e.memUpset = z at h1 ⊢
  obtain ⟨x, u⟩ := z
  cases x with
  | error l => exact srcFault_kept o _ _ _ _ h1
  | ok ps =>
    dsimp only
    refine if_kept (State.tkDone_kept o _ _ _ _ _ _ _ h1) (if_kept (State.tkDone_kept o _ _ _ _ _ _ _ (busFailure_kept o _ h1))
      (if_kept (State.tkDone_kept o _ _ _ _ _ _ _ h1) (if_kept (State.tkDone_kept o _ _ _ _ _ _ _ (agreed_kept o _ _ _ _ h1)) ?_)))
    split
    · next e => exact snd_of e (rngDraw_kept o _ _ h1)
    · next e => exact State.tkDone_kept o _ _ _ _ _ _ _ (snd_of e (rngDraw_kept o _ _ h1))
    · next e => exact deliverTo_kept o _ _ _ _ _ _ _ _ (agreed_kept o _ _ _ _ (snd_of e (rngDraw_kept o _ _ h1)))

theorem hashCount_kept : ∀ (o : Seen) s x1, Kept o s → Kept o (@hashCount s x1) := by
  intros; unfold hashCount; grind [foldl_kept, foldl2_kept, State.incReg_kept, State.setReg64_kept]

theorem hashDone_kept : ∀ (o : Seen) s x1 x2 x3 x4, Kept o s → Kept o (@hashDone s x1 x2 x3 x4) := by
  intros; unfold hashDone; grind [foldl_kept, foldl2_kept, State.tkDone_kept, takeSources_kept, srcFault_kept, hashCount_kept]

theorem randTry_kept : ∀ (o : Seen) s x1 x2 x3 x4, Kept o s → Kept o (@randTry s x1 x2 x3 x4) := by
  intros; unfold randTry; grind [foldl_kept, foldl2_kept, State.tkDone_kept, rngDraw_kept, deliverTo_kept]

theorem timeDone_kept : ∀ (o : Seen) s x1 x2, Kept o s → Kept o (@timeDone s x1 x2) := by
  intros; unfold timeDone; grind [foldl_kept, foldl2_kept, State.tkDone_kept]

theorem setRoot_kept : ∀ (o : Seen) s x1 x2, Kept o s → Kept o (@setRoot s x1 x2) := by
  intros; unfold setRoot; grind [foldl_kept, foldl2_kept]

theorem zeroRoot_kept : ∀ (o : Seen) s x1, Kept o s → Kept o (@zeroRoot s x1) := by
  intros; unfold zeroRoot; grind [foldl_kept, foldl2_kept]

theorem wakeNow_kept : ∀ (o : Seen) s, Kept o s → Kept o (@wakeNow s) := by
  intros; unfold wakeNow; grind [foldl_kept, foldl2_kept, State.modInst_kept, State.devCommit_kept]

theorem credFailure_kept : ∀ (o : Seen) s x1, Kept o s → Kept o (@credFailure s x1) := by
  intros; unfold credFailure; grind [foldl_kept, foldl2_kept, rateEvent_kept]

theorem holeOthers_kept : ∀ (o : Seen) s x1 x2 x3, Kept o s → Kept o (@holeOthers s x1 x2 x3) := by
  intros; unfold holeOthers; grind [foldl_kept, foldl2_kept, State.setCtx_kept]

theorem storeBytes_kept : ∀ (o : Seen) s x1 x2 x3, Kept o s → Kept o (@storeBytes s x1 x2 x3) := by
  intros; unfold storeBytes; grind [foldl_kept, foldl2_kept, State.wrWord_kept, wrBytes_kept]

theorem applyPend_kept : ∀ (o : Seen) x1 x2 x3 s x4, ((∀ y20_0 y20_1 y20_2, Kept o y20_0 → Kept o (x1 y20_0 y20_1 y20_2))) → ((∀ y20_0 y20_1 y20_2 y20_3 y20_4, Kept o y20_0 → Kept o (x2 y20_0 y20_1 y20_2 y20_3 y20_4))) → Kept o s → Kept o (@applyPend x1 x2 x3 s x4) := by
  intros; unfold applyPend; grind [foldl_kept, foldl2_kept, holeOthers_kept, storeBytes_kept, State.breakResv_kept, State.wrWord_kept]

theorem State.setMpu_kept : ∀ (o : Seen) s x1 x2, Kept o s → Kept o (@State.setMpu s x1 x2) := by
  intros; unfold State.setMpu; grind [foldl_kept, foldl2_kept]

theorem viewOf_kept : ∀ (o : Seen) s x1, Kept o s → Kept o (@viewOf s x1) := by
  intros; unfold viewOf; grind [foldl_kept, foldl2_kept, storeBytes_kept, State.wrWord_kept, State.setMpu_kept]

theorem drainCheck_kept : ∀ (o : Seen) s x1, Kept o s → Kept o (@drainCheck s x1) := by
  intros; unfold drainCheck; grind [foldl_kept, foldl2_kept, closeIssue_kept]

theorem bundleDone_kept : ∀ (o : Seen) s x1 x2, Kept o s → Kept o (@bundleDone s x1 x2) := by
  intros; unfold bundleDone; grind [foldl_kept, foldl2_kept, chargeCore_kept, drainCheck_kept, takeEscalation_kept]

theorem commitBundle_kept : ∀ (o : Seen) x1 x2 s x3 x4 x5 x6 x7, ((∀ y20_0 y20_1 y20_2, Kept o y20_0 → Kept o (x1 y20_0 y20_1 y20_2))) → ((∀ y20_0 y20_1 y20_2 y20_3 y20_4, Kept o y20_0 → Kept o (x2 y20_0 y20_1 y20_2 y20_3 y20_4))) → Kept o s → Kept o (@commitBundle x1 x2 s x3 x4 x5 x6 x7) := by
  intros; simp only [commitBundle]; (repeat' split) <;> grind [foldl_kept, foldl2_kept, applyPend_kept, State.setCtx_kept, bundleDone_kept, takeException_kept]

theorem sylFails_kept : ∀ (o : Seen) s x1 x2 x3 x4 x5, Kept o s → Kept o (@sylFails s x1 x2 x3 x4 x5) := by
  intros; unfold sylFails; grind [foldl_kept, foldl2_kept, takeException_kept]

theorem sylEnds_kept : ∀ (o : Seen) x1 x2 s x3 x4 x5 x6 x7 x8, ((∀ y20_0 y20_1 y20_2, Kept o y20_0 → Kept o (x1 y20_0 y20_1 y20_2))) → ((∀ y20_0 y20_1 y20_2 y20_3 y20_4, Kept o y20_0 → Kept o (x2 y20_0 y20_1 y20_2 y20_3 y20_4))) → Kept o s → ((∀ y20_0, Kept o y20_0 → Kept o (x8 y20_0))) → Kept o (@sylEnds x1 x2 s x3 x4 x5 x6 x7 x8) := by
  intros; simp only [sylEnds]; (repeat' split) <;> grind [foldl_kept, foldl2_kept, State.setCtx_kept, viewOf_kept, sylFails_kept, commitBundle_kept]

theorem writeBack_kept : ∀ (o : Seen) s x1, Kept o s → Kept o (@writeBack s x1) := by
  intros; unfold writeBack; grind [foldl_kept, foldl2_kept, unitFails_kept]

theorem runX_kept : ∀ (o : Seen) x1 x2 s x3 x4 x5 x6 x7, ((∀ y20_0 y20_1 y20_2, Kept o y20_0 → Kept o (x1 y20_0 y20_1 y20_2))) → ((∀ y20_0 y20_1 y20_2 y20_3 y20_4, Kept o y20_0 → Kept o (x2 y20_0 y20_1 y20_2 y20_3 y20_4))) → Kept o s → ((∀ y20_0 y20_1 y20_2 y20_3, Kept o y20_0 → (∀ t21, x7 y20_0 y20_1 y20_2 y20_3 = Except.ok t21 → (∀ t22, t21 = some t22 → (∀ y23_0, Kept o y23_0 → Kept o ((t22).2 y23_0)))))) → Kept o (@runX x1 x2 s x3 x4 x5 x6 x7) := by
  intro o st ld s x unit op mem f hst hld h hf
  unfold runX
  dsimp only
  have h1 := writeBack_kept o s x h
  generalize writeBack s x = u at h1 ⊢
  refine if_kept h1 ?_
  split
  · exact takeException_kept o _ _ _ _ _ _ _ h1
  · exact h1
  · split
    · exact sylFails_kept o _ _ _ _ _ _ h1
    · exact chargeCore_kept o _ _ h1
    · next e => exact sylEnds_kept o _ _ _ _ _ _ _ _ _ hst hld h1 fun t ht => hf _ _ _ _ (viewOf_kept o _ _ h1) _ e _ rfl _ ht

theorem runSyl_kept : ∀ (o : Seen) x1 x2 s x3 x4 x5 x6 x7, ((∀ y20_0 y20_1 y20_2, Kept o y20_0 → Kept o (x1 y20_0 y20_1 y20_2))) → ((∀ y20_0 y20_1 y20_2 y20_3 y20_4, Kept o y20_0 → Kept o (x2 y20_0 y20_1 y20_2 y20_3 y20_4))) → Kept o s → Kept o (@runSyl x1 x2 s x3 x4 x5 x6 x7) := by
  intro o st ld s x unit op mem f hst hld h
  refine runX_kept o st ld s x unit op mem _ hst hld h ?_
  intro v k c x _ t e u hu y hy
  generalize f v k c x = q at e
  cases q with
  | error e' => cases e
  | ok c0 => cases hu; injection e with e; injection e with e; rw [← e]; exact hy

theorem imageRead_kept : ∀ (o : Seen) s x1, Kept o s → Kept o (@imageRead s x1) := by
  intros; unfold imageRead; grind [foldl_kept, foldl2_kept, unitFails_kept]

theorem flopEnd_kept : ∀ (o : Seen) s x1 x2 x3 x4 x5 x6 x7, Kept o s → Kept o (@flopEnd s x1 x2 x3 x4 x5 x6 x7) := by
  intros; unfold flopEnd; grind [foldl_kept, foldl2_kept, State.tkDone_kept, State.setReg_kept]

theorem flopStart_kept : ∀ (o : Seen) s x1 x2 x3 x4, Kept o s → Kept o (@flopStart s x1 x2 x3 x4) := by
  intros; unfold flopStart; grind [foldl_kept, foldl2_kept, flopEnd_kept, rngDraw_kept, imageRead_kept, State.setTk_kept, takeSources_kept]

theorem flopBlame_kept : ∀ (o : Seen) s x1, Kept o s → Kept o (@flopBlame s x1) := by
  intros; unfold flopBlame; grind [foldl_kept, foldl2_kept, State.setReg64_kept]

theorem flopUnits_kept : ∀ (o : Seen) x1 x2 x3 x4 s, Kept o s → Kept o (((@flopUnits x1 x2 x3 x4 s).2).2) := by
  intro o r env n m
  induction m with
  | zero => intro s h; exact h
  | succ m ih =>
    intro s h
    have h1 := ih (progUnit s (r.addr + 32 * (n - (m + 1))) (unitWords r.src (n - (m + 1))) (env.pulses.getD (n - (m + 1)) 1))
      (progUnit_kept o _ _ _ _ h)
    have h2 := unitFails_kept o _ (r.addr + 32 * (n - (m + 1))) 0x14 (some r.inst)
      (flopBlame_kept o s (r.addr + 32 * (n - (m + 1))) h)
    have h3 := fun x => freeUnit_kept o _ (r.addr + 32 * (n - (m + 1))) (State.setSector_kept o _
      (sectorOf (r.addr + 32 * (n - (m + 1)))) x (flopBlame_kept o s (r.addr + 32 * (n - (m + 1))) h))
    unfold flopUnits
    extract_lets j pa x c s1
    split
    · exact h2
    · split
      · exact h3 _
      · exact h1

theorem startMargin_kept : ∀ (o : Seen) s, Kept o s → Kept o (@startMargin s) := by
  intros; unfold startMargin; grind [foldl_kept, foldl2_kept, State.setSector_kept, State.setReg_kept]

theorem flopComplete_kept : ∀ (o : Seen) s x1 x2, Kept o s → Kept o (@flopComplete s x1 x2) := by
  intro o s k env h
  delta flopComplete
  split
  · exact h
  · next i r _ =>
    extract_lets s1 u1 u top fin n stopped m u2 j u3 c1 u4 a v2 c2 c3
    have h2 : Kept o u := State.setReg_kept o _ _ _ (kept_of (s := s) h rfl rfl rfl)
    have h3 : Kept o u2 := eraseSector_kept o _ _ _ _ h2
    have h4 : Kept o u4 := State.setSector_kept o _ _ _ (State.setReg_kept o _ _ _ h2)
    have h5 : Kept o { u with otp := { u.otp with swapCtr := min 64 (u.otp.swapCtr + 1) } } := keptF_otp h2 swap_fills
    have hf : ∀ (s : State) st v l, Kept o s → Kept o (fin s st v l) := fun s st v l h => flopEnd_kept o _ _ _ _ _ _ _ _ h
    clear_value u u2 u4 fin
    split
    · exact hf _ _ _ _ (flopUnits_kept o r env _ _ _ h2)
    · exact hf _ _ _ _ (flopUnits_kept o r env _ _ _ h2)
    · exact if_kept (hf _ _ _ _ h3) (hf _ _ _ _ (flopBlame_kept o _ _ h3))
    · exact if_kept (hf _ _ _ _ h2) (if_kept (hf _ _ _ _ h4) (hf _ _ _ _ (freeCell_kept o _ _ (flopBlame_kept o _ _ h4))))
    · exact if_kept (hf _ _ _ _ (tamperRaise_kept o _ _ _ _ h2)) (if_kept (hf _ _ _ _ h2)
        (hf _ _ _ _ (kept_of h5 rfl rfl rfl)))

theorem stressUpdate_kept : ∀ (o : Seen) s, Kept o s → Kept o (@stressUpdate s) := by
  intros; unfold stressUpdate; grind [foldl_kept, foldl2_kept]

theorem rsadd_kept : ∀ (o : Seen) s x1, Kept o s → Kept o (@rsadd s x1) := by
  intros; unfold rsadd; grind [foldl_kept, foldl2_kept]

theorem State.setBlk_kept : ∀ (o : Seen) s x1 x2, Kept o s → Kept o (@State.setBlk s x1 x2) := by
  intros; unfold State.setBlk; grind [foldl_kept, foldl2_kept]

theorem patrolRead_kept : ∀ (o : Seen) s x1 x2 x3, Kept o s → Kept o (@patrolRead s x1 x2 x3) := by
  intro o s b m u h
  unfold patrolRead
  dsimp only
  refine if_kept h ?_
  refine State.setReg_kept o _ _ _ ?_
  refine kept_of (s := if _ then _ else _) ?_ rfl rfl rfl
  refine if_both (fun hz => hz) (fun hz => hz) ?_
  refine if_last ?_ fun hz => carryFault_kept o _ _ _ _ hz
  exact if_kept h h

theorem refillPool_kept : ∀ (o : Seen) s, Kept o s → Kept o (@refillPool s) := by
  intros; unfold refillPool; grind [foldl_kept, foldl2_kept, State.setBlk_kept]

theorem settleVol_kept : ∀ (o : Seen) s x1, Kept o s → Kept o (@settleVol s x1) := by
  intros; unfold settleVol; grind [foldl_kept, foldl2_kept]

theorem closeReason_kept : ∀ (o : Seen) s x1 x2, Kept o s → Kept o (@closeReason s x1 x2) := by
  intros; unfold closeReason; grind [foldl_kept, foldl2_kept, settleVol_kept]

theorem closeAll_kept : ∀ (o : Seen) s x1, Kept o s → Kept o (@closeAll s x1) := by
  intros; unfold closeAll; grind [foldl_kept, foldl2_kept, closeReason_kept]

theorem keepVolumes_kept : ∀ (o : Seen) s x1, Kept o s → Kept o (@keepVolumes s x1) := by
  intros; unfold keepVolumes; grind [foldl_kept, foldl2_kept]

theorem insEnd_kept : ∀ (o : Seen) s x1, Kept o s → Kept o (@insEnd s x1) := by
  intros; unfold insEnd; grind [foldl_kept, foldl2_kept]

theorem insDone_kept : ∀ (o : Seen) s x1 x2, Kept o s → Kept o (@insDone s x1 x2) := by
  intros; unfold insDone; grind [foldl_kept, foldl2_kept, insEnd_kept]

theorem setState_kept : ∀ (o : Seen) s x1 x2, Kept o s → Kept o (@setState s x1 x2) := by
  intros; unfold setState; grind [foldl_kept, foldl2_kept, State.modInst_kept]

theorem unbindRings_kept : ∀ (o : Seen) s x1, Kept o s → Kept o (@unbindRings s x1) := by
  intros; unfold unbindRings; grind [foldl_kept, foldl2_kept, State.setReg_kept, State.setRing_kept]

theorem clearInst_kept : ∀ (o : Seen) s x1, Kept o s → Kept o (@clearInst s x1) := by
  intros; unfold clearInst; grind [foldl_kept, foldl2_kept]

theorem hybridSign_kept : ∀ (o : Seen) s x1 x2, Kept o s → Kept o ((@hybridSign s x1 x2).2) := by
  intros; unfold hybridSign; grind [foldl_kept, foldl2_kept, rngDraw_kept]

theorem buildImage_kept : ∀ (o : Seen) s x1 x2 x3, Kept o s → Kept o ((@buildImage s x1 x2 x3).2) := by
  intro o s i q off h
  unfold buildImage
  have h1 := rngDraw_kept o s 32 h
  generalize rngDraw s 32 = z at h1 ⊢
  obtain ⟨d, u⟩ := z
  cases d <;> try exact h1
  dsimp only
  split
  · next e => exact snd_of e (hybridSign_kept o _ _ _ h1)
  · exact hybridSign_kept o _ _ _ h1

theorem insHold_kept : ∀ (o : Seen) s x1, Kept o s → Kept o (@insHold s x1) := by
  intros; unfold insHold; grind [foldl_kept, foldl2_kept]

theorem saveBuild_kept : ∀ (o : Seen) s x1, Kept o s → Kept o (@saveBuild s x1) := by
  intros; unfold saveBuild; grind [foldl_kept, foldl2_kept, insEnd_kept, buildImage_kept, insHold_kept]

theorem signedStatement_kept : ∀ (o : Seen) s x1, Kept o s → Kept o ((@signedStatement s x1).2) := by
  intro o s n h
  unfold signedStatement
  dsimp only
  split
  · next e => exact snd_of e (hybridSign_kept o _ _ _ h)
  · exact hybridSign_kept o _ _ _ h

theorem migPut_kept : ∀ (o : Seen) s x1, Kept o s → Kept o ((@migPut s x1).2) := by
  intros; unfold migPut; grind [foldl_kept, foldl2_kept, ringPut_kept]

theorem putAll_kept : ∀ (o : Seen) x1 s x2, Kept o s → Kept o ((@putAll x1 s x2).2) := by
  intro o n
  induction n with
  | zero => intro s b h; exact h
  | succ n ih =>
    intro s b h
    have h1 := migPut_kept o s b h
    unfold putAll
    generalize migPut s b = z at h1 ⊢
    obtain ⟨z1, z2⟩ := z
    cases z1 with
    | true => exact ih _ _ h1
    | false => exact h1

theorem offerMarked_kept : ∀ (o : Seen) s x1, Kept o s → Kept o (@offerMarked s x1) := by
  intro o s i h
  unfold offerMarked
  dsimp only
  split
  · exact insEnd_kept o _ _ h
  · split
    · next e =>
      have h1 := snd_of e (signedStatement_kept o _ _ h)
      split
      · next e => exact insEnd_kept o _ _ (snd_of e (putAll_kept o _ _ _ h1))
      · next e => exact insEnd_kept o _ _ (snd_of e (putAll_kept o _ _ _ h1))
    · next e => exact insHold_kept o _ _ (snd_of e (signedStatement_kept o _ _ h))
    · next e => exact insEnd_kept o _ _ (snd_of e (signedStatement_kept o _ _ h))

theorem zeroDram_kept : ∀ (o : Seen) s x1 x2, Kept o s → Kept o (@zeroDram s x1 x2) := by
  intro o s b n h; unfold zeroDram; dsimp only; split <;> exact keptF_filter _ _ h

theorem restoreMarked_kept : ∀ (o : Seen) s x1, Kept o s → Kept o (@restoreMarked s x1) := by
  intros; simp only [restoreMarked]; (repeat' split) <;> grind [foldl_kept, foldl2_kept, zeroDram_kept, wrWords_kept, State.setMpu_kept, State.setCtx_kept, State.setTk_kept, State.setRing_kept, State.modInst_kept]

theorem discardRing_kept : ∀ (o : Seen) s x1, Kept o s → Kept o (@discardRing s x1) := by
  intros; unfold discardRing; grind [foldl_kept, foldl2_kept, State.setRing_kept]

theorem discardRings_kept : ∀ (o : Seen) s x1, Kept o s → Kept o (@discardRings s x1) := by
  intros; unfold discardRings; grind [foldl_kept, foldl2_kept, discardRing_kept]

theorem localMarked_kept : ∀ (o : Seen) s x1 x2 x3, Kept o s → Kept o (@localMarked s x1 x2 x3) := by
  intro o s i op st h
  unfold localMarked
  have h1 := setState_kept o s i st h
  dsimp only
  generalize setState s i st = t at h1
  have h2 := clearInst_kept o t i h1
  split
  · exact insDone_kept o _ _ _ h1
  · exact insDone_kept o _ _ _ (State.modInst_kept o _ _ _ (foldl_kept (fun s a hs => State.setCtx_kept o _ _ _ hs) _ _ h2))
  · have h3 : Kept o ((instCtxs t i).foldl (fun s p => s.setCtx p.1 { p.2 with yielded := false }) t) :=
      foldl_kept (fun s a hs => State.setCtx_kept o _ _ _ hs) _ _ h1
    generalize (instCtxs t i).foldl (fun s p => s.setCtx p.1 { p.2 with yielded := false }) t = u at h3
    have h4 := State.raiseIrq_kept o _ i 2 (State.modInst_kept o u i (fun x => { x with drain := true, stopping := false }) h3)
    generalize (u.modInst i fun x => { x with drain := true, stopping := false }).raiseIrq i 2 = w at h4
    exact if_kept (closeIssue_kept o _ _ _ (State.modInst_kept o _ _ _ h4)) h4
  · exact insDone_kept o _ _ _ (State.modInst_kept o _ _ _ h1)
  · have h3 : Kept o ((instCtxs t i).foldl (fun s p => s.setCtx p.1 { p.2 with run := .running }) t) :=
      foldl_kept (fun s a hs => State.setCtx_kept o _ _ _ hs) _ _ h1
    exact insDone_kept o _ _ _ (State.modInst_kept o _ _ _ h3)
  · exact insDone_kept o _ _ _ (discardRings_kept o _ _ h2)
  · exact insDone_kept o _ _ _ (State.setInst_kept o _ _ _ (State.setMpu_kept o _ _ _ (zeroDram_kept o _ _ _ (unbindRings_kept o _ _ h2))))
  · exact h1

theorem insMarked_kept : ∀ (o : Seen) s x1 x2 x3, Kept o s → Kept o (@insMarked s x1 x2 x3) := by
  intros; unfold insMarked; grind [foldl_kept, foldl2_kept, insDone_kept, State.modInst_kept, setState_kept, unbindRings_kept, clearInst_kept,
    saveBuild_kept, offerMarked_kept, restoreMarked_kept, localMarked_kept]

theorem insFailed_kept : ∀ (o : Seen) s x1 x2 x3, Kept o s → Kept o (@insFailed s x1 x2 x3) := by
  intros; unfold insFailed; grind [foldl_kept, foldl2_kept, State.setInst_kept, State.modInst_kept, insEnd_kept]

theorem keyFail_kept : ∀ (o : Seen) s x1, Kept o s → Kept o (@keyFail s x1) := by
  intros; unfold keyFail; grind [foldl_kept, foldl2_kept]

theorem pubFail_kept : ∀ (o : Seen) s x1, Kept o s → Kept o (@pubFail s x1) := by
  intros; unfold pubFail; grind [foldl_kept, foldl2_kept]

theorem State.setPbuf_kept : ∀ (o : Seen) s x1 x2, Kept o s → Kept o (@State.setPbuf s x1 x2) := by
  intros; unfold State.setPbuf; grind [foldl_kept, foldl2_kept]

theorem postNow_kept : ∀ (o : Seen) s x1 x2, Kept o s → Kept o ((@postNow s x1 x2).2) := by
  intros; unfold postNow; grind [foldl_kept, foldl2_kept, postRing_kept, State.setPbuf_kept]

theorem postEntry_kept : ∀ (o : Seen) s x1 x2, Kept o s → Kept o (@postEntry s x1 x2) := by
  intros; unfold postEntry; grind [foldl_kept, foldl2_kept, postNow_kept, State.setPbuf_kept, State.incReg_kept]

theorem settleStrips_kept : ∀ (o : Seen) s, Kept o s → Kept o (@settleStrips s) := by
  intros; unfold settleStrips; grind [foldl_kept, foldl2_kept, settleVol_kept]

theorem standbyRecorded_kept : ∀ (o : Seen) s, Kept o s → Kept o (@standbyRecorded s) := by
  intros; unfold standbyRecorded; grind [foldl_kept, foldl2_kept, settleStrips_kept, closeAll_kept]

theorem purposeFailed_kept : ∀ (o : Seen) s x1 x2, Kept o s → Kept o (@purposeFailed s x1 x2) := by
  intros; unfold purposeFailed; grind [foldl_kept, foldl2_kept, tamperReset_kept, insFailed_kept, airFailed_kept, advanceFailed_kept, keyFail_kept,
    pubFail_kept, fieldRefused_kept, foldEnd_kept, destroyAll_kept, postEntry_kept, standbyRecorded_kept]

theorem purposeMarked_kept : ∀ (o : Seen) s x1, Kept o s → Kept o (@purposeMarked s x1) := by
  intros; unfold purposeMarked; grind [foldl_kept, foldl2_kept, tamperReset_kept, insMarked_kept, pubFail_kept, areaMarked_kept, pwMarked_kept,
    foldEnd_kept, destroyAll_kept, postEntry_kept, standbyRecorded_kept]

theorem commitFails_kept : ∀ (o : Seen) s x1 x2, Kept o s → Kept o (@commitFails s x1 x2) := by
  intros; unfold commitFails; grind [foldl_kept, foldl2_kept, freeLocks_kept, keepVolumes_kept, State.statInc_kept, State.tkDone_kept,
    State.incReg_kept, credFailure_kept, tamperReset_kept, insMarked_kept, purposeFailed_kept, purposeMarked_kept]

theorem unqueue_kept : ∀ (o : Seen) s x1, Kept o s → Kept o (@unqueue s x1) := by
  intros; unfold unqueue; grind [foldl_kept, foldl2_kept]

theorem failEach_kept : ∀ (o : Seen) s x1 x2, Kept o s → Kept o (@failEach s x1 x2) := by
  intros; unfold failEach; grind [foldl_kept, foldl2_kept, commitFails_kept, unqueue_kept]

theorem sealDecide_kept : ∀ (o : Seen) s, Kept o s → Kept o (@sealDecide s) := by
  intros; unfold sealDecide; grind [foldl_kept, foldl2_kept, closeAll_kept, failEach_kept]

theorem retireBlk_kept : ∀ (o : Seen) s x1, Kept o s → Kept o (@retireBlk s x1) := by
  intros; unfold retireBlk; grind [foldl_kept, foldl2_kept, State.incReg_kept, State.setBlk_kept, State.statInc_kept]

theorem relocate_kept : ∀ (o : Seen) s x1, Kept o s → (∀ t0, @relocate s x1 = some t0 → Kept o (t0)) := by
  intro o s b h t e
  unfold relocate at e
  split at e
  · cases e
  · cases e; exact h

theorem refreshSwitch_kept : ∀ (o : Seen) s x1 x2, Kept o s → Kept o (@refreshSwitch s x1 x2) := by
  intros; simp only [refreshSwitch]; (repeat' split) <;> grind [foldl_kept, foldl2_kept, relocate_kept, State.statInc_kept, State.incReg_kept, retireBlk_kept, State.setBlk_kept, sealDecide_kept, refillPool_kept]

theorem nandFail_kept : ∀ (o : Seen) s x1, Kept o s → Kept o (@nandFail s x1) := by
  intros; unfold nandFail; grind [foldl_kept, foldl2_kept, relocate_kept, sealDecide_kept, refillPool_kept, retireBlk_kept]

theorem State.setHport_kept : ∀ (o : Seen) s x1 x2 x3, Kept o s → Kept o (@State.setHport s x1 x2 x3) := by
  intros; unfold State.setHport; grind [foldl_kept, foldl2_kept]

theorem pushEnd_kept : ∀ (o : Seen) s x1 x2 x3, Kept o s → Kept o (@pushEnd s x1 x2 x3) := by
  intros; unfold pushEnd; grind [foldl_kept, foldl2_kept, State.setHport_kept]

theorem pushWrite_kept : ∀ (o : Seen) s x1 x2 x3, Kept o s → Kept o (@pushWrite s x1 x2 x3) := by
  intros; unfold pushWrite; grind [foldl_kept, foldl2_kept, pushEnd_kept, State.statInc_kept, ringPut_kept]

theorem popWrite_kept : ∀ (o : Seen) s x1 x2 x3, Kept o s → Kept o (@popWrite s x1 x2 x3) := by
  intro o s p w v h
  unfold popWrite
  dsimp only
  split
  · exact h
  · refine if_kept h ?_
    split
    · exact h
    · split
      · exact h
      · next e => exact kept_of (ringHeadEntry_kept o s _ none h _ e) rfl rfl rfl

theorem resumeRing_kept : ∀ (o : Seen) s x1, Kept o s → Kept o (@resumeRing s x1) := by
  intros; unfold resumeRing; grind [foldl_kept, foldl2_kept, State.setRing_kept]

theorem rctlWrite_kept : ∀ (o : Seen) s x1 x2 x3, Kept o s → Kept o (@rctlWrite s x1 x2 x3) := by
  intros; unfold rctlWrite; grind [foldl_kept, foldl2_kept, discardRing_kept, resumeRing_kept]

theorem stageWrite_kept : ∀ (o : Seen) s x1 x2 x3 x4 x5, Kept o s → Kept o (@stageWrite s x1 x2 x3 x4 x5) := by
  intros; unfold stageWrite; grind [foldl_kept, foldl2_kept, carryFault_kept, State.setHport_kept]

theorem badDoorbell_kept : ∀ (o : Seen) s, Kept o s → Kept o (@badDoorbell s) := by
  intros; unfold badDoorbell; grind [foldl_kept, foldl2_kept, State.incReg_kept]

theorem failWaiters_kept : ∀ (o : Seen) s x1 x2, Kept o s → Kept o (@failWaiters s x1 x2) := by
  intros; unfold failWaiters; grind [foldl_kept, foldl2_kept, State.tkDone_kept, State.setRing_kept]

theorem haltRing_kept : ∀ (o : Seen) s x1 x2 x3, Kept o s → Kept o (@haltRing s x1 x2 x3) := by
  intros; unfold haltRing; grind [foldl_kept, foldl2_kept, failWaiters_kept, State.setRing_kept, State.incReg_kept]

theorem ringDoorbell_kept : ∀ (o : Seen) s x1 x2 x3, Kept o s → Kept o (@ringDoorbell s x1 x2 x3) := by
  intros; unfold ringDoorbell; grind [foldl_kept, foldl2_kept, badDoorbell_kept, State.setRing_kept, haltRing_kept, ringIrq_kept]

theorem doorbell_kept : ∀ (o : Seen) s x1 x2 x3, Kept o s → Kept o (@doorbell s x1 x2 x3) := by
  intros; unfold doorbell; grind [foldl_kept, foldl2_kept, ringDoorbell_kept, wakeSource_kept]

theorem heldRelease_kept : ∀ (o : Seen) s, Kept o s → Kept o (@heldRelease s) := by
  intros; unfold heldRelease; grind [foldl_kept, foldl2_kept, doorbell_kept]

theorem winLatch_kept : ∀ (o : Seen) s x1 x2 x3, Kept o s → Kept o (@winLatch s x1 x2 x3) := by
  intros; unfold winLatch; grind [foldl_kept, foldl2_kept]

theorem popFails_kept : ∀ (o : Seen) s x1 x2 x3, Kept o s → Kept o ((@popFails s x1 x2 x3).2) := by
  intros; unfold popFails; grind [foldl_kept, foldl2_kept, State.setHport_kept]

theorem readOut_kept : ∀ (o : Seen) s x1 x2 x3, Kept o s → Kept o ((@readOut s x1 x2 x3).2) := by
  intros; unfold readOut; grind [foldl_kept, foldl2_kept, egress_kept, popFails_kept]

theorem hostRead_kept : ∀ (o : Seen) s x1 x2, Kept o s → Kept o (@hostRead s x1 x2) := by
  intros; unfold hostRead; grind [foldl_kept, foldl2_kept, readOut_kept, winLatch_kept]

theorem svcEnd_kept : ∀ (o : Seen) s x1 x2 x3, Kept o s → Kept o (@svcEnd s x1 x2 x3) := by
  intros; unfold svcEnd; grind [foldl_kept, foldl2_kept]

theorem State.rand_kept : ∀ (o : Seen) s x1, Kept o s → Kept o ((@State.rand s x1).2) := by
  intros; unfold State.rand; grind [foldl_kept, foldl2_kept]

theorem rngBytes_kept : ∀ (o : Seen) s x1, Kept o s → Kept o ((@rngBytes s x1).2) := by
  intros; unfold rngBytes; grind [foldl_kept, foldl2_kept, rngDraw_kept, State.rand_kept]

theorem redrawNonce_kept : ∀ (o : Seen) s, Kept o s → Kept o (@redrawNonce s) := by
  intros; unfold redrawNonce; grind [foldl_kept, foldl2_kept, rngBytes_kept]

theorem modeEnd_kept : ∀ (o : Seen) s x1, Kept o s → Kept o (@modeEnd s x1) := by
  intros; unfold modeEnd; grind [foldl_kept, foldl2_kept]

theorem decisionRefused_kept : ∀ (o : Seen) s x1 x2, Kept o s → Kept o (@decisionRefused s x1 x2) := by
  intros; unfold decisionRefused; grind [foldl_kept, foldl2_kept, redrawNonce_kept, credFailure_kept, modeEnd_kept, svcEnd_kept]

theorem credRead_kept : ∀ (o : Seen) s, Kept o s → Kept o (@credRead s) := by
  intros; unfold credRead; grind [foldl_kept, foldl2_kept, unitFails_kept]

end Sys2Proof.Machine
end

