-- ==== Sys2Proof/Laws/KeptUnits.lean ====
section
/-! SUPPORT. What the operations keep, continued. -/

namespace Sys2Proof.Machine

set_option linter.all false

theorem firstEvaluation_kept : ∀ (o : Seen) s x1, Kept o s → Kept o (@firstEvaluation s x1) := by
  intros; unfold firstEvaluation; grind [foldl_kept, foldl2_kept, imageRead_kept, credRead_kept]

theorem decisionBegin_kept : ∀ (o : Seen) s x1, Kept o s → Kept o (@decisionBegin s x1) := by
  intros; unfold decisionBegin; grind [foldl_kept, foldl2_kept, decisionRefused_kept, rngDraw_kept, firstEvaluation_kept]

theorem svcTagid_kept : ∀ (o : Seen) s x1, Kept o s → Kept o (@svcTagid s x1) := by
  intro o s r h
  unfold svcTagid
  dsimp only
  have h1 := State.setReg64_kept o s Reg.AIR_TAGID_LO (getLe r 0 8) h
  generalize s.setReg64 Reg.AIR_TAGID_LO (getLe r 0 8) = u at h1 ⊢
  exact if_kept (svcEnd_kept o _ _ _ _ h) (if_kept (svcEnd_kept o _ _ _ _ h) (svcEnd_kept o _ _ _ _
    (keptF_otp h1 tagged_fills)))

theorem newRoot_kept : ∀ (o : Seen) s x1, Kept o s → Kept o (@newRoot s x1) := by
  intros; unfold newRoot; grind [foldl_kept, foldl2_kept, rngBytes_kept, setRoot_kept]

theorem eraseArea_kept : ∀ (o : Seen) s, Kept o s → Kept o (@eraseArea s) := by
  intro o s h; exact keptF_otp h erase_fills

theorem svcKeygen_kept : ∀ (o : Seen) s, Kept o s → Kept o (@svcKeygen s) := by
  intros; unfold svcKeygen; grind [foldl_kept, foldl2_kept, svcEnd_kept, newRoot_kept, eraseArea_kept, rngBytes_kept]

theorem svcCert_kept : ∀ (o : Seen) s x1, Kept o s → Kept o (@svcCert s x1) := by
  intro o s r h
  unfold svcCert
  dsimp only
  refine if_kept (svcEnd_kept o _ _ _ _ h) (if_kept (svcEnd_kept o _ _ _ _ h) (svcEnd_kept o _ _ _ _ ?_))
  exact keptF_otp h certs_fills

theorem eraseBlock_kept : ∀ (o : Seen) s x1, Kept o s → Kept o (@eraseBlock s x1) := by
  intros; unfold eraseBlock; grind [foldl_kept, foldl2_kept, eraseSector_kept]

theorem svcImage_kept : ∀ (o : Seen) s x1 x2 x3 x4, Kept o s → Kept o (@svcImage s x1 x2 x3 x4) := by
  intros; unfold svcImage; grind [foldl_kept, foldl2_kept, svcEnd_kept, eraseSector_kept, eraseBlock_kept, flopUnits_kept]

theorem svcEvidence_kept : ∀ (o : Seen) s x1, Kept o s → Kept o (@svcEvidence s x1) := by
  intros; unfold svcEvidence; grind [foldl_kept, foldl2_kept, svcEnd_kept]

theorem svcAttest_kept : ∀ (o : Seen) s x1, Kept o s → Kept o (@svcAttest s x1) := by
  intros; unfold svcAttest; grind [foldl_kept, foldl2_kept, svcEnd_kept, signedStatement_kept]

theorem svcRun_kept : ∀ (o : Seen) s x1 x2 x3, Kept o s → Kept o (@svcRun s x1 x2 x3) := by
  intros; unfold svcRun; grind [foldl_kept, foldl2_kept, decisionBegin_kept, svcTagid_kept, svcKeygen_kept, svcCert_kept, svcImage_kept,
    svcEvidence_kept, svcAttest_kept, svcEnd_kept]

theorem svcCmd_kept : ∀ (o : Seen) s x1 x2, Kept o s → Kept o (@svcCmd s x1 x2) := by
  intros; unfold svcCmd; grind [foldl_kept, foldl2_kept, svcEnd_kept, svcRun_kept]

theorem msixWrite_kept : ∀ (o : Seen) s x1 x2 x3, Kept o s → Kept o (@msixWrite s x1 x2 x3) := by
  intros; unfold msixWrite; grind [foldl_kept, foldl2_kept, sendMsix_kept]

theorem winWrite_kept : ∀ (o : Seen) s x1 x2 x3 x4, Kept o s → Kept o (@winWrite s x1 x2 x3 x4) := by
  intro o s p w off v h
  delta winWrite
  extract_lets sr rom lo
  have hr : Kept o (rom ()) :=
    if_kept (svcCmd_kept o _ _ _ h) (if_kept h (if_kept (kept_of h rfl rfl rfl) (if_kept (kept_of h rfl rfl rfl) h)))
  clear_value rom
  exact if_kept (doorbell_kept o _ _ _ _ h) (if_kept h (if_kept (if_kept hr h) (if_kept (stageWrite_kept o _ _ _ _ _ _ h)
    (if_kept (pushWrite_kept o _ _ _ _ h) (if_kept (popWrite_kept o _ _ _ _ h) (if_kept (rctlWrite_kept o _ _ _ _ h)
    (if_kept (msixWrite_kept o _ _ _ _ h) (if_kept (kept_of h rfl rfl rfl) (if_kept hr h)))))))))

theorem onWindow_kept : ∀ (o : Seen) s x1 x2 x3, Kept o s → ((∀ y20_0, Kept o y20_0 → Kept o (x3 y20_0))) → Kept o (@onWindow s x1 x2 x3) := by
  intros; unfold onWindow; grind [foldl_kept, foldl2_kept]

theorem qspiRead_kept : ∀ (o : Seen) s x1 x2, Kept o s → Kept o (@qspiRead s x1 x2) := by
  intros; unfold qspiRead; grind [foldl_kept, foldl2_kept, hostRead_kept]

theorem qspiWrite_kept : ∀ (o : Seen) s x1 x2 x3, Kept o s → Kept o (@qspiWrite s x1 x2 x3) := by
  intros; unfold qspiWrite; grind [foldl_kept, foldl2_kept, State.incReg_kept, winWrite_kept]

theorem stopRing_kept : ∀ (o : Seen) s x1 x2, Kept o s → Kept o (@stopRing s x1 x2) := by
  intros; unfold stopRing; grind [foldl_kept, foldl2_kept, failWaiters_kept, State.setRing_kept]

theorem stopRings_kept : ∀ (o : Seen) s x1 x2, Kept o s → Kept o (@stopRings s x1 x2) := by
  intros; unfold stopRings; grind [foldl_kept, foldl2_kept, stopRing_kept]

theorem stopHostRings_kept : ∀ (o : Seen) s x1, Kept o s → Kept o (@stopHostRings s x1) := by
  intros; unfold stopHostRings; grind [foldl_kept, foldl2_kept, stopRings_kept]

theorem flr_kept : ∀ (o : Seen) s x1, Kept o s → Kept o (@flr s x1) := by
  intros; unfold flr; grind [foldl_kept, foldl2_kept, stopHostRings_kept, State.incReg_kept]

theorem linkChange_kept : ∀ (o : Seen) s x1 x2, Kept o s → Kept o (@linkChange s x1 x2) := by
  intros; unfold linkChange; grind [foldl_kept, foldl2_kept, stopHostRings_kept]

theorem vfChange_kept : ∀ (o : Seen) s x1 x2, Kept o s → Kept o (@vfChange s x1 x2) := by
  intros; unfold vfChange; grind [foldl_kept, foldl2_kept, stopHostRings_kept]

theorem etab_kept : ∀ (o : Seen) s x1, Kept o s → Kept o ((@etab s x1).2) := by
  intros; unfold etab; grind [foldl_kept, foldl2_kept, engRead_kept]

theorem descForm_kept : ∀ (o : Seen) s x1 x2 x3, Kept o s → Kept o ((@descForm s x1 x2 x3).2) := by
  intros; unfold descForm; grind [foldl_kept, foldl2_kept, etab_kept]

theorem readDesc_kept : ∀ (o : Seen) s x1 x2, Kept o s → Kept o ((@readDesc s x1 x2).2) := by
  intros; unfold readDesc; grind [foldl_kept, foldl2_kept, engRead_kept, descForm_kept]

theorem insCommit_kept : ∀ (o : Seen) s x1 x2 x3 x4 x5, Kept o s → Kept o (@insCommit s x1 x2 x3 x4 x5) := by
  intros; unfold insCommit; grind [foldl_kept, foldl2_kept, State.devCommit_kept]

theorem insInstall_kept : ∀ (o : Seen) s x1, Kept o s → Kept o (@insInstall s x1) := by
  intros; unfold insInstall; grind [foldl_kept, foldl2_kept, engRead_kept, insEnd_kept, State.wrTag_kept, State.breakResv_kept,
    State.modInst_kept, newChecks_kept]

theorem insLocal_kept : ∀ (o : Seen) s x1 x2, Kept o s → Kept o (@insLocal s x1 x2) := by
  intros; unfold insLocal; grind [foldl_kept, foldl2_kept, readDesc_kept, insEnd_kept, insCommit_kept, State.modInst_kept, insInstall_kept,
    etab_kept]

theorem quiesceComplete_kept : ∀ (o : Seen) s x1, Kept o s → Kept o (@quiesceComplete s x1) := by
  intros; unfold quiesceComplete; grind [foldl_kept, foldl2_kept, closeReason_kept, State.modInst_kept, State.devCommit_kept]

theorem limitRaise_kept : ∀ (o : Seen) s, Kept o s → Kept o (@limitRaise s) := by
  intros; unfold limitRaise; grind [foldl_kept, foldl2_kept, State.devCommit_kept]

theorem publishFrame_kept : ∀ (o : Seen) s x1, Kept o s → Kept o (@publishFrame s x1) := by
  intros; unfold publishFrame; grind [foldl_kept, foldl2_kept]

theorem applyStaged_kept : ∀ (o : Seen) s, Kept o s → Kept o (@applyStaged s) := by
  intros; unfold applyStaged; grind [foldl_kept, foldl2_kept, State.raiseIrq_kept, State.modInst_kept]

theorem keepDescs_kept : ∀ (o : Seen) s, Kept o s → Kept o (@keepDescs s) := by
  intros; unfold keepDescs; grind [foldl_kept, foldl2_kept, State.devCommit_kept]

theorem reopen_kept : ∀ (o : Seen) s, Kept o s → Kept o (@reopen s) := by
  intros; unfold reopen; grind [foldl_kept, foldl2_kept, State.devCommit_kept]

theorem epochRoll_kept : ∀ (o : Seen) s, Kept o s → Kept o (@epochRoll s) := by
  intros; unfold epochRoll; grind [foldl_kept, foldl2_kept, publishFrame_kept, State.setReg_kept, applyStaged_kept, State.setReg64_kept]

theorem epochSelf_kept : ∀ (o : Seen) s x1 x2, Kept o s → Kept o (@epochSelf s x1 x2) := by
  intros; unfold epochSelf; grind [foldl_kept, foldl2_kept, State.setReg_kept]

theorem epochCommits_kept : ∀ (o : Seen) s, Kept o s → Kept o (@epochCommits s) := by
  intros; unfold epochCommits; grind [foldl_kept, foldl2_kept, reopen_kept, keepDescs_kept, closeAll_kept, limitRaise_kept, State.devCommit_kept]

theorem epochBoundary_kept : ∀ (o : Seen) s x1 x2, Kept o s → Kept o (@epochBoundary s x1 x2) := by
  intros; unfold epochBoundary; grind [foldl_kept, foldl2_kept, epochSelf_kept, epochCommits_kept, epochRoll_kept, State.raiseIrq_kept]

theorem epochNow_kept : ∀ (o : Seen) s, Kept o s → Kept o (@epochNow s) := by
  intros; unfold epochNow; grind [foldl_kept, foldl2_kept, State.setReg64_kept]

theorem rngBlock_kept : ∀ (o : Seen) s x1 x2, Kept o s → Kept o ((@rngBlock s x1 x2).2) := by
  intros; unfold rngBlock; grind [foldl_kept, foldl2_kept, State.statInc_kept, State.incReg_kept]

theorem putSeed_kept : ∀ (o : Seen) s x1, Kept o s → Kept o (@putSeed s x1) := by
  intros; unfold putSeed; grind [foldl_kept, foldl2_kept]

theorem instantiate_kept : ∀ (o : Seen) s, Kept o s → Kept o (@instantiate s) := by
  intros; unfold instantiate; grind [foldl_kept, foldl2_kept]

theorem slotLoad_kept : ∀ (o : Seen) s x1 x2, Kept o s → Kept o (@slotLoad s x1 x2) := by
  intros; unfold slotLoad; grind [foldl_kept, foldl2_kept, rateEvent_kept, State.incReg_kept, busFailure_kept]

theorem keyCommit_kept : ∀ (o : Seen) s x1 x2, Kept o s → Kept o (@keyCommit s x1 x2) := by
  intros; unfold keyCommit; grind [foldl_kept, foldl2_kept, State.devCommit_kept]

theorem keyArg_kept : ∀ (o : Seen) s x1, Kept o s → ((∀ t0, @keyArg s x1 = Except.error t0 → Kept o ((t0).2)) ∧ (∀ t0, @keyArg s x1 = Except.ok t0 → Kept o ((t0).2))) := by
  intros; unfold keyArg; grind [foldl_kept, foldl2_kept, engRead_kept]

theorem dropSecret_kept : ∀ (o : Seen) s x1 x2, Kept o s → Kept o (@dropSecret s x1 x2) := by
  intros; unfold dropSecret; grind [foldl_kept, foldl2_kept, State.setTk_kept]

theorem keyTry_kept : ∀ (o : Seen) s, Kept o s → Kept o (@keyTry s) := by
  intro o s h
  unfold keyTry
  split
  · exact h
  · next op _ =>
    dsimp only
    refine if_kept (keyFail_kept o _ _ h) (if_kept h (if_kept (keyCommit_kept o _ _ _ h) (if_kept (keyFail_kept o _ _ h)
      (if_kept (keyFail_kept o _ _ h) (if_kept ?_ (if_kept (keyFail_kept o _ _ h) (if_kept (keyFail_kept o _ _ h) ?_)))))))
    · have h2 := rngDraw_kept o s 32 h
      generalize rngDraw s 32 = z at h2 ⊢
      obtain ⟨d, w⟩ := z
      cases d with
      | ok b => exact keyCommit_kept o _ _ _ h2
      | wait => exact h2
      | fatal => exact keyFail_kept o _ _ h2
    · have h2 := keyArg_kept o s (if op = 4 then 40 else 16) h
      generalize keyArg s (if op = 4 then 40 else 16) = z at h2 ⊢
      cases z with
      | error p => exact keyFail_kept o _ _ (h2.1 _ rfl)
      | ok p =>
        obtain ⟨b, u⟩ := p
        have h3 : Kept o u := h2.2 _ rfl
        dsimp only
        refine if_kept (keyCommit_kept o _ _ _ h3) (if_kept ?_ ?_)
        · split
          · exact keyCommit_kept o _ _ _ (dropSecret_kept o _ _ _ h3)
          · exact keyFail_kept o _ _ h3
        · split
          · exact keyCommit_kept o _ _ _ h3
          · exact keyFail_kept o _ _ h3

theorem keyCmd_kept : ∀ (o : Seen) s x1, Kept o s → Kept o (@keyCmd s x1) := by
  intros; unfold keyCmd; grind [foldl_kept, foldl2_kept, keyTry_kept]

theorem pubTry_kept : ∀ (o : Seen) s, Kept o s → Kept o (@pubTry s) := by
  intros; unfold pubTry; grind [foldl_kept, foldl2_kept, pubFail_kept, engWrite_kept, State.setReg_kept, engRead_kept, State.devCommit_kept]

theorem pubCmd_kept : ∀ (o : Seen) s x1, Kept o s → Kept o (@pubCmd s x1) := by
  intros; unfold pubCmd; grind [foldl_kept, foldl2_kept, pubTry_kept]

theorem attFail_kept : ∀ (o : Seen) s x1, Kept o s → Kept o (@attFail s x1) := by
  intros; unfold attFail; grind [foldl_kept, foldl2_kept]

theorem attTry_kept : ∀ (o : Seen) s, Kept o s → Kept o (@attTry s) := by
  intros; simp only [attTry]; (repeat' split) <;> grind [foldl_kept, foldl2_kept, attFail_kept, engRead_kept, signedStatement_kept, engWrite_kept, State.setReg_kept]

theorem attCmd_kept : ∀ (o : Seen) s, Kept o s → Kept o (@attCmd s) := by
  intros; unfold attCmd; grind [foldl_kept, foldl2_kept, attTry_kept]

theorem keyResume_kept : ∀ (o : Seen) s, Kept o s → Kept o (@keyResume s) := by
  intros; unfold keyResume; grind [foldl_kept, foldl2_kept, keyTry_kept, attTry_kept, pubTry_kept]

theorem migBuffer_kept : ∀ (o : Seen) s, Kept o s → Kept o ((@migBuffer s).2) := by
  intros; unfold migBuffer; grind [foldl_kept, foldl2_kept, engRead_kept]

theorem insOffer_kept : ∀ (o : Seen) s x1, Kept o s → Kept o (@insOffer s x1) := by
  intros; unfold insOffer; grind [foldl_kept, foldl2_kept, rngDraw_kept, State.devCommit_kept, insHold_kept, insEnd_kept]

theorem insSave_kept : ∀ (o : Seen) s x1, Kept o s → Kept o (@insSave s x1) := by
  intros; unfold insSave; grind [foldl_kept, foldl2_kept, migBuffer_kept, insEnd_kept, saveBuild_kept, insCommit_kept]

theorem insResume_kept : ∀ (o : Seen) s, Kept o s → Kept o (@insResume s) := by
  intros; unfold insResume; grind [foldl_kept, foldl2_kept, insOffer_kept, offerMarked_kept, saveBuild_kept]

theorem saveStream_kept : ∀ (o : Seen) s, Kept o s → Kept o (@saveStream s) := by
  intro o s h
  unfold saveStream
  have h1 := migPut_kept o s (s.ins.image.drop s.ins.sent) h
  generalize migPut s (s.ins.image.drop s.ins.sent) = z at h1 ⊢
  obtain ⟨z1, z2⟩ := z
  split
  · refine if_kept h ?_
    cases z1 with
    | true => exact if_kept (insEnd_kept o _ _ h1) h1
    | false => exact h1
  · exact h

theorem insRestore_kept : ∀ (o : Seen) s x1 x2, Kept o s → Kept o (@insRestore s x1 x2) := by
  intros; simp only [insRestore]; (repeat' split) <;> grind [foldl_kept, foldl2_kept, insEnd_kept, readDesc_kept, migBuffer_kept, insCommit_kept, State.modInst_kept]

theorem insCmd_kept : ∀ (o : Seen) s x1 x2, Kept o s → Kept o (@insCmd s x1 x2) := by
  intros; unfold insCmd; grind [foldl_kept, foldl2_kept, insEnd_kept, insSave_kept, insOffer_kept, insRestore_kept, insLocal_kept]

theorem startKeeper_kept : ∀ (o : Seen) s x1, Kept o s → Kept o (@startKeeper s x1) := by
  intros; unfold startKeeper; grind [foldl_kept, foldl2_kept, State.setCtx_kept]

theorem clearKeeperData_kept : ∀ (o : Seen) s, Kept o s → Kept o (@clearKeeperData s) := by
  intro o s h; exact keptF_filter _ _ h

theorem setMode_kept : ∀ (o : Seen) s x1, Kept o s → Kept o (@setMode s x1) := by
  intros; unfold setMode; grind [foldl_kept, foldl2_kept]

theorem enterWorkshop_kept : ∀ (o : Seen) s, Kept o s → Kept o (@enterWorkshop s) := by
  intro o s h
  unfold enterWorkshop
  dsimp only
  have h1 : Kept o (redrawNonce (clearKeeperData (clearLanes { s with otp := { s.otp with
      lcWorkshop := min 1024 (s.otp.lcWorkshop + 1) } }))) :=
    redrawNonce_kept o _ (clearKeeperData_kept o _ (clearLanes_kept o _ (keptF_otp h workshop_fills)))
  generalize redrawNonce (clearKeeperData (clearLanes { s with otp := { s.otp with
      lcWorkshop := min 1024 (s.otp.lcWorkshop + 1) } })) = t at h1
  have h2 : Kept o (setMode { t with shg := { t.shg with cache := [] }, air := { t.air with roleLocked := false } }
      Mode.workshop) := setMode_kept o _ _ h1
  generalize setMode { t with shg := { t.shg with cache := [] }, air := { t.air with roleLocked := false } }
      Mode.workshop = u at h2
  have h3 := rngBytes_kept o u 32 h2
  generalize rngBytes u 32 = z at h3
  obtain ⟨z1, z2⟩ := z
  exact State.devCommit_kept o _ _ _ _ (startKeeper_kept o _ _ (modeEnd_kept o _ _ h3))

theorem leaveWorkshop_kept : ∀ (o : Seen) s x1, Kept o s → Kept o (@leaveWorkshop s x1) := by
  intros; unfold leaveWorkshop; grind [foldl_kept, foldl2_kept, setMode_kept, clearKeeperData_kept, clearLanes_kept, State.devCommit_kept,
    startKeeper_kept]

theorem terminalStatement_kept : ∀ (o : Seen) s x1, Kept o s → Kept o ((@terminalStatement s x1).2) := by
  intro o s n h
  unfold terminalStatement
  dsimp only
  split
  · next e => exact snd_of e (hybridSign_kept o _ _ _ h)
  · next e => exact snd_of e (hybridSign_kept o _ _ _ h)

theorem decommission_kept : ∀ (o : Seen) s, Kept o s → Kept o (@decommission s) := by
  intro o s h
  unfold decommission
  have h1 := terminalStatement_kept o s s.kpr.dnonce h
  dsimp only
  generalize terminalStatement s s.kpr.dnonce = z at h1 ⊢
  obtain ⟨z1, z2⟩ := z
  exact State.devCommit_kept o _ _ _ _ (modeEnd_kept o _ _ (redrawNonce_kept o _ (keptF_otp h1 statement_fills)))

theorem standbyAgreed_kept : ∀ (o : Seen) s, Kept o s → Kept o (@standbyAgreed s) := by
  intros; unfold standbyAgreed; grind [foldl_kept, foldl2_kept, airIdle_kept]

theorem setImage_kept : ∀ (o : Seen) s x1, Kept o s → Kept o (@setImage s x1) := by
  intros; unfold setImage; grind [foldl_kept, foldl2_kept, startMargin_kept]

theorem startMode_kept : ∀ (o : Seen) s x1, Kept o s → Kept o (@startMode s x1) := by
  intro o s good h
  unfold startMode
  dsimp only
  exact if_kept (setMode_kept o _ _ h) (if_kept (setMode_kept o _ _ h) (if_kept (setMode_kept o _ _ h)
    (if_kept (setMode_kept o _ _ (keptF_otp h recov_fills)) (startKeeper_kept o _ _ (setMode_kept o _ _ h)))))

theorem decisionAct_kept : ∀ (o : Seen) s x1, Kept o s → Kept o (@decisionAct s x1) := by
  intro o s d h
  unfold decisionAct
  cases d with
  | workshop => exact enterWorkshop_kept o _ h
  | service t => exact leaveWorkshop_kept o _ _ h
  | standby => exact standbyAgreed_kept o _ h
  | decommission => exact decommission_kept o _ h
  | startup => exact h
  | startMode _ => exact h
  | wake => exact wakeNow_kept o _ h
  | persoBegin =>
    have h1 := setMode_kept o _ Mode.personalise (eraseArea_kept o { s with otp := { s.otp with persoBegun := true } }
      (keptF_otp h begun_fills))
    exact State.devCommit_kept o _ _ _ _ (svcEnd_kept o _ _ _ _ (kept_of h1 rfl rfl rfl))
  | persoClose =>
    have h1 := svcEnd_kept o _ 0x06 St.ok [] (zeroRoot_kept o { s with otp := { s.otp with persoClosed := true } } 0
      (keptF_otp h closed_fills))
    exact deviceReset_kept o _ _ (kept_of h1 rfl rfl rfl)
  | imageSwap =>
    have h1 : Kept o { s with otp := { s.otp with swapCtr := min 64 (s.otp.swapCtr + 1) } } := keptF_otp h swap_fills
    exact svcEnd_kept o _ _ _ _ (kept_of h1 rfl rfl rfl)
  | recoveryExit =>
    have h1 := svcEnd_kept o _ 0x14 St.ok [] (redrawNonce_kept o _ h)
    have h2 := redrawNonce_kept o _ h
    dsimp only
    generalize redrawNonce s = u at h1 h2 ⊢
    have h3 : (svcEnd u 0x14 St.ok).otp = u.otp := rfl
    rw [← h3]
    generalize svcEnd u 0x14 St.ok = w at h1 ⊢
    exact deviceReset_kept o _ _ (keptF_otp h1 clear_fills)

theorem imageDecided_kept : ∀ (o : Seen) s x1, Kept o s → Kept o (@imageDecided s x1) := by
  intros; unfold imageDecided; grind [foldl_kept, foldl2_kept, decisionBegin_kept, setImage_kept]

theorem decisionSecond_kept : ∀ (o : Seen) s x1, Kept o s → Kept o (@decisionSecond s x1) := by
  intros; unfold decisionSecond; grind [foldl_kept, foldl2_kept, tamperRaise_kept, imageDecided_kept, decisionRefused_kept, startMode_kept,
    decisionAct_kept]

theorem decisionDeferred_kept : ∀ (o : Seen) s, Kept o s → Kept o (@decisionDeferred s) := by
  intros; unfold decisionDeferred; grind [foldl_kept, foldl2_kept, decisionBegin_kept, flopStart_kept]

theorem reqMode_kept : ∀ (o : Seen) s x1 x2, Kept o s → Kept o (@reqMode s x1 x2) := by
  intros; unfold reqMode; grind [foldl_kept, foldl2_kept, decisionBegin_kept, modeEnd_kept]

theorem reqWorkshop_kept : ∀ (o : Seen) s, Kept o s → Kept o (@reqWorkshop s) := by
  intros; unfold reqWorkshop; grind [foldl_kept, foldl2_kept, reqMode_kept]

theorem reqService_kept : ∀ (o : Seen) s, Kept o s → Kept o (@reqService s) := by
  intros; unfold reqService; grind [foldl_kept, foldl2_kept, reqMode_kept]

theorem reqDecommission_kept : ∀ (o : Seen) s, Kept o s → Kept o (@reqDecommission s) := by
  intros; unfold reqDecommission; grind [foldl_kept, foldl2_kept, reqMode_kept]

theorem reqStandby_kept : ∀ (o : Seen) s, Kept o s → Kept o (@reqStandby s) := by
  intros; unfold reqStandby; grind [foldl_kept, foldl2_kept, decisionBegin_kept, endWaits_kept, reqMode_kept]

theorem modeReq_kept : ∀ (o : Seen) s x1, Kept o s → Kept o (@modeReq s x1) := by
  intros; unfold modeReq; grind [foldl_kept, foldl2_kept, deviceReset_kept, reqWorkshop_kept, reqService_kept, reqStandby_kept,
    reqDecommission_kept, reqMode_kept]

theorem boundExpiry_kept : ∀ (o : Seen) s x1, Kept o s → Kept o (@boundExpiry s x1) := by
  intros; unfold boundExpiry; grind [foldl_kept, foldl2_kept, commitFails_kept, unqueue_kept]

theorem powerOn_kept : ∀ (o : Seen) s x1 x2 x3 x4, Kept o s → Kept o (@powerOn s x1 x2 x3 x4) := by
  intros; unfold powerOn; grind [foldl_kept, foldl2_kept, holdVhold_kept, tamperRaise_kept]

theorem resetN_kept : ∀ (o : Seen) s x1, Kept o s → Kept o (@resetN s x1) := by
  intros; unfold resetN; grind [foldl_kept, foldl2_kept, deviceReset_kept]

theorem svcResume_kept : ∀ (o : Seen) s, Kept o s → Kept o (@svcResume s) := by
  intros; unfold svcResume; grind [foldl_kept, foldl2_kept, svcEvidence_kept, svcKeygen_kept, svcAttest_kept]

theorem dropMarks_kept : ∀ (o : Seen) s, Kept o s → Kept o (@dropMarks s) := by
  intros; unfold dropMarks; grind [foldl_kept, foldl2_kept]

theorem spentKeys_kept : ∀ (o : Seen) s, Kept o s → Kept o (@spentKeys s) := by
  intros; unfold spentKeys; grind [foldl_kept, foldl2_kept, State.devCommit_kept]

theorem rebuildStrips_kept : ∀ (o : Seen) s, Kept o s → Kept o (@rebuildStrips s) := by
  intros; unfold rebuildStrips; grind [foldl_kept, foldl2_kept]

theorem replayComplete_kept : ∀ (o : Seen) s, Kept o s → Kept o (@replayComplete s) := by
  intros; unfold replayComplete; grind [foldl_kept, foldl2_kept, dropMarks_kept, svcResume_kept, keyResume_kept, spentKeys_kept, limitRaise_kept,
    rebuildStrips_kept]

theorem randResume_kept : ∀ (o : Seen) s, Kept o s → Kept o (@randResume s) := by
  intros; unfold randResume; grind [foldl_kept, foldl2_kept, randTry_kept]

theorem rootsChecked_kept : ∀ (o : Seen) s, Kept o s → Kept o (@rootsChecked s) := by
  intros; unfold rootsChecked; grind [foldl_kept, foldl2_kept, newRoot_kept, zeroRoot_kept, tamperRaise_kept]

theorem seeded_kept : ∀ (o : Seen) s, Kept o s → Kept o (@seeded s) := by
  intros; unfold seeded; grind [foldl_kept, foldl2_kept, redrawNonce_kept, rootsChecked_kept, rngBytes_kept, decisionBegin_kept]

theorem blockTested_kept : ∀ (o : Seen) s x1 x2 x3, Kept o s → Kept o (@blockTested s x1 x2 x3) := by
  intro o s l rep prop h
  unfold blockTested
  have h1 := rngBlock_kept o s rep prop h
  generalize rngBlock s rep prop = z at h1 ⊢
  obtain ⟨f, u⟩ := z
  cases f with
  | true =>
    dsimp only
    refine tamperRaise_kept o _ _ _ _ ?_
    refine if_last ?_ fun hz => decisionDeferred_kept o _ hz
    refine svcResume_kept o _ (insResume_kept o _ (keyResume_kept o _ (randResume_kept o _ ?_)))
    have h2 : Kept o { u with otp := { u.otp with rpSet := min 1024 (u.otp.rpSet + 1) } } := keptF_otp h1 rpSet_fills
    exact if_kept h1 (kept_of h2 rfl rfl rfl)
  | false =>
    dsimp only
    have h2 := putSeed_kept o u l h1
    generalize putSeed u l = v at h2 ⊢
    refine if_kept h1 (if_kept (if_kept ?_ h2) (if_kept ?_ (kept_of h1 rfl rfl rfl)))
    · exact svcResume_kept o _ (insResume_kept o _ (keyResume_kept o _ (randResume_kept o _ (reseed_kept o _ h2))))
    · exact seeded_kept o _ (instantiate_kept o _ (putSeed_kept o _ _ (kept_of h1 rfl rfl rfl)))

theorem rawBlock_kept : ∀ (o : Seen) s x1 x2, Kept o s → Kept o (@rawBlock s x1 x2) := by
  intros; unfold rawBlock; grind [foldl_kept, foldl2_kept, blockTested_kept]

theorem startupRecords_kept : ∀ (o : Seen) s, Kept o s → Kept o (@startupRecords s) := by
  intros; unfold startupRecords; grind [foldl_kept, foldl2_kept, State.devCommit_kept]

theorem brkLow_kept : ∀ (o : Seen) s x1, Kept o s → Kept o (@brkLow s x1) := by
  intros; unfold brkLow; grind [foldl_kept, foldl2_kept, failEach_kept, tamperRaise_kept]

theorem measureStart_kept : ∀ (o : Seen) s, Kept o s → Kept o (@measureStart s) := by
  intros; unfold measureStart; grind [foldl_kept, foldl2_kept, State.setReg_kept]

theorem measured__kept : ∀ (o : Seen) s x1, Kept o s → Kept o (@measured_ s x1) := by
  intros; unfold measured_; grind [foldl_kept, foldl2_kept, holdVhold_kept, State.setReg_kept, brkLow_kept]

theorem State.draw_kept : ∀ (o : Seen) s, Kept o s → Kept o ((@State.draw s).2) := by
  intros; unfold State.draw; grind [foldl_kept, foldl2_kept]

theorem State.byKeeper_kept : ∀ (o : Seen) s x1, Kept o s → ((∀ y20_0, Kept o y20_0 → Kept o (x1 y20_0))) → Kept o (@State.byKeeper s x1) := by
  intros; unfold State.byKeeper; grind [foldl_kept, foldl2_kept]

theorem drainBuf_kept : ∀ (o : Seen) x1 x2 s, Kept o s → Kept o (@drainBuf x1 x2 s) := by
  intro o k n
  induction n with
  | zero => intro s h; exact h
  | succ n ih =>
    intro s h
    unfold drainBuf
    split
    · exact h
    · next e l _ =>
      have h1 := postNow_kept o s k e h
      generalize postNow s k e = z at h1 ⊢
      obtain ⟨z1, z2⟩ := z
      cases z1 with
      | true => exact ih _ (State.setPbuf_kept o _ _ _ h1)
      | false => exact h

theorem complete_kept : ∀ (o : Seen) s x1 x2 x3 x4 x5, Kept o s → Kept o (@complete s x1 x2 x3 x4 x5) := by
  intros; unfold complete; grind [foldl_kept, foldl2_kept, postEntry_kept]

theorem takeReq_kept : ∀ (o : Seen) s x1, Kept o s → Kept o ((@takeReq s x1).2) := by
  intro o s k h
  unfold takeReq
  dsimp only
  split
  · exact h
  · split
    · exact h
    · next e =>
      have h1 := ringHeadEntry_kept o s _ none h _ e
      split
      · exact complete_kept o _ _ _ _ _ _ (kept_of h1 rfl rfl rfl)
      · exact h1

theorem transmit_kept : ∀ (o : Seen) s x1 x2 x3, Kept o s → ((∀ y20_0, Kept o y20_0 → Kept o (x3 y20_0))) → Kept o (@transmit s x1 x2 x3) := by
  intros; unfold transmit; grind [foldl_kept, foldl2_kept, egress_kept, complete_kept]

theorem event_kept : ∀ (o : Seen) s x1 x2 x3 x4 x5 x6 x7 x8, Kept o s → Kept o (@event s x1 x2 x3 x4 x5 x6 x7 x8) := by
  intros; unfold event; grind [foldl_kept, foldl2_kept, postEntry_kept]

theorem withdrawal_kept : ∀ (o : Seen) s x1 x2 x3 x4 x5, Kept o s → Kept o (@withdrawal s x1 x2 x3 x4 x5) := by
  intros; unfold withdrawal; grind [foldl_kept, foldl2_kept, State.devCommit_kept]

theorem setCrd_kept : ∀ (o : Seen) s x1, Kept o s → Kept o (@setCrd s x1) := by
  intros; unfold setCrd; grind [foldl_kept, foldl2_kept]

theorem setCard_kept : ∀ (o : Seen) s x1 x2, Kept o s → Kept o (@setCard s x1 x2) := by
  intros; unfold setCard; grind [foldl_kept, foldl2_kept, setCrd_kept]

theorem identify_kept : ∀ (o : Seen) x1 x2 s, Kept o s → Kept o (@identify x1 x2 s) := by
  intro o slot l
  induction l with
  | nil => intro s h; exact h
  | cons c l ih =>
    intro s h
    unfold identify
    split
    · exact h
    · exact ih _ (event_kept o _ _ _ _ _ _ _ _ _ (setCard_kept o _ _ _ h))

theorem crdEnable_kept : ∀ (o : Seen) s x1, Kept o s → Kept o (@crdEnable s x1) := by
  intros; unfold crdEnable; grind [foldl_kept, foldl2_kept, identify_kept, State.setReg_kept]

theorem crdDisable_kept : ∀ (o : Seen) s, Kept o s → Kept o (@crdDisable s) := by
  intros; unfold crdDisable; grind [foldl_kept, foldl2_kept, setCrd_kept, State.setReg_kept]

theorem cardInsert_kept : ∀ (o : Seen) s x1 x2, Kept o s → Kept o (@cardInsert s x1 x2) := by
  intros; unfold cardInsert; grind [foldl_kept, foldl2_kept, wakeSource_kept, setCrd_kept, event_kept, identify_kept]

theorem cardEnd_kept : ∀ (o : Seen) s x1 x2 x3, Kept o s → Kept o (@cardEnd s x1 x2 x3) := by
  intros; unfold cardEnd; grind [foldl_kept, foldl2_kept, State.incReg_kept, complete_kept, setCrd_kept]

theorem removedRun_kept : ∀ (o : Seen) s x1, Kept o s → Kept o (@removedRun s x1) := by
  intros; unfold removedRun; grind [foldl_kept, foldl2_kept, setCrd_kept, State.incReg_kept, withdrawal_kept, cardEnd_kept]

theorem cardRemove_kept : ∀ (o : Seen) s x1, Kept o s → Kept o (@cardRemove s x1) := by
  intros; unfold cardRemove; grind [foldl_kept, foldl2_kept, wakeSource_kept, setCrd_kept, State.incReg_kept, removedRun_kept, setCard_kept,
    event_kept]

theorem sendCommand_kept : ∀ (o : Seen) s x1, Kept o s → Kept o (@sendCommand s x1) := by
  intros; unfold sendCommand; grind [foldl_kept, foldl2_kept]

theorem cardServe_kept : ∀ (o : Seen) s x1, Kept o s → Kept o (@cardServe s x1) := by
  intros; simp only [cardServe]; (repeat' split) <;> grind [foldl_kept, foldl2_kept, complete_kept, sendCommand_kept, setCrd_kept, transmit_kept]

theorem cardTake_kept : ∀ (o : Seen) s x1 x2, Kept o s → Kept o (@cardTake s x1 x2) := by
  intros; unfold cardTake; grind [foldl_kept, foldl2_kept, takeReq_kept, setCrd_kept, cardServe_kept]

theorem setRun_kept : ∀ (o : Seen) s x1, Kept o s → Kept o (@setRun s x1) := by
  intros; unfold setRun; grind [foldl_kept, foldl2_kept, setCrd_kept]

theorem cardCrc_kept : ∀ (o : Seen) s x1, Kept o s → Kept o (@cardCrc s x1) := by
  intros; unfold cardCrc; grind [foldl_kept, foldl2_kept, State.incReg_kept, sendCommand_kept, setRun_kept, cardEnd_kept]

theorem cardState_kept : ∀ (o : Seen) s x1 x2, Kept o s → Kept o (@cardState s x1 x2) := by
  intros; unfold cardState; grind [foldl_kept, foldl2_kept, setCard_kept]

theorem cardStatusOk_kept : ∀ (o : Seen) s x1 x2, Kept o s → Kept o (@cardStatusOk s x1 x2) := by
  intros; unfold cardStatusOk; grind [foldl_kept, foldl2_kept, setCard_kept, cardState_kept, cardEnd_kept, sendCommand_kept, setRun_kept]

end Sys2Proof.Machine
end

