-- ==== Sys2Proof/Laws/KeptCommands.lean ====
section
/-! SUPPORT. What the operations keep, the last part. -/

namespace Sys2Proof.Machine

set_option linter.all false

theorem cardResponse_kept : ∀ (o : Seen) s x1, Kept o s → Kept o (@cardResponse s x1) := by
  intros; unfold cardResponse; grind [foldl_kept, foldl2_kept, cardStatusOk_kept, cardCrc_kept, cardEnd_kept, setRun_kept]

theorem setIso_kept : ∀ (o : Seen) s x1 x2, Kept o s → Kept o (@setIso s x1 x2) := by
  intros; unfold setIso; grind [foldl_kept, foldl2_kept]

theorem isoError_kept : ∀ (o : Seen) s x1, Kept o s → Kept o (@isoError s x1) := by
  intros; unfold isoError; grind [foldl_kept, foldl2_kept, State.incReg_kept]

theorem isoEnd_kept : ∀ (o : Seen) s x1 x2 x3 x4 x5 x6, Kept o s → Kept o (@isoEnd s x1 x2 x3 x4 x5 x6) := by
  intros; unfold isoEnd; grind [foldl_kept, foldl2_kept, setIso_kept, complete_kept]

theorem isoTake_kept : ∀ (o : Seen) s x1 x2 x3, Kept o s → ((∀ y20_0 y20_1, Kept o y20_0 → Kept o (x3 y20_0 y20_1))) → Kept o (@isoTake s x1 x2 x3) := by
  intros; unfold isoTake; grind [foldl_kept, foldl2_kept, takeReq_kept, complete_kept]

theorem isoActivate_kept : ∀ (o : Seen) s x1, Kept o s → Kept o (@isoActivate s x1) := by
  intros; unfold isoActivate; grind [foldl_kept, foldl2_kept, isoTake_kept, complete_kept, setIso_kept]

theorem isoExchange_kept : ∀ (o : Seen) s x1, Kept o s → Kept o (@isoExchange s x1) := by
  intros; unfold isoExchange; grind [foldl_kept, foldl2_kept, isoTake_kept, complete_kept, transmit_kept, setIso_kept]

theorem isoDeactivate_kept : ∀ (o : Seen) s x1, Kept o s → Kept o (@isoDeactivate s x1) := by
  intros; unfold isoDeactivate; grind [foldl_kept, foldl2_kept, isoTake_kept, complete_kept, setIso_kept]

theorem isoRetry_kept : ∀ (o : Seen) s x1, Kept o s → Kept o (@isoRetry s x1) := by
  intros; unfold isoRetry; grind [foldl_kept, foldl2_kept, isoEnd_kept, isoError_kept, setIso_kept]

theorem isoReceive_kept : ∀ (o : Seen) s x1 x2, Kept o s → Kept o (@isoReceive s x1 x2) := by
  intros; unfold isoReceive; grind [foldl_kept, foldl2_kept, isoEnd_kept, isoRetry_kept, setIso_kept, isoError_kept]

theorem isoPresence_kept : ∀ (o : Seen) s x1 x2, Kept o s → Kept o (@isoPresence s x1 x2) := by
  intros; unfold isoPresence; grind [foldl_kept, foldl2_kept, wakeSource_kept, setIso_kept, withdrawal_kept, isoEnd_kept, event_kept]

theorem setCan_kept : ∀ (o : Seen) s x1 x2, Kept o s → Kept o (@setCan s x1 x2) := by
  intros; unfold setCan; grind [foldl_kept, foldl2_kept]

theorem canReceive_kept : ∀ (o : Seen) s x1 x2, Kept o s → Kept o (@canReceive s x1 x2) := by
  intros; unfold canReceive; grind [foldl_kept, foldl2_kept, setCan_kept, event_kept]

theorem canTransmit_kept : ∀ (o : Seen) s x1, Kept o s → Kept o (@canTransmit s x1) := by
  intros; unfold canTransmit; grind [foldl_kept, foldl2_kept, takeReq_kept, complete_kept, transmit_kept, setCan_kept]

theorem canAck_kept : ∀ (o : Seen) s x1, Kept o s → Kept o (@canAck s x1) := by
  intros; unfold canAck; grind [foldl_kept, foldl2_kept, complete_kept, setCan_kept]

theorem canError_kept : ∀ (o : Seen) s x1 x2 x3, Kept o s → Kept o (@canError s x1 x2 x3) := by
  intros; unfold canError; grind [foldl_kept, foldl2_kept, setCan_kept, complete_kept, event_kept]

theorem setPulse_kept : ∀ (o : Seen) s x1 x2, Kept o s → Kept o (@setPulse s x1 x2) := by
  intros; unfold setPulse; grind [foldl_kept, foldl2_kept]

theorem pulseEdge_kept : ∀ (o : Seen) s x1 x2 x3, Kept o s → Kept o (@pulseEdge s x1 x2 x3) := by
  intros; unfold pulseEdge; grind [foldl_kept, foldl2_kept, State.statInc_kept, setPulse_kept]

theorem pulseReport_kept : ∀ (o : Seen) s x1, Kept o s → Kept o (@pulseReport s x1) := by
  intros; unfold pulseReport; grind [foldl_kept, foldl2_kept, setPulse_kept, event_kept]

theorem sensorRequest_kept : ∀ (o : Seen) s, Kept o s → Kept o (@sensorRequest s) := by
  intros; unfold sensorRequest; grind [foldl_kept, foldl2_kept, takeReq_kept, complete_kept, transmit_kept]

theorem sensorEnd_kept : ∀ (o : Seen) s x1 x2 x3 x4, Kept o s → Kept o (@sensorEnd s x1 x2 x3 x4) := by
  intros; unfold sensorEnd; grind [foldl_kept, foldl2_kept, complete_kept]

theorem sensorAnswer_kept : ∀ (o : Seen) s x1 x2 x3, Kept o s → Kept o (@sensorAnswer s x1 x2 x3) := by
  intros; unfold sensorAnswer; grind [foldl_kept, foldl2_kept, sensorEnd_kept, State.incReg_kept]

theorem setGnss_kept : ∀ (o : Seen) s x1, Kept o s → Kept o (@setGnss s x1) := by
  intros; unfold setGnss; grind [foldl_kept, foldl2_kept]

theorem gnssClose_kept : ∀ (o : Seen) s, Kept o s → Kept o (@gnssClose s) := by
  intros; unfold gnssClose; grind [foldl_kept, foldl2_kept, event_kept, setGnss_kept]

theorem gnssByte_kept : ∀ (o : Seen) s x1, Kept o s → Kept o (@gnssByte s x1) := by
  intros; unfold gnssByte; grind [foldl_kept, foldl2_kept, setGnss_kept, gnssClose_kept]

theorem discipline_kept : ∀ (o : Seen) s x1, Kept o s → Kept o (@discipline s x1) := by
  intros; unfold discipline; grind [foldl_kept, foldl2_kept, setGnss_kept, event_kept]

theorem ppsEdge_kept : ∀ (o : Seen) s x1, Kept o s → Kept o (@ppsEdge s x1) := by
  intros; unfold ppsEdge; grind [foldl_kept, foldl2_kept, wakeSource_kept, setGnss_kept, discipline_kept, event_kept]

theorem timeSet_kept : ∀ (o : Seen) s x1 x2, Kept o s → Kept o (@timeSet s x1 x2) := by
  intros; unfold timeSet; grind [foldl_kept, foldl2_kept, setGnss_kept, State.devCommit_kept, epochBoundary_kept, epochNow_kept,
    State.raiseIrq_kept]

theorem timeCmd_kept : ∀ (o : Seen) s x1, Kept o s → Kept o (@timeCmd s x1) := by
  intros; unfold timeCmd; grind [foldl_kept, foldl2_kept, timeSet_kept, setGnss_kept]

theorem pinsLost_kept : ∀ (o : Seen) s x1, Kept o s → Kept o (@pinsLost s x1) := by
  intros; unfold pinsLost; grind [foldl_kept, foldl2_kept, cardEnd_kept, isoEnd_kept, sensorEnd_kept, complete_kept, setCan_kept]

theorem vioChange_kept : ∀ (o : Seen) s x1 x2 x3, Kept o s → Kept o (@vioChange s x1 x2 x3) := by
  intros; unfold vioChange; grind [foldl_kept, foldl2_kept, pinsLost_kept]

theorem rgnHi_kept : ∀ (o : Seen) s x1 x2, Kept o s → Kept o (@rgnHi s x1 x2) := by
  intros; unfold rgnHi; grind [foldl_kept, foldl2_kept, State.setReg_kept, State.setMpu_kept]

theorem mpuWrite_kept : ∀ (o : Seen) s x1 x2, Kept o s → Kept o (@mpuWrite s x1 x2) := by
  intros; unfold mpuWrite; grind [foldl_kept, foldl2_kept, State.setMpu_kept, rgnHi_kept]

theorem escCtrl_kept : ∀ (o : Seen) s x1 x2 x3, Kept o s → Kept o (@escCtrl s x1 x2 x3) := by
  intros; unfold escCtrl; grind [foldl_kept, foldl2_kept, State.setCtx_kept, haltInst_kept]

theorem bankWrite_kept : ∀ (o : Seen) s x1 x2, Kept o s → Kept o (@bankWrite s x1 x2) := by
  intros; unfold bankWrite; grind [foldl_kept, foldl2_kept, State.setReg_kept]

theorem krangeWrite_kept : ∀ (o : Seen) s x1, Kept o s → Kept o (@krangeWrite s x1) := by
  intros; unfold krangeWrite; grind [foldl_kept, foldl2_kept, bankWrite_kept]

theorem crdCtrl_kept : ∀ (o : Seen) s x1, Kept o s → Kept o (@crdCtrl s x1) := by
  intros; unfold crdCtrl; grind [foldl_kept, foldl2_kept, State.setReg_kept, crdEnable_kept, crdDisable_kept]

theorem canCtrl_kept : ∀ (o : Seen) s x1 x2, Kept o s → Kept o (@canCtrl s x1 x2) := by
  intros; unfold canCtrl; grind [foldl_kept, foldl2_kept, bankWrite_kept, setCan_kept]

theorem evfThresh_kept : ∀ (o : Seen) s x1, Kept o s → Kept o (@evfThresh s x1) := by
  intros; unfold evfThresh; grind [foldl_kept, foldl2_kept, bankWrite_kept, State.setReg_kept]

theorem ringCfg_kept : ∀ (o : Seen) s x1, Kept o s → Kept o (@ringCfg s x1) := by
  intros; unfold ringCfg; grind [foldl_kept, foldl2_kept, failWaiters_kept, State.setRing_kept, State.setReg_kept]

theorem ringBase_kept : ∀ (o : Seen) s x1 x2, Kept o s → Kept o (@ringBase s x1 x2) := by
  intros; unfold ringBase; grind [foldl_kept, foldl2_kept, State.setRing_kept]

theorem ringIrqReg_kept : ∀ (o : Seen) s x1, Kept o s → Kept o (@ringIrqReg s x1) := by
  intros; unfold ringIrqReg; grind [foldl_kept, foldl2_kept, State.setRing_kept]

theorem ringCtrl_kept : ∀ (o : Seen) s x1, Kept o s → Kept o (@ringCtrl s x1) := by
  intros; unfold ringCtrl; grind [foldl_kept, foldl2_kept, discardRing_kept, resumeRing_kept, stopRing_kept]

theorem hifWrite_kept : ∀ (o : Seen) s x1, Kept o s → Kept o (@hifWrite s x1) := by
  intros; unfold hifWrite; grind [foldl_kept, foldl2_kept, State.setReg_kept, stopRings_kept]

theorem stlCmd_kept : ∀ (o : Seen) s x1, Kept o s → Kept o (@stlCmd s x1) := by
  intros; unfold stlCmd; grind [foldl_kept, foldl2_kept]

theorem regStore_kept : ∀ (o : Seen) s x1 x2, Kept o s → Kept o (@regStore s x1 x2) := by
  intro o s a v h
  unfold regStore
  dsimp only
  refine if_kept (modeReq_kept o _ _ h) (if_kept (insCmd_kept o _ _ _ h) (if_kept (ringCfg_kept o _ _ h)
    (if_kept (ringBase_kept o _ _ _ h) (if_kept (ringBase_kept o _ _ _ h) (if_kept (ringIrqReg_kept o _ _ h)
    (if_kept (ringCtrl_kept o _ _ h) (if_kept (hifWrite_kept o _ _ h) (if_kept (krangeWrite_kept o _ _ h)
    (if_kept (if_kept (bankWrite_kept o _ _ _ h) h) (if_kept (stlCmd_kept o _ _ h) (if_kept (airCtrl_kept o _ _ h) ?_)))))))))))
  refine if_kept (if_kept h (bankWrite_kept o _ _ _ h)) (if_kept (pubCmd_kept o _ _ h) (if_kept (keyCmd_kept o _ _ h)
    (if_kept (if_kept (attCmd_kept o _ h) h) (if_kept (rsadd_kept o _ _ h) (if_kept (evfThresh_kept o _ _ h)
    (if_kept (crdCtrl_kept o _ _ h) (if_kept (canCtrl_kept o _ _ _ h) (if_kept (canCtrl_kept o _ _ _ h) ?_))))))))
  exact if_kept (timeCmd_kept o _ _ h) (if_kept (escCtrl_kept o _ _ _ _ h) (if_kept (mpuWrite_kept o _ _ _ h)
    (if_kept h (bankWrite_kept o _ _ _ h))))

theorem rcClear_kept : ∀ (o : Seen) s x1 x2, Kept o s → Kept o (@rcClear s x1 x2) := by
  intros; unfold rcClear; grind [foldl_kept, foldl2_kept, State.setReg_kept]

theorem latchRead_kept : ∀ (o : Seen) s x1 x2 x3, Kept o s → Kept o (@latchRead s x1 x2 x3) := by
  intros; unfold latchRead; grind [foldl_kept, foldl2_kept]

theorem regTouched_kept : ∀ (o : Seen) s x1 x2 x3 x4, Kept o s → Kept o (@regTouched s x1 x2 x3 x4) := by
  intros; unfold regTouched; grind [foldl_kept, foldl2_kept, rcClear_kept, latchRead_kept]

theorem regLoaded_kept : ∀ (o : Seen) s x1 x2 x3 x4, Kept o s → Kept o (@regLoaded s x1 x2 x3 x4) := by
  intros; unfold regLoaded; grind [foldl_kept, foldl2_kept, regTouched_kept]

theorem syl_kept : ∀ (o : Seen) s x1 x2 x3 x4 x5, Kept o s → Kept o (@syl s x1 x2 x3 x4 x5) := by
  intros; unfold syl; grind [foldl_kept, foldl2_kept, runSyl_kept, regStore_kept, regLoaded_kept]

theorem ringWait_kept : ∀ (o : Seen) s x1 x2 x3, Kept o s → Kept o (@ringWait s x1 x2 x3) := by
  intros; unfold ringWait; grind [foldl_kept, foldl2_kept, State.setRing_kept]

theorem ringUnwait_kept : ∀ (o : Seen) s x1 x2 x3, Kept o s → Kept o (@ringUnwait s x1 x2 x3) := by
  intros; unfold ringUnwait; grind [foldl_kept, foldl2_kept, State.setRing_kept]

theorem qputTry_kept : ∀ (o : Seen) s x1 x2 x3 x4, Kept o s → Kept o (@qputTry s x1 x2 x3 x4) := by
  intros; simp only [qputTry]; (repeat' split) <;> grind [foldl_kept, foldl2_kept, State.tkDone_kept, takeSources_kept, ringWait_kept, srcFault_kept, ringUnwait_kept, State.statInc_kept, egress_kept, ringPut_kept]

theorem qgetTry_kept : ∀ (o : Seen) s x1 x2 x3 x4 x5, Kept o s → Kept o (@qgetTry s x1 x2 x3 x4 x5) := by
  intro o s i t p f up h
  unfold qgetTry
  dsimp only
  refine if_kept (State.tkDone_kept o _ _ _ _ _ _ _ h) ?_
  split
  · exact State.tkDone_kept o _ _ _ _ _ _ _ h
  · refine if_kept (if_kept (State.tkDone_kept o _ _ _ _ _ _ _ h) (ringWait_kept o _ _ _ _ h)) ?_
    have h1 := ringUnwait_kept o s i t (p.num 1) h
    generalize ringUnwait s i t (p.num 1) = u at h1 ⊢
    refine if_kept (if_kept (State.tkDone_kept o _ _ _ _ _ _ _ h1) (if_kept (haltRing_kept o _ _ _ _
      (State.tkDone_kept o _ _ _ _ _ _ _ h1)) (deliverTo_kept o _ _ _ _ _ _ _ _ h1)))
      (if_kept (State.tkDone_kept o _ _ _ _ _ _ _ h1) ?_)
    split
    · exact State.tkDone_kept o _ _ _ _ _ _ _ h1
    · next e =>
      have h2 := ringHeadEntry_kept o u _ _ h1 _ e
      exact if_kept (State.tkDone_kept o _ _ _ _ _ _ _ (engWrite_kept o _ _ _ _ _ h2)) (deliverTo_kept o _ _ _ _ _ _ _ _ h2)

theorem readRequest_kept : ∀ (o : Seen) s x1 x2, Kept o s → (∀ t0, @readRequest s x1 x2 = some t0 → Kept o ((t0).2)) := by
  intro o s op q h t e
  unfold readRequest at e
  dsimp only at e
  split at e
  · cases e; exact h
  · split at e
    · cases e
    · next i _ _ =>
      have h1 := takeRing_kept o s (s.descF i .rdRing) h
      generalize takeRing s (s.descF i .rdRing) = z at e h1
      obtain ⟨p, u⟩ := z
      cases p with
      | none => cases e; exact h1
      | some p =>
        dsimp only at e
        split at e
        · cases e; exact h1
        · split at e
          · cases e; exact h1
          · cases e; exact h1

theorem readDeliver_kept : ∀ (o : Seen) s x1 x2 x3 x4, Kept o s → Kept o (((@readDeliver s x1 x2 x3 x4).2).2) := by
  intro o s q who l
  induction l generalizing s with
  | nil => intro n h; exact h
  | cons p l ih =>
    intro n h
    unfold readDeliver
    dsimp only
    split
    · exact carryFault_kept o _ _ _ _ h
    · have h1 := engWrite_kept o s (q.dest + p.1) p.2 who q.upset h
      generalize engWrite s (q.dest + p.1) p.2 who q.upset = z at h1 ⊢
      obtain ⟨b, u⟩ := z
      cases b with
      | true => exact ih _ _ h1
      | false => exact h1

theorem readServe_kept : ∀ (o : Seen) s x1 x2, Kept o s → Kept o (@readServe s x1 x2) := by
  intro o s op q h
  unfold readServe
  refine if_kept h ?_
  split
  · exact h
  · next e => exact kept_of (readRequest_kept o s op q h _ e) rfl rfl rfl
  · next e =>
    have h1 := readRequest_kept o s op q h _ e
    dsimp only
    exact kept_of (readDeliver_kept o _ _ _ _ _ h1) rfl rfl rfl

theorem svcCall_kept : ∀ (o : Seen) s x1 x2 x3, Kept o s → Kept o (@svcCall s x1 x2 x3) := by
  intros; unfold svcCall; grind [foldl_kept, foldl2_kept, svcCmd_kept]

theorem cacheAccess_kept : ∀ (o : Seen) s x1, Kept o s → (∀ t0, @cacheAccess s x1 = some t0 → Kept o (t0)) := by
  intro o s k h t e
  unfold cacheAccess at e
  dsimp only at e
  split at e
  · cases e; exact h
  · split at e
    · cases e; exact h
    · split at e
      · cases e; exact h
      · cases e

theorem cnewTake_kept : ∀ (o : Seen) s x1, Kept o s → (∀ t0, @cnewTake s x1 = some t0 → Kept o ((t0).2)) := by
  intro o s q h t e
  unfold cnewTake at e
  split at e
  · cases e
  · cases e; exact h

theorem State.setStlGen_kept : ∀ (o : Seen) s x1 x2, Kept o s → Kept o (@State.setStlGen s x1 x2) := by
  intros; unfold State.setStlGen; grind [foldl_kept, foldl2_kept]

theorem lookNow_kept : ∀ (o : Seen) s x1, Kept o s → Kept o ((@lookNow s x1).2) := by
  intros; unfold lookNow; grind [foldl_kept, foldl2_kept, State.incReg_kept]

theorem stlEditDone_kept : ∀ (o : Seen) s, Kept o s → Kept o (@stlEditDone s) := by
  intros; unfold stlEditDone; grind [foldl_kept, foldl2_kept, State.setStlGen_kept]

theorem stlLoad_kept : ∀ (o : Seen) s x1, Kept o s → Kept o (@stlLoad s x1) := by
  intros; unfold stlLoad; grind [foldl_kept, foldl2_kept, State.setStlGen_kept]

theorem idle_kept : ∀ (o : Seen) s, Kept o s → Kept o (@idle s) := by
  intros; unfold idle; grind [foldl_kept, foldl2_kept]

theorem State.withFetchWord_kept : ∀ (o : Seen) s x1 x2, Kept o s → Kept o (@State.withFetchWord s x1 x2) := by
  intros; unfold State.withFetchWord; grind [foldl_kept, foldl2_kept]

theorem stripSigned_kept : ∀ (o : Seen) s x1 x2, Kept o s → Kept o (@stripSigned s x1 x2) := by
  intros; unfold stripSigned; grind [foldl_kept, foldl2_kept, hybridSign_kept, State.statInc_kept]

theorem bandSeal_kept : ∀ (o : Seen) s x1, Kept o s → Kept o (@bandSeal s x1) := by
  intros; unfold bandSeal; grind [foldl_kept, foldl2_kept, hybridSign_kept]

theorem tamperSource_kept : ∀ (o : Seen) s x1 x2 x3, Kept o s → Kept o (@tamperSource s x1 x2 x3) := by
  intros; unfold tamperSource; grind [foldl_kept, foldl2_kept, rateEvent_kept, tamperRaise_kept]

theorem govern_kept : ∀ (o : Seen) s x1, Kept o s → Kept o (@govern s x1) := by
  intro o s q h
  unfold govern
  split
  · exact h
  · have h1 : ∀ a b c d e f g i j k l m n p, Kept o (((((((s.setReg a b).setReg c d).setReg e f).setReg g i).setReg j k).statMax
      l m).statMax n p) := fun _ _ _ _ _ _ _ _ _ _ _ _ _ _ =>
      State.statMax_kept o _ _ _ (State.statMax_kept o _ _ _ (State.setReg_kept o _ _ _ (State.setReg_kept o _ _ _
        (State.setReg_kept o _ _ _ (State.setReg_kept o _ _ _ (State.setReg_kept o _ _ _ h))))))
    dsimp only
    split
    · exact h1 _ _ _ _ _ _ _ _ _ _ _ _ _ _
    · exact State.incReg_kept o _ _ _ (State.setReg_kept o _ _ _ (h1 _ _ _ _ _ _ _ _ _ _ _ _ _ _))

theorem volumeFullRec_kept : ∀ (o : Seen) s x1, Kept o s → Kept o (@volumeFullRec s x1) := by
  intros; unfold volumeFullRec; grind [foldl_kept, foldl2_kept, State.raiseIrq_kept, State.devRecord_kept]

theorem commitIssue_kept : ∀ (o : Seen) s x1 x2 x3 x4, Kept o s → Kept o (@commitIssue s x1 x2 x3 x4) := by
  intros; unfold commitIssue; grind [foldl_kept, foldl2_kept, commitFails_kept, volumeFullRec_kept, lockFor_kept, State.enqueue_kept]

theorem fullStrips_kept : ∀ (o : Seen) s x1 x2, Kept o s → Kept o (@fullStrips s x1 x2) := by
  intro o s d l h
  unfold fullStrips
  have : ∀ (l : List Eff) (a : State × Durable), Kept o a.1 → Kept o (l.foldl (fun (acc : State × Durable) e =>
    match e with
    | .record v r =>
      let x := acc.2.vol v
      let s := if x.isOpen ∧ r.strip ≠ x.strip then
          let y := acc.1.dur.vol v
          { acc.1 with
            dur := acc.1.dur.setVol v { y with
              reqs := y.reqs ++ [(x.strip, 0, s.kpr.devtime, (s.reg Reg.STAT_EPOCH).toNat)] } }
        else acc.1
      (s, applyEff acc.2 e)
    | e => (acc.1, applyHome (applyEff acc.2 e) e)) a).1 := by
    intro l
    induction l with
    | nil => intro a h; exact h
    | cons e l ih =>
      intro a ha
      refine ih _ ?_
      cases e <;> try exact ha
      dsimp only
      split
      · exact kept_of ha rfl rfl rfl
      · exact ha
  exact this l (s, d) h

theorem admitCommit_kept : ∀ (o : Seen) s x1, Kept o s → Kept o (@admitCommit s x1) := by
  intros; simp only [admitCommit]; (repeat' split) <;> grind [foldl_kept, foldl2_kept, unqueue_kept, fullStrips_kept, State.statInc_kept, State.statMax_kept, settleStrips_kept, foldAdmitted_kept, volumeFullRec_kept]

theorem admitOrFail_kept : ∀ (o : Seen) s x1, Kept o s → Kept o (@admitOrFail s x1) := by
  intros; unfold admitOrFail; grind [foldl_kept, foldl2_kept, commitFails_kept, unqueue_kept, volumeFullRec_kept, admitCommit_kept]

theorem admission_kept : ∀ (o : Seen) s, Kept o s → Kept o (@admission s) := by
  intros; unfold admission; grind [foldl_kept, foldl2_kept, commitFails_kept, unqueue_kept, admitOrFail_kept]

theorem learn_kept : ∀ (o : Seen) s x1 x2, Kept o s → Kept o (@learn s x1 x2) := by
  intros; unfold learn; grind [foldl_kept, foldl2_kept, State.setReg_kept]

theorem commitDone_kept : ∀ (o : Seen) s x1, Kept o s → Kept o (@commitDone s x1) := by
  intros; unfold commitDone; grind [foldl_kept, foldl2_kept, State.statInc_kept, State.tkDone_kept]

theorem clearFlags_kept : ∀ (o : Seen) s x1, Kept o s → Kept o (@clearFlags s x1) := by
  intros; unfold clearFlags; grind [foldl_kept, foldl2_kept]

theorem effHook_kept : ∀ (o : Seen) s x1 x2, Kept o s → Kept o (@effHook s x1 x2) := by
  intros; unfold effHook; grind [foldl_kept, foldl2_kept, clearFlags_kept, State.statInc64_kept, State.statInc_kept]

theorem learnCommit_kept : ∀ (o : Seen) s x1 x2 x3, Kept o s → Kept o (@learnCommit s x1 x2 x3) := by
  intros; unfold learnCommit; grind [foldl_kept, foldl2_kept, learn_kept]

theorem markVisible_kept : ∀ (o : Seen) s x1, Kept o s → Kept o (@markVisible s x1) := by
  intros; unfold markVisible; grind [foldl_kept, foldl2_kept, effHook_kept, settleStrips_kept, commitDone_kept, freeLocks_kept]

theorem commitMark_kept : ∀ (o : Seen) s x1 x2 x3, Kept o s → Kept o (@commitMark s x1 x2 x3) := by
  intros; unfold commitMark; grind [foldl_kept, foldl2_kept, State.statInc_kept, learnCommit_kept, markVisible_kept, purposeMarked_kept]

theorem commitApply_kept : ∀ (o : Seen) s, Kept o s → Kept o (@commitApply s) := by
  intros; unfold commitApply; grind [foldl_kept, foldl2_kept]

theorem appliedMark_kept : ∀ (o : Seen) s, Kept o s → Kept o (@appliedMark s) := by
  intros; unfold appliedMark; grind [foldl_kept, foldl2_kept]

theorem journalFault_kept : ∀ (o : Seen) s x1, Kept o s → Kept o (@journalFault s x1) := by
  intros; unfold journalFault; grind [foldl_kept, foldl2_kept, commitFails_kept, settleStrips_kept]

theorem journalFailure_kept : ∀ (o : Seen) s x1 x2, Kept o s → Kept o (@journalFailure s x1 x2) := by
  intros; unfold journalFailure; grind [foldl_kept, foldl2_kept, State.incReg_kept, journalFault_kept]

theorem mainLoss_kept : ∀ (o : Seen) s, Kept o s → Kept o (@mainLoss s) := by
  intros; unfold mainLoss; grind [foldl_kept, foldl2_kept, flopStop_kept, airClose_kept, stopRings_kept, State.devCommit_kept]

theorem powerLoss_kept : ∀ (o : Seen) s, Kept o s → Kept o (@powerLoss s) := by
  intros; unfold powerLoss; grind [foldl_kept, foldl2_kept, deviceReset_kept]

theorem sylA_kept : ∀ (o : Seen) s x1 x2 x3, Kept o s → Kept o (@sylA s x1 x2 x3) := by
  intros; unfold sylA; grind [foldl_kept, foldl2_kept, syl_kept]

theorem sylC_kept : ∀ (o : Seen) s x1 x2 x3, Kept o s → Kept o (@sylC s x1 x2 x3) := by
  intros; unfold sylC; grind [foldl_kept, foldl2_kept, syl_kept]

theorem sylD_kept : ∀ (o : Seen) s x1 x2 x3, Kept o s → Kept o (@sylD s x1 x2 x3) := by
  intros; unfold sylD; grind [foldl_kept, foldl2_kept, syl_kept]

theorem sylM_kept : ∀ (o : Seen) s x1 x2 x3, Kept o s → Kept o (@sylM s x1 x2 x3) := by
  intros; unfold sylM; grind [foldl_kept, foldl2_kept, syl_kept]

theorem atStage_kept : ∀ (o : Seen) s x1 x2 x3, Kept o s → Kept o (@atStage s x1 x2 x3) := by
  intros; unfold atStage; grind [foldl_kept, foldl2_kept, State.setTk_kept]

theorem lookTry_kept : ∀ (o : Seen) s x1 x2 x3 x4, Kept o s → Kept o (@lookTry s x1 x2 x3 x4) := by
  intros; unfold lookTry; grind [foldl_kept, foldl2_kept, State.tkDone_kept, takeSources_kept, srcFault_kept, State.statInc_kept, lookNow_kept]

theorem cloadTry_kept : ∀ (o : Seen) s x1 x2 x3 x4, Kept o s → Kept o (@cloadTry s x1 x2 x3 x4) := by
  intros; unfold cloadTry; grind [foldl_kept, foldl2_kept, State.tkDone_kept, cacheAccess_kept, deliverTo_kept, State.statInc_kept]

theorem cnewKey_kept : ∀ (o : Seen) s x1 x2 x3 x4 x5, Kept o s → Kept o ((@cnewKey s x1 x2 x3 x4 x5).2) := by
  intros; unfold cnewKey; grind [foldl_kept, foldl2_kept, dropSecret_kept, rngDraw_kept, busFailure_kept]

theorem cnewTry_kept : ∀ (o : Seen) s x1 x2 x3 x4, Kept o s → Kept o (@cnewTry s x1 x2 x3 x4) := by
  intro o s i t p e h
  unfold cnewTry
  dsimp only
  refine if_kept (State.tkDone_kept o _ _ _ _ _ _ _ h) (if_kept (State.tkDone_kept o _ _ _ _ _ _ _ h) (if_kept h
    (if_kept (State.tkDone_kept o _ _ _ _ _ _ _ h) ?_)))
  have h1 := takeSources_kept o s (some i) p e.upset e.memUpset h
  generalize takeSources s (some i) p e.upset e.memUpset = z at h1 ⊢
  obtain ⟨x, u⟩ := z
  cases x with
  | error l => exact srcFault_kept o _ _ _ _ h1
  | ok ps =>
    dsimp only
    have h2 := cnewKey_kept o u i t p ps e.busErr h1
    generalize cnewKey u i t p ps e.busErr = z at h2 ⊢
    obtain ⟨y, v⟩ := z
    cases y with
    | wait => exact h2
    | fail st => exact State.tkDone_kept o _ _ _ _ _ _ _ h2
    | got slot key =>
      dsimp only
      split
      · next e => exact State.tkDone_kept o _ _ _ _ _ _ _ (cnewTake_kept o _ _ h2 _ e)
      · exact State.tkDone_kept o _ _ _ _ _ _ _ h2

theorem cstoreTry_kept : ∀ (o : Seen) s x1 x2 x3 x4, Kept o s → Kept o (@cstoreTry s x1 x2 x3 x4) := by
  intros; unfold cstoreTry; grind [foldl_kept, foldl2_kept, State.tkDone_kept, takeSources_kept, srcFault_kept, commitIssue_kept, atStage_kept]

theorem cfreeTry_kept : ∀ (o : Seen) s x1 x2 x3, Kept o s → Kept o (@cfreeTry s x1 x2 x3) := by
  intros; unfold cfreeTry; grind [foldl_kept, foldl2_kept, State.tkDone_kept, commitIssue_kept, atStage_kept]

theorem commitTry_kept : ∀ (o : Seen) s x1 x2 x3, Kept o s → Kept o (@commitTry s x1 x2 x3) := by
  intros; unfold commitTry; grind [foldl_kept, foldl2_kept, State.tkDone_kept, commitIssue_kept, State.setTk_kept, atStage_kept]

theorem intentTry_kept : ∀ (o : Seen) s x1 x2 x3 x4, Kept o s → Kept o (@intentTry s x1 x2 x3 x4) := by
  intros; unfold intentTry; grind [foldl_kept, foldl2_kept, State.tkDone_kept, takeSources_kept, srcFault_kept, State.setCtx_kept]

theorem timeTry_kept : ∀ (o : Seen) s x1 x2 x3, Kept o s → Kept o (@timeTry s x1 x2 x3) := by
  intros; unfold timeTry; grind [foldl_kept, foldl2_kept, State.tkDone_kept, timeDone_kept]

theorem opTry_kept : ∀ (o : Seen) s x1 x2 x3 x4, Kept o s → Kept o (@opTry s x1 x2 x3 x4) := by
  intros; unfold opTry; grind [foldl_kept, foldl2_kept, lookTry_kept, cloadTry_kept, cstoreTry_kept, cnewTry_kept, cfreeTry_kept,
    intentTry_kept, commitTry_kept, randTry_kept, airx_kept]

theorem opIssue_kept : ∀ (o : Seen) s x1 x2 x3 x4, Kept o s → Kept o (@opIssue s x1 x2 x3 x4) := by
  intros; unfold opIssue; grind [foldl_kept, foldl2_kept, qputTry_kept, qgetTry_kept, cipherIssue_kept, randTry_kept, State.statInc_kept,
    timeTry_kept, flopStart_kept, arbitrate_kept, opTry_kept]

theorem issueNow_kept : ∀ (o : Seen) s x1 x2 x3 x4 x5 x6 x7 x8, Kept o s → Kept o (@issueNow s x1 x2 x3 x4 x5 x6 x7 x8) := by
  intros; unfold issueNow; grind [foldl_kept, foldl2_kept, State.setCtx_kept, State.setTk_kept, State.statMax_kept, State.statInc_kept,
    State.tkDone_kept, opIssue_kept]

theorem collect_kept : ∀ (o : Seen) x1 x2 s, Kept o s → Kept o (@collect x1 x2 s) := by
  intros; unfold collect; grind [foldl_kept, foldl2_kept, State.setTk_kept]

/-- What an issue does to the state keeps what is kept. -/
theorem issueX_effect (o : Seen) (code : Nat) (hf : HostFetch) (v k c x c' g)
    (e : issueX code hf v k c x = .ok (some (c', g))) (s : State) (hs : Kept o s) : Kept o (g s) := by
  delta issueX at e
  dsimp only at e
  split at e
  · split at e
    · cases e
    · obtain ⟨t, -, e⟩ := except_bind_ok e
      obtain ⟨_, -, e⟩ := except_bind_ok e
      obtain ⟨_, -, e⟩ := except_bind_ok e
      obtain ⟨ws, -, e⟩ := except_bind_ok e
      obtain ⟨_, -, e⟩ := except_bind_ok e
      injection e with e; injection e with e; injection e with e1 e2; rw [← e2]
      exact issueNow_kept o _ _ _ _ _ _ _ _ _ hs
  · split at e
    · cases e
    · obtain ⟨t, -, e⟩ := except_bind_ok e
      obtain ⟨_, -, e⟩ := except_bind_ok e
      obtain ⟨_, -, e⟩ := except_bind_ok e
      obtain ⟨_, -, e⟩ := except_bind_ok e
      injection e with e; injection e with e; injection e with e1 e2; rw [← e2]
      exact issueNow_kept o _ _ _ _ _ _ _ _ _ hs

/-- What a WAITT does to the state keeps what is kept. -/
theorem waittX_effect (o : Seen) (v k c x c' g) (e : waittX v k c x = .ok (some (c', g))) (s : State) (hs : Kept o s) :
    Kept o (g s) := by
  delta waittX at e
  dsimp only at e
  split at e
  · cases e
  · split at e
    · obtain ⟨t, -, e⟩ := except_bind_ok e
      split at e
      · cases e
      · split at e
        · obtain ⟨_, -, e⟩ := except_bind_ok e
          injection e with e; injection e with e; injection e with e1 e2; rw [← e2]
          exact collect_kept o _ _ _ hs
        · obtain ⟨_, -, e⟩ := except_bind_ok e
          injection e with e; injection e with e; injection e with e1 e2; rw [← e2]
          exact collect_kept o _ _ _ hs
    · obtain ⟨t, -, e⟩ := except_bind_ok e
      obtain ⟨_, -, e⟩ := except_bind_ok e
      split at e
      · cases e
      · obtain ⟨_, -, e⟩ := except_bind_ok e
        injection e with e; injection e with e; injection e with e1 e2; rw [← e2]
        exact collect_kept o _ _ _ hs

theorem issueRow_kept : ∀ (o : Seen) s x1 x2 x3 x4 x5, Kept o s → Kept o (@issueRow s x1 x2 x3 x4 x5) := by
  intro o s x code mine all f h
  unfold issueRow
  dsimp only
  refine if_kept h (if_kept h (runX_kept o _ _ _ _ _ _ _ _ (fun s a v hs => regStore_kept o s a v hs)
    (fun s a b c d hs => regLoaded_kept o s a b c d hs) h ?_))
  intro v k c x _ t e u hu y hy
  cases hu
  exact issueX_effect o code f v k c x _ _ e y hy

theorem waitt_kept : ∀ (o : Seen) s x1, Kept o s → Kept o (@waitt s x1) := by
  intro o s x h
  unfold waitt
  refine runX_kept o _ _ _ _ _ _ _ _ (fun s a v hs => regStore_kept o s a v hs)
    (fun s a b c d hs => regLoaded_kept o s a b c d hs) h ?_
  intro v k c x _ t e u hu y hy
  cases hu
  exact waittX_effect o v k c x _ _ e y hy

theorem engineStep_kept : ∀ (o : Seen) s x1 x2 x3, Kept o s → Kept o (@engineStep s x1 x2 x3) := by
  intros; unfold engineStep; grind [foldl_kept, foldl2_kept, laneDone_kept, signDone_kept, verifyDone_kept, agreeDone_kept, hashDone_kept,
    flopStart_kept, opTry_kept]

theorem engineCompletion_kept : ∀ (o : Seen) s x1 x2 x3, Kept o s → Kept o (@engineCompletion s x1 x2 x3) := by
  intros; unfold engineCompletion; grind [foldl_kept, foldl2_kept, arbitrate_kept, engineStep_kept]

theorem interruptTaken_kept : ∀ (o : Seen) s x1 x2 x3, Kept o s → Kept o (@interruptTaken s x1 x2 x3) := by
  intro o s i c core h
  unfold interruptTaken
  dsimp only
  split
  · exact h
  · exact if_kept h (delivered_kept o _ _ _ _ _ _ _ h (enterHandler_kept o _ _ _ _ _ _ _ _ _ h))

end Sys2Proof.Machine
end

