-- ==== Sys2Proof/Laws/Syllable.lean ====
section
/-! SUPPORT. The laws of a syllable: what its run does when it is ready, when it is not, and when it ends its bundle; and
the stack operations that the units share. -/

namespace Sys2Proof.Machine

variable (st : RegStore) (ld : RegLoaded) {s : State} {x : Syl} {unit op : Nat} {mem : Bool} {f : SylFn}

/-- A syllable without a stop mark leaves its context open, its stack entries moved (R230, R240). -/
theorem sylEnds_go {k : Nat} {c c' : Ctx} {b : Bundle} (g : State → State) (h : x.stop = false)
    (hb : c.bundle = some b) (hm : settle (viewOf s b) k c x.side = .ok c') :
    sylEnds st ld s k unit op x c g = s.setCtx k c' := by
  unfold sylEnds
  simp [h, hb, hm]

/-- A syllable with a stop mark commits its bundle, and then acts on the state (R230, R233). -/
theorem sylEnds_stop {k : Nat} {c c' c'' : Ctx} {b b' : Bundle} {r : CpuRegs} (g : State → State) (h : x.stop = true)
    (hb : c.bundle = some b) (hm : settle (viewOf s b) k c x.side = .ok c') (hc : conflict s (c'.bundle.getD b) = false)
    (hn : bundleEnds s k x c' (c'.bundle.getD b) = .ok (c'', b', r)) :
    sylEnds st ld s k unit op x c g = g (commitBundle st ld s k (coreOf k x) c'' b' r) := by
  unfold sylEnds
  simp [h, hb, hm, hc, hn]

/-- A context that does not run ignores the syllable. -/
theorem runSyl_idle (h : canRun (writeBack s x) (ctxKey x.i.val x.c.val) = false) :
    runSyl st ld s x unit op mem f = writeBack s x := by
  unfold runSyl runX
  simp [h]

/-- A syllable that its bundle refuses takes that exception. -/
theorem runSyl_refused {e : Exc} {slot : Nat} {w : Word64} (hw : x.writeBack = none)
    (h : canRun s (ctxKey x.i.val x.c.val) = true)
    (hr : sylReady s (ctxKey x.i.val x.c.val) unit op x mem = .error (e, slot, w)) :
    runSyl st ld s x unit op mem f =
      takeException s (ctxKey x.i.val x.c.val) (coreOf (ctxKey x.i.val x.c.val) x) e slot w x.side := by
  unfold runSyl runX
  simp [writeBack, hw, h, hr]

/-- A syllable that is not the code word at its place changes nothing (log entry 11). -/
theorem runSyl_other (hw : x.writeBack = none) (h : canRun s (ctxKey x.i.val x.c.val) = true)
    (hr : sylReady s (ctxKey x.i.val x.c.val) unit op x mem = .ok none) :
    runSyl st ld s x unit op mem f = s := by
  unfold runSyl runX
  simp [writeBack, hw, h, hr]

/-- A ready syllable whose function gives a context goes on with it. -/
theorem runSyl_ok {c c' : Ctx} {b : Bundle} (hw : x.writeBack = none) (h : canRun s (ctxKey x.i.val x.c.val) = true)
    (hr : sylReady s (ctxKey x.i.val x.c.val) unit op x mem = .ok (some (c, b)))
    (hf : f (viewOf s b) (ctxKey x.i.val x.c.val) c x = .ok c') :
    runSyl st ld s x unit op mem f = sylEnds st ld s (ctxKey x.i.val x.c.val) unit op x c' id := by
  unfold runSyl runX
  simp [writeBack, hw, h, hr, hf, Except.map]

/-- A ready syllable whose function gives an exception takes it. -/
theorem runSyl_error {c : Ctx} {b : Bundle} {e : Exc} (hw : x.writeBack = none)
    (h : canRun s (ctxKey x.i.val x.c.val) = true)
    (hr : sylReady s (ctxKey x.i.val x.c.val) unit op x mem = .ok (some (c, b)))
    (hf : f (viewOf s b) (ctxKey x.i.val x.c.val) c x = .error e) :
    runSyl st ld s x unit op mem f = sylFails s (ctxKey x.i.val x.c.val) unit op x e := by
  unfold runSyl runX
  simp [writeBack, hw, h, hr, hf, Except.map]

/-! ## The stack operations -/

/-- A push onto a stack with room for one more word (R239). -/
theorem CpuRegs.push_ok {r : CpuRegs} {w : TWord} (h : 8 * (r.ds.items.length + 1) ≤ r.ds.size) :
    r.push w = .ok { r with ds := { r.ds with items := w :: r.ds.items } } := by
  simp [CpuRegs.push, Stk.room, h]

/-- A pop from a stack that holds a word (R239). -/
theorem CpuRegs.pop_ok {r : CpuRegs} {w : TWord} {l : List TWord} (h : r.ds.items = w :: l) :
    r.pop = .ok (w, { r with ds := { r.ds with items := l } }) := by
  simp [CpuRegs.pop, h]

/-- What an operand's blame does to an exception leaves its class as it is. -/
theorem blame_cls {α : Type} (f : TWord → Except Exc α) (ea b) (e : Exc) : (blame f ea b e).cls = e.cls := by
  unfold blame
  split
  · split <;> rfl
  · rfl

end Sys2Proof.Machine
end

