-- ==== Sys2Proof/WellFormed.lean ====
section
/-! DEFINITION. Which terms of `Instr` stand for a command that the device can receive: the bounds that the spec's
layouts and register maps set on operands that the constructors hold as plain numbers and lists. `exec` is total and
asks none of them; what it does with a term outside them means nothing. -/

namespace Sys2Proof

/-- A context executes on one of the cores 0-11; the keeper's one context on core 12 (R335, R349). -/
def Syl.wf (x : Syl) : Bool := if x.i = 0 then x.c == 0 else decide (x.core.val < 12)

/-- A frame carries at most 256 bytes (R169, R170). -/
def AirFrame.wf (f : AirFrame) : Bool := decide (f.payload.length ≤ 256)
def UplinkFrame.wf (f : UplinkFrame) : Bool := decide (f.payload.length ≤ 256)

/-- A data length that a CAN frame can have, and an identifier of 11 bits without IDE (R536). -/
def CanFrame.wf (f : CanFrame) : Bool :=
  (decide (f.data.length ≤ 8) || (f.fd && decide (f.data.length ∈ [12, 16, 20, 24, 32, 48, 64]))) &&
    (f.ide || decide (f.id.toNat < 2048)) && !(f.fd && f.rtr) && (f.fd || !(f.brs || f.esi))

/-- A register of the maps. -/
def regNamed (a : Nat) : Bool := (Machine.regDesc a).isSome

/-- A request in the 16 KiB service buffer (R382). -/
def reqFits (l : List Byte) : Bool := decide (l.length ≤ 16384)

/-- Words that an entry of a host ring brings: whole slots of 64 bytes, 16 at most (R392, R396). -/
def HostFetch.wf (h : HostFetch) : Bool := decide (h.words.length % 8 = 0 ∧ h.words.length ≤ 128)

def Instr.wf : Instr → Bool
  | .registerWrite r _ | .rcRegisterRead r _ | .upperHalfLatch _ r | .mpuSetUpdate r _ => regNamed r
  | .keySlotLoad bad err => (bad ++ err).all fun n => decide (n < 4096)
  | .persoBegin r | .persoTagid r | .persoKeygen r | .persoCert r | .persoClose r | .readEvidence r | .attest r
  | .imageSwap r | .recoveryExit r | .nonce r => reqFits r
  | .persoImage r _ | .imageWrite r _ => reqFits r
  | .airWake f | .airIdent f | .airSelect f | .airDeselect f | .airHalt f | .getResult f | .airPing f | .airRead f
  | .airWrite f | .airPwd f | .airApp f | .unknownCommand f => f.wf
  | .readerReplyReceived _ f => f.wf
  | .inventoryRound _ l => l.all UplinkFrame.wf
  | .qget x h => x.wf && h.wf
  | .qgetWaitSatisfied _ h => h.wf
  | .canFrameReceived _ f => f.wf
  | .read1 a n | .read4 a n => decide (a % 4 = 0 ∧ n % 4 = 0)
  | .write1 a _ _ | .write4 a _ _ => decide (a % 4 = 0)
  | .localBusRead a | .localBusWrite a _ => decide (a % 4 = 0)
  | .commit x | .cload x | .cstore x | .cnew x | .cfree x | .look x | .airBind x | .airUnbind x | .airLink x
  | .airInventory x | .arearead x | .nop x | .lit x | .dup x | .drop x | .swap x | .over x | .rot x | .nip x | .add x
  | .sub x | .addi x | .mul x | .mulh x | .div x | .rem x | .bitAnd x | .bitOr x | .bitXor x | .bitNot x | .shl x
  | .shr x | .sar x | .neg x | .cmp x | .tst x | .rpush x | .rpop x | .rcopy x | .tax0 x | .tax1 x | .txa0 x
  | .txa1 x | .lea x | .ldw x | .ldwk x | .stw x | .stwk x | .ld8 x | .ld16 x | .ld32 x | .st8 x | .st16 x | .st32 x
  | .lds x | .ldr x | .stc x | .tas x | .fence x | .regp x | .lda x | .sta x | .ldx0 x | .ldx1 x | .stx0 x | .stx1 x
  | .br x | .beq x | .bne x | .blt x | .bge x | .bltu x | .bgeu x | .bdc x | .brz x | .brnz x | .call x | .calli x
  | .jmpi x | .ret x | .cadr x | .gate x | .gret x | .hwLoop x | .getcst x | .setfl x | .setmask x | .yield x
  | .dadd x | .dsub x | .dmul10 x | .dshr x | .dshl x | .dadj x | .dcmp x | .bin2dec x | .dec2bin x | .todec x
  | .toint x | .totime x | .toraw x | .tagof x | .khandle x | .waitt x | .testt x | .qput x | .sealAead x
  | .openAead x | .sign x | .verify x | .agreeEcdhSlot x | .agreeEcdhEphemeral x | .agreeMlkemDecapsulate x
  | .agreeMlkemEncapsulate x | .hash x | .intent x | .rand x | .timeRead x | .timeWait x | .flopProgramCode x
  | .flopProgramData x | .flopErase x | .flopMarginRead x | .flopBootSwap x => x.wf
  | .cardBusEnable ids => decide (ids.length ≤ 32)
  | _ => true

end Sys2Proof
end

