-- ==== Sys2Proof/Tests/Slice0.lean ====
section
/-! SUPPORT. The package's own tests: ill-formed commands are told, and for each statement with hypotheses concrete states
and operands that meet them, clause by clause. Where a hypothesis is about a free value (a check of an image, of a
certificate, of an offer), the witness takes it as its own. -/

open Sys2Proof Sys2Proof.Machine Sys2Proof.Say

namespace Sys2Proof.Tests

set_option Elab.async false

/-! ### Ill-formed commands are told: one for each check -/

theorem test_ill_formed_core :
    (Instr.nop { i := 1, c := 0, core := 12 }).wf = false ∧ (Instr.nop { i := 0, c := 1 }).wf = false ∧
    (Instr.nop { i := 1, c := 0, core := 11 }).wf = true := by decide

theorem test_ill_formed_register :
    (Instr.registerWrite 1 0).wf = false ∧ (Instr.registerWrite Reg.KPR_WAKE_EN 0).wf = true ∧
    (Instr.mpuSetUpdate 0xFFFFFC 0).wf = false := by decide +kernel

theorem test_ill_formed_slot_list : (Instr.keySlotLoad [4095] [4096]).wf = false ∧ (Instr.keySlotLoad [4095] []).wf = true := by
  decide

theorem test_ill_formed_request : (Instr.persoBegin (List.replicate 16385 0)).wf = false := by
  show decide ((List.replicate 16385 (0 : Byte)).length ≤ 16384) = false
  rw [List.length_replicate]
  decide

theorem test_ill_formed_frames (f : AirFrame) (g : UplinkFrame) (r : IdentReply) (h : f.payload.length = 257)
    (k : g.payload.length = 257) : (Instr.airWake f).wf = false ∧ (Instr.inventoryRound r [g]).wf = false := by
  refine ⟨?_, ?_⟩
  · show decide (f.payload.length ≤ 256) = false
    simp [h]
  · show [g].all (fun q => decide (q.payload.length ≤ 256)) = false
    simp [k]

theorem test_ill_formed_can_frames (c : Fin 2) :
    (∀ f ∈ [({ ide := true, fd := false, brs := false, esi := false, rtr := false, id := 0, data := List.replicate 9 0 } : CanFrame),
        { ide := true, fd := true, brs := false, esi := false, rtr := false, id := 0, data := List.replicate 9 0 },
        { ide := false, fd := false, brs := false, esi := false, rtr := false, id := 2048, data := [] },
        { ide := true, fd := true, brs := false, esi := false, rtr := true, id := 0, data := [] },
        { ide := true, fd := false, brs := true, esi := false, rtr := false, id := 0, data := [] }],
      (Instr.canFrameReceived c f).wf = false) ∧
    (Instr.canFrameReceived c { ide := false, fd := true, brs := true, esi := false, rtr := false, id := 2047, data := List.replicate 64 0 }).wf = true := by
  revert c
  decide

theorem test_ill_formed_entry (r : Fin 4096) (e : Bool) :
    (Instr.qgetWaitSatisfied r { words := List.replicate 9 0, err := e }).wf = false ∧
    (Instr.qgetWaitSatisfied r { words := List.replicate 136 0, err := e }).wf = false := by
  refine ⟨?_, ?_⟩
  · show decide ((List.replicate 9 (0 : Word64)).length % 8 = 0 ∧ (List.replicate 9 (0 : Word64)).length ≤ 128) = false
    simp
  · show decide ((List.replicate 136 (0 : Word64)).length % 8 = 0 ∧ (List.replicate 136 (0 : Word64)).length ≤ 128) = false
    simp

theorem test_ill_formed_addresses (v : Word32) :
    (Instr.read1 2 4).wf = false ∧ (Instr.read4 0 3).wf = false ∧ (Instr.localBusWrite 1 v).wf = false := by
  refine ⟨?_, ?_, ?_⟩
  · show decide (2 % 4 = 0 ∧ 4 % 4 = 0) = false
    decide
  · show decide (0 % 4 = 0 ∧ 3 % 4 = 0) = false
    decide
  · show decide (1 % 4 = 0) = false
    decide

theorem test_ill_formed_cards : (Instr.cardBusEnable (List.replicate 33 0)).wf = false := by decide

/-! ### Small states -/

/-- A result that is `v`, and a step that leaves `t`, as values to compute. -/
def okIs {ε α : Type} [DecidableEq α] (x : Except ε α) (v : α) : Bool :=
  match x with
  | .ok w => w == v
  | .error _ => false

def isOk {ε α : Type} (x : Except ε α) : Bool :=
  match x with
  | .ok _ => true
  | .error _ => false

def nextIs (o : Host.Outcome State Fault Refusal) (t : State) : Bool :=
  match o with
  | .next s => s == t
  | _ => false

theorem ok_of {ε α : Type} [DecidableEq α] {x : Except ε α} {v : α} (h : okIs x v = true) : x = .ok v := by
  cases x <;> simp_all [okIs]

theorem next_of {o : Host.Outcome State Fault Refusal} {t : State} (h : nextIs o t = true) : o = .next t := by
  cases o <;> simp_all [nextIs]

/-- The code word of a syllable that ends its bundle, without an extension (R229). -/
def word (unit op : Nat) (v : BitVec 20 := 0) : Nat := 2 ^ 31 + unit * 2 ^ 28 + op * 2 ^ 20 + v.toNat

/-- A device in Service whose instance 1 runs, with one code word at the bottom of tagged SRAM; nothing else is in memory,
and its protection set grants every right. -/
def code (unit op : Nat) (v : BitVec 20 := 0) : State :=
  { kpr := { running := true, mode := Mode.service }
    insts := [(1, { state := 2 })]
    mpu := [(1, { dmap := 0x00FFFFFF })]
    mem := (List.range 4).map fun k => (0x10000000 + k, BitVec.ofNat 8 (word unit op v / 256 ^ k))
    tags := [(0x2000000, Tag.code)] }

/-- There the context `c` of instance 1, its number 0, stands at that code word. -/
def cpu (c : Ctx) (unit op : Nat) (v : BitVec 20 := 0) : State :=
  { code unit op v with ctxs := [(64, { c with run := .running, r := { c.r with pc := 0x10000000 } })] }

/-- A syllable of that context, alone in its bundle. -/
def syl (operand : BitVec 20 := 0) : Syl := { i := 1, c := 0, operand := operand }

/-- The bundle after the syllable's checks. -/
def bun (c : Ctx) (unit op : Nat) (v : BitVec 20 := 0) : Bundle :=
  { regs0 := { c.r with pc := 0x10000000 }, shadow0 := c.shadow, code := [word unit op v]
    sets := [(0, {}), (1, { dmap := 0x00FFFFFF })], count := 1 }

/-- The context after the syllable's checks. -/
def got (c : Ctx) (unit op : Nat) (v : BitVec 20 := 0) : Ctx :=
  { c with run := .running, r := { c.r with pc := 0x10000000 }, since := some 0, bundle := some (bun c unit op v) }

/-- The code word is fetched, and the bundle of it alone stands. -/
def fetched (acc : Bool) (v : BitVec 20) (p : Nat × Nat) : Bool :=
  okIs (decodeAt (code p.1 p.2 v) 1 acc 1 .none 0x10000000) [word p.1 p.2 v]

theorem fetch_ctxs (s : State) (l : List (Nat × Ctx)) (i : Nat) (lv : Fin 3) (a : Nat) (up : Upset) :
    fetchOk { s with ctxs := l } i lv a up = fetchOk s i lv a up := rfl

theorem sylAt_ctxs (s : State) (l : List (Nat × Ctx)) (a : Nat) : sylAt { s with ctxs := l } a = sylAt s a := rfl

theorem bundle_ctxs (s : State) (l : List (Nat × Ctx)) (acc : Bool) (lv : Fin 3) (f : Nat → Except Exc Unit) (pc : Nat) :
    ∀ n a d ws, bundleCode { s with ctxs := l } acc lv f pc n a d ws = bundleCode s acc lv f pc n a d ws
  | 0, _, _, _ => rfl
  | n + 1, a, d, ws => by simp only [bundleCode, sylAt_ctxs, bundle_ctxs s l acc lv f pc n]

/-- The code that a context fetches does not rest on the contexts. -/
theorem decode_ctxs (s : State) (l : List (Nat × Ctx)) (i : Nat) (acc : Bool) (lv : Fin 3) (up : Upset) (pc : Nat) :
    decodeAt { s with ctxs := l } i acc lv up pc = decodeAt s i acc lv up pc := by
  simp only [decodeAt, bundle_ctxs, fetch_ctxs]

theorem sylCode_syl (unit op : Nat) (v : BitVec 20) : sylCode (syl v) unit op = (word unit op v, none) := by
  simp [sylCode, word, syl, b2n]

/-- The checks of a syllable pass there, for every context of level S without a loop that stands between bundles. -/
theorem cpu_ready {c : Ctx} {unit op : Nat} (acc mem : Bool) (v : BitVec 20) (h : fetched acc v (unit, op) = true)
    (ha : c.acc = acc) (hw : c.waiting = none) (hb : c.bundle = none) (hs : c.since = none) (hl : c.r.level = 1)
    (ho : c.r.loops = []) : Ready (cpu c unit op v) (syl v) unit op mem (got c unit op v) (bun c unit op v) := by
  have e : (cpu c unit op v).ctx 64 = { c with run := .running, r := { c.r with pc := 0x10000000 } } := rfl
  have d : decodeAt (cpu c unit op v) 1 acc 1 .none 0x10000000 = .ok [word unit op v] := by
    rw [cpu, decode_ctxs]
    exact ok_of h
  constructor
  · show canRun (cpu c unit op v) 64 = true
    simp only [canRun, e, hw]
    rfl
  · rfl
  · show sylReady (cpu c unit op v) 64 unit op (syl v) mem = _
    have u : (if mem then Upset.none else (syl v).upset) = Upset.none := by cases mem <;> rfl
    have m0 : (cpu c unit op v).mpuSet 0 = {} := rfl
    have m1 : (cpu c unit op v).mpuSet 1 = { dmap := 0x00FFFFFF } := rfl
    have k0 : (cpu c unit op v).kpr.devtime = 0 := rfl
    simp only [sylReady, bundleAt, u, e, hb, ha, hl, d, beginPass, Machine.inner, ho, hs, m0, m1, k0, List.getLast?_nil,
      Nat.reduceDiv, Nat.reduceEqDiff, ite_false]
    simp only [Bundle.next, List.drop_zero, sylCode_syl]
    simp [syl, got, bun, ha, hl, ho]

def stk (l : List TWord) (r : List TWord := []) : Ctx :=
  { r := { ds := { top := 0x10001000, size := 64, items := l }, rs := { top := 0x10002000, size := 64, items := r } } }
def accu (v : TWord) (x0 : TWord := ptrW 0x10000100) : Ctx := { acc := true, r := { acc := v, x0 := x0 } }

/-- The same for a list of opcodes of a unit. -/
theorem cpu_ready_all {c : Ctx} (acc mem : Bool) (v : BitVec 20) {unit : Nat} {ops : List Nat}
    (h : ops.all (fun op => fetched acc v (unit, op)) = true) (ha : c.acc = acc) (hw : c.waiting = none)
    (hb : c.bundle = none) (hs : c.since = none) (hl : c.r.level = 1) (ho : c.r.loops = []) :
    ∀ op ∈ ops, Ready (cpu c unit op v) (syl v) unit op mem (got c unit op v) (bun c unit op v) := fun op hm =>
  cpu_ready acc mem v (List.all_eq_true.mp h op hm) ha hw hb hs hl ho

/-! ### Unit A -/

theorem test_two_operands_on_the_stack (v w : TWord) (mem : Bool) :
    ∀ op ∈ [0x08, 0x09, 0x0B, 0x0C, 0x0D, 0x0E, 0x10, 0x11, 0x12, 0x14, 0x15, 0x16, 0x18],
      Operands2 (cpu (stk [w, v]) 0 op) syl (got (stk [w, v]) 0 op) (bun (stk [w, v]) 0 op) v w ∧
      Ready (cpu (stk [w, v]) 0 op) syl 0 op mem (got (stk [w, v]) 0 op) (bun (stk [w, v]) 0 op) := fun op h =>
  ⟨⟨rfl, [], rfl, Nat.le_of_ble_eq_true rfl⟩,
    cpu_ready_all false mem 0 (by decide +kernel) rfl rfl rfl rfl rfl rfl op h⟩

theorem test_two_operands_in_acc (v : TWord) (mem : Bool) :
    ∀ op ∈ [0x08, 0x09, 0x0B, 0x0C, 0x0D, 0x0E, 0x10, 0x11, 0x12, 0x14, 0x15, 0x16, 0x18],
      Operands2 (cpu (accu v) 0 op 0xC0001) (syl 0xC0001) (got (accu v) 0 op 0xC0001) (bun (accu v) 0 op 0xC0001) v (intW 1) ∧
      Ready (cpu (accu v) 0 op 0xC0001) (syl 0xC0001) 0 op mem (got (accu v) 0 op 0xC0001) (bun (accu v) 0 op 0xC0001) :=
  fun op h => ⟨⟨rfl, rfl⟩, cpu_ready_all true mem _ (by decide +kernel) rfl rfl rfl rfl rfl rfl op h⟩

theorem test_two_operands_of_unit_d (v w : TWord) (mem : Bool) :
    ∀ op ∈ [0x00, 0x01, 0x02, 0x06],
      Operands2 (cpu (stk [w, v]) 4 op) syl (got (stk [w, v]) 4 op) (bun (stk [w, v]) 4 op) v w ∧
      Ready (cpu (stk [w, v]) 4 op) syl 4 op mem (got (stk [w, v]) 4 op) (bun (stk [w, v]) 4 op) := fun op h =>
  ⟨⟨rfl, [], rfl, Nat.le_of_ble_eq_true rfl⟩,
    cpu_ready_all false mem 0 (by decide +kernel) rfl rfl rfl rfl rfl rfl op h⟩

theorem test_one_operand_on_the_stack (v : TWord) (mem : Bool) :
    (∀ unit op, Operand1 syl (got (stk [v]) unit op) v) ∧
    (∀ op ∈ [0x0A, 0x13, 0x17, 0x19], Ready (cpu (stk [v]) 0 op) syl 0 op mem (got (stk [v]) 0 op) (bun (stk [v]) 0 op)) ∧
    ∀ op ∈ [0x03, 0x04, 0x05, 0x08, 0x09, 0x0A, 0x0B, 0x0C, 0x0D, 0x0E, 0x10],
      Ready (cpu (stk [v]) 4 op) syl 4 op mem (got (stk [v]) 4 op) (bun (stk [v]) 4 op) :=
  ⟨fun _ _ => ⟨rfl, [], rfl, Nat.le_of_ble_eq_true rfl⟩,
    cpu_ready_all false mem 0 (by decide +kernel) rfl rfl rfl rfl rfl rfl,
    cpu_ready_all false mem 0 (by decide +kernel) rfl rfl rfl rfl rfl rfl⟩

theorem test_one_operand_in_acc (v : TWord) (mem : Bool) :
    (∀ unit op, Operand1 syl (got (accu v) unit op) v) ∧
    (∀ op ∈ [0x13, 0x17, 0x19], Ready (cpu (accu v) 0 op) syl 0 op mem (got (accu v) 0 op) (bun (accu v) 0 op)) ∧
    ∀ op ∈ [0x05, 0x08, 0x09, 0x0A, 0x0B, 0x0C, 0x0D, 0x10],
      Ready (cpu (accu v) 4 op) syl 4 op mem (got (accu v) 4 op) (bun (accu v) 4 op) :=
  ⟨fun _ _ => ⟨rfl, rfl⟩, cpu_ready_all true mem 0 (by decide +kernel) rfl rfl rfl rfl rfl rfl,
    cpu_ready_all true mem 0 (by decide +kernel) rfl rfl rfl rfl rfl rfl⟩

theorem test_words_are_moved (u v w : TWord) (mem : Bool) :
    let c := stk [w, v, u] [u]
    8 * (c.r.ds.items.length + 1) ≤ c.r.ds.size ∧ 8 * (c.r.rs.items.length + 1) ≤ c.r.rs.size ∧
    ∀ op ∈ [0x00, 0x01, 0x02, 0x03, 0x04, 0x05, 0x06, 0x07, 0x1A, 0x1B, 0x1C],
      Ready (cpu c 0 op) syl 0 op mem (got c 0 op) (bun c 0 op) :=
  ⟨Nat.le_of_ble_eq_true rfl, Nat.le_of_ble_eq_true rfl,
    cpu_ready_all false mem 0 (by decide +kernel) rfl rfl rfl rfl rfl rfl⟩

theorem test_lit_in_acc (mem : Bool) :
    amode (syl 0xC0005) = 3 ∧
    Ready (cpu (accu (intW 0)) 0 1 0xC0005) (syl 0xC0005) 0 1 mem (got (accu (intW 0)) 0 1 0xC0005) (bun (accu (intW 0)) 0 1 0xC0005) :=
  ⟨rfl, cpu_ready true mem _ (by decide +kernel) rfl rfl rfl rfl rfl rfl⟩

/-- Empty stacks, and stacks without room for one more word. -/
theorem test_stack_limits (v : TWord) (mem : Bool) :
    let full := stk (List.replicate 8 v) (List.replicate 8 v)
    full.r.ds.size < 8 * (7 + 2) ∧ full.r.rs.size < 8 * (full.r.rs.items.length + 1) ∧
    (∀ op ∈ [0x02, 0x1A], Ready (cpu full 0 op) syl 0 op mem (got full 0 op) (bun full 0 op)) ∧
    ∀ op ∈ [0x03, 0x08, 0x1B], Ready (cpu (stk []) 0 op) syl 0 op mem (got (stk []) 0 op) (bun (stk []) 0 op) :=
  ⟨Nat.le_of_ble_eq_true rfl, Nat.le_of_ble_eq_true rfl,
    cpu_ready_all false mem 0 (by decide +kernel) rfl rfl rfl rfl rfl rfl,
    cpu_ready_all false mem 0 (by decide +kernel) rfl rfl rfl rfl rfl rfl⟩

/-- The index registers, and LEA in each address mode. -/
theorem test_index_registers (v : TWord) (mem : Bool) :
    (∀ op ∈ [0x20, 0x21, 0x22, 0x23], Ready (cpu (accu v) 0 op) syl 0 op mem (got (accu v) 0 op) (bun (accu v) 0 op)) ∧
    ∀ m ∈ [0, 1, 2, 3], let d := BitVec.ofNat 20 (m * 2 ^ 18)
      amode (syl d) = m ∧ Ready (cpu (accu v) 0 0x24 d) (syl d) 0 0x24 mem (got (accu v) 0 0x24 d) (bun (accu v) 0 0x24 d) := by
  refine ⟨cpu_ready_all true mem 0 (by decide +kernel) rfl rfl rfl rfl rfl rfl, fun m hm => ⟨by revert m; decide, ?_⟩⟩
  refine cpu_ready true mem _ ?_ rfl rfl rfl rfl rfl rfl
  revert m
  decide +kernel

/-! ### Unit M -/

/-- A PTR to a word of tagged SRAM, above other words of the stack. -/
def ptrTo (l : List TWord := []) : Ctx := stk (ptrW 0x10000100 :: l)

/-- The same context of the accumulator model, with the address in X0 and the syllable that names it. -/
def accTo : Ctx := accu (intW 7)

/-- The device with one word of memory of a tag, whose unit is good or fails its check. -/
def holds (t : Word4) (bad : Bool := false) : State :=
  { code 2 0 with
    mem := [(0x10000100, 9)], tags := [(0x2000000, Tag.code), (0x2000020, t)]
    checks := if bad then [(0x400004, 1)] else [] }

theorem test_addresses (l : List TWord) :
    (∀ op, Address (got (ptrTo l) 2 op) syl 0x10000100 (withDs (got (ptrTo l) 2 op).r l)) ∧
    (∀ op, Address (got accTo 2 op 0x40000) (syl 0x40000) 0x10000100 (got accTo 2 op 0x40000).r) ∧
    (∀ op ∈ [0x00, 0x01, 0x02, 0x03, 0x04, 0x05, 0x06, 0x07, 0x08, 0x09, 0x0A, 0x0B, 0x0C, 0x0D],
      Ready (cpu (ptrTo l) 2 op) syl 2 op true (got (ptrTo l) 2 op) (bun (ptrTo l) 2 op)) ∧
    ∀ op ∈ [0x20, 0x21, 0x22, 0x23, 0x24, 0x25, 0x0B, 0x0C, 0x0D],
      Ready (cpu accTo 2 op 0x40000) (syl 0x40000) 2 op true (got accTo 2 op 0x40000) (bun accTo 2 op 0x40000) :=
  ⟨fun _ => ⟨0x10000100, l, rfl, rfl, rfl⟩, fun _ => ⟨rfl, rfl⟩,
    cpu_ready_all false true 0 (by decide +kernel) rfl rfl rfl rfl rfl rfl,
    cpu_ready_all true true _ (by decide +kernel) rfl rfl rfl rfl rfl rfl⟩

/-- What the loads, stores and atomics find there: a RAW word, with room on the stack. -/
theorem test_words_at_an_address :
    let c := ptrTo [intW 1]
    ∀ op ∈ [0x00, 0x0A, 0x04, 0x06, 0x02, 0x09, 0x0B, 0x0D], let s := viewOf (cpu c 2 op) (bun c 2 op)
      okIs (loadWord s 1 1 0x10000100 .none false) (rawW 0) = true ∧ okIs (loadWord s 1 1 0x10000100 .none true) (rawW 0) = true ∧
      busyWord s 0x10000100 = none ∧ okIs (loadPart s 1 0 1 0x10000100 4 .none) (intW 0, []) = true ∧
      okIs (storeWord s 1 1 0x10000100 (intW 1) .none) [.store 0x10000100 8 (rawW 1)] = true ∧
      okIs (storePart s 1 1 0x10000100 4 (intW 1) .none) [.store 0x10000100 4 (intW 1)] = true ∧
      okIs (fetchWord s 0x10000100 .none) (rawW 0) = true ∧ okIs (accessCheck s 1 1 0x10000100 8 .rw) 0x10000100 = true ∧
      rangeOf 0x10000100 = some 1 ∧ 8 * ((ptrTo [intW 1]).r.ds.items.length + 1) ≤ (ptrTo [intW 1]).r.ds.size := by decide +kernel

/-- Each case of a full-word load, of a partial load and of a store of one word of memory. -/
theorem test_words_of_each_kind :
    (∀ t ∈ [Tag.raw, Tag.poison, Tag.ret, Tag.code, Tag.sesh], ∀ bad ∈ [true, false],
      okIs (accessCheck (holds t bad) 1 1 0x10000100 8 .r) 0x10000100 = true ∧
      okIs (accessCheck (holds t bad) 1 1 0x10000100 1 .w) 0x10000100 = true ∧
      busyWord (holds t bad) 0x10000100 = none ∧ (holds t bad).isBad 0x10000100 = bad ∧ destOpen (holds t bad) 1 0x10000100 = false ∧
      ((holds t bad).rdWord 0x10000100).tag = t ∧ inX (holds t bad) 1 1 0x10000100 = true) ∧
    inX { holds Tag.code with mpu := [(1, { dmap := 0x00FFFF1F })] } 1 1 0x10000100 = false := by decide +kernel

/-- A device register is reached at level K with the keeper's own set. -/
theorem test_a_device_register :
    rangeOf 0x40000000 = some 5 ∧ okIs (accessCheck State.reset 0 2 0x40000000 4 .w) 0x40000000 = true := by decide +kernel

/-- The checks of an access: past the addresses, a register read of 8 bytes, misaligned, and denied for want of a range. -/
theorem test_access_checks :
    2 ^ 40 ≤ (0x10000000000 : Word64).toNat ∧ rangeOf 0x40000000 = some 5 ∧ rangeOf 0x10000001 = some 1 ∧
    byteDenied State.reset 0 2 0x30000000 .r = some 1 ∧ byteDenied State.reset 0 2 0x10000000 .r = none := by decide +kernel

/-- A region that grants reading only, at all levels, over the defaults. -/
def oneRegion : State :=
  { code 2 0x0F 3 with mpu := [(1, { dmap := 0x00FFFFFF, rgn := [(3, (0x10000000, 0x80100C00))] })] }

theorem test_regions :
    rangeOf 0x10000100 = some 1 ∧ rangePermits 1 1 .w = true ∧
    rgnEn ((oneRegion.mpuSet 1).region 3) = true ∧ rgnBase ((oneRegion.mpuSet 1).region 3) ≤ 0x10000100 ∧
    0x10000100 < rgnBase ((oneRegion.mpuSet 1).region 3) + rgnSize ((oneRegion.mpuSet 1).region 3) ∧
    (∀ j, j < 16 → 3 < j → rgnEn ((oneRegion.mpuSet 1).region j) = false) ∧
    byteDenied oneRegion 1 1 0x10000100 .r = none ∧ byteDenied oneRegion 1 1 0x10000100 .w = some 4 ∧
    (∀ j, j < 16 → rgnEn (((code 0 0).mpuSet 1).region j) = false) := by decide +kernel

theorem test_reservations :
    let c := { stk [ptrW 0x10000100, intW 1] with r := { (stk [ptrW 0x10000100, intW 1]).r with resv := some 0x400004 } }
    (got c 2 0x0C).r.resv = some (0x10000100 / 64) ∧ (got (ptrTo [intW 1]) 2 0x0C).r.resv ≠ some (0x10000100 / 64) ∧
    Ready (cpu c 2 0x0C) syl 2 0x0C true (got c 2 0x0C) (bun c 2 0x0C) :=
  ⟨rfl, by decide, cpu_ready false true 0 (by decide +kernel) rfl rfl rfl rfl rfl rfl⟩

/-- FENCE, and REGP of a region that is off; and one that is on, for every level. -/
theorem test_fence_and_region :
    Ready (cpu (stk []) 2 0x0E) syl 2 0x0E true (got (stk []) 2 0x0E) (bun (stk []) 2 0x0E) ∧
    Ready (cpu (stk []) 2 0x0F 3) (syl 3) 2 0x0F true (got (stk []) 2 0x0F 3) (bun (stk []) 2 0x0F 3) ∧
    rgnEn (((code 2 0x0F 3).mpuSet 1).region 3) = false ∧
    rgnEn ((oneRegion.mpuSet 1).region 3) = true ∧ rgnMin ((oneRegion.mpuSet 1).region 3) ≤ 1 :=
  ⟨cpu_ready false true 0 (by decide +kernel) rfl rfl rfl rfl rfl rfl,
    cpu_ready false true 3 (by decide +kernel) rfl rfl rfl rfl rfl rfl, by decide, by decide, by decide⟩

/-- A region in force over the code word: REGP of it is ready. -/
theorem test_a_region_is_ready :
    let s : State := { cpu (stk []) 2 0x0F 4 with mpu := [(1, { dmap := 0x00FFFFFF, rgn := [(4, (0x10000100, 0x80700800))] })] }
    canRun s 64 = true ∧ rgnEn ((s.mpuSet 1).region 4) = true ∧
    okIs ((sylReady s 64 2 0x0F (syl 4) true).map (·.map fun p => (p.1.r.ds, p.2.count))) (some ((stk []).r.ds, 1)) = true := by
  decide +kernel

/-! ### Unit C -/

theorem test_branches_and_calls (w : TWord) (mem : Bool) :
    (let c := stk [w] [w]
     (∀ op, 1 ≤ shadowFree (got c 3 op).shadow ∧ 8 * ((got c 3 op).r.rs.items.length + 1) ≤ (got c 3 op).r.rs.size ∧
       HasRoom (got c 3 op) (got c 3 op).r 1) ∧
     ∀ op ∈ [0x00, 0x01, 0x02, 0x03, 0x04, 0x05, 0x06, 0x07, 0x08, 0x09, 0x10, 0x11, 0x12, 0x13, 0x14, 0x1C, 0x20, 0x22, 0x23],
       Ready (cpu c 3 op) syl 3 op mem (got c 3 op) (bun c 3 op)) ∧
    amode (syl 0xC0000) = 3 ∧
    (∀ op ∈ [0x00, 0x01, 0x10, 0x14],
      Ready (cpu (accu w) 3 op 0xC0000) (syl 0xC0000) 3 op mem (got (accu w) 3 op 0xC0000) (bun (accu w) 3 op 0xC0000)) ∧
    ∀ op ∈ [0x11, 0x12, 0x13, 0x1C, 0x20, 0x21, 0x22, 0x23],
      Ready (cpu (accu w) 3 op) syl 3 op mem (got (accu w) 3 op) (bun (accu w) 3 op) :=
  ⟨⟨fun _ => ⟨Nat.le_of_ble_eq_true rfl, Nat.le_of_ble_eq_true rfl, fun _ => Nat.le_of_ble_eq_true rfl⟩,
      cpu_ready_all false mem 0 (by decide +kernel) rfl rfl rfl rfl rfl rfl⟩, rfl,
    cpu_ready_all true mem _ (by decide +kernel) rfl rfl rfl rfl rfl rfl,
    cpu_ready_all true mem _ (by decide +kernel) rfl rfl rfl rfl rfl rfl⟩

/-- A RET word and its call entry; one that differs, and one that meets no call entry. -/
theorem test_returns (sh : List Shadow) :
    let c := { stk [] [retW 0x10000010] with shadow := sh }
    Ready (cpu c 3 0x13) syl 3 0x13 false (got c 3 0x13) (bun c 3 0x13) ∧ (got c 3 0x13).r.rs.items = [retW 0x10000010] ∧
    (got c 3 0x13).shadow = sh :=
  ⟨cpu_ready false false 0 (by decide +kernel) rfl rfl rfl rfl rfl rfl, rfl, rfl⟩

/-- The device with a list of code words in place of one, and a context there. -/
def coded (c : Ctx) (ws : List Nat) : State :=
  { cpu c 0 0 with
    mem := ((List.range (4 * ws.length)).map fun k => (0x10000000 + k, BitVec.ofNat 8 (ws.getD (k / 4) 0 / 256 ^ (k % 4)))).filter
      fun p => p.2 ≠ 0
    tags := (List.range ((ws.length + 1) / 2)).map fun k => (0x2000000 + k, Tag.code) }

/-- LOOP with its count in an extension. -/
theorem test_loop_with_an_extension :
    let x : Syl := { syl 5 with ext := some 7 }
    let s := coded (stk []) [3 * 2 ^ 28 + 0x1C * 2 ^ 20 + 5, 2 ^ 31 + 6 * 2 ^ 28 + 7]
    canRun s (key x) = true ∧
    okIs ((sylReady s (key x) 3 0x1C x false).map (·.map fun p => (p.1.r.ds, p.2.count))) (some ((stk []).r.ds, 2)) = true := by
  decide +kernel

/-- A gate of one argument and one result in the keeper's table, at its number 0; the keeper's rights read the table. -/
def gates (c : Ctx) (n : BitVec 20 := 0) : State :=
  { cpu c 3 0x18 n with
    mpu := [(0, { dmap := 0x00FFFFFF, gateLo := 0xC0000000, gateHi := 1 }), (1, { dmap := 0x00FFFFFF })]
    mem := (code 3 0x18 n).mem ++
      [(0x1C0000003, 0x10), (0x1C0000009, 0x10), (0x1C000000B, 0xC0), (0x1C000000C, 1), (0x1C0000011, 0x20),
        (0x1C0000013, 0xC0), (0x1C0000014, 1), (0x1C000001A, 0x20), (0x1C000001B, 0x91), (0x1C000001C, 1), (0x1C000001E, 1),
        (0x1C0000020, 3)]
    tags := [(0x2000000, Tag.code), (0x38000000, Tag.code), (0x38000001, Tag.ptr), (0x38000002, Tag.ptr),
      (0x38000003, Tag.int), (0x38000004, Tag.int), (0x38000005, Tag.int)] }

def theGate : GateDesc :=
  { entry := 0x10000000, dstop := 0x1C0001000, rstop := 0x1C0002000, w3 := 0x0001000191200000, masks := [3, 0, 0, 0, 0, 0] }

/-- The bundle of a GATE, with the keeper's set among the sets of its beginning. -/
def gateBun (c : Ctx) (n : BitVec 20 := 0) : Bundle :=
  { bun c 3 0x18 n with sets := [(0, { dmap := 0x00FFFFFF, gateLo := 0xC0000000, gateHi := 1 }), (1, { dmap := 0x00FFFFFF })] }
def gateCtx (c : Ctx) (n : BitVec 20 := 0) : Ctx := { got c 3 0x18 n with bundle := some (gateBun c n) }

theorem test_gate_call :
    let c := stk [intW 5]
    let v := viewOf (gates c) (gateBun c)
    canRun (gates c) (key syl) = true ∧ okIs (sylReady (gates c) (key syl) 3 0x18 syl false) (some (gateCtx c, gateBun c)) = true ∧
    gateFault v 0 0 .none = none ∧ readGate v 0 0 = some theGate ∧ theGate.wellFormed 0 = true ∧ theGate.argc = 1 ∧
    maskTag (theGate.masks.getD 0 0) (intW 5).tag = true ∧ okIs (gateBuffers v 1 1 theGate [intW 5] [0]) () = true ∧
    4 ≤ shadowFree c.shadow ∧ okIs (moveStacks v 1 0 0 false .none (withDs (gateCtx c).r [])) ([], withDs (gateCtx c).r []) = true := by
  decide +kernel

theorem test_gate_call_of_the_accumulator_model :
    let c := accu (intW 5)
    let v := viewOf (gates c) (gateBun c)
    canRun (gates c) (key syl) = true ∧ okIs (sylReady (gates c) (key syl) 3 0x18 syl true) (some (gateCtx c, gateBun c)) = true ∧
    okIs (gateBlock v 1 (gateCtx c) .none 1 0) [rawW 0] = true ∧ maskTag (theGate.masks.getD 0 0) Tag.raw = true ∧
    okIs (gateArgs v 0 2 (0x1C0001000 - 8) [rawW 0] .none) [.spill (0x1C0001000 - 8) (rawW 0)] = true ∧
    okIs (moveStacks v 1 0 0 true .none (gateCtx c).r) ([], (gateCtx c).r) = true := by decide +kernel

/-- A gate past 63 at level S, one that is not valid, one that breaks R310, and an argument of another tag. -/
theorem test_gate_checks :
    (let c := stk [statW 0]
     okIs (sylReady (gates c 64) (key syl) 3 0x18 (syl 64) false) (some (gateCtx c 64, gateBun c 64)) = true ∧
     okIs (sylReady (gates c 1) (key syl) 3 0x18 (syl 1) false) (some (gateCtx c 1, gateBun c 1)) = true ∧
     okIs (sylReady (gates c) (key syl) 3 0x18 syl false) (some (gateCtx c, gateBun c)) = true ∧
     (syl 64).operand.toNat = 64 ∧ readGate (gates c) 0 1 = none ∧
     (∀ n ∈ [0, 1, 64], gateFault (gates c) 0 n .none = none)) ∧
    GateDesc.wellFormed { theGate with w3 := 0x0001000199200000 } 0 = false ∧
    maskTag (theGate.masks.getD 0 0) (statW 0).tag = false := by decide +kernel

theorem test_gate_return (w : TWord) :
    let c : Ctx := { stk [intW 1] [w] with shadow := [.gate 0x10000004 { size := 64 } {} 1 0 (ptrW 0) (ptrW 0) 1] }
    Ready (cpu c 3 0x19) syl 3 0x19 true (got c 3 0x19) (bun c 3 0x19) ∧ (got c 3 0x19).r.rs.items = [w] ∧
    1 ≤ (got c 3 0x19).r.ds.items.length :=
  ⟨cpu_ready false true 0 (by decide +kernel) rfl rfl rfl rfl rfl rfl, rfl, Nat.le_refl _⟩

theorem test_exception_returns (sh : List Shadow) :
    Ready (cpu { stk [] with shadow := sh } 3 0x19) syl 3 0x19 true (got { stk [] with shadow := sh } 3 0x19)
      (bun { stk [] with shadow := sh } 3 0x19) :=
  cpu_ready false true 0 (by decide +kernel) rfl rfl rfl rfl rfl rfl

/-- A frame at 0x1000_0200 whose words pass the checks of a return. -/
def frame : State :=
  { code 3 0x19 with
    mem := [(0x10000249, 0x10), (0x1000024B, 0x10), (0x10000251, 0x20), (0x10000253, 0x10)]
    tags := [(0x2000000, Tag.code), (0x2000046, Tag.int), (0x2000048, Tag.int), (0x2000049, Tag.ptr), (0x200004A, Tag.ptr)] }

theorem test_a_frame :
    let saved := { (stk []).r with ds := Stk.area 0x10001000 64, rs := Stk.area 0x10002000 64 }
    ∃ fr r, readFrame frame 1 1 false 0x10000200 3 .none = .ok fr ∧ frameClean 0x10000200 fr = .ok () ∧
      restoreFrame frame false saved fr = .ok r :=
  ⟨frame.rdWords 0x10000200 16, { (stk []).r with ds := Stk.area 0x10001000 64, rs := Stk.area 0x10002000 64 },
    ok_of (by decide +kernel), ok_of (by decide +kernel), ok_of (by decide +kernel)⟩

/-- A GRET that returns, and one that meets a call entry. -/
theorem test_gret_acts :
    let c := got { stk [intW 1] [retW 0x10000010] with shadow := [.gate 0x10000010 { size := 64 } {} 1 0 (ptrW 0) (ptrW 0) 1] } 3 0x19
    (match gretAct (code 3 0x19) 64 c .none with | .ok d => d.shadow == [] | .error _ => false) = true ∧
    (match gretAct (code 3 0x19) 64 { c with shadow := [.call 8] } .none with | .ok _ => false | .error e => e == gret5) = true := by
  decide +kernel

/-! ### Unit D -/

theorem test_decimal_words :
    decValid 0x12C = true ∧ decVal 0x12D = -12 ∧ decMake true 0 = 0xC ∧ decValid 0x1A0 = false ∧
    (intW (10 ^ 15)).data.toInt.natAbs = 10 ^ 15 ∧ opDadj {} 0x19 = some (decW 0x1C, { dc := false }) ∧
    opDadj { hcv := 2 } 0x90 = none := by decide +kernel

/-- A slot number of the range of the keeper, which has all of them, and one past it. -/
theorem test_key_handles : keySlotIn State.reset 0 4095 = true ∧ keySlotIn (code 4 0x10) 1 0 = false := by decide

/-! ### Unit X -/

/-- Arguments that the checks of an issue let pass, by code and SEL. -/
def goodArgs : List (Nat × Nat × List TWord) :=
  let p := ptrW 0x10000100
  let k : TWord := ⟨Tag.keyh, 0⟩
  let h : TWord := ⟨Tag.sesh, 0⟩
  let n := intW 0
  [(0x10, 0, [n, p, intW 1]), (0x11, 0, [n, p, intW 1]), (0x20, 0, [k, p, n, n, p, n]), (0x21, 0, [k, p, n, n, p, n]),
    (0x28, 5, [k, p, n, p, n]), (0x29, 1, [k, n, p, n, p, n]), (0x2A, 1, [k, p, n, n, n]), (0x2A, 2, [n, p, n, p, n]),
    (0x2A, 3, [k, p, n, n, n]), (0x2A, 4, [n, p, n, p, n]), (0x30, 1, [p, n, n]), (0x38, 0, [p]), (0x40, 0, [h, p]),
    (0x41, 0, [h, n, n, p]), (0x42, 1, [n, n, n, n, n]), (0x43, 0, [h]), (0x48, 2, [n, n, n, n]), (0x49, 0, []),
    (0x50, 0, [n, n]), (0x51, 0, [n]), (0x51, 1, [timeW 0]), (0x60, 1, [h, n, n, n]), (0x60, 2, [n, n, n, n]),
    (0x60, 3, [n, n, n, n]), (0x60, 4, [n, n, n, n]), (0x60, 5, [n, n, n, p])]

theorem free_ticket {s : State} {i : Nat} (h : (s.tk i 0).used = false) : ∃ t, freeTicket s i = .ok t := by
  unfold freeTicket
  have : 0 ∈ (List.range 256).filter fun t => !(s.tk i t).used := by simp [h]
  cases hl : (List.range 256).filter fun t => !(s.tk i t).used with
  | nil => rw [hl] at this; cases this
  | cons t l => exact ⟨_, rfl⟩

/-- Each request of an instance passes its checks there. -/
theorem test_requests_pass :
    (∀ q ∈ goodArgs, let c := stk q.2.2.reverse
      let v := BitVec.ofNat 20 q.2.1
      let x := syl v
      let s := cpu c 5 q.1 v
      okIs (sylReady s (key x) 5 q.1 x false) (some (got c 5 q.1 v, bun c 5 q.1 v)) = true ∧ canRun s (key x) = true ∧
      s.kpr.standby = 0 ∧ rowSel s x = q.2.1 ∧ fld x.operand.toNat 0 16 = q.2.1 ∧ (opShape q.1).1 = q.2.2.length ∧
      (c.r.ds.items.take (opShape q.1).1).reverse = q.2.2 ∧ 8 * (c.r.ds.items.length - (opShape q.1).1 + 1) ≤ c.r.ds.size ∧
      okIs (issueChecks (viewOf s (bun c 5 q.1 v)) 1 1 q.1 q.2.1 (intW 0) q.2.2 0) () = true) ∧
    ∃ t, freeTicket (viewOf (cpu (stk []) 5 0x49) (bun (stk []) 5 0x49)) 1 = .ok t :=
  ⟨by decide +kernel, free_ticket (by decide +kernel)⟩

/-- The keeper, at level K, runs a context from tagged SRAM. -/
def kcpu (c : Ctx) (v : BitVec 20) : State :=
  { cpu c 5 0x58 v with
    mpu := [(0, { dmap := 0x00FFFFFF })], ctxs := [(0, { c with run := .running, r := { c.r with pc := 0x10000000, level := 2 } })] }

/-- The requests of code flash are the keeper's. -/
theorem test_flash_requests_pass :
    ∀ q ∈ [(1, [intW 0, ptrW 0x10000100, intW 0]), (2, [intW 0, ptrW 0x10000100, intW 0]), (3, [intW 0, intW 0, intW 0]),
        (4, [intW 0, intW 0, intW 0]), (5, [intW 0, intW 0, intW 0])],
      let c := stk q.2.reverse
      let v := BitVec.ofNat 20 q.1
      let x : Syl := { syl v with i := 0 }
      okIs ((sylReady (kcpu c v) (key x) 5 0x58 x false).map (·.map (·.1.r.ds))) (some c.r.ds) = true ∧
      canRun (kcpu c v) (key x) = true ∧ rowSel (kcpu c v) x = q.1 ∧
      okIs (issueChecks (kcpu c v) 0 2 0x58 q.1 (intW 0) q.2 0) () = true := by decide +kernel

/-- A request of the accumulator model: HASH, from a block of its words at X0. -/
theorem test_a_request_from_a_block :
    let c := accu (intW 0)
    let x := syl 0x40000
    let s := { cpu c 5 0x30 0x40000 with
      tags := [(0x2000000, Tag.code), (0x2000020, Tag.int), (0x2000021, Tag.ptr), (0x2000022, Tag.int), (0x2000023, Tag.int)] }
    let args := [ptrW 0, intW 0, intW 0]
    okIs (sylReady s (key x) 5 0x30 x true) (some (got c 5 0x30 0x40000, bun c 5 0x30 0x40000)) = true ∧
    effAddr (got c 5 0x30 0x40000) x = some 0x10000100 ∧
    okIs (blockRights s 1 1 0x10000100 .r 12 0) () = true ∧ okIs (blockRights s 1 1 0x10000100 .w 8 4) () = true ∧
    okIs (blockWords s 1 1 0x10000100 .none 4 0) (intW 0 :: args) = true ∧
    okIs (issueChecks s 1 1 0x30 0 (intW 0) args 0x10000100) () = true := by decide +kernel

/-- The device with ticket 5 of the instance in use, at a WAITT or a TESTT. -/
def ticket (c : Ctx) (op : Nat) (done : Bool) (block : Option Nat := none) : State :=
  { cpu c 5 op with tickets := [(261, { serial := 7, used := true, done := done, results := [intW 1], nres := 1, block := block })] }

theorem test_tickets :
    let w := ticketWord 1 5 7
    (∀ done ∈ [true, false], okIs ((ticketOf (ticket (stk [w]) 0 done) 1 w).map (fun p => (p.1, p.2.done))) (5, done) = true ∧
      canRun (ticket (stk [w]) 0 done) (key syl) = true ∧
      okIs (sylReady (ticket (stk [w]) 0 done) (key syl) 5 0 syl false) (some (got (stk [w]) 5 0, bun (stk [w]) 5 0)) = true ∧
      okIs (sylReady (ticket (accu w) 0 done) (key syl) 5 0 syl true) (some (got (accu w) 5 0, bun (accu w) 5 0)) = true ∧
      okIs (sylReady (ticket (stk [w]) 1 done) (key syl) 5 1 syl false) (some (got (stk [w]) 5 1, bun (stk [w]) 5 1)) = true) ∧
    8 * (0 + 1 + 1) ≤ (stk [w]).r.ds.size ∧
    okIs (blockStores (ticket (accu w) 0 true) 1 1 .none 0x10000100 [intW 1]) [.store 0x10000100 8 (rawW 1)] = true ∧
    okIs (ticketOf (ticket (stk []) 0 true) 1 (ticketWord 1 5 8)) (5, {}) = false ∧ ((ticket (stk []) 0 true).tk 1 5).used = true ∧
    ((ticket (stk []) 0 true).tk 1 6).used = false := by decide +kernel

/-- A WAITT that waits. -/
theorem test_a_wait :
    let s := cpu { stk [] with waiting := some syl } 5 0
    (s.ctx (ctxKey 1 0)).run = .running ∧ (s.ctx (ctxKey 1 0)).waiting = some syl := by decide +kernel

/-- The device with a request of an engine in ticket 5 of instance 1 and of the keeper, which holds a unit of it. -/
def asked (code sel : Nat) (args : List TWord) (data : List Payload := [⟨0, []⟩]) : State :=
  let s := cpu (stk []) 5 code
  { s with
    kpr := { s.kpr with replayDone := true, devtime := 5 }, key := { loaded := true }
    dur := { slots := [(0, { kind := 0x15, root := 2 })] }
    tickets := [(261, { used := true, op := .x code sel args data 0 }), (5, { used := true, op := .x code sel args data 0, no := 1 })] }

theorem test_time_waits :
    ((asked 0x51 1 [timeW 5]).tk 1 5).done = false ∧ (timeW 5).data.toNat ≤ (asked 0x51 1 []).kpr.devtime.toNat ∧
    (asked 0x51 1 []).kpr.devtime.toNat < (timeW 6).data.toNat := by decide +kernel

def hashArgs : List TWord := [ptrW 0x10000100, intW 0, intW 0]
def signArgs : List TWord := [⟨Tag.keyh, 0⟩, ptrW 0x10000100, intW 0, ptrW 0x10000200, intW 64]
def verifyArgs : List TWord := [ptrW 0x10000100, intW 0, ptrW 0x10000100, intW 0, ptrW 0x10000100, intW 64]

/-- A HASH of nothing, a HASH of a digest length that there is none of, a SIGN of nothing with an Ed25519 slot of the keeper,
and a VERIFY with a public key in memory: each holds its unit. -/
theorem test_engine_requests :
    (let u := arbitrate (asked 0x30 1 hashArgs)
     granted u 1 5 = true ∧ srcBusy u (.x 0x30 1 hashArgs [⟨0, []⟩] 0) = false ∧ (u.tk 1 5).used = true ∧ (u.tk 1 5).done = false ∧
     (u.tk 1 5).op = .x 0x30 1 hashArgs [⟨0, []⟩] 0 ∧ u.pwr.flush = 0 ∧
     okIs (takeSources u (some 1) (.x 0x30 1 hashArgs [⟨0, []⟩] 0) false).1 [⟨0, []⟩] = true ∧
     digestLen (.x 0x30 1 hashArgs [⟨0, []⟩] 0) = some 32 ∧ (Op.x 0x30 1 hashArgs [⟨0, []⟩] 0).num 2 < 2 ^ 32) ∧
    digestLen (.x 0x30 1 [ptrW 0, intW 0, intW 1] [] 0) = none ∧
    (let u := arbitrate (asked 0x28 5 signArgs)
     let o := Op.x 0x28 5 signArgs [⟨0, []⟩] 0
     granted u 0 5 = true ∧ srcBusy u o = false ∧ o.num 3 ≤ 65536 ∧ sigLen 5 ≤ o.num 5 ∧ slotsReady u = true ∧
     okIs (takeSources u (some 0) o false).1 [⟨0, []⟩] = true ∧
     slotCheck (takeSources u (some 0) o false).2 0 (kOwner (o.word 1).data) (kSlot (o.word 1).data) (· == 0x15) = St.ok) ∧
    (let d : List Payload := List.replicate 3 ⟨0, []⟩
     let u := arbitrate (asked 0x29 1 verifyArgs d)
     let o := Op.x 0x29 1 verifyArgs d 0
     granted u 0 5 = true ∧ srcBusy u o = false ∧ (o.word 1).tag ≠ Tag.keyh ∧ o.num 4 ≤ 65536 ∧ o.num 6 = sigLen 1 ∧
     (match (takeSources u (some 0) o false).1 with | .ok l => l.length == 3 | .error _ => false) = true) := by decide +kernel

/-! ### Rings and the host side -/

/-- A device in Service with power, its link up and every interface enabled; the keeper has rings 0 to 63. -/
def dev : State :=
  { pwr := { up := true, viohOk := true }
    kpr := { mode := Mode.service, running := true, replayDone := true, brkReady := true, records := true, seedDone := true }
    key := { loaded := true }
    host := { width := 1 }, regs := [(Reg.RING_KRANGE, 64), (Reg.RING_HIF, 7)] }

/-- The same device with other registers. -/
def devR (l : List (Nat × Word32)) : State := { dev with regs := l }

/-- Its ring 1, with sixteen slots and one slot an entry, in the keeper data area or in host memory. -/
def ring1 (outbound host : Bool) (x : Ring) : Ring :=
  { x with base := 0x1C0000000
           cfg := 0x80000804 + (if outbound then 0x40000000 else 0) + (if host then 0x20000000 else 0) }

def withRing (outbound host : Bool) (x : Ring) : State := dev.setRing 1 (ring1 outbound host x)

def entry : Payload := ⟨64, List.replicate 8 (rawW 0)⟩

/-- A QPUT of one entry that waits on ring 1, which holds `n` slots, and a QGET that waits there. -/
def qput (n : Nat) : State :=
  (withRing true false { st := 1, waiters := [(0, 5)], tail := BitVec.ofNat 32 n }).setTk 0 5
    { used := true, op := .x 0x10 1 [intW 1, ptrW 0x1C0001000, intW 1] [entry] 0 }
def qget (n : Nat) : State :=
  (withRing false false { st := 1, waiters := [(0, 5)], tail := BitVec.ofNat 32 n, lens := [n] }).setTk 0 5
    { used := true, op := .x 0x11 1 [intW 1, ptrW 0x1C0001000, intW 1] [] 0 }

theorem test_a_waiting_qput :
    ∀ n ∈ [0, 16], ringWaiter (qput n) 1 0x10 = some (0, 5) ∧ ((qput n).tk 0 5).op.num 1 = 1 ∧
      ((qput n).tk 0 5).op.num 3 = 1 ∧ ringBound (qput n) 0 1 = true ∧ ((qput n).ring 1).en = true ∧
      ((qput n).ring 1).outbound = true ∧ ((qput n).ring 1).free = 16 - n ∧
      srcBusy (qput n) ((qput n).tk 0 5).op = false ∧
      okIs (takeSources (qput n) (some 0) ((qput n).tk 0 5).op false).1 [entry] = true ∧
      countOk ((qput n).ring 1) entry 1 = true ∧
      (0, 5) ∈ ((takeSources (qput n) (some 0) ((qput n).tk 0 5).op false).2.ring 1).waiters := by decide +kernel

theorem test_a_waiting_qget :
    ∀ n ∈ [1, 2], ringWaiter (qget n) 1 0x11 = some (0, 5) ∧ ((qget n).ring 1).waiters.head? = some (0, 5) ∧
      ((qget n).tk 0 5).op.num 1 = 1 ∧ ((qget n).tk 0 5).op.num 3 = 1 ∧ ringBound (qget n) 0 1 = true ∧
      ((qget n).ring 1).en = true ∧ ((qget n).ring 1).outbound = false ∧ ((qget n).ring 1).inHost = false ∧
      ((qget n).ring 1).used = n ∧ (qget n).isBad (((qget n).ring 1).slotAddr 0) = false ∧
      (qget n).isBad (((qget n).ring 1).slotAddr 1) = false := by decide +kernel

/-- The keeper's ring, disabled, that keeps the rules, that breaks one, and that has no slots; and enabled in each state. -/
def aRing (x : Ring) : State := (devR [(Reg.RING_RSEL, 1), (Reg.RING_KRANGE, 64)]).setRing 1 x

theorem test_ring_control :
    rsel (aRing { cfg := 0x804 }) = 1 ∧ busMaster dev 0 = true ∧
    (∀ b ∈ [(0x1C0000000, true), (0x20, false)], ((aRing { cfg := 0x804, base := b.1 }).ring 1).en = false ∧
      ((aRing { cfg := 0x804, base := b.1 }).ring 1).eslots = 1 ∧
      fld ((aRing { cfg := 0x804, base := b.1 }).ring 1).cfg.toNat 0 5 = 4 ∧
      ringRules (aRing { cfg := 0x804, base := b.1 }) 1 { cfg := 0x804, base := b.1 } = b.2) ∧
    ((0x804#32 &&& 0x7FC007E0) ||| BitVec.ofNat 32 (2048 * 1 + 4)) = 0x804 ∧
    ∀ st ∈ [0, 1, 2, 3], ((aRing (ring1 false false { st := st })).ring 1).en = true ∧
      ((aRing (ring1 false false { st := st })).ring 1).inHost = false ∧
      ((aRing (ring1 false false { st := st })).ring 1).waiters = [] := by decide +kernel

/-- A window reached from each interface, before the mode is set and after it; rings of each kind behind it, and one that
there is none of; counts that keep the rules and counts that break them. -/
theorem test_doorbells :
    (∀ p ∈ [Iface.pcie, .lbus, .qspi], reaches dev p 0 = true) ∧
    reaches { dev with kpr := { mode := Mode.starting } } .lbus 0 = true ∧
    dev.terminated = false ∧ dev.kpr.standby = 0 ∧ serving dev = true ∧ windowRing dev 0 64 = none ∧
    windowRing dev 0 1 = some 1 ∧ ((withRing true false { st := 1 }).ring 1).inHost = false ∧
    (ring1 true true { tail := 2 }).inHost = true ∧ (ring1 true true { tail := 2 }).outbound = true ∧
    (ring1 true true { tail := 2 }).used = 2 ∧ ((1 : Word32) - 0).toNat ≤ 2 ∧ 2 < ((3 : Word32) - 0).toNat ∧
    (∀ t ∈ [0, 1], (ring1 false true { tail := BitVec.ofNat 32 t }).outbound = false ∧
      ownerRuns dev (ring1 false true { tail := BitVec.ofNat 32 t }).owner = true ∧ (ring1 false true { tail := BitVec.ofNat 32 t }).eslots = 1 ∧
      (ring1 false true { tail := BitVec.ofNat 32 t }).free = 16 - t ∧ (ring1 false true { tail := BitVec.ofNat 32 t }).used = t) := by
  decide +kernel

theorem test_a_held_doorbell :
    ({ dev with host := { dev.host with heldDb := [(0, 1, 2)] } }).host.heldDb = [(0, 1, 2)] ∧ dev.mode ≠ Mode.starting := by
  decide +kernel

/-- A push of one entry onto a ring with room and onto a full one, and a pop of an empty ring and of one with an entry. -/
theorem test_push_and_pop :
    windowRing dev 0 (fld (0x10001 : Word32).toNat 16 10) = some 1 ∧ fld (0x10001 : Word32).toNat 0 5 = 1 ∧
    (∀ t ∈ [0, 16], (ring1 false false { tail := BitVec.ofNat 32 t }).en = true ∧ (ring1 false false { tail := BitVec.ofNat 32 t }).outbound = false ∧
      (ring1 false false { tail := BitVec.ofNat 32 t }).inHost = false ∧ (ring1 false false { tail := BitVec.ofNat 32 t }).free = 16 - t ∧
      countOk (ring1 false false { tail := BitVec.ofNat 32 t }) ⟨64, List.replicate 8 (rawW 0)⟩ 1 = true) ∧
    0 ∉ (dev.hport .lbus 0).stagingBad ∧
    (∀ l ∈ [[], [1]], (ring1 true false { lens := l }).en = true ∧ (ring1 true false { lens := l }).outbound = true ∧
      (ring1 true false { lens := l }).inHost = false ∧ (ring1 true false { lens := l }).lens = l ∧
      dev.isBad ((ring1 true false { lens := l }).slotAddr 0) = false) ∧
    (∀ l ∈ [[], [1]], windowRing (withRing true false { st := 3, lens := l }) 0 1 = some 1) ∧
    20 / 16 ∈ ((dev.setHport .lbus 0 { stagingBad := [1] }).hport .lbus 0).stagingBad := by decide +kernel

/-- Addresses at both ends of a window, and functions of a link with VFs. -/
theorem test_interfaces :
    winAddr 0 = true ∧ winAddr 0x3FFFFC = true ∧ dev.regBit Reg.RING_HIF 3 = false ∧
    (devR [(Reg.RING_HIF, 0x1F)]).regBit Reg.RING_HIF 0 = true ∧ (devR [(Reg.RING_HIF, 0x1F)]).regBit Reg.RING_HIF 3 = true ∧
    reaches (devR [(Reg.RING_HIF, 0x1F)]) .qspi 0 = true ∧
    reaches { dev with host := { width := 1, vfEnable := true, numVfs := 63 } } .pcie 63 = true := by decide +kernel

/-- What a read of a window finds: a register, a lower half, and the first and the last slot of the pop buffer. -/
theorem test_window_reads :
    popSlot 0 = none ∧ winLower 0 = false ∧ winLower 0x18 = true ∧ popSlot 0x6800 = some 0 ∧ popSlot 0x6BFC = some 15 := by decide

/-- Whether a word passes its check as it leaves is a free value: either may be. -/
theorem test_words_leave :
    (Config.pick 0 % 2 = 0 → ∃ u, egress dev 0x31 none = (true, u)) ∧ (Config.pick 0 % 2 ≠ 0 → ∃ u, egress dev 0x31 none = (false, u)) :=
  ⟨fun h => ⟨_, if_pos h⟩, fun h => ⟨_, if_neg h⟩⟩

/-! ### The journal and the evidence store -/

/-- A commit of instance 1 by its ticket 5, with one counter intent, and the device with stored energy and that commit
in each of its phases. -/
def com : Commit := { id := 3, src := 1, ticket := some 5, intents := [.counter 0 1] }
def devC (t : Tdl) : State :=
  { dev with pwr := { dev.pwr with cmeas := 4700, vhold := 15500, samples := [15500] }, tdl := t, tickets := [(261, { used := true })] }

theorem test_admission :
    com.src < 65 ∧ checkState (devC { waiting := [com] }) com (devC { waiting := [com] }).projected = none ∧
    (devC { waiting := [com] }).kpr.replayDone = true ∧ (devC { waiting := [com] }).pwr.low = false ∧
    (devC { waiting := [com] }).kpr.records = true ∧ com.purpose ≠ .startup ∧ (devC { waiting := [com] }).kpr.brkReady = true ∧
    com.reserve = false ∧ fits (devC { waiting := [com] }) com = true ∧
    (let u := flushSample (devC { waiting := [com] })
     u = devC { waiting := [com] } ∧ (resolveAll u com u.projected u.tdl.next).devFull = []) ∧
    (devC { waiting := [com] }).tdl.admitted.any Commit.last = false ∧ State.reset.kpr.replayDone = false := by decide +kernel

theorem test_marked_and_applied :
    (devC { admitted := [com] }).tdl.admitted = [com] ∧ com.purpose = .none ∧ com.ticket = some 5 ∧ com.deliver = .commit ∧
    ((devC { admitted := [com] }).tk 1 5).used = true ∧ ((devC { admitted := [com] }).tk 1 5).done = false ∧
    (∀ k ∈ [0, 3], sget (fun _ => 0) com.failed k < 2 ∧ sget (fun _ => 0) ({ com with failed := [(k, 2)] }).failed k = 2) ∧
    (0 < ({ com with pages := 1 }).pages) ∧ (devC { marked := [com] }).tdl.marked = [com] ∧
    (devC {}).tdl.admitted = [] ∧ (devC {}).tdl.marked = [] := by decide +kernel

/-- A volume with an open strip, with a closed one, and with the trailer that ends its band. -/
def devV (x : Vol) : State := { dev with dur := { vols := [(1, { x with exist := true, gen := 1 })] } }
def aRecord : Record :=
  { type := 0, inst := 1, fmt := 0, flags := 0, epoch := 0, tagLow := 0, time := 0, seq := 1, body := ⟨0, []⟩, strip := 0, offset := 0 }
def isClosed : Strip := { num := 0, closed := some (2, 0, 0) }

def drawn (d : Draw × State) : Bool := match d.1 with | .ok _ => true | _ => false

theorem test_strips :
    ((devV { fill := 64, records := [aRecord], strips := [{ num := 0 }] }).projected.vol 1).exist = true ∧
    ((devV { fill := 64, records := [aRecord], strips := [{ num := 0 }] }).projected.vol 1).isOpen = true ∧
    ((devV {}).projected.vol 1).isOpen = false ∧ stripRoot (devV {}) = some 2 ∧
    stripRoot { devV {} with kpr := { mode := Mode.blank } } = none ∧
    (((devV { strips := [isClosed] }).dur.vol 1).strips.find? (·.closed.isSome)) = some isClosed ∧
    drawn (hybridSign (devV { strips := [isClosed] }) [] []) = true ∧
    nextSeal ((devV { trailers := [(63, [])] }).dur.vol 1) = some 0 ∧ dev.pwr.flush = 0 := by decide +kernel

/-- Reads of nothing there and of one record, into a buffer in the keeper data area. -/
def aRead (start : Nat) : StrataReq := { who := .keeper, volume := 1, count := 1, start := start, dest := 0x1C0000000, dlen := 64 }

theorem test_evidence_reads :
    strataRead (devV { records := [aRecord] }) 1 (aRead 9) = (St.notPresent, []) ∧
    (strataRead (devV { records := [aRecord] }) 1 (aRead 1)).2.map (·.1) = [0] ∧
    (∀ p ∈ (strataRead (devV { records := [aRecord] }) 1 (aRead 1)).2,
      (engWrite (devV { records := [aRecord] }) (0x1C0000000 + p.1) p.2 (some 0)).1 = true) := by decide +kernel

/-- The keeper's Strata read ring with an entry whose OP byte is `b` and whose destination has a tag. -/
def readRing (b : Byte) (t : Word4) : State :=
  { dev with
    rings := [(0, ring1 true false { st := 1, tail := 1, lens := [1] })]
    mem := [(0x1C0000000, b), (0x1C0000001, 1), (0x1C0000002, 1), (0x1C0000011, 0x10), (0x1C0000013, 0xC0), (0x1C0000014, 1)]
    tags := [(0x38000002, t)] }

theorem test_read_requests :
    dev.descF 0 .rdRing = 0 ∧ readWaits (readRing 2 Tag.ptr) 0 0 1 = false ∧ readWaits dev 0 0 1 = false ∧
    (∀ b ∈ [(1, true), (9, true)], ∀ t ∈ [Tag.ptr, Tag.raw], readWaits (readRing b.1 t) 0 0 1 = true ∧
      (takeRing (readRing b.1 t) 0).1.any (fun p => !p.poisoned && p.len == 64 && getLe p.bytes 0 1 == b.1.toNat &&
        getLe p.bytes 1 1 == 1 && (p.words.getD 2 (rawW 0)).tag == t) = true) ∧
    (engWrite dev (0x1C0001000 + 0) (rawPayload (zeros 64)) (some 0) false).1 = true ∧
    (engWrite dev (0x1C0001000 + 0) (rawPayload (zeros 8)) (some 0) true).1 = false := by decide +kernel

theorem no_energy (s : State) (h : s.pwr.cmeas = 0) : energyUj s ≤ reserveUj s := by
  have : energyUj s = 0 := by simp [energyUj, h]
  omega

theorem lowVhold_pwr (s : State) (mv : Nat) : (lowVhold s mv).pwr = s.pwr := by
  unfold lowVhold
  split <;> rfl

theorem sample_keeps (s : State) : (flushSample s).pwr.cmeas = s.pwr.cmeas := by
  unfold flushSample
  split
  · rfl
  · simp only [sampleVhold, lowVhold_pwr]

/-- After a main loss the energy that is left decides whether a marked commit is applied. -/
def flushing : State := { devC { marked := [com] } with pwr := { up := true, flush := 1 } }

theorem test_flush_energy :
    flushing.pwr.flush ≠ 0 ∧ flushing.tdl.marked = [com] ∧ energyUj (flushSample flushing) ≤ reserveUj (flushSample flushing) :=
  ⟨by decide, rfl, no_energy _ (sample_keeps flushing)⟩

/-- The device with power, and at each step of a main loss. -/
def devL (n : Nat) : State := { dev with pwr := { dev.pwr with flush := n } }

theorem test_main_loss :
    (devL 0).pwr.up = true ∧ (devL 0).tmp.pendFlags = 0 ∧ (devL 1).pwr.up = true ∧ (devL 1).pwr.flush = 1 ∧
    (devL 1).tdl.admitted = [] ∧ ({ devL 1 with tdl := { admitted := [com] } }).tdl.admitted ≠ [] ∧ (devL 2).pwr.flush = 2 := by
  decide +kernel

/-! ### Sessions and the standing list -/

theorem test_new_context :
    (cnewTake dev { kind := 1, owner := 1, slot := none, key := none, limlog := 0, cred := [] }).isSome = true ∧
    dev.dur.shgFresh < 2 ^ 20 ∧ (dev.sctx dev.dur.shgFresh).gen < 4096 := by decide +kernel

/-- The device with an edit of the standing list under way, and with a switch under way. -/
def devE (op : Nat) (refused : Bool) (loaded releasing : Bool) : State :=
  { dev with stl := { busy := some { op := op, entry := zeros 32, refused := refused }, loaded1 := loaded, releasing := releasing } }
def devS : State := { devE 3 false true false with tdl := { marked := [{ com with effs := [.stlSwitch 1] }] } }

theorem test_standing_list :
    dev.stlLoaded 0 = false ∧ dev.dur.stlActive = 0 ∧
    ({ dev with stl := { loaded0 := true } }).stlLoaded 0 = true ∧ ({ dev with stl := { loaded0 := true } }).stlLoaded 1 = false ∧
    dev.stl.busy = none ∧ stlSwitching (devE 3 false true false) = false ∧ stlSwitching devS = true ∧
    (∀ op ∈ [2, 3, 4, 5], (devE op false true false).stl.busy = some { op := op, entry := zeros 32, refused := false } ∧
      (devE op false true false).stlLoaded 1 = true ∧ (devE op false true false).stl.releasing = false ∧
      ((devE op false true false).stlGen 1).entries = [] ∧ ((devE op false true false).stlGen 1).find (zeros 16) = none) ∧
    (devE 3 false false false).stlLoaded 1 = false ∧ (devE 3 false true true).stl.releasing = true := by decide +kernel

/-- A generation that holds an entry of a credential, at a place the credential may have. -/
theorem test_an_entry_is_found (e : List Byte) :
    let p := 4 * stlB1 (zeros 16) (e.take 16)
    ({ salt := zeros 16, entries := [(p, e)] } : StlGen).find (e.take 16) = some (p, e) := by
  simp only [StlGen.find, List.find?, credOf]
  rw [decide_eq_true (by simp [stlPlaces])]
  simp

/-! ### Keys and the random source -/

/-- The keeper's key registers name slot 5 and an Ed25519 pair of the keeper for the root in use, and a buffer in the keeper
data area. Slot 9 holds an import key. -/
def keyRegs : List (Nat × Word32) :=
  [(Reg.KEY_SSEL, 5), (Reg.KEY_NATTR, 0x15800000), (Reg.KEY_ARG_LO, 0xC0000000), (Reg.KEY_ARG_LO + 4, 1),
    (Reg.KEY_ARG2, 0x05000009)]
def devK (full : Bool) : State :=
  { devR keyRegs with
    tickets := [(5, { serial := 9, used := true, done := true, op := .x 0x2A 0 [] [] 0, secret := some (zeros 32) })]
    dur := { slots := (if full then [(5, { kind := 0x15, root := 2 })] else []) ++ [(9, { kind := 0x50, root := 2, v := zeros 32 })] } }

theorem test_key_commands :
    (devK false).key.cmd = none ∧ (devK false).mode = Mode.service ∧ slotsReady (devK false) = true ∧
    (devK false).regFld Reg.KEY_SSEL 0 12 = 5 ∧ attrOk (devK false) 5 (nattrSlot (devK false)) cmdKinds = true ∧
    ((devK false).slot 5).kind = 0 ∧ ((devK true).slot 5).kind = 0x15 ∧ attrOk dev 0 (nattrSlot dev) cmdKinds = false ∧
    drawn (rngDraw (devK false) 32) = true ∧ inKeeperData ((devK false).reg64 Reg.KEY_ARG_LO) 40 = true ∧
    isOk (engRead (devK false) ((devK false).reg64 Reg.KEY_ARG_LO) 40 0x28 none false).1 = true ∧
    (agreeSecret (devK false) 0 5 9).isSome = true ∧ slotCheck (devK false) 0 0 9 (· == 0x50) = St.ok := by decide +kernel

/-- A slot whose public key is exported and one that takes a public key, with the buffer in the keeper data area. -/
def devP (full : Bool) (kind len : Word32) : State :=
  { devK full with
    regs := [(Reg.PKE_PUB_SLOT, 5), (Reg.PKE_PUB_ADDR_LO, 0xC0000000), (Reg.PKE_PUB_ADDR_LO + 4, 1), (Reg.PKE_PUB_LEN, len),
      (Reg.KEY_NATTR, 0x00800000 + 0x1000000 * kind), (Reg.KEY_ATT_ADDR_LO, 0xC0000000), (Reg.KEY_ATT_ADDR_LO + 4, 1),
      (Reg.KEY_ATT_LEN, 4096)] }

theorem test_public_keys :
    (devP true 0 64).pke.busy = none ∧ slotsReady (devP true 0 64) = true ∧ (devP true 0 64).regFld Reg.PKE_PUB_SLOT 0 12 = 5 ∧
    slotCheck (devP true 0 64) 0 0 5 (fun k => !(aeadKind k || k == 0x50)) = St.ok ∧
    (pubKey 0x15 ((devP true 0 64).slot 5).v).length ≤ 64 ∧
    attrOk (devP false 0x41 (BitVec.ofNat 32 (pubLen 0x41))) 5 (nattrSlot (devP false 0x41 (BitVec.ofNat 32 (pubLen 0x41))))
      (fun k => 0x41 ≤ k && k ≤ 0x49) = true ∧
    inKeeperData 0x1C0000000 (pubLen 0x41) = true ∧ ((devP false 0x41 32).slot 5).kind = 0 ∧
    isOk (engRead (devP false 0x41 32) 0x1C0000000 32 0x27 none false).1 = true ∧ (devP true 0 64).key.att = false ∧
    (devP true 0 64).regFld Reg.KEY_ATT_LEN 0 16 = 4096 ∧ 0xC8 + 104 * (measured (devP true 0 64)).length + 3429 ≤ 4096 ∧
    inKeeperData 0x1C0000000 4096 = true ∧ drawn (signedStatement (devP true 0 64) (zeros 32)) = true := by decide +kernel

theorem test_public_keys_written :
    (engWrite (devP true 0 64) 0x1C0000000 (rawPayload (pubKey 0x15 [])) none).1 = true ∧
    (engWrite (devP true 0 64) 0x1C0000000 (rawPayload (zeros 3629)) none).1 = true := by decide +kernel

/-- The random source while it runs, before the first seed and after it, and the slots before their load. -/
theorem test_random_source :
    dev.kpr.replayDone = true ∧ ({ dev with key := {} }).key.loaded = false ∧ rootOf dev.mode ≠ 4 ∧ dev.pwr.up = true ∧
    dev.rng.fatal = false ∧ dev.rng.restarting = false ∧ dev.kpr.seedDone = true ∧ dev.rng.waiting = false ∧ dev.rng.epfail < 3 ∧
    ({ dev with kpr := {} }).kpr.seedDone = false ∧ ({ dev with kpr := {} }).rng.passes < 16 ∧ State.reset.kpr.replayDone = false := by
  decide +kernel

/-! ### Registers, start-up and modes -/

/-- Registers of each access code, an address without one, an RC register and a lower half; and the halves of a region. -/
theorem test_register_access :
    dev.kpr.running = true ∧ State.reset.kpr.running = false ∧ regDesc 0xFFFFFC = none ∧
    (∀ a ∈ [Reg.KPR_WAKE_EN, Reg.KPR_WAKE_CAUSE, Reg.RING_STATUS], a ∉ commandRegs ∧ isMpuReg a = false ∧ bindShut dev a = false ∧
      (regDesc a).isSome = true ∧ (regDesc a).any (·.legal == []) = true) ∧
    isMpuReg Reg.MPU_DMAP = true ∧ misel dev = 0 := by decide +kernel

theorem test_registers_of_each_kind :
    ((regDesc 0x44).map (·.rc)) = some true ∧ ((regDesc Reg.RING_STATUS).any (·.w1c != 0)) = true ∧
    ((regDesc Reg.KPR_WAKE_EN).any (·.rw != 0)) = true ∧ isLower Reg.RING_BASE_LO = true := by decide +kernel

/-- A device without power, with power, and in a mode. -/
def devM (m : Word4) : State := { dev with kpr := { dev.kpr with mode := m } }

theorem test_power_and_reset :
    State.reset.pwr.up = false ∧ dev.pwr.up = true ∧ dev.pwr.flush = 0 ∧ reqReady dev = true ∧ reqReady State.reset = false ∧
    dev.cfl.busy = [] ∧ ({ dev with kpr := {} }).kpr.replayDone = false := by decide +kernel

/-- The capacitance while it is not measured, on charged capacitors that a measurement is wanted of, and while it is. -/
def devB (p : Pwr) : State := { devR [(Reg.BRK_CAP_MIN, 100)] with pwr := { p with up := true } }

theorem test_capacitance :
    (devB {}).pwr.measuring = false ∧ (devB { charged := true, want := true }).pwr.want = true ∧
    (devB { measuring := true, low := true }).pwr.measuring = true ∧ (devB {}).regFld Reg.BRK_CAP_MIN 0 16 = 100 ∧
    100 ≤ 16000 / 160 ∧ 15999 / 160 < 100 ∧ (devB {}).tdl.waiting = [] ∧
    ({ devB {} with kpr := {} }).kpr.brkReady = false ∧ (devB {}).pwr.charged = false ∧ (devB {}).pwr.vhold < 15000 ∧
    15000 ≤ (devB { vhold := 15000 }).pwr.vhold := by decide +kernel

theorem test_startup_records :
    ({ dev with kpr := { dev.kpr with records := false } }).kpr.records = false ∧ dev.kpr.replayDone = true ∧
    dev.kpr.brkReady = true ∧ dev.terminated = false ∧ dev.mode ≠ Mode.starting := by decide +kernel

/-- The keeper in Service and in Workshop asks for a mode, where a decision may begin, and where one is held back. -/
theorem test_mode_requests :
    (∀ m ∈ [Mode.service, Mode.workshop], reqReady (devM m) = true ∧ (devM m).rng.fatal = false ∧
      decisionBlocked (devM m) = false ∧ drawn (rngDraw (devM m) 1) = true ∧ (devM m).kpr.decision = none) ∧
    drawn (rngDraw { dev with kpr := { dev.kpr with standby := 1 } } 1) = true ∧
    decisionBlocked { dev with tmp := { deferred := true } } = true ∧ reqReady { dev with tmp := { deferred := true } } = true ∧
    (∀ g ∈ [(0 : Word4), 1, 5, 14], g ≠ 2 ∧ g ≠ 3 ∧ g ≠ 4 ∧ g ≠ 15) ∧ Mode.workshop ≠ Mode.service := by decide +kernel

/-- A decision that the first unit has evaluated, and one that is held back. -/
def devD (m : Word4) (d : Decision) (v : Option Word16) : State :=
  { devM m with kpr := { (devM m).kpr with decision := some (d, v) } }

theorem test_decisions :
    evaluate (devD Mode.workshop (.service 0) (some St.ok)) (.service 0) = St.ok ∧
    evaluate (devD Mode.service (.service 0) (some St.modeRefused)) (.service 0) ≠ St.ok ∧ St.modeRefused ≠ St.ok ∧
    decisionBlocked (devD Mode.workshop (.service 0) none) = false ∧
    drawn (rngDraw (devD Mode.workshop (.service 0) none) 1) = true ∧
    decisionBlocked { devD Mode.workshop (.service 0) none with tmp := { deferred := true } } = true ∧
    (devD Mode.workshop (.service 3) (some St.ok)).mode = Mode.workshop := by decide +kernel

/-- The check of an image is a free value: where it fails, start-up's two refusals agree. -/
theorem test_start_up_refused (h : imageOk (devD Mode.starting .startup (some St.imageInvalid)) false = false) :
    evaluate (devD Mode.starting .startup (some St.imageInvalid)) .startup ≠ St.ok ∧ St.imageInvalid ≠ St.ok := by
  constructor
  · show (if imageOk (devD Mode.starting .startup (some St.imageInvalid)) false then St.ok else St.imageInvalid) ≠ St.ok
    rw [h]
    decide
  · decide

/-- A credential that ends at a time, before and after it, on a clock that is set. -/
theorem test_workshop_ends :
    ∀ t ∈ [5, 6], ({ devM Mode.workshop with
      kpr := { (devM Mode.workshop).kpr with notAfter := some 5, timeSet := true, devtime := BitVec.ofNat 64 t } }).kpr.notAfter = some 5 ∧
    decisionBlocked { devM Mode.workshop with
      kpr := { (devM Mode.workshop).kpr with notAfter := some 5, timeSet := true, devtime := BitVec.ofNat 64 t } } = false ∧
    drawn (rngDraw { devM Mode.workshop with
      kpr := { (devM Mode.workshop).kpr with notAfter := some 5, timeSet := true, devtime := BitVec.ofNat 64 t } } 1) = true := by
  decide +kernel

def devY (n : Nat) (strips : List Strip) : State :=
  { devV { strips := strips } with kpr := { dev.kpr with standby := n }, regs := [(Reg.KPR_WAKE_EN, 1)] }

theorem test_standby :
    (devY 2 []).kpr.standby = 2 ∧ (devY 2 []).tdl.waiting = [] ∧ (devY 2 []).tdl.admitted = [] ∧ (devY 2 []).terminated = false ∧
    signQueue (devY 3 []) = 0 ∧ (devY 3 []).kpr.waking = false ∧ signQueue (devY 3 [isClosed]) ≠ 0 ∧
    (devY 0 []).regBit Reg.KPR_WAKE_EN 0 = true ∧ (devY 0 []).regBit Reg.KPR_WAKE_EN 5 = false ∧
    ({ devY 0 [] with kpr := { mode := Mode.standby } }).mode = Mode.standby ∧ (devY 0 []).mode ≠ Mode.standby := by decide +kernel

/-! ### The ROM services -/

/-- The device in a mode with the header of a boot block written. -/
def devZ (m : Word4) (b : Bool) (swapped : Bool := false) : State :=
  { devM m with cfl := { swapped := swapped, units := [(bootBase b / 32, 1), (bootBase b / 32 + 1, 1)] } }

/-- The first and the last segment that a request may name. -/
theorem test_a_segment_is_written (r : FlopEnv) (h : r.ok = true) :
    (∀ n ∈ [0x40, 0xFFFE0], WritesSegment (devZ Mode.personalise false) false (leBytes 8 n ++ zeros 32) r) ∧
    ∀ n ∈ [0x40, 0xFFFE0], ∀ b ∈ [true, false], WritesSegment (devZ Mode.recovery true b) true (leBytes 8 n ++ zeros 32) r := by
  have h1 : ∀ n ∈ [0x40, 0xFFFE0], (leBytes 8 n ++ zeros 32).length = 40 ∧ 0x40 ≤ getLe (leBytes 8 n ++ zeros 32) 0 8 ∧
      getLe (leBytes 8 n ++ zeros 32) 0 8 % 32 = 0 ∧ getLe (leBytes 8 n ++ zeros 32) 0 8 + 32 ≤ 0x100000 := by decide +kernel
  have h2 : ∀ n ∈ [0x40, 0xFFFE0], (devZ Mode.personalise false).written (bootBase false) = true ∧
      (devZ Mode.personalise false).written (bootBase false + 32) = true ∧
      (devZ Mode.personalise false).written (bootBase false + getLe (leBytes 8 n ++ zeros 32) 0 8) = false ∧
      (devZ Mode.personalise false).isBad (bootBase false + getLe (leBytes 8 n ++ zeros 32) 0 8) = false := by decide +kernel
  have h3 : ∀ n ∈ [0x40, 0xFFFE0], ∀ b ∈ [true, false], (devZ Mode.recovery true b).written (bootBase true) = true ∧
      (devZ Mode.recovery true b).written (bootBase true + 32) = true ∧
      (devZ Mode.recovery true b).written (bootBase true + getLe (leBytes 8 n ++ zeros 32) 0 8) = false ∧
      (devZ Mode.recovery true b).isBad (bootBase true + getLe (leBytes 8 n ++ zeros 32) 0 8) = false := by decide +kernel
  exact ⟨fun n m => ⟨h, (h1 n m).1, (h1 n m).2.1, (h1 n m).2.2.1, (h1 n m).2.2.2, ⟨(h2 n m).1, (h2 n m).2.1⟩, (h2 n m).2.2.1,
    (h2 n m).2.2.2⟩, fun n m b k => ⟨h, (h1 n m).1, (h1 n m).2.1, (h1 n m).2.2.1, (h1 n m).2.2.2, ⟨(h3 n m b k).1, (h3 n m b k).2.1⟩,
    (h3 n m b k).2.2.1, (h3 n m b k).2.2.2⟩⟩

theorem test_services :
    (∀ m ∈ [Mode.blank, Mode.personalise, Mode.recovery], svcBusy (devM m) = false ∧ (devM m).terminated = false ∧
      (devM m).rng.fatal = false ∧ decisionBlocked (devM m) = false ∧ drawn (rngDraw (devM m) 1) = true ∧ m ≠ Mode.starting) ∧
    svcBusy (devD Mode.blank .persoBegin none) = true ∧ (devM Mode.terminated).terminated = true ∧
    svcBusy (devM Mode.terminated) = false ∧ svcModes 0x16 = none ∧ Mode.service ∉ [Mode.recovery, Mode.terminated] ∧
    (devM Mode.personalise).otp.tagged = false ∧ ({ devM Mode.personalise with otp := { tagged := true } }).otp.tagged = true ∧
    (devM Mode.recovery).otp.swapCtr < 64 ∧ 64 ≤ ({ devM Mode.recovery with otp := { swapCtr := 64 } }).otp.swapCtr ∧
    (devM Mode.recovery).otp.rpSet < 1024 ∧ drawn (signedStatement (called (devM Mode.recovery) (zeros 32) 0x11) (zeros 32)) = true ∧
    (let q := [1, 63] ++ zeros 62; q.length = 64 ∧ 1 ≤ getLe q 0 1 ∧ getLe q 0 1 ≤ 5 ∧ getLe q 1 1 < 64) := by decide +kernel

/-- A certificate's check is a free value: where it passes, the first place of the chain and one that has its certificate. -/
theorem test_certificates (h : Config.certParses [1] = true) :
    4 < ([0, 0, 0, 0, 1] : List Byte).length ∧ slice ([0, 0, 0, 0, 1] : List Byte) 1 3 = zeros 3 ∧
    certPlace (getLe [0, 0, 0, 0, 1] 0 1) = true ∧ getLe [0, 0, 0, 0, 1] 0 1 ≠ 0x50 ∧
    Config.certParses (([0, 0, 0, 0, 1] : List Byte).drop 4) = true ∧ (devM Mode.personalise).otp.certs = [] ∧
    ∃ q ∈ ({ devM Mode.personalise with otp := { certs := [(0, [1])] } }).otp.certs, q.1 = getLe [0, 0, 0, 0, 1] 0 1 :=
  ⟨by decide, by decide, by decide, by decide, h, rfl, by decide⟩

/-! ### The air link -/

/-- A tag that names itself 5, whose link runs with binding 0 on the keeper's rings 1 and 2; its signal lasts. With
`ctrl` 3 it is a reader, with 0x13 one that may wait. -/
def devA (x : Air) (ctrl : Word32 := 1) : State :=
  { devR [(Reg.AIR_CTRL, ctrl), (Reg.AIR_TAGID_LO, 5), (Reg.AIR_FLOOR, 0xFF00), (Reg.AIR_DWELL_CAP, 100), (Reg.AIR_INV, 0x10000),
      (Reg.AIR_BIND, 0x80001002)] with
    air := { x with samples := List.replicate 16 0 } }

/-- A frame for it. -/
def airFrame (cmd : Byte) (payload : List Byte) (flags : Byte := 0) : AirFrame :=
  { channel := 0, cmd := cmd, flags := flags, dest := 5, seq := 7, payload := payload }

theorem link_runs : airEnabled (devA {}) = true ∧ readerRole (devA {}) = false ∧ tagId (devA {}) = 5 := by decide +kernel

theorem hears (x : Air) (f : AirFrame) : Hears (devA x) f := ⟨link_runs.1, link_runs.2.1, rfl⟩

theorem names (x : Air) : tagId (devA x) = 5 := link_runs.2.2

theorem test_frames (x : Air) (h : x.channel = 0) (cmd flags : Byte) (payload : List Byte) (hp : payload.length ≤ 256) :
    ForMe (devA x) (airFrame cmd payload flags) ∧
    Good (devA x) { airFrame cmd payload flags with dest := broadcast } :=
  ⟨⟨⟨hears x _, rfl, hp, .inl (names x).symm⟩, (names x).symm, h.symm⟩, ⟨hears x _, rfl, hp, .inr rfl⟩⟩

theorem test_filtered_frames :
    airEnabled (devA {} 0) = false ∧ readerRole (devA {} 3) = true ∧ (devL 1).pwr.flush ≠ 0 ∧
    ({ airFrame 1 [] with fcsOk := false }).fcsOk = false ∧ 256 < (airFrame 1 (zeros 257)).payload.length ∧
    ({ airFrame 1 [] with dest := 6 }).dest ≠ tagId (devA {}) ∧ (6 : Word64) ≠ broadcast ∧
    ({ airFrame 3 [] with channel := 3 }).channel.val ≠ (devA {}).air.channel := by decide +kernel

theorem test_tag_states :
    (leBytes 8 9).length = 8 ∧ BitVec.ofNat 64 (getLe (leBytes 8 9) 0 8) ≠ (devA { tstate := 1 }).air.reader ∧
    BitVec.ofNat 64 (getLe (leBytes 8 0) 0 8) = (devA { tstate := 3 }).air.reader ∧
    (airFrame 1 [] 4).flags.getLsbD 2 = true ∧ (airFrame 1 []).flags.getLsbD 2 = false ∧
    (∀ n ∈ [0, 3, 64], getLe ([BitVec.ofNat 8 n] ++ leBytes 8 (5 % 2 ^ n)) 0 1 = n ∧
      getLe ([BitVec.ofNat 8 n] ++ leBytes 8 (5 % 2 ^ n)) 1 8 = (tagId (devA {})).toNat % 2 ^ n) ∧
    getLe ([3] ++ leBytes 8 6) 1 8 ≠ (tagId (devA {})).toNat % 2 ^ 3 := by decide +kernel

/-- An Active tag with area 3, of 8 bytes, and what its owner set of it. -/
def devT (x : Area) (air : Air := {}) : State :=
  { devA { air with tstate := 2 } with dur := { areas := [(3, { x with size := 8, content := [rawW 0], owner := 1 })] } }

theorem test_reads :
    (devT {}).kpr.replayDone = true ∧ ((devT {}).area 3).size = 8 ∧ ((devT {}).area 4).size = 0 ∧
    (let p := [3] ++ leBytes 2 4 ++ leBytes 2 4
     getLe p 0 1 = 3 ∧ getLe p 1 2 + getLe p 3 2 ≤ 8 ∧ 8 < getLe ([3] ++ leBytes 2 4 ++ leBytes 2 5) 3 2 + 4) ∧
    getLe ([64] : List Byte) 0 1 = 64 ∧ ((devT { read := 1 }).area 3).read = 1 ∧ 3 ∉ (devT { read := 1 }).air.unlocked ∧
    3 ∈ (devT { read := 1 } { unlocked := [3] }).air.unlocked ∧ ((devT { read := 2 }).area 3).read = 2 ∧
    airBinding (devT {}) 0 = some (0, 1, 2) ∧ airBinding (devT {}) 1 = none ∧
    (devT {} { kept := [⟨7, St.ok, [], none, false⟩] }).air.kept.find? (·.seq == 7) = some ⟨7, St.ok, [], none, false⟩ ∧
    (devT {}).air.kept.find? (·.seq == 7) = none ∧
    (8 : Byte) ∉ ([1, 2, 3, 4, 5, 6, 7, 0x10, 0x11, 0x12, 0x20] : List Byte) := by decide +kernel

/-- A WRITE of four bytes into the area, at its end and past it; and in Workshop. -/
theorem test_writes :
    (let p := [3] ++ leBytes 2 4 ++ leBytes 8 0 ++ zeros 4
     getLe p 0 1 = 3 ∧ getLe p 3 8 = 0 ∧ getLe p 1 2 + (p.drop 11).length ≤ 8 ∧ 8 < 5 + (p.drop 11).length) ∧
    (devT {}).terminated = false ∧ fieldMay (devT {}) 3 = true ∧ fieldMay (devT {} { locks := [(3, .field)] }) 3 = false ∧
    (devT {}).air.ops = [] ∧ dwellShort (rx (devT {})) false 8 false = false ∧
    shadowMode (devT {}) = false ∧
    shadowMode { devT {} with kpr := { dev.kpr with mode := Mode.workshop } } = true ∧
    dwellShort (rx { devT {} with kpr := { dev.kpr with mode := Mode.workshop } }) false 8 true = false ∧
    airEnabled { devT {} with kpr := { dev.kpr with mode := Mode.workshop } } = true ∧
    ((devT { write := 2 }).area 3).write = 2 ∧ ((devT { write := 1 }).area 3).write = 1 ∧
    ((devT { password := 9, limit := 2, attempts := 2 }).area 3).password ≠ 0 ∧
    ((devT { password := 9, limit := 2, attempts := 1 }).area 3).openClear = false ∧
    ((devT { password := 9, limit := 2, attempts := 1, openClear := true }).area 3).attempts < 2 ∧
    dwellShort (rx (devT {})) false 1 false = false := by decide +kernel

def aWrite (stage : Nat) (pwd : Bool := false) : FieldOp :=
  { seq := 7, pwd := pwd, ref := none, area := 3, offset := 0, expected := 0, data := [], stage := stage }

theorem test_commands_in_progress :
    (∀ st ∈ [0, 1, 2, 3], (devT {} { ops := [aWrite st] }).air.ops = [aWrite st] ∧ (aWrite st).live = true ∧ (aWrite st).deferred = false ∧
      (aWrite st).ref = none ∧ (aWrite st).area = (3 : Fin 64).val ∧ (devT {} { ops := [aWrite st] }).air.tstate = 2) ∧
    (devA {}).air.tstate ≠ 2 ∧ (aWrite 0 true).pwd = true ∧
    (devT {} { ops := [aWrite 3] }).air.ops.find? (fun o => o.area == 3 && o.stage == 3) = some (aWrite 3) ∧
    (devT {}).air.ops.find? (fun o => o.area == 3 && o.stage == 3) = none ∧
    (devT {} { ops := [aWrite 1] }).air.ops.find? (fun o => o.area == 3 && o.stage == 0) = none ∧
    fieldMay (devT {} { locks := [(3, .fold)] }) 3 = true ∧
    ((devT { limit := 2 } { ops := [aWrite 0 true] }).area 3).attempts < ((devT { limit := 2 } { ops := [aWrite 0 true] }).area 3).limit ∧
    dwellShort (devT { limit := 2 } { ops := [aWrite 0 true] }) false 1 false = false ∧
    (devT {}).mode = Mode.service ∧ (devT {}).admits = true ∧ lockOf (devT {}) 3 = none ∧ 3 ∉ (devT {}).air.folds ∧
    ({ devT {} with kpr := { mode := Mode.service } }).admits = false ∧
    (devT { sh0 := { valid := true, version := 1 } }).dur.areas.length = 1 ∧
    ({ sh0 := { valid := true, version := 1 } } : Area).shadow = some { valid := true, version := 1 } := by decide +kernel

/-- A reply of the application to a frame of reader 0, and a command of a reader, on the outbound ring of the binding. -/
def reply : Payload := rawPayload (leBytes 8 0 ++ [0x20, 0, 7] ++ zeros 53)
def devQ (air : Air) (ctrl : Word32 := 1) : State :=
  (wrWords ((devA { air with tstate := 2 } ctrl).setRing 2 (ring1 true false { st := 1, tail := 1, lens := [1] })) 0x1C0000000 reply.words)

theorem test_app_replies :
    airBinding (devQ {}) 0 = some (0, 1, 2) ∧ (takeRing (devA {}) 2).1 = none ∧
    ((takeRing (devQ {}) 2).1.map (·.bytes.getD 0x0A 0)) = some 7 ∧
    ((takeRing (devQ {}) 2).1.map (fun p => getLe p.bytes 0 8)) = some (devQ {}).air.reader.toNat ∧
    (devQ { apps := [{ b := 0, seq := 7 }] }).air.apps = [{ b := 0, seq := 7 }] ∧
    (devQ { apps := [{ b := 0, seq := 8 }] }).air.apps.find? (fun a => a.b == 0 && a.seq == 7) = none ∧
    ((takeRing (devQ {}) 2).1.any fun p => !p.poisoned) = true ∧ (takeRing (devQ { apps := [{ b := 0, seq := 7 }] }) 2).2.air.apps = [{ b := 0, seq := 7 }] ∧
    airEnabled (takeRing (devQ {}) 2).2 = true ∧ (takeRing (devQ {}) 2).2.air.tstate = 2 := by decide +kernel

theorem test_reader_role :
    readerRole (devQ {} 3) = true ∧ airEnabled (devQ {} 3) = true ∧ (devQ {} 3).pwr.flush = 0 ∧
    ((devQ {} 3).air.sent.any fun q => q.1 == 0) = false ∧ ((takeRing (devQ {} 3) 2).1.any fun p => !p.poisoned) = true ∧
    (devQ {} 3).rdByte (((devQ {} 3).ring 2).slotAddr ((devQ {} 3).ring 2).head + 9) &&& 1 = 0 ∧
    (devA { sent := [(0, ⟨9, 0x10, 7, none⟩)] } 3).air.sent.find? (·.1 == 0) = some (0, ⟨9, 0x10, 7, none⟩) ∧
    ((devA { sent := [(0, ⟨9, 0x10, 7, none⟩)] } 3).air.sent.any fun q => q.1 == 0) = true ∧
    (devA {} 3).air.sent.find? (·.1 == 0) = none ∧ (devA {} 3).regBit Reg.AIR_INV 16 = true ∧
    (devA { invStack := [(0, 0)] } 3).air.invStack = [(0, 0)] ∧ (devA {} 3).air.waiting = false ∧
    (devA {} 0x13).regBit Reg.AIR_CTRL 4 = true ∧ (devA {} 3).regBit Reg.AIR_CTRL 4 = false ∧
    (devA { waiting := true } 0x13).air.waiting = true ∧ (devA { waiting := true } 0x13).air.probes = [] ∧
    (devA {}).air.samples.length = 16 ∧ ({ devA {} with air := {} }).air.samples.length < 15 := by decide +kernel

/-- The tag with a session of the keeper bound to reader 0 or none, whose key, of slot 5, has its next counter value at 0. -/
def devU (l : List (Word64 × Word64)) : State :=
  { devA { tstate := 2, bound := l } with
    dur := { shg := [(0, { kind := 1, keyPresent := true, slotRef := some 5 })]
             slots := [(5, { kind := 1, root := rootOf Mode.service, reslim := 1024, limlog := 20 })] } }

/-- A sealed frame finds a key with a counter value, or no key; whether its payload opens is a free value. -/
theorem test_sealed_frames :
    (∀ p ∈ [(0x04, airFrame 0x04 [] 1), (0x12, airFrame 0x12 [] 3)], (devU []).air.tstate = 2 ∧ p.2.cmd = p.1 ∧ p.2.flags.getLsbD 0 = true ∧
      (devU []).kpr.replayDone = true ∧ boundKey (sameSeq (rx (devU [])) p.2.seq) (sameSeq (rx (devU [])) p.2.seq).air.reader = none ∧
      ((boundKey (sameSeq (rx (devU [(0, 0x100000)])) p.2.seq) (sameSeq (rx (devU [(0, 0x100000)])) p.2.seq).air.reader).map (·.1)) =
        some (KeyRef.slot 5) ∧
      (airCounter (sameSeq (rx (devU [(0, 0x100000)])) p.2.seq) (.slot 5)).1 = some 0) := by decide +kernel

theorem test_an_opened_payload (key h p : List Byte) : (∃ d, airUnseal key h p = some d) ∨ airUnseal key h p = none := by
  cases airUnseal key h p <;> simp

/-! ### Bundles, exceptions and interrupts -/

/-- A device with `code` whose first address is tagged, and one whose tag is POISON or RAW. -/
theorem test_a_fetch :
    let s := code 0 0x08
    let p := { s with tags := [(0x2000000, Tag.poison)] }
    rangeOf 0x10000000 ≠ some 5 ∧ rangeOf 0x40000000 = some 5 ∧ (0x40000000 : Nat) < 2 ^ 40 ∧ (0x10000002 : Nat) % 4 ≠ 0 ∧
    byteDenied s 1 1 0x10000000 .x = none ∧ (byteDenied State.reset 1 1 0x10000000 .x).isSome = true ∧
    (busyWord { s with cfl := { busy := [(0, { op := 1, inst := 1, ticket := 5, sel := 1 })] } } 0x20000000).isSome = true ∧
    byteDenied { s with cfl := { busy := [(0, { op := 1, inst := 1, ticket := 5, sel := 1 })] } } 1 1 0x20000000 .x = none ∧
    (∀ d ∈ [s, p, { s with tags := [] }], byteDenied d 1 1 0x10000000 .x = none ∧ busyWord d 0x10000000 = none ∧ d.isBad 0x10000000 = false) ∧
    s.rdTag 0x10000000 = Tag.code ∧ p.rdTag 0x10000000 = Tag.poison ∧ ({ s with tags := [] }).rdTag 0x10000000 ≠ Tag.code ∧
    opLegal (sylUnit (sylAt s 0x10000000)) (sylOp (sylAt s 0x10000000)) false 1 false = true ∧ sylStop (sylAt s 0x10000000) = true ∧
    opLegal (sylUnit (sylAt (code 0 0x3F) 0x10000000)) (sylOp (sylAt (code 0 0x3F) 0x10000000)) false 1 false = false := by
  decide +kernel

/-- A context between bundles, one in a bundle whose next word the syllable spells or not, and one in a loop's last bundle. -/
theorem test_the_next_syllable :
    let s := cpu (stk []) 3 0x10
    let l : LoopCtx := { start := 0x10000000, count := 2, length := 0, slot := 0 }
    (s.ctx 64).bundle = none ∧ (s.ctx 64).r.loops = [] ∧ okIs (decodeAt s 1 false 1 .none 0x10000000) [word 3 0x10] = true ∧
    isOk (decodeAt (cpu (stk []) 0 0x3F) 1 false 1 .none 0x10000000) = false ∧
    (bun (stk []) 3 0x10).next = none ∧ ({ bun (stk []) 3 0x10 with count := 0 } : Bundle).next = some (sylCode syl 3 0x10) ∧
    inner { (stk []).r with pc := 0x10000000, loops := [l] } = some l ∧ l.last = 0x10000000 := by decide +kernel

theorem test_a_bundle_commits :
    let s := cpu (stk []) 0 0x08
    (s.inst (64 / 64)).stopping = false ∧ (stk []).yielded = false ∧ (64 : Nat) ≠ keeperKey ∧
    (bun (stk []) 0 0x08).pend = [] ∧ (bun (stk []) 0 0x08).newLoop = none ∧ (bun (stk []) 0 0x08).target = none ∧
    (bun (stk []) 0 0x08).yields = false ∧ (got (stk []) 0 0x08).run = .running ∧
    storeOf (.store 0x10000100 8 (intW 1)) = some (0x10000100, 8) ∧ storeOf (.stc 0x10000100 (intW 1)) = some (0x10000100, 8) ∧
    phys s 0x10000108 ≠ phys s (0x10000100 + 7) := by decide +kernel

/-- The device with the descriptor of instance 1's handler in its gate table, source 0 of its interrupts at level 3 and
pending, and a mask; the keeper's rights read the table. -/
def gated (mask : BitVec 3) : State :=
  wrWords
    { cpu { r := { mask := mask, ds := { top := 0x10003000, size := 1024 } } } 0 0x08 with
      mpu := [(0, { dmap := 0x00FFFFFF }), (1, { dmap := 0x00FFFFFF, gateLo := 0xC0000000, gateHi := 1 })]
      insts := [(1, { state := 2, irq := [0], desc := (zeros 256).set 0x50 3 })] }
    0x1C0004000 [⟨Tag.code, 0x10000200⟩, ptrW 0x10004000, ptrW 0x10005000, intW 0x0040004080000000, intW 0, intW 0]

/-- What an exception of class 3 of context 0 of instance 1 finds there. -/
theorem test_exceptions :
    let s := gated 0
    let c := (s.ctx 64).undone
    (readGate s 1 256).isSome = true ∧ c.r.ds.items = [] ∧ c.r.rs.items = [] ∧ c.r.ds.mem = 0 ∧ c.r.rs.mem = 0 ∧
    c.r.mask.toNat < clsLevel Cls.tagCheck ∧ (64 : Nat) ≠ keeperKey ∧
    (match enterHandler ({ s with freeCtr := s.freeCtr + 1 }.setCtx 64 c) 1 64 1 c
        (frameWords 1 0 1 c (causeWord 0 0 0 0 1 (clsLevel Cls.tagCheck) Cls.tagCheck) 0 0) (clsLevel Cls.tagCheck) false .none with
      | .ok t => t.mode == s.mode
      | .error _ => false) = true ∧
    Cls.tagCheck ≠ Cls.shadow ∧ gateFault (cpu (stk []) 0 0x08) 1 256 .none = none ∧ readGate (cpu (stk []) 0 0x08) 1 256 = none ∧
    clsLevel Cls.tagCheck ≤ ((gated 7).ctx 64).undone.r.mask.toNat ∧ (gated 7).escQ = [] ∧
    (({ gated 7 with ctxs := [(0, { r := { level := 2, mask := 7 } })] }).ctx keeperKey).undone.r.mask = 7 := by decide +kernel

theorem test_an_interrupt :
    let s := gated 0
    let y := (s.ctx 64).undone
    irqNext s 1 = some (0, 3) ∧ takesIrq s 64 3 = true ∧ y.r.level ≠ 2 ∧
    (∀ n : Fin 64, n ≠ 0 → takesIrq s (ctxKey 1 n.val) 3 = false) ∧
    (match enterHandler (s.setInst 1 { s.inst 1 with irq := (s.inst 1).irq.filter (· ≠ 0), irqPtr := 0 + 1, ctxPtr := (0 + 1) % 64 }) 1 64 0 y
        (frameWords 1 0 0 y (causeWord 0 0 0 0 y.r.level.val 3 Cls.interrupt) 0 0) 3 false .none with
      | .ok t => t.mode == s.mode
      | .error _ => false) = true ∧
    irqNext (cpu (stk []) 0 0x08) 1 = none ∧ ((gated 7).ctx 64).r.mask = 7 := by decide +kernel

def heldCtx (st : Nat) : State :=
  { kpr := { running := true, mode := Mode.service }, insts := [(1, { state := st })], ctxs := [(64, { run := .held })] }

theorem test_slices :
    ((cpu (stk []) 0 0x08).ctx 64).run = .running ∧ ((cpu (stk []) 0 0x08).ctx 64).waiting = none ∧ ((cpu (stk []) 0 0x08).ctx 64).r.level ≠ 2 ∧
    (∀ st ∈ [2, 4], ((heldCtx st).ctx 64).run = .held ∧ (heldCtx st).kpr.running = true ∧ ((heldCtx st).inst 1).state = st) ∧
    (heldCtx 2).terminated = false ∧ ((heldCtx 4).inst 1).state ≠ 2 ∧ ((heldCtx 4).inst 1).state ≠ 3 ∧
    ((cpu { r := { level := 2 } } 0 0x08).ctx 64).r.level = 2 := by decide +kernel

/-- A cipher request of the keeper with the key of slot 5, whose counter is below its reservation or at it; and a lane that
holds one. -/
def ciph (n : Nat) (l : List (Nat × Lane) := []) : State :=
  { devR [(Reg.CIP_LANE_EN, 0xFFFF)] with
    cip := { queue := [(0, 5)], lanes := l }
    tickets := [(5, { used := true, op := .x 0x20 1 [⟨Tag.keyh, 5⟩, ptrW 0x1C0001000, intW 0, intW 0, ptrW 0x1C0002000] [] 0 })]
    dur := { slots := [(5, { kind := 2, root := 2, reslim := 4096, limlog := 20, ivctr := n, v := zeros 32 })] } }

theorem test_lanes :
    (∀ n ∈ [0, 4096], slotsReady (ciph n) = true ∧ nextRequester (ciph n) = some 0 ∧ freeLane (ciph n) = some 0 ∧
      (ciph n).cip.queue.find? (·.1 == 0) = some (0, 5) ∧ srcBusy (ciph n) ((ciph n).tk 0 5).op = false ∧
      (cipherKey (ciph n) 0 ⟨Tag.keyh, 5⟩).1 = St.ok ∧ (cipherKey (ciph n) 0 ⟨Tag.keyh, 5⟩).2.1 = .slot 5 ∧
      (cipherKey (ciph n) 0 ⟨Tag.keyh, 5⟩).2.2.2.2 = true ∧ (keyCtr (ciph n).dur (.slot 5)).exhausted = false ∧
      (keyCtr (ciph n).dur (.slot 5)).ivctr = n) ∧
    (cipherKey (ciph 0) 0 ⟨Tag.keyh, 6⟩).1 ≠ St.ok ∧ nextRequester dev = none ∧
    (ciph 0 [(0, { inst := 0, ticket := 5, mode := 1, long := true, ref := .slot 5, key := [] })]).air.held = [] ∧
    (ciph 0).air.due = [] ∧ (ciph 0).air.heldTx = [] ∧ (keyCtr (ciph 4095).dur (.slot 5)).ivctr < (keyCtr (ciph 4095).dur (.slot 5)).reslim := by decide +kernel

/-- A request with an empty source has it, and it does not change the device. -/
theorem test_lane_sources (s : State) (v : List TWord) (h : opSources 0x20 1 v = [(0x1C0001000, 0)]) :
    takeSources s (some 0) (.x 0x20 1 v [] 0) false = (.ok [⟨0, []⟩], s) := by
  simp [takeSources, h, engRead]

theorem test_a_lane_source : opSources 0x20 1 [⟨Tag.keyh, 5⟩, ptrW 0x1C0001000, intW 0, intW 0, ptrW 0x1C0002000] = [(0x1C0001000, 0)] := by
  decide +kernel

/-! ### Code flash and evidence flash -/

/-- An operation of instance 1, by its ticket 5, in the array 0. -/
def flop (sel addr len : Nat) : FlopRun := { op := sel, inst := 1, ticket := 5, sel := sel, addr := addr, len := len, src := List.replicate 4 (intW 1) }
def devF (r : FlopRun) : State := { dev with cfl := { busy := [(0, r)] }, tickets := [(261, { used := true })] }

theorem test_flash_operations :
    (∀ q ∈ [(1, 0x20000020, 32), (2, 0x20000020, 32), (3, 0x20000000, 65536), (3, 0x21FF0000, 65536), (4, 0x20000000, 32)],
      (devF (flop q.1 q.2.1 q.2.2)).cfl.busy.find? (·.1 == 0) = some (0, flop q.1 q.2.1 q.2.2) ∧
      ((devF (flop q.1 q.2.1 q.2.2)).tk 1 5).used = true ∧ ((devF (flop q.1 q.2.1 q.2.2)).tk 1 5).done = false ∧
      (devF (flop q.1 q.2.1 q.2.2)).isBad q.2.1 = false ∧ phys (devF (flop q.1 q.2.1 q.2.2)) q.2.1 = q.2.1 ∧
      q.2.1 % 32 = 0 ∧ (devF (flop q.1 q.2.1 q.2.2)).kpr.standby = 0) ∧
    dev.cfl.busy.find? (·.1 == 0) = none := by decide +kernel

/-- The check of an image is a free value: the first unit's verdict is the same as the second's. -/
theorem test_a_boot_swap (b : Bool) (h : imageOk (devF (flop 5 0 0)) (!(devF (flop 5 0 0)).kpr.bootsel) = b) :
    let r := { flop 5 0 0 with first := b }
    r.sel = 5 ∧ Waits (devF r) 1 5 ∧ r.first = imageOk (devF r) (!(devF r).kpr.bootsel) :=
  ⟨rfl, ⟨by decide, by decide, rfl, rfl⟩, h.symm⟩

theorem test_retention_stress :
    dev.pwr.up = true ∧ dev.pwr.flush = 0 ∧
    ∀ n, n < 4 → dieTemp (devR [(Reg.TMP_TEMP0, 1050), (Reg.TMP_TEMP0 + 4, 1050), (Reg.TMP_TEMP0 + 8, 1050), (Reg.TMP_TEMP0 + 12, 1050)]) n = 1050 := by
  decide +kernel

/-- The evidence flash with the blocks listed, its pool above the last blocks and its margin used up. -/
def devN (l : List (Nat × Blk)) (t : Tdl := {}) : State :=
  { devR [(Reg.EVF_THRESH, 0x5028)] with evf := { blocks := l, margin := 0 }, tdl := t }

theorem test_evidence_blocks :
    (∀ m ∈ [0, 40, 80], ((devN [(0, { use := 1, maxcb := m })]).blk 0).holds = true ∧
      refreshAt (devN [(0, { use := 1, maxcb := m })]) = 40 ∧ retireAt (devN [(0, { use := 1, maxcb := m })]) = 80 ∧
      ((devN [(0, { use := 1, maxcb := m })]).blk 0).maxcb = m) ∧
    217 < (devN []).evf.spare - 1 ∧ ((devN [(0, { use := 7 })]).blk 0).holds = false ∧ (devN []).tdl.sealing = false ∧
    (devN [] { sealing := true }).tdl.sealing = true ∧ (devN [] { sealing := true }).tdl.waiting = [] ∧
    signQueue (devN [] { sealing := true }) = 0 ∧ (devN [] { sealing := true }).tdl.admitted = [] ∧
    (devN [] { sealing := true }).terminated = false ∧ (devN []).kpr.replayDone = true ∧ (devN []).pwr.flush = 0 ∧
    (devL 1).tdl.sealing = false := by decide +kernel

/-- Wherever the search begins, a block of the pool is found where there is one. -/
theorem test_a_pool_block (l : List (Nat × Blk)) (b start : Nat) (hb : b < 43520) (hs : start < 43520) (h : ((devN l).blk b).use = 0) :
    ∃ n, findUse (devN l) 0 start = some n := by
  apply Option.isSome_iff_exists.1
  unfold findUse
  rw [List.find?_isSome]
  refine ⟨b, List.mem_map.2 ⟨(43520 + b - start) % 43520, List.mem_range.2 (by omega), by omega⟩, beq_iff_eq.2 h⟩

theorem test_the_pool_has_blocks : ((devN [(0, { use := 1, maxcb := 80 })]).blk 9000).use = 0 := by decide +kernel

/-- Where every block holds evidence, none is found. -/
def heldBlocks (l : List Nat) : State := devN (l.map fun k => (k, { use := 1, maxcb := 80 }))

theorem sget_map {α : Type} (d : Nat → α) (v : α) : ∀ (l : List Nat) (k : Nat), k ∈ l → sget d (l.map fun k => (k, v)) k = v
  | a :: l, k, hk => by
    by_cases e : a = k
    · simp [sget, e]
    · simpa [sget, e] using sget_map d v l k (by simpa [Ne.symm e] using hk)

theorem heldBlocks_blk (l : List Nat) (k : Nat) (h : k ∈ l) : (heldBlocks l).blk k = { use := 1, maxcb := 80 } :=
  sget_map blkNew _ _ k h

theorem test_no_pool_block (l : List Nat) (hl : ∀ k, k < 43520 → k ∈ l) (start : Nat) :
    ((heldBlocks l).blk 0).holds = true ∧ refreshAt (heldBlocks l) ≤ ((heldBlocks l).blk 0).maxcb ∧
    findUse (heldBlocks l) 0 start = none := by
  have h1 : refreshAt (devN []) ≤ 80 := by decide +kernel
  refine ⟨by rw [heldBlocks_blk l 0 (hl 0 (by omega))]; decide, by rw [heldBlocks_blk l 0 (hl 0 (by omega))]; exact h1, ?_⟩
  unfold findUse
  rw [List.find?_eq_none]
  intro b hb
  obtain ⟨k, _, rfl⟩ := List.mem_map.1 hb
  rw [heldBlocks_blk l _ (hl _ (Nat.mod_lt _ (by omega)))]
  decide

theorem test_every_block_is_listed : ∀ k, k < 43520 → k ∈ List.range 43520 := fun _ h => List.mem_range.2 h

/-! ### Instances and migration -/

/-- The bytes of a descriptor that passes its checks, but for zeros: one context and lane, rings 64 and 65, four bands, and a
mebibyte of DRAM with its stacks and its image. -/
def goodBytes : List (Nat × Byte) :=
  [(0x01, 1), (0x04, 1), (0x08, 64), (0x0A, 2), (0x0C, 64), (0x14, 4), (0x1C, 1), (0x24, 1), (0x29, 0x10), (0x2C, 1), (0x31, 0x20),
    (0x34, 1), (0x38, 1), (0x3A, 1), (0x49, 0x20), (0x4B, 0xC0), (0x4C, 1), (0x91, 0x40), (0x94, 1), (0x98, 64)]

def goodDesc : List Byte := (List.range 256).map fun k => sget (fun _ => 0) goodBytes k

def insRegs : List (Nat × Word32) :=
  [(Reg.INS_ISEL, 1), (Reg.INS_DESC_LO, 0xC0001000), (Reg.INS_DESC_LO + 4, 1), (Reg.INS_MIG_LO, 0xCDFFF000),
    (Reg.INS_MIG_LO + 4, 1), (Reg.RING_KRANGE, 64)]

/-- The device that shows it to the INS block for instance 1 in a state, and has its entry table. -/
def devX (x : Inst) : State :=
  { devR insRegs with
    insts := [(1, { x with desc := goodDesc })]
    mem := goodBytes.map fun p => (0x1C0001000 + p.1, p.2)
    mpu := [(0, { dmap := 0x00FFFFFF })]
    tags := ([4, 5, 6, 8, 9].map fun k => (0x38000200 + k, Tag.ptr)) ++ [(0x38000212, Tag.int), (0x38000400, Tag.code)] }

/-- What a read of sound memory leaves is the device as it was. -/
theorem read_keeps (s : State) (a n loc : Nat) (who : Option Nat) (h : ∀ u ∈ unitsOf a n, s.isBad u = false) :
    (engRead s a n loc who false).2 = s := by
  unfold engRead
  by_cases h0 : n = 0
  · simp [h0]
  · have : (unitsOf a n).find? (fun u => s.isBad u || ((false || false) && u == a / 64 * 64)) = none := by
      rw [List.find?_eq_none]
      intro u hu
      simp [h u hu]
    simp only [h0, if_false, this]
    split <;> rfl

theorem test_instance_commands :
    isel (devX {}) = 1 ∧ (devX {}).ins.busy = none ∧ (devX {}).terminated = false ∧ (devX {}).mode = Mode.service ∧
    (∀ st ∈ [0, 1, 2, 4, 5, 6], ((devX { state := st }).inst 1).state = st) ∧
    okIs (readDesc (cmdBegun (devX {}) 1) 1 true).1 goodDesc = true ∧
    stageOk goodDesc goodDesc = true ∧ useOk (devX { state := 1 }) 1 goodDesc false = true ∧
    isOk (readDesc (cmdBegun { devX {} with mem := [] } 1) 1 true).1 = false ∧ isel { devX {} with mem := [] } = 1 ∧
    (devX {}).descF 1 .imgBase % 64 = 0 ∧ (devX {}).descF 1 .imgLen = 64 ∧
    isOk (engRead (cmdBegun (devX { state := 1 }) 2) 0x100004000 64 0x28 none false).1 = true ∧
    isOk (etab (cmdBegun (devX { state := 1, installed := true }) 3) goodDesc).1 = true ∧ isOk (etab (cmdBegun (devX {}) 3) (zeros 256)).1 = false ∧
    ringsEmpty (devX { state := 4 }) 1 = true ∧
    ringsEmpty ((devX { state := 4 }).setRing 64 { cfg := 0x80800804, tail := 1 }) 1 = false ∧
    instCtxs (devX { state := 4 }) 1 = [] ∧ insFrom 1 1 = false ∧ insFrom 3 0 = false := by decide +kernel

theorem test_descriptor_reads :
    (∀ u ∈ unitsOf 0x1C0001000 256, (cmdBegun (devX {}) 1).isBad u = false) ∧
    (∀ u ∈ unitsOf 0x1C0002000 8, (cmdBegun (devX {}) 1).isBad u = false ∧ (cmdBegun (devX { state := 1, installed := true }) 3).isBad u = false) ∧
    (∀ u ∈ unitsOf 0x100004000 64, (cmdBegun (devX { state := 1 }) 2).isBad u = false) ∧
    (∀ u ∈ unitsOf 0x1CDFFF000 4096, (cmdBegun (devX { state := 5 }) 11).isBad u = false) := by decide +kernel

theorem test_quiesce :
    (∀ b ∈ [true, false], ((devX { state := 3, drain := b }).inst 1).state = 3 ∧ ((devX { state := 3, drain := b }).inst 1).drain = b ∧
      instQuiet (devX { state := 3, drain := b }) 1 = true) ∧ (devX { state := 3 }).tdl.waiting = [] ∧
    (devX { state := 3 }).kpr.standby ≠ 2 := by decide +kernel

/-- An offer and an image are checked with free values: where they pass, the other conditions hold of this device. -/
theorem test_migration :
    drawn (rngDraw (cmdBegun (devX {}) 12) 32) = true ∧ (rngDraw (cmdBegun (devX {}) 12) 32).2.tdl.waiting = [] ∧
    (rngDraw (cmdBegun (devX {}) 12) 32).2.terminated = false ∧
    (match (rngDraw (cmdBegun { devX {} with rng := { fatal := true } } 12) 32).1 with | .fatal => true | _ => false) = true ∧
    (migBuffer (cmdBegun (devX { state := 5, snap := some {} }) 11)).1.isSome = true ∧
    ((devX { state := 5, snap := some {} }).inst 1).snap ≠ none ∧ ((devX { state := 5 }).inst 1).snap = none ∧
    sget (fun _ => none) ({ devX {} with dur := { offers := [(1, some (zeros 32))] } }).dur.offers 1 = some (zeros 32) ∧
    offerOk (cmdBegun (devX { state := 5 }) 11) (zeros 4096) = false ∧
    restoreFits goodDesc { desc := goodDesc } = true ∧ ({ desc := goodDesc } : Snapshot).shg = [] ∧
    (match imageCheck (devX {}) 1 [] { header := [], chunks := [] } with | .error st => st == St.migOfferInvalid | _ => false) = true := by
  decide +kernel

def streams (sent : Nat) (tail : Word32) : State :=
  { devR [(Reg.INS_MIG_RING, 2)] with
    insts := [(1, { state := 6 })], ins := { busy := some (1, 11), image := zeros 1536, sent := sent }
    rings := [(2, { ring1 true false { st := 1, tail := tail } with cfg := 0xC0000004 })] }

theorem test_an_image_streams :
    (streams 0 0).ins.image ≠ [] ∧ (streams 0 0).ins.held = 0 ∧ (streams 0 0).ins.busy = some (1, 11) ∧ ((streams 0 0).inst 1).state = 6 ∧
    dev.ins.busy = none ∧ (migPut (streams 0 0) []).1 = true ∧ (migPut (streams 0 1) []).1 = false ∧
    (streams 0 0).ins.sent + 1024 < (streams 0 0).ins.image.length ∧
    (streams 1024 0).ins.image.length ≤ (streams 1024 0).ins.sent + 1024 := by decide +kernel

/-! ### The card bus and the vehicle ports -/

/-- The device with every port enabled and bound to the keeper's rings 1 and 2, with both I/O supplies. The outbound ring
holds one entry of `n` slots, whose bytes that are not zero are listed; the inbound ring holds `full` slots. -/
def devH (ports : Ports) (n : Nat) (bytes : List (Nat × Byte)) (full : Nat := 0) : State :=
  { devR [(Reg.RING_KRANGE, 64), (Reg.CRD_CTRL, 1), (Reg.CRD_BIND, 0x80001002), (Reg.ISO_CTRL, 1), (Reg.ISO_BIND, 0x80001002),
      (Reg.CAN_CTRL, 5), (Reg.CAN_BIND, 0x80001002), (Reg.SNS_CTRL, 5), (Reg.SNS_BIND, 0x80001002), (Reg.GNS_CTRL, 3),
      (Reg.GNS_BIND, 0x80001002)] with
    pwr := { up := true, viohOk := true, viocOk := true }
    ports := ports
    rings := [(1, { cfg := 0x80000004, base := 0x1C0000000, st := 1, tail := BitVec.ofNat 32 full }),
      (2, { cfg := 0xC0000004, base := 0x1C0001000, st := 1, tail := BitVec.ofNat 32 n, lens := if n = 0 then [] else [n] })]
    mem := bytes.map fun p => (0x1C0001000 + p.1, p.2) }

/-- What holds of the request that a port takes. -/
def taken (s : State) (k : Nat) (f : PortReq → State → Bool) : Bool :=
  match takeReq s k with
  | (some q, u) => f q u
  | _ => false

theorem test_posts :
    portBinding (devH {} 0 []) 5 = some (0, 1, 2) ∧ portBinding dev 5 = none ∧ ((devH {} 0 []).pbuf 5).held = [] ∧
    ((devH {} 0 []).pbuf 5).dropped = 0 ∧ (postRing (devH {} 0 []) 1 (rawPayload (1 :: zeros 63))).1 = true ∧
    (postRing (devH {} 0 [] 16) 1 (rawPayload (1 :: zeros 63))).1 = false ∧ bufRoom (devH {} 0 []) 5 = true ∧
    bufRoom (devH { bufs := [(4, { held := List.replicate 4 entry })] } 0 []) 0 = false ∧
    ((devH { bufs := [(4, { held := List.replicate 4 entry })] } 0 []).pbuf 0).held = [] ∧
    ((devH { bufs := [(5, { held := [entry] })] } 0 []).pbuf (portNumber (.iso 0))).held = [entry] := by decide +kernel

/-- A card bus with card 1 in slot 0 in a state. -/
def cardBus (state : Nat) (run : Option CardRun := none) : Ports := { crd := { cards := [(1, { state := state })], det := 1, run := run } }

/-- Each request of the bus: the slots of its entry, its OP and the bytes of its LEN and ARG. -/
def cardReqs : List (Nat × Byte × List (Nat × Byte)) :=
  [(1, 1, []), (9, 2, [(11, 2)]), (1, 3, []), (1, 6, []), (1, 7, [])]

theorem test_card_requests :
    (∀ p ∈ cardReqs, ∀ st ∈ [0, 2, 3], crdOn (devH (cardBus st) p.1 ([(8, p.2.1), (9, 1)] ++ p.2.2)) = true ∧
      nextCardBind (devH (cardBus st) p.1 ([(8, p.2.1), (9, 1)] ++ p.2.2)) = some 0 ∧
      reqOp (devH (cardBus st) p.1 ([(8, p.2.1), (9, 1)] ++ p.2.2)) 0 = p.2.1.toNat ∧
      taken (turned (devH (cardBus st) p.1 ([(8, p.2.1), (9, 1)] ++ p.2.2)) 0) 0 (fun q u =>
        cardReqOk q && q.op == p.2.1.toNat && (u.card q.unit).state == st && (u.ports.crd.cards.any fun p => p.1 == q.unit) &&
          slotBind (u.card q.unit).slot == q.bind && u.pwr.viocOk && fld (u.card q.unit).status.toNat 26 2 == 0) = true) := by
  decide +kernel

theorem test_other_card_requests :
    (∀ q ∈ [(4, 2), (5, 4)], reqOp (devH (cardBus q.2) 1 [(8, BitVec.ofNat 8 q.1), (9, 1)]) 0 = q.1 ∧
      taken (turned (devH (cardBus q.2) 1 [(8, BitVec.ofNat 8 q.1), (9, 1)]) 0) 0 (fun r u =>
        cardReqOk r && r.op == q.1 && (u.card r.unit).state == q.2 && slotBind (u.card r.unit).slot == r.bind) = true) ∧
    taken (turned (devH (cardBus 2) 1 [(8, 1), (9, 16)]) 0) 0 (fun q _ => cardReqOk q) = false ∧
    nextCardBind (devH (cardBus 2) 0 []) = none ∧ (devH (cardBus 2) 0 []).ports.crd.run = none := by decide +kernel

def aReq (op : Nat) : PortReq := { bind := 0, op := op, unit := 1, corr := 0, arg := 0, arg2 := 0, data := [] }

theorem test_a_card_request_under_way :
    (∀ n ∈ [0, 1, 2, 3, 4], (devH (cardBus 3 (some { req := aReq 1, rca := 1, stage := n })) 0 []).ports.crd.run =
      some { req := aReq 1, rca := 1, stage := n }) ∧
    fld (0 : Word32).toNat 26 2 = 0 ∧ fld (0x4000000 : Word32).toNat 26 2 ≠ 0 ∧ (zeros 512).length = 512 := by decide +kernel

theorem test_slots :
    crdOn dev = false ∧ portMode dev = true ∧ freeRca dev = some 1 ∧ State.reset.pwr.up = false ∧
    (devH {} 0 []).ports.crd.det.getLsbD 0 = false ∧ (devH {} 0 []).regBit Reg.KPR_WAKE_EN 4 = false ∧
    crdOn (devH {} 0 []) = true ∧ freeRca (devH {} 0 []) = some 1 ∧ portMode (devH {} 0 []) = true ∧
    (devH (cardBus 2) 0 []).ports.crd.det.getLsbD 0 = true ∧ (devH (cardBus 2) 0 []).ports.crd.run = none := by decide +kernel

/-- The requests of an ISO/IEC 7816-3 port: the bytes of each, with a card present or not, in a state. -/
def isoReqs : List (Nat × List (Nat × Byte)) := [(1, []), (2, [(10, 4)]), (3, [])]

theorem test_iso_ports :
    (∀ p ∈ isoReqs, ∀ x ∈ [({ present := true } : IsoPort), { present := true, state := 2 }, {}],
      isoOn (devH { iso := [(0, x)] } 1 ([(8, BitVec.ofNat 8 p.1)] ++ p.2)) 0 = true ∧
      reqWaits (devH { iso := [(0, x)] } 1 ([(8, BitVec.ofNat 8 p.1)] ++ p.2)) 5 = true ∧
      reqOp (devH { iso := [(0, x)] } 1 ([(8, BitVec.ofNat 8 p.1)] ++ p.2)) 5 = p.1 ∧
      taken (devH { iso := [(0, x)] } 1 ([(8, BitVec.ofNat 8 p.1)] ++ p.2)) 5 (fun q u =>
        q.op == p.1 && q.unit == 0 && u.pwr.viocOk && (q.data == if p.1 = 2 then zeros 4 else []) &&
          (u.isoPort 0).present == x.present && (u.isoPort 0).state == x.state) = true) ∧
    (∀ st ∈ [1, 3], ((devH { iso := [(0, { state := st, run := some (aReq 1) })] } 0 []).isoPort 0).run = some (aReq 1)) ∧
    isoOn dev 0 = false ∧ (devH {} 0 []).regBit Reg.KPR_WAKE_EN 4 = false := by decide +kernel

def aFrame (n : Nat) (fd : Bool) : CanFrame :=
  { ide := true, fd := fd, brs := false, esi := false, rtr := false, id := 5, data := zeros n }

theorem test_can_controllers :
    canOn (devH {} 0 []) 0 = true ∧ canCtrlBit (devH {} 0 []) 0 3 = false ∧ canLenOk false 8 = true ∧ canLenOk true 64 = true ∧
    canCtrlBit (devR [(Reg.CAN_CTRL, 3)]) 0 1 = true ∧ canOn (devR [(Reg.CAN_CTRL, 3)]) 0 = true ∧
    (∀ j, j < 64 → canFilter (devH {} 0 []) 0 j (aFrame 8 false) = false) ∧
    canFilter (devR [(Reg.CAN_CTRL, 1), (Reg.CAN_FID + 8 * 63, 0x80000000)]) 0 63 (aFrame 8 false) = true ∧
    (∀ b ∈ [true, false], reqWaits (devH { can := [(0, { busOff := b })] } 1 [(8, 2), (10, 8), (15, 0x80)]) 7 = true ∧
      taken (devH { can := [(0, { busOff := b })] } 1 [(8, 2), (10, 8), (15, 0x80)]) 7 (fun q u =>
        q.op == 2 && q.unit == 0 && decide (q.data.length ≤ 8) && !(reqFrame q).fd && (reqFrame q).ide && u.pwr.viohOk) = true) ∧
    canCtrlBit (devH { can := [(0, { busOff := true })] } 0 []) 0 2 = true := by decide +kernel

theorem test_sensor_port :
    (devH {} 0 []).regBit Reg.SNS_CTRL 0 = true ∧ portRuns (devH {} 0 []) 9 = true ∧ linkOn (devH {} 0 []) = true ∧
    ((devH { pulse := [(0, { edges := 2, shortest := some 5000, last := some 9 })] } 0 []).pulse 0).shortest = some 5000 ∧
    (∀ ty ∈ [0x0F, 0x10, 0x1F, 0x20], reqWaits (devH {} 1 [(8, 1), (12, BitVec.ofNat 8 ty)]) 9 = true ∧
      taken (devH {} 1 [(8, 1), (12, BitVec.ofNat 8 ty)]) 9 (fun q u =>
        decide (q.data.length ≤ 200) && q.unit == 0 && q.arg.toNat % 256 == ty && u.mode == Mode.service && u.pwr.viohOk) = true) ∧
    (devH { sensor := some (aReq 1) } 0 []).ports.sensor = some (aReq 1) ∧ linkOn dev = false := by decide +kernel

theorem test_gnss :
    (devH {} 0 []).regBit Reg.GNS_CTRL 0 = true ∧ (devH {} 0 []).regBit Reg.GNS_CTRL 1 = true ∧ portRuns (devH {} 0 []) 10 = true ∧
    (devH {} 0 []).ports.gnss.bytes.length < 255 ∧ (devH {} 0 []).regBit Reg.KPR_WAKE_EN 2 = false ∧
    (devH {} 0 []).ports.gnss.source = 0 ∧ (devH {} 0 []).kpr.running = true ∧ (devH {} 0 []).ports.gnss.pps = none ∧
    (devH { gnss := { bytes := [1], pps := some 5 } } 0 []).ports.gnss.pps = some 5 ∧
    (devH { gnss := { bytes := [1], pps := some 5 } } 0 []).ports.gnss.hostSet = false := by decide +kernel

/-! ### Tamper sources, supplies, epochs -/

/-- The monitors with their sources armed or not. -/
def devW (armed : BitVec 25) : State := { devR [(Reg.KPR_WAKE_EN, 0)] with tmp := { on := true, armed := armed } }

theorem test_tamper_sources :
    dev.tmp.on = false ∧ (devW 0).tmp.on = true ∧ tKind 0 = .level ∧ tKind 23 = .level ∧ tKind 16 = .rate ∧ tKind 6 = .event ∧
    (devW 0x1FFFFFF).tmp.armed.getLsbD 23 = true ∧ (devW 0).tmp.armed.getLsbD 23 = false ∧
    (sget (fun _ => []) (devW 0).tmp.win 18).length + 1 < rateCount (devW 0) 18 ∧
    (∀ t ∈ [0, 2], (effLevel (devW 0) t = 0 ∨ effLevel (devW 0) t = 1) ∧ resets (devW 0) t (effLevel (devW 0) t) = false ∧
      sget (fun _ => 0) (devW 0).tmp.lastRaise t ≤ (devW 0).kpr.devtime) ∧
    (∀ p ∈ [(0, 6001#32), (23, 51)], tKind p.1 = .level ∧ p.1 ≠ 5 ∧ raiseHolds (devW 0x1FFFFFF) p.1 p.2 = true ∧ p.2.toNat < 2 ^ 24 ∧
      (devW 0x1FFFFFF).tmp.armed.getLsbD p.1 = true ∧ raiseHolds (devW 0x1FFFFFF) p.1 (p.2 - 1) = false) ∧
    raiseHolds (devW 0) 6 0 = true ∧ raiseHolds (devW 0) 6 13 = false ∧ (devM Mode.blank).mode = Mode.blank ∧ (devW 0).mode ≠ Mode.blank ∧
    (devW 0).terminated = false ∧ (devW 0).regBit Reg.KPR_WAKE_EN 5 = false ∧ (devW 0).queued < 32 ∧ (devW 0).pwr.low = false := by
  decide +kernel

theorem test_supplies :
    (∀ g ∈ [0, 1, 3], (devR [(Reg.PWR_GOV, BitVec.ofNat 32 (0x5A00 + g))]).regFld Reg.PWR_GOV 0 2 = g ∧
      (devR [(Reg.PWR_GOV, BitVec.ofNat 32 (0x5A00 + g))]).regFld Reg.PWR_GOV 8 8 = 90) ∧
    (((90 + 10 * 1) * 10 : Nat) : Int) < 1001 ∧ (870 : Int) ≤ (((90 + 10 * (1 - 1)) * 10 : Nat) : Int) - 30 ∧
    (871 : Int) ≤ (((90 + 10 * 1) * 10 : Nat) : Int) ∧ (((90 + 10 * (1 - 1)) * 10 : Nat) : Int) - 30 < 871 ∧
    dev.pwr.viocHi = none ∧ dev.pwr.viohHi = none ∧ State.reset.pwr.up = false ∧
    (({ dev with pwr := { up := true, viohHi := some true, viocHi := some true } }).pwr.viocHi = some true) ∧
    ({ dev with ports := cardBus 2 (some { req := aReq 1, rca := 1, stage := 0 }) }).ports.crd.run = some { req := aReq 1, rca := 1, stage := 0 } ∧
    (dev.canCtl 0).held = [] ∧ (dev.canCtl 1).held = [] ∧ dev.ports.sensor = none := by decide +kernel

/-- An epoch that has ended and one that has not, with room under the limit and at it. -/
theorem test_epochs :
    (devR [(Reg.STAT_NEXT_LO, 0)]).reg64 Reg.STAT_NEXT_LO ≤ dev.kpr.devtime.toNat ∧
    dev.kpr.devtime.toNat < (devR [(Reg.STAT_NEXT_LO, 1)]).reg64 Reg.STAT_NEXT_LO ∧
    (dev.reg Reg.STAT_EPOCH).toNat + 1 < ({ dev with dur := { epochLimit := 2 } }).dur.epochLimit ∧
    dev.dur.epochLimit ≤ (dev.reg Reg.STAT_EPOCH).toNat + 1 ∧ ((cpu (stk []) 0 0x08).inst 1).state = 2 := by decide +kernel

/-! ### The queue and what every step keeps -/

/-- A device with something in memory, idle, and with a command waiting. -/
def kept (l : List Instr) : State := { dev with mem := [(0x10000100, 9)], pending := l }

theorem test_a_step (l : List Instr) :
    (kept l).Canonical ∧ CellsFit (kept l).otp ∧ (kept []).pending = [] ∧ (kept []).pwr.up = true ∧ State.reset.pwr.up = false ∧
    step (kept []) = .next { kept [] with kpr := { dev.kpr with devtime := 1 } } ∧ ∃ t, step (kept (.deviceStop :: l)) = .next t :=
  ⟨⟨rfl, rfl⟩, ⟨Nat.zero_le _, Nat.zero_le _, Nat.zero_le _, Nat.zero_le _, Nat.zero_le _, Nat.zero_le _⟩, rfl, rfl, rfl, rfl, _, rfl⟩

end Sys2Proof.Tests
end

section
/-! SUPPORT. From a syllable's function to the words of the statements: a ready syllable whose function gives a context
completes with it, and one whose function gives an exception takes it; what the functions of two operands give on
operands that stand where `Operands2` says. -/

open Sys2Proof.Say

namespace Sys2Proof.Machine

variable {i : Syl → Instr} {s : State} {x : Syl} {unit op : Nat} {mem : Bool} {c : Ctx} {b : Bundle} {f : SylFn}

/-! ## Completion and refusal -/

/-- What a command meant by a run of `syl` does is what its run does after its own work. -/
theorem completes_of_sylEnds {j : Instr} {d : Ctx}
    (h : exec j s = done s (sylEnds regStore regLoaded s (key x) unit op x d id)) : Completes j s x d := by
  intro b e hb hm
  refine ⟨fun hx => ?_, fun hx b' e' q r hb' hc hn => ?_⟩
  · rw [h, sylEnds_go regStore regLoaded id hx hb hm]
    rfl
  · have hd : e.bundle.getD b = b' := by simp [hb']
    rw [h, sylEnds_stop regStore regLoaded id hx hb hm (by rw [hd]; exact hc) (by rw [hd]; exact hn)]
    rfl

theorem completes_of_ok {d : Ctx} (hi : exec (i x) s = done s (syl s x unit op mem f)) (hr : Ready s x unit op mem c b)
    (hf : f (viewOf s b) (key x) c x = .ok d) : Completes (i x) s x d := by
  refine completes_of_sylEnds (unit := unit) (op := op) ?_
  rw [hi, syl, runSyl_ok regStore regLoaded hr.quiet hr.runs hr.next hf]

theorem takes_of_error {e : Exc} (hi : exec (i x) s = done s (syl s x unit op mem f)) (hr : Ready s x unit op mem c b)
    (hf : f (viewOf s b) (key x) c x = .error e) : Takes (i x) s x unit op e := by
  rw [Takes, hi, syl, runSyl_error regStore regLoaded hr.quiet hr.runs hr.next hf]

theorem takesClass_of_error {cls : Nat} (hi : exec (i x) s = done s (syl s x unit op mem f))
    (hr : Ready s x unit op mem c b) (hf : ∃ e, e.cls = cls ∧ f (viewOf s b) (key x) c x = .error e) :
    TakesClass (i x) s x unit op cls := by
  obtain ⟨e, hcls, hf⟩ := hf
  exact ⟨e, hcls, takes_of_error hi hr hf⟩

/-! ## Functions of two operands -/

variable {v w : TWord}

theorem operands2_acc (ho : Operands2 s x c b v w) (h : c.acc = true) :
    c.r.acc = v ∧ opdVal (viewOf s b) (key x / 64) c x = .ok w := by
  simpa [Operands2, h] using ho

theorem operands2_stack (ho : Operands2 s x c b v w) (h : c.acc = false) :
    x.operand = 0 ∧ ∃ rest, c.r.ds.items = w :: v :: rest ∧ 8 * (rest.length + 2) ≤ c.r.ds.size := by
  simpa [Operands2, h] using ho

/-- Both pops of two operands on a stack leave the entries beneath them (R239). -/
theorem pop_two {r : CpuRegs} {rest : List TWord} (h : r.ds.items = w :: v :: rest) :
    r.pop = .ok (w, withDs r (v :: rest)) ∧ (withDs r (v :: rest)).pop = .ok (v, withDs r rest) :=
  ⟨CpuRegs.pop_ok h, CpuRegs.pop_ok rfl⟩

/-- An operation of two operands that gives the word `u` and the flags of `r`, whatever the stack beneath, delivers them
in the place of its operands. -/
theorem binary_ok {g : Bin} {u : TWord} {r : CpuRegs} (ho : Operands2 s x c b v w) (hds : r.ds = c.r.ds)
    (hg : ∀ l, g (withDs c.r l) v w = .ok (u, withDs r l)) :
    binary g (viewOf s b) (key x) c x = .ok (Result2 c r u) := by
  cases hacc : c.acc with
  | true =>
    obtain ⟨hv, hw⟩ := operands2_acc ho hacc
    have hr : g (withDs c.r c.r.ds.items) v w = .ok (u, withDs r r.ds.items) := by rw [hg, hds]
    change g c.r v w = .ok (u, r) at hr
    simp [binary, Result2, hacc, hv, hw, hr, bind, Except.bind]
  | false =>
    obtain ⟨hx, rest, hl, hroom⟩ := operands2_stack ho hacc
    obtain ⟨hp, hq⟩ := pop_two hl
    have hpush : (withDs r rest).push u = .ok (withDs r (u :: rest)) := by
      refine CpuRegs.push_ok ?_
      simp only [withDs, hds]
      omega
    simp [binary, Result2, hacc, hx, hp, hq, hg, hpush, hl, bind, Except.bind]

/-- A comparison that gives the flags of `r`, whatever the stack beneath, takes its operands from the stack. -/
theorem compare2_ok {g : CpuRegs → TWord → TWord → Except Exc CpuRegs} {r : CpuRegs} (ho : Operands2 s x c b v w)
    (hds : r.ds = c.r.ds) (hg : ∀ l, g (withDs c.r l) v w = .ok (withDs r l)) :
    compare2 g (viewOf s b) (key x) c x = .ok (Flags2 c r) := by
  cases hacc : c.acc with
  | true =>
    obtain ⟨hv, hw⟩ := operands2_acc ho hacc
    have hr : g (withDs c.r c.r.ds.items) v w = .ok (withDs r r.ds.items) := by rw [hg, hds]
    change g c.r v w = .ok r at hr
    simp [compare2, Flags2, hacc, hv, hw, hr, bind, Except.bind]
  | false =>
    obtain ⟨hx, rest, hl, -⟩ := operands2_stack ho hacc
    obtain ⟨hp, hq⟩ := pop_two hl
    simp [compare2, Flags2, hacc, hx, hp, hq, hg, hl, bind, Except.bind]

/-- An operation that refuses its operands is refused with that class; only the blame of the memory operand is added. -/
theorem binary_error {g : Bin} {e : Exc} (ho : Operands2 s x c b v w) (hg : ∀ r, g r v w = .error e) :
    ∃ e', e'.cls = e.cls ∧ binary g (viewOf s b) (key x) c x = .error e' := by
  cases hacc : c.acc with
  | true =>
    obtain ⟨hv, hw⟩ := operands2_acc ho hacc
    refine ⟨_, blame_cls (g c.r v) (effAddr c x) w e, ?_⟩
    simp [binary, hacc, hv, hw, hg, bind, Except.bind]
  | false =>
    obtain ⟨hx, rest, hl, -⟩ := operands2_stack ho hacc
    obtain ⟨hp, hq⟩ := pop_two hl
    exact ⟨e, rfl, by simp [binary, hacc, hx, hp, hq, hg, bind, Except.bind]⟩

theorem compare2_error {g : CpuRegs → TWord → TWord → Except Exc CpuRegs} {e : Exc} (ho : Operands2 s x c b v w)
    (hg : ∀ r, g r v w = .error e) : ∃ e', e'.cls = e.cls ∧ compare2 g (viewOf s b) (key x) c x = .error e' := by
  cases hacc : c.acc with
  | true =>
    obtain ⟨hv, hw⟩ := operands2_acc ho hacc
    refine ⟨_, blame_cls (g c.r v) (effAddr c x) w e, ?_⟩
    simp [compare2, hacc, hv, hw, hg, bind, Except.bind]
  | false =>
    obtain ⟨hx, rest, hl, -⟩ := operands2_stack ho hacc
    obtain ⟨hp, hq⟩ := pop_two hl
    exact ⟨e, rfl, by simp [compare2, hacc, hx, hp, hq, hg, bind, Except.bind]⟩

end Sys2Proof.Machine
end

section
/-! SUPPORT. Decimal words (R223): the nibbles that a word of digits and a sign shows, and the words that the device
makes. -/

namespace Sys2Proof.Machine

/-! ## Digits -/

theorem ofDigits_map_range (p n : Nat) (d : Nat → Nat) :
    Nat.ofDigits p ((List.range n).map d) = ((List.range n).map fun k => d k * p ^ k).sum := by
  rw [Nat.ofDigits_eq_sum_mapIdx]
  congr 1
  exact List.ext_getElem (by simp) (by simp)

/-- A place of a number written with `n` digits below the base holds its digit. -/
theorem digitSum_div_mod {p n k : Nat} {d : Nat → Nat} (hd : ∀ j, j < n → d j < p) (hk : k < n) :
    ((List.range n).map fun j => d j * p ^ j).sum / p ^ k % p = d k := by
  have hp : 0 < p := Nat.zero_lt_of_lt (hd k hk)
  rw [← ofDigits_map_range, Nat.ofDigits_div_pow_eq_ofDigits_drop k hp _ (by simpa using hd),
    List.drop_eq_getElem_cons (by simpa using hk), Nat.ofDigits_cons]
  simp [Nat.mod_eq_of_lt (hd k hk)]

theorem digitSum_lt {p n : Nat} {d : Nat → Nat} (hp : 1 < p) (hd : ∀ j, j < n → d j < p) :
    ((List.range n).map fun j => d j * p ^ j).sum < p ^ n := by
  have := Nat.ofDigits_lt_base_pow_length (l := (List.range n).map d) hp (by simpa using hd)
  simpa [ofDigits_map_range] using this

/-- The lowest `n` decimal digits of a number make its remainder by 10^n. -/
theorem digitSum_of_digits (m n : Nat) : ((List.range n).map fun k => m / 10 ^ k % 10 * 10 ^ k).sum = m % 10 ^ n := by
  induction n with
  | zero => simp [Nat.mod_one]
  | succ n ih => simp [List.range_succ, ih, Nat.mod_pow_succ, Nat.mul_comm (10 ^ n)]

theorem packDigits_eq_digitSum (n m : Nat) :
    packDigits n m = ((List.range n).map fun k => m / 10 ^ k % 10 * 16 ^ k).sum := by
  induction n generalizing m with
  | zero => rfl
  | succ n ih =>
    rw [packDigits, ih, List.range_succ_eq_map, List.map_cons, List.sum_cons, List.map_map, ← List.sum_map_mul_left]
    simp [Function.comp_def, Nat.div_div_eq_div_mul, pow_succ', Nat.mul_left_comm]

/-! ## Words -/

/-- The word with the digits `d` above the sign nibble `n`. -/
def digitWord (d : Nat → Nat) (n : Nat) : Word64 :=
  BitVec.ofNat 64 (16 * ((List.range 15).map fun k => d k * 16 ^ k).sum + n)

variable {d : Nat → Nat} {n : Nat}

theorem digitWord_toNat (hd : ∀ k, k < 15 → d k < 10) (hn : n < 0x10) :
    (digitWord d n).toNat = 16 * ((List.range 15).map fun k => d k * 16 ^ k).sum + n := by
  have := digitSum_lt (p := 16) (by decide) fun k hk => (hd k hk).trans (by decide : 10 < 16)
  rw [digitWord, BitVec.toNat_ofNat, Nat.mod_eq_of_lt (by omega)]

theorem digitWord_sign (hd : ∀ k, k < 15 → d k < 10) (hn : n < 0x10) : fld (digitWord d n).toNat 0 4 = n := by
  rw [digitWord_toNat hd hn, fld]
  omega

theorem decDigit_digitWord (hd : ∀ k, k < 15 → d k < 10) (hn : n < 0x10) {k : Nat} (hk : k < 15) :
    decDigit (digitWord d n) k = d k := by
  have hpow : 2 ^ (4 * (k + 1)) = 16 * 16 ^ k := by rw [pow_mul]; exact pow_succ' 16 k
  have hlow : ∀ t, (16 * t + n) / 16 = t := fun t => by omega
  rw [decDigit, digitWord_toNat hd hn, fld, hpow, ← Nat.div_div_eq_div_mul, hlow]
  exact digitSum_div_mod (p := 16) (fun j hj => (hd j hj).trans (by decide)) hk

theorem decValid_digitWord (hd : ∀ k, k < 15 → d k < 10) (hs : 0xA ≤ n) (hn : n < 0x10) :
    decValid (digitWord d n) = true := by
  simp only [decValid, digitWord_sign hd hn, Bool.and_eq_true, List.all_eq_true, List.mem_range, decide_eq_true_eq]
  refine ⟨fun k hk => ?_, hs⟩
  rw [decDigit_digitWord hd hn hk]
  exact Nat.le_of_lt_succ (hd k hk)

theorem decMag_digitWord (hd : ∀ k, k < 15 → d k < 10) (hs : 0xA ≤ n) (hn : n < 0x10) :
    decMag (digitWord d n) = ((List.range 15).map fun k => d k * 10 ^ k).sum := by
  rw [decMag, if_pos (decValid_digitWord hd hs hn)]
  congr 1
  exact List.map_congr_left fun k hk => by rw [decDigit_digitWord hd hn (List.mem_range.1 hk)]

theorem decNeg_digitWord (hd : ∀ k, k < 15 → d k < 10) (hs : 0xA ≤ n) (hn : n < 0x10) :
    decNeg (digitWord d n) = (n == 0xB || n == 0xD) := by
  rw [decNeg, if_pos (decValid_digitWord hd hs hn), digitWord_sign hd hn]

/-- The sign that the device gives a magnitude: zero is positive (R223). -/
def signOf (neg : Bool) (m : Nat) : Nat := if neg && m != 0 then 0xD else 0xC

theorem signOf_cases (neg : Bool) (m : Nat) :
    neg = true ∧ m ≠ 0 ∧ signOf neg m = 0xD ∨ (neg = false ∨ m = 0) ∧ signOf neg m = 0xC := by
  cases neg <;> by_cases hm : m = 0 <;> simp [signOf, hm]

theorem signOf_bounds (neg : Bool) (m : Nat) : 0xA ≤ signOf neg m ∧ signOf neg m < 0x10 := by
  rcases signOf_cases neg m with ⟨-, -, h⟩ | ⟨-, h⟩ <;> omega

theorem decMake_eq_digitWord (neg : Bool) (m : Nat) :
    decMake neg m = digitWord (fun k => m / 10 ^ k % 10) (signOf neg m) := by
  rw [decMake, packDigits_eq_digitSum]
  rfl

theorem decimalDigit_lt (m : Nat) : ∀ k, k < 15 → m / 10 ^ k % 10 < 10 := fun _ _ => Nat.mod_lt _ (by decide)

theorem decValid_decMake (neg : Bool) (m : Nat) : decValid (decMake neg m) = true := by
  obtain ⟨hlo, hhi⟩ := signOf_bounds neg m
  rw [decMake_eq_digitWord, decValid_digitWord (decimalDigit_lt m) hlo hhi]

theorem decMag_decMake (neg : Bool) (m : Nat) : decMag (decMake neg m) = m % 10 ^ 15 := by
  obtain ⟨hlo, hhi⟩ := signOf_bounds neg m
  rw [decMake_eq_digitWord, decMag_digitWord (decimalDigit_lt m) hlo hhi, digitSum_of_digits]

theorem decNeg_decMake (neg : Bool) (m : Nat) : decNeg (decMake neg m) = (neg && decide (m ≠ 0)) := by
  obtain ⟨hlo, hhi⟩ := signOf_bounds neg m
  rw [decMake_eq_digitWord, decNeg_digitWord (decimalDigit_lt m) hlo hhi]
  rcases signOf_cases neg m with ⟨hneg, hm, h⟩ | ⟨hpos, h⟩
  · rw [h]
    simp [hneg, hm]
  · rw [h]
    rcases hpos with hneg | hm
    · simp [hneg]
    · simp [hm]

theorem decMake_toNat_mod (neg : Bool) (m : Nat) : (decMake neg m).toNat % 16 = signOf neg m := by
  have hhi := (signOf_bounds neg m).2
  rw [decMake_eq_digitWord, digitWord_toNat (decimalDigit_lt m) hhi]
  omega

theorem decimalWords : Say.DecimalWords := by
  refine ⟨fun d n hd hs hn => ?_, fun neg m hm => ?_⟩
  · exact ⟨decValid_digitWord hd hs hn, decMag_digitWord hd hs hn, decNeg_digitWord hd hs hn⟩
  · refine ⟨decValid_decMake neg m, ?_, decNeg_decMake neg m, ?_⟩
    · rw [decMag_decMake, Nat.mod_eq_of_lt hm]
    · simp [decMake_toNat_mod, signOf]

end Sys2Proof.Machine
end

section
/-! SUPPORT. Decimal arithmetic (R283, R284): what each operation gives on each pair of tags. -/

open Sys2Proof.Say

namespace Sys2Proof.Machine

variable {s : State} {x : Syl} {c : Ctx} {b : Bundle} {v w : TWord}

/-- The word and the registers of a decimal result do not depend on the data stack. -/
theorem decResult_withDs (r : CpuRegs) (l : List TWord) (q : Int) :
    decResult (withDs r l) q = ((decResult r q).1, withDs (decResult r q).2 l) := rfl

/-- DADD and DSUB of two DEC words give the decimal result of the sum or difference. -/
theorem decSum_ok (f : Int → Int → Int) (r : CpuRegs) (hv : v.tag = Tag.dec) (hw : w.tag = Tag.dec) :
    decSum f r v w = .ok (decResult r (f (decVal v.data) (decVal w.data))) := by
  simp [decSum, bothDec, hv, hw]

/-- DMUL10 gives the digits of `v` and then that of `w`, with the sign of `v` (log entry 24). -/
theorem dmul10Fn_ok (r : CpuRegs) (hv : v.tag = Tag.dec) (hw : w.tag = Tag.int) (h9 : w.data.toNat ≤ 9) :
    dmul10Fn r v w = .ok (decResult r
      (if decNeg v.data then -((10 * decMag v.data + w.data.toNat : Nat) : Int)
        else (10 * decMag v.data + w.data.toNat : Nat))) := by
  simp [dmul10Fn, hv, hw, h9]

/-- DCMP of two DEC words compares their values. -/
theorem dcmpFn_ok (r : CpuRegs) (hv : v.tag = Tag.dec) (hw : w.tag = Tag.dec) :
    dcmpFn r v w = .ok { r with z := decide (decVal v.data = decVal w.data), n := decide (decVal v.data < decVal w.data) } := by
  simp [dcmpFn, bothDec, hv, hw, sub_eq_zero]

theorem bothDec_eq_false (h : ¬ (v.tag = Tag.dec ∧ w.tag = Tag.dec)) : bothDec v w = false := by
  simpa [bothDec] using h

theorem decSum_error (f : Int → Int → Int) (h : ¬ (v.tag = Tag.dec ∧ w.tag = Tag.dec)) (r : CpuRegs) :
    decSum f r v w = .error tagExc := by
  simp [decSum, bothDec_eq_false h]

theorem dcmpFn_error (h : ¬ (v.tag = Tag.dec ∧ w.tag = Tag.dec)) (r : CpuRegs) : dcmpFn r v w = .error tagExc := by
  simp [dcmpFn, bothDec_eq_false h]

theorem dmul10Fn_error (hv : v.tag = Tag.dec) (hw : w.tag = Tag.int) (h9 : 9 < w.data.toNat) (r : CpuRegs) :
    dmul10Fn r v w = .error decExc := by
  simp [dmul10Fn, hv, hw, h9]

/-- An operation that gives a decimal result of `q` on every register set delivers it with its flags (R284). -/
theorem binary_decResult {g : Bin} {q : Int} (ho : Operands2 s x c b v w) (hg : ∀ r, g r v w = .ok (decResult r q)) :
    binary g (viewOf s b) (key x) c x = .ok (Result2 c (decResult c.r q).2 (decResult c.r q).1) :=
  binary_ok ho rfl fun l => by rw [hg, decResult_withDs]

theorem decimalsRefused : Say.DecimalsRefused := by
  intro s x c b v w ho
  refine ⟨fun ht => ⟨fun hr => ?_, fun hr => ?_, fun hr => ?_⟩, fun hv hw h9 hr => ?_⟩
  · exact takesClass_of_error rfl hr (binary_error ho (decSum_error _ ht))
  · exact takesClass_of_error rfl hr (binary_error ho (decSum_error _ ht))
  · exact takesClass_of_error rfl hr (compare2_error ho (dcmpFn_error ht))
  · exact takesClass_of_error rfl hr (binary_error ho (dmul10Fn_error hv hw h9))

/-- Settles O19: each operation gives its decimal result on operands of its tags, and a ready syllable delivers it. That
DMUL10 of a negative operand moves away from zero is log entry 24 (DEDUCED). -/
theorem decimals : Obligations.Decimals := by
  refine ⟨fun s x c b v w ho => ⟨fun hv hw => ⟨fun hr => ?_, fun hr => ?_, fun hr => ?_⟩, fun hv hw h9 hr => ?_⟩,
    decimalWords, decimalsRefused⟩
  · exact completes_of_ok rfl hr (binary_decResult ho fun r => decSum_ok _ r hv hw)
  · exact completes_of_ok rfl hr (binary_decResult ho fun r => decSum_ok _ r hv hw)
  · exact completes_of_ok rfl hr (compare2_ok ho rfl fun l => dcmpFn_ok (withDs c.r l) hv hw)
  · exact completes_of_ok rfl hr (binary_decResult ho fun r => dmul10Fn_ok r hv hw h9)

end Sys2Proof.Machine
end

section
/-! SUPPORT. Sums and differences (R270, R271): the tag and the flags of each pair of tags, and what ADD, SUB and ADDI
deliver or refuse. -/

open Sys2Proof.Say

namespace Sys2Proof.Machine

variable {s : State} {x : Syl} {c : Ctx} {b : Bundle} {v w : TWord} {t : Word4}

/-! ## The tags of R270 -/

theorem isAddrTag_iff : isAddrTag t = true ↔ AddrTag t := by
  simp [isAddrTag, AddrTag, or_assoc]

theorem addrTag_ne_int (h : AddrTag t) : t ≠ Tag.int := by
  rcases h with rfl | rfl | rfl <;> decide

theorem addTag_addr_int (h : AddrTag t) : addTag t Tag.int = some t := by
  rcases h with rfl | rfl | rfl <;> rfl

theorem addTag_int_addr (h : AddrTag t) : addTag Tag.int t = some t := by
  rcases h with rfl | rfl | rfl <;> rfl

theorem addTag_eq_none {t' : Word4} (hint : ¬ (t = Tag.int ∧ (t' = Tag.int ∨ AddrTag t')))
    (haddr : ¬ (AddrTag t ∧ t' = Tag.int)) : addTag t t' = none := by
  have hboth : ¬ (t = Tag.int ∧ t' = Tag.int) := fun h => hint ⟨h.1, .inl h.2⟩
  have hleft : ¬ (isAddrTag t = true ∧ t' = Tag.int) := fun h => haddr ⟨isAddrTag_iff.1 h.1, h.2⟩
  have hright : ¬ (t = Tag.int ∧ isAddrTag t' = true) := fun h => hint ⟨h.1, .inr (isAddrTag_iff.1 h.2)⟩
  rw [addTag, if_neg hboth, if_neg hleft, if_neg hright]

theorem subTag_addr_int (h : AddrTag t) : subTag t Tag.int = some t := by
  rcases h with rfl | rfl | rfl <;> rfl

theorem subTag_same (h : t = Tag.ptr ∨ t = Tag.time) : subTag t t = some Tag.int := by
  rcases h with rfl | rfl <;> rfl

theorem subTag_eq_none {t' : Word4} (hint : ¬ ((t = Tag.int ∨ AddrTag t) ∧ t' = Tag.int))
    (hsame : ¬ (t = t' ∧ (t = Tag.ptr ∨ t = Tag.time))) : subTag t t' = none := by
  have hboth : ¬ (t = Tag.int ∧ t' = Tag.int) := fun h => hint ⟨.inl h.1, h.2⟩
  have hleft : ¬ (isAddrTag t = true ∧ t' = Tag.int) := fun h => hint ⟨.inr (isAddrTag_iff.1 h.1), h.2⟩
  have hsame' : ¬ (t = Tag.ptr ∧ t' = Tag.ptr ∨ t = Tag.time ∧ t' = Tag.time) := by
    rintro (⟨rfl, rfl⟩ | ⟨rfl, rfl⟩)
    · exact hsame ⟨rfl, .inl rfl⟩
    · exact hsame ⟨rfl, .inr rfl⟩
  rw [subTag, if_neg hboth, if_neg hleft, if_neg hsame']

/-! ## The words and the flags -/

/-- A result of another tag than INT leaves the flags (R271). -/
theorem arith_of_ne_int (r : CpuRegs) (hw : w.tag ≠ Tag.int) (cf vf : Bool) : r.arith w cf vf = r := if_neg hw

/-- The sum of two INT words sets its flags, and the nibble carries (R271, R272). -/
theorem opAdd_int (hv : v.tag = Tag.int) (hw : w.tag = Tag.int) (r : CpuRegs) :
    opAdd r v w = some (intW (v.data + w.data),
      { sumFlags r v.data w.data with hcv := nibbleCarry v.data w.data }) := by
  rw [opAdd, hv, hw]
  rfl

theorem opAdd_of_ne_int (h : addTag v.tag w.tag = some t) (ht : t ≠ Tag.int) (r : CpuRegs) :
    opAdd r v w = some (⟨t, v.data + w.data⟩, r) := by
  have hne : ¬ (v.tag = Tag.int ∧ w.tag = Tag.int) := by
    rintro ⟨hv, hw⟩
    rw [hv, hw] at h
    exact ht (Option.some.inj h).symm
  simp only [opAdd, h, Option.map_some, if_neg hne, arith_of_ne_int r (w := ⟨t, v.data + w.data⟩) ht]

theorem opAdd_eq_none (h : addTag v.tag w.tag = none) (r : CpuRegs) : opAdd r v w = none := by
  rw [opAdd, h]
  rfl

theorem opSub_int (h : subTag v.tag w.tag = some Tag.int) (r : CpuRegs) :
    opSub r v w = some (intW (v.data - w.data), diffFlags r v.data w.data) := by
  rw [opSub, h]
  rfl

theorem opSub_of_ne_int (h : subTag v.tag w.tag = some t) (ht : t ≠ Tag.int) (r : CpuRegs) :
    opSub r v w = some (⟨t, v.data - w.data⟩, r) := by
  simp [opSub, h, arith_of_ne_int r (w := ⟨t, v.data - w.data⟩) ht]

theorem opSub_eq_none (h : subTag v.tag w.tag = none) (r : CpuRegs) : opSub r v w = none := by
  rw [opSub, h]
  rfl

/-- ADDI leaves the nibble carries as they are (R272). -/
theorem opAddi_int (hv : v.tag = Tag.int) (n : Word64) (r : CpuRegs) :
    opAddi r v (intW n) = some (intW (v.data + n), sumFlags r v.data n) := by
  rw [opAddi, opAdd_int hv rfl]
  rfl

theorem opAddi_addr (hv : AddrTag v.tag) (n : Word64) (r : CpuRegs) :
    opAddi r v (intW n) = some (⟨v.tag, v.data + n⟩, r) := by
  rw [opAddi, opAdd_of_ne_int (addTag_addr_int hv) (addrTag_ne_int hv)]
  rfl

theorem opAddi_eq_none (hint : v.tag ≠ Tag.int) (haddr : ¬ AddrTag v.tag) (n : Word64) (r : CpuRegs) :
    opAddi r v (intW n) = none := by
  rw [opAddi, opAdd_eq_none (addTag_eq_none (fun h => hint h.1) fun h => haddr h.1)]
  rfl

/-! ## The syllables -/

/-- An operation that accepts its operands whatever the registers, with flags that do not depend on the data stack,
delivers its word. -/
theorem binary_some {op : CpuRegs → TWord → TWord → Option (TWord × CpuRegs)} {u : TWord} {flags : CpuRegs → CpuRegs}
    (ho : Operands2 s x c b v w) (hop : ∀ r, op r v w = some (u, flags r)) (hds : (flags c.r).ds = c.r.ds)
    (hflags : ∀ l, flags (withDs c.r l) = withDs (flags c.r) l) :
    binary (fun r v w => orTag (op r v w)) (viewOf s b) (key x) c x = .ok (Result2 c (flags c.r) u) :=
  binary_ok ho hds fun l => by rw [hop, hflags]; rfl

/-- An operation that does not accept its operands, whatever the registers, is refused with TAG_CHECK. -/
theorem binary_none {op : CpuRegs → TWord → TWord → Option (TWord × CpuRegs)} (ho : Operands2 s x c b v w)
    (hop : ∀ r, op r v w = none) :
    ∃ e, e.cls = Cls.tagCheck ∧ binary (fun r v w => orTag (op r v w)) (viewOf s b) (key x) c x = .error e :=
  binary_error (e := tagExc) ho fun r => by rw [hop]; rfl

theorem addiFn_ok {l : List TWord} {u : TWord} {r : CpuRegs} (hl : c.r.ds.items = v :: l)
    (hroom : 8 * (l.length + 1) ≤ c.r.ds.size) (hds : r.ds = c.r.ds)
    (hop : opAddi (withDs c.r l) v (intW (BitVec.ofInt 64 (imm x))) = some (u, withDs r l)) :
    addiFn s (key x) c x = .ok { c with r := withDs r (u :: l) } := by
  have hpop : c.r.pop = .ok (v, withDs c.r l) := CpuRegs.pop_ok hl
  have hpush : (withDs r l).push u = .ok (withDs r (u :: l)) :=
    CpuRegs.push_ok (by simpa only [withDs, hds] using hroom)
  simp [addiFn, hpop, hop, orTag, hpush, bind, Except.bind]

theorem addiFn_error {l : List TWord} (hl : c.r.ds.items = v :: l)
    (hop : ∀ r, opAddi r v (intW (BitVec.ofInt 64 (imm x))) = none) : addiFn s (key x) c x = .error tagExc := by
  have hpop : c.r.pop = .ok (v, withDs c.r l) := CpuRegs.pop_ok hl
  simp [addiFn, hpop, hop, orTag, bind, Except.bind]

theorem sumsRefused : Say.SumsRefused := by
  intro s x c b v w
  refine ⟨fun ho => ⟨fun hint haddr hr => ?_, fun hint hsame hr => ?_⟩, fun l _ hl hint haddr hr => ?_⟩
  · exact takesClass_of_error rfl hr (binary_none ho (opAdd_eq_none (addTag_eq_none hint haddr)))
  · exact takesClass_of_error rfl hr (binary_none ho (opSub_eq_none (subTag_eq_none hint hsame)))
  · exact takesClass_of_error rfl hr ⟨tagExc, rfl, addiFn_error hl (opAddi_eq_none hint haddr _)⟩

/-- Settles O6: on each pair of tags that R270 gives, the sum or the difference has its word and flags, and a ready
syllable delivers it; on every other pair there is no result, which is TAG_CHECK. -/
theorem addAndSubtract : Obligations.AddAndSubtract := by
  refine ⟨fun s x c b v w => ⟨fun ho => ⟨fun hv hw => ⟨fun hr => ?_, fun hr => ?_⟩,
    fun hv hw => ⟨fun hr => ?_, fun hr => ?_⟩, fun hv hw hr => ?_, fun hvw ht hr => ?_⟩,
    fun l _ hl hroom => ⟨fun hv hr => ?_, fun hv hr => ?_⟩⟩, sumsRefused⟩
  · exact completes_of_ok rfl hr (binary_some ho (opAdd_int hv hw) rfl fun _ => rfl)
  · have ht : subTag v.tag w.tag = some Tag.int := by rw [hv, hw]; rfl
    exact completes_of_ok rfl hr (binary_some ho (opSub_int ht) rfl fun _ => rfl)
  · have ht : addTag v.tag w.tag = some v.tag := by rw [hw, addTag_addr_int hv]
    exact completes_of_ok rfl hr (binary_some ho (opAdd_of_ne_int ht (addrTag_ne_int hv)) rfl fun _ => rfl)
  · have ht : subTag v.tag w.tag = some v.tag := by rw [hw, subTag_addr_int hv]
    exact completes_of_ok rfl hr (binary_some ho (opSub_of_ne_int ht (addrTag_ne_int hv)) rfl fun _ => rfl)
  · have ht : addTag v.tag w.tag = some w.tag := by rw [hv, addTag_int_addr hw]
    exact completes_of_ok rfl hr (binary_some ho (opAdd_of_ne_int ht (addrTag_ne_int hw)) rfl fun _ => rfl)
  · have ht' : subTag v.tag w.tag = some Tag.int := by rw [← hvw, subTag_same ht]
    exact completes_of_ok rfl hr (binary_some ho (opSub_int ht') rfl fun _ => rfl)
  · exact completes_of_ok rfl hr (addiFn_ok (r := sumFlags c.r _ _) hl hroom rfl (opAddi_int hv _ _))
  · exact completes_of_ok rfl hr (addiFn_ok (r := c.r) hl hroom rfl (opAddi_addr hv _ _))

end Sys2Proof.Machine
end

section
/-! SUPPORT. Calls and returns (R241, R282, R312, R317): where CALL, CALLI, JMPI and RETURN lead, what CADR delivers, and
what each refuses. -/

open Sys2Proof.Say

namespace Sys2Proof.Machine

variable {s : State} {x : Syl} {unit op : Nat} {mem : Bool} {c : Ctx} {b : Bundle} {w : TWord} {l : List TWord}
  {a : Nat}

/-! ## The bundle and its target -/

/-- The context of a ready syllable is in the bundle that the syllable is counted into (R232). -/
theorem sylReady_bundle {k : Nat} (h : sylReady s k unit op x mem = .ok (some (c, b))) : c.bundle = some b := by
  unfold sylReady at h
  split at h
  · cases h
  · split at h
    · cases h
    · split at h
      · cases h
      · obtain ⟨rfl, rfl⟩ := Prod.mk.inj (Option.some.inj (Except.ok.inj h))
        rfl

theorem goTo_eq_leads (hb : c.bundle = some b) (branch : Bool) : goTo c a branch = Leads c b a branch := by
  simp [goTo, Leads, hb]

theorem immOnly_ok (hm : c.acc = true → amode x = 3) : immOnly c x = .ok (if c.acc then disp x else imm x) := by
  cases h : c.acc with
  | true => simp [immOnly, h, hm h]
  | false => simp [immOnly, h]

/-- An offset counts syllables from the first of its bundle (R280). -/
theorem target_ok (hm : c.acc = true → amode x = 3) :
    target c x = .ok (BitVec.ofInt 64 (c.r.pc + 4 * (if c.acc then disp x else imm x))) := by
  rw [target, immOnly_ok hm]
  rfl

/-- A word goes to ACC, or onto a stack with room for it. -/
theorem deliver_ok (h : HasRoom c c.r 1) : deliver c c.r w = .ok (Delivered c c.r w) := by
  cases hacc : c.acc with
  | true => simp [deliver, Delivered, hacc]
  | false =>
    have hpush : c.r.push w = .ok (withDs c.r (w :: c.r.ds.items)) := CpuRegs.push_ok (h hacc)
    simp [deliver, Delivered, hacc, hpush, bind, Except.bind]

/-! ## Calls -/

/-- There is room for the RET word of a call and for its shadow entry (R239, R316). -/
def CallFits (c : Ctx) : Prop := 8 * (c.r.rs.items.length + 1) ≤ c.r.rs.size ∧ 1 ≤ shadowFree c.shadow

/-- A call that fits leads to its target, and its bundle is marked to push the RET word and the shadow entry (R241). -/
theorem callTo_ok (hb : c.bundle = some b) (hf : CallFits c) :
    callTo c a = .ok (Leads c { b with call := true } a false) := by
  obtain ⟨hroom, hfree⟩ := hf
  simp [callTo, goTo, Leads, hb, Stk.room, hroom, Nat.not_lt.2 hfree]

theorem callFn_ok (hb : c.bundle = some b) (hf : CallFits c) (hm : c.acc = true → amode x = 3) :
    callFn s (key x) c x = .ok (Leads c { b with call := true }
      (BitVec.ofInt 64 (c.r.pc + 4 * (if c.acc then disp x else imm x))).toNat false) := by
  rw [callFn, target_ok hm]
  exact callTo_ok hb hf

theorem cadrFn_ok (h : HasRoom c c.r 1) (hm : c.acc = true → amode x = 3) :
    cadrFn s (key x) c x =
      .ok (Delivered c c.r (codeW (BitVec.ofInt 64 (c.r.pc + 4 * (if c.acc then disp x else imm x))))) := by
  rw [cadrFn, target_ok hm]
  exact deliver_ok h

/-! ## The CODE word of CALLI and JMPI -/

/-- The word on top is ACC, where the data stack stays, or the top of the stack, popped. -/
theorem codeOpd_eq (hx : x.operand = 0) (h : OnTop c w l) :
    codeOpd c x = if w.tag ≠ Tag.code then .error tagExc else (addrOf w.data).map fun a => (a, withDs c.r l) := by
  cases hacc : c.acc with
  | true =>
    obtain ⟨rfl, rfl⟩ : c.r.acc = w ∧ l = c.r.ds.items := by simpa [OnTop, hacc] using h
    simp [codeOpd, hx, hacc, withDs, bind, Except.bind, Except.map]
  | false =>
    have hpop : c.r.pop = .ok (w, withDs c.r l) := CpuRegs.pop_ok (by simpa [OnTop, hacc] using h)
    simp [codeOpd, hx, hacc, hpop, bind, Except.bind, Except.map]

theorem codeOpd_ok (hx : x.operand = 0) (h : OnTop c w l) (hw : w.tag = Tag.code) (hlt : w.data.toNat < 2 ^ 40) :
    codeOpd c x = .ok (w.data.toNat, withDs c.r l) := by
  rw [codeOpd_eq hx h, if_neg (not_not.2 hw), addrOf, if_pos hlt]
  rfl

theorem codeOpd_error (hx : x.operand = 0) (h : OnTop c w l) (hw : w.tag ≠ Tag.code) :
    codeOpd c x = .error tagExc := by
  rw [codeOpd_eq hx h, if_pos hw]

theorem calliFn_ok (hb : c.bundle = some b) (hf : CallFits c) (ho : codeOpd c x = .ok (a, withDs c.r l)) :
    calliFn s (key x) c x = .ok (Leads (Holding c l) { b with call := true } a false) := by
  rw [calliFn, ho]
  exact callTo_ok (c := Holding c l) hb hf

theorem jmpiFn_ok (hb : c.bundle = some b) (ho : codeOpd c x = .ok (a, withDs c.r l)) :
    jmpiFn s (key x) c x = .ok (Leads (Holding c l) b a true) := by
  rw [jmpiFn, ho]
  exact congrArg Except.ok (goTo_eq_leads (c := Holding c l) hb true)

theorem calliFn_error {e : Exc} (ho : codeOpd c x = .error e) : calliFn s (key x) c x = .error e := by
  rw [calliFn, ho]
  rfl

theorem jmpiFn_error {e : Exc} (ho : codeOpd c x = .error e) : jmpiFn s (key x) c x = .error e := by
  rw [jmpiFn, ho]
  rfl

/-! ## Returns -/

theorem rtop_ok {r : CpuRegs} (h : r.rs.items = w :: l) : r.rtop = .ok w := by
  simp [CpuRegs.rtop, h]

theorem rdrop_eq {r : CpuRegs} (h : r.rs.items = w :: l) : r.rdrop = { r with rs := { r.rs with items := l } } := by
  simp [CpuRegs.rdrop, h]

/-- RETURN takes a RET word that names the return of the call entry on the shadow stack (R317). -/
theorem retFn_ok {sh : List Shadow} (hx : x.operand = 0) (hb : c.bundle = some b) (hl : c.r.rs.items = w :: l)
    (hw : w.tag = Tag.ret) (hsh : c.shadow = .call a :: sh) (ha : w.data.toNat = a) :
    retFn s (key x) c x =
      .ok (Leads { c with r := { c.r with rs := { c.r.rs with items := l } }, shadow := sh } b a false) := by
  simp [retFn, hx, rtop_ok hl, rdrop_eq hl, hw, hsh, ha, goTo, Leads, hb, bind, Except.bind]

theorem retFn_tag (hx : x.operand = 0) (hl : c.r.rs.items = w :: l) (hw : w.tag ≠ Tag.ret) :
    retFn s (key x) c x = .error tagExc := by
  rw [retFn, if_neg (not_not.2 hx), rtop_ok hl]
  exact if_pos hw

theorem retFn_differs {sh : List Shadow} (hx : x.operand = 0) (hl : c.r.rs.items = w :: l) (hw : w.tag = Tag.ret)
    (hsh : c.shadow = .call a :: sh) (ha : w.data.toNat ≠ a) :
    retFn s (key x) c x = .error { cls := Cls.shadow, detail := 1, faddr := w.data.toNat } := by
  simp [retFn, hx, rtop_ok hl, hw, hsh, ha, bind, Except.bind]

theorem retFn_noCall (hx : x.operand = 0) (hl : c.r.rs.items = w :: l) (hw : w.tag = Tag.ret)
    (hsh : ∀ a sh, c.shadow ≠ .call a :: sh) :
    retFn s (key x) c x = .error { cls := Cls.shadow, detail := 2, faddr := w.data.toNat } := by
  rw [retFn, if_neg (not_not.2 hx), rtop_ok hl]
  refine (if_neg (not_not.2 hw)).trans ?_
  split
  · exact absurd ‹_› (hsh _ _)
  · rfl

/-- GRET is refused at its slot with what stands against its return (R312). -/
theorem gretFn_error {k : Nat} {e : Exc} (hx : x.operand = 0) (h : gretAct s k c x.upset = .error e) :
    gretFn s k c x = .error e := by
  simp [gretFn, hx, h, bind, Except.bind]

/-! ## The obligation -/

theorem callsRefused : Say.CallsRefused := by
  refine fun s x c b => ⟨fun hx w l ho hw => ⟨fun hr => ?_, fun hr => ?_⟩,
    fun hx w rest hl hr => ⟨fun hw => ?_, fun hw a sh hsh ha => ?_, fun hw hsh => ?_⟩, fun hx hr e he => ?_⟩
  · exact takesClass_of_error rfl hr ⟨tagExc, rfl, calliFn_error (codeOpd_error hx ho hw)⟩
  · exact takesClass_of_error rfl hr ⟨tagExc, rfl, jmpiFn_error (codeOpd_error hx ho hw)⟩
  · exact takesClass_of_error rfl hr ⟨tagExc, rfl, retFn_tag hx hl hw⟩
  · exact takes_of_error rfl hr (retFn_differs hx hl hw hsh ha)
  · exact takes_of_error rfl hr (retFn_noCall hx hl hw hsh)
  · exact takes_of_error rfl hr (gretFn_error hx he)

/-- Settles O16: each syllable's function gives the context where it leads, or the exception that it takes, and a ready
syllable goes on with that. -/
theorem callsAndReturns : Obligations.CallsAndReturns := by
  refine ⟨fun s x c b => ⟨fun hm => ⟨fun hf hr => ?_, fun hroom hr => ?_⟩,
    fun hx w l ho hw hlt => ⟨fun hf hr => ?_, fun hr => ?_⟩, fun hx w rest a sh hl hw hsh ha hr => ?_⟩, callsRefused⟩
  · exact completes_of_ok rfl hr (callFn_ok (sylReady_bundle hr.next) hf hm)
  · exact completes_of_ok rfl hr (cadrFn_ok hroom hm)
  · exact completes_of_ok rfl hr (calliFn_ok (sylReady_bundle hr.next) hf (codeOpd_ok hx ho hw hlt))
  · exact completes_of_ok rfl hr (jmpiFn_ok (sylReady_bundle hr.next) (codeOpd_ok hx ho hw hlt))
  · exact completes_of_ok rfl hr (retFn_ok hx (sylReady_bundle hr.next) hl hw hsh ha)

end Sys2Proof.Machine
end

section
/-! SUPPORT. Every command keeps the canonical form of the tagged memory and only fills one-time cells: one arm for each
constructor, from the lemma of the operation that gives it its meaning. -/

open Sys2Proof.Say

namespace Sys2Proof.Machine

variable {o : Seen} {s t : State}

/-! ## The shapes that the arms share -/

theorem done_kept {u : State} (e : done s u = .next t) (h : Kept o u) : Kept o t := by
  cases e
  exact h

theorem byKeeper_done_kept {f : State → State} (hs : Kept o s) (e : done s (s.byKeeper f) = .next t)
    (h : ∀ u, Kept o u → Kept o (f u)) : Kept o t :=
  done_kept e (State.byKeeper_kept o s f hs h)

/-- A command of a window that acts while the windows are served (R380). -/
theorem servingWindow_kept {p : Iface} {w : Nat} {f : State → State} (hs : Kept o s)
    (e : done s (onWindow s p w fun s => if serving s then f s else s) = .next t)
    (h : ∀ u, Kept o u → Kept o (f u)) : Kept o t :=
  done_kept e (onWindow_kept o s p w _ hs fun u hu => if_kept (h u hu) hu)

/-! ## The commands that look for what they act on -/

theorem execQputWaitSatisfied_kept (hs : Kept o s) (r) (e : exec (.qputWaitSatisfied r) s = .next t) :
    Kept o t := by
  refine done_kept e ?_
  grind [qputTry_kept]

theorem execQgetWaitSatisfied_kept (hs : Kept o s) (r h) (e : exec (.qgetWaitSatisfied r h) s = .next t) :
    Kept o t := by
  refine done_kept e ?_
  grind [qgetTry_kept]

theorem execReaderReplyTimeout_kept (hs : Kept o s) (b) (e : exec (.readerReplyTimeout b) s = .next t) :
    Kept o t := by
  refine done_kept e ?_
  grind [airPost_kept]

theorem execCommitAdmissionTimeout_kept (hs : Kept o s) (id) (e : exec (.commitAdmissionTimeout id) s = .next t) :
    Kept o t := by
  refine done_kept e ?_
  grind [commitFails_kept, unqueue_kept]

theorem execCredentialWithdrawal_kept (hs : Kept o s) (e : exec (.credentialWithdrawal) s = .next t) :
    Kept o t := by
  refine done_kept e ?_
  grind [decisionBegin_kept]

theorem execQuiesceBoundExpiry_kept (hs : Kept o s) (who) (e : exec (.quiesceBoundExpiry who) s = .next t) :
    Kept o t := by
  refine done_kept e ?_
  grind [boundExpiry_kept]

theorem execStandbyStripsSigned_kept (hs : Kept o s) (e : exec (.standbyStripsSigned) s = .next t) :
    Kept o t := by
  refine done_kept e ?_
  grind [modeEnd_kept, decisionBegin_kept]

theorem execWakeEvent_kept (hs : Kept o s) (src) (e : exec (.wakeEvent src) s = .next t) :
    Kept o t := by
  refine done_kept e ?_
  grind [wakeSource_kept, decisionDeferred_kept]

theorem execBusyRelease_kept (hs : Kept o s) (e : exec (.busyRelease) s = .next t) :
    Kept o t := by
  refine done_kept e ?_
  grind [cardEnd_kept]

theorem execCardResponseTimeout_kept (hs : Kept o s) (e : exec (.cardResponseTimeout) s = .next t) :
    Kept o t := by
  refine done_kept e ?_
  grind [State.incReg_kept, cardEnd_kept, sendCommand_kept, setRun_kept]

theorem execCardBusyTimeout_kept (hs : Kept o s) (e : exec (.cardBusyTimeout) s = .next t) :
    Kept o t := by
  refine done_kept e ?_
  grind [cardEnd_kept]

theorem execSensorAnswerTimeout_kept (hs : Kept o s) (e : exec (.sensorAnswerTimeout) s = .next t) :
    Kept o t := by
  refine done_kept e ?_
  grind [sensorEnd_kept, State.incReg_kept]

theorem execWaittResume_kept (hs : Kept o s) (n c) (e : exec (.waittResume n c) s = .next t) :
    Kept o t := by
  refine done_kept e ?_
  grind [waitt_kept, State.setCtx_kept]

theorem execAirWake_kept (hs : Kept o s) (f) (e : exec (.airWake f) s = .next t) :
    Kept o t := by
  refine done_kept e ?_
  grind [airRx_kept, setTstate_kept]

theorem execAirIdent_kept (hs : Kept o s) (f) (e : exec (.airIdent f) s = .next t) :
    Kept o t := by
  refine done_kept e ?_
  grind [airRx_kept, State.incReg_kept]

theorem execAirSelect_kept (hs : Kept o s) (f) (e : exec (.airSelect f) s = .next t) :
    Kept o t := by
  refine done_kept e ?_
  grind [airRx_kept, airReplyTo_kept, setTstate_kept]

theorem execGetResult_kept (hs : Kept o s) (f) (e : exec (.getResult f) s = .next t) :
    Kept o t := by
  refine done_kept e ?_
  grind [airRx_kept, airService_kept, sameSeq_kept]

theorem execAirApp_kept (hs : Kept o s) (f) (e : exec (.airApp f) s = .next t) :
    Kept o t := by
  refine done_kept e ?_
  grind [airRx_kept, sameSeq_kept, airSend_kept, airPost_kept]

theorem execUnknownCommand_kept (hs : Kept o s) (f) (e : exec (.unknownCommand f) s = .next t) :
    Kept o t := by
  refine done_kept e ?_
  grind [airRx_kept, airReplyTo_kept]

theorem execReaderSignalSample_kept (hs : Kept o s) (x) (e : exec (.readerSignalSample x) s = .next t) :
    Kept o t := by
  refine done_kept e ?_
  grind [State.setReg_kept]

theorem execWaitProbe_kept (hs : Kept o s) (loss other) (e : exec (.waitProbe loss other) s = .next t) :
    Kept o t := by
  refine done_kept e ?_
  grind [State.setReg_kept, wakeSource_kept]

/-! ## Every command -/

/-- A command keeps the canonical form of the tagged memory, and only fills the one-time cells. -/
theorem exec_kept (hs : Kept o s) : ∀ c, exec c s = .next t → Kept o t
  | .stlGenerationLoaded _, e => done_kept e (stlLoad_kept o s _ hs)
  | .stlInsert, e | .stlDelete, e | .stlClear, e | .stlSetSalt, e | .stlPersist, e =>
    byKeeper_done_kept hs e (fun u hs => stlCmd_kept o u _ hs)
  | .stlEditComplete, e => done_kept e (stlEditDone_kept o s hs)
  | .generate, e | .derive, e | .importAgree, e | .importWrap, e | .zeroise, e =>
    byKeeper_done_kept hs e (fun u hs => keyCmd_kept o u _ hs)
  | .exportKey, e | .loadKeyRecord, e => byKeeper_done_kept hs e (fun u hs => pubCmd_kept o u _ hs)
  | .attestationStatement, e => byKeeper_done_kept hs e (fun u hs => attCmd_kept o u hs)
  | .laneGrant _, e => done_kept e (laneGrant_kept o s _ hs)
  | .stripIdleClose _, e => done_kept e (closeReason_kept o s _ _ hs)
  | .stripSigned _ _, e => done_kept e (stripSigned_kept o s _ _ hs)
  | .bandSeal _, e => done_kept e (bandSeal_kept o s _ hs)
  | .readRecords _, e | .readTrailer _, e | .readSeal _, e | .readCounter _, e | .readVolumeState _, e =>
    done_kept e (readServe_kept o s _ _ hs)
  | .ringEnable, e => byKeeper_done_kept hs e (fun u hs => ringCfg_kept o u _ hs)
  | .ringCtrlDiscard, e | .ringCtrlResume, e | .ringCtrlStop, e =>
    byKeeper_done_kept hs e (fun u hs => ringCtrl_kept o u _ hs)
  | .hifEnableChange _, e => byKeeper_done_kept hs e (fun u hs => hifWrite_kept o u _ hs)
  | .areaLockGrant _, e => done_kept e (areaLockGrant_kept o s _ hs)
  | .shadowWriteComplete _ _, e => done_kept e (shadowDone_kept o s _ _ hs)
  | .foldShadows, e => done_kept e (foldShadows_kept o s hs)
  | .airDeselect _, e | .airHalt _, e | .airPing _, e | .airRead _, e | .airWrite _, e | .airPwd _, e =>
    done_kept e (airServed_kept o s _ _ _ hs)
  | .appReply _, e => done_kept e (appReply_kept o s _ hs)
  | .airEnable _, e => byKeeper_done_kept hs e (fun u hs => airEnable_kept o u _ hs)
  | .airDisable, e => byKeeper_done_kept hs e (fun u hs => airDisable_kept o u hs)
  | .readerCommandSend _, e => done_kept e (readerCommandSend_kept o s _ hs)
  | .readerReplyReceived _ _, e => done_kept e (replyReceived_kept o s _ _ hs)
  | .inventoryRound _ _, e => done_kept e (inventoryRound_kept o s _ _ hs)
  | .quiesceComplete _, e => done_kept e (quiesceComplete_kept o s _ hs)
  | .epochBoundary _ _, e => done_kept e (epochBoundary_kept o s _ _ hs)
  | .saveImageStream, e => done_kept e (saveStream_kept o s hs)
  | .createInst, e | .installImage, e | .startInst, e | .quiesce, e | .resumeInst, e | .resetInst, e
  | .removeInst, e | .stage, e | .unstage, e | .freeze, e | .save, e | .offer, e | .restore _, e =>
    byKeeper_done_kept hs e (fun u hs => insCmd_kept o u _ _ hs)
  | .commitMark _ _ _, e => done_kept e (commitMark_kept o s _ _ _ hs)
  | .appliedMark, e => done_kept e (appliedMark_kept o s hs)
  | .journalProgramFailure _ _, e => done_kept e (journalFailure_kept o s _ _ hs)
  | .mainLoss, e => done_kept e (mainLoss_kept o s hs)
  | .flopComplete _ _, e => done_kept e (flopComplete_kept o s _ _ hs)
  | .retentionStressUpdate, e => done_kept e (stressUpdate_kept o s hs)
  | .rsadd _, e => byKeeper_done_kept hs e (fun u hs => rsadd_kept o u _ hs)
  | .patrolRead _ _ _, e => done_kept e (patrolRead_kept o s _ _ _ hs)
  | .refreshSwitch _ _, e => done_kept e (refreshSwitch_kept o s _ _ hs)
  | .nandProgramFailure _, e => done_kept e (nandFail_kept o s _ hs)
  | .decisionSecondEvaluation _, e => done_kept e (decisionSecond_kept o s _ hs)
  | .decisionDeferredStart, e => done_kept e (decisionDeferred_kept o s hs)
  | .modeReqWorkshop, e => done_kept e (reqWorkshop_kept o s hs)
  | .modeReqService, e => done_kept e (reqService_kept o s hs)
  | .modeReqStandby, e => done_kept e (reqStandby_kept o s hs)
  | .modeReqDecommission, e => done_kept e (reqDecommission_kept o s hs)
  | .modeReqRefused _, e | .deviceResetRequest, e => done_kept e (modeReq_kept o s _ hs)
  | .powerOn _ _ _ _, e => done_kept e (powerOn_kept o s _ _ _ _ hs)
  | .resetNLow _, e => done_kept e (resetN_kept o s _ hs)
  | .replayComplete, e => done_kept e (replayComplete_kept o s hs)
  | .rawBlockTested _ _, e => done_kept e (rawBlock_kept o s _ _ hs)
  | .startupRecordsCommit, e => done_kept e (startupRecords_kept o s hs)
  | .capacitanceMeasurementStart, e => done_kept e (measureStart_kept o s hs)
  | .capacitanceMeasured _, e => done_kept e (measured__kept o s _ hs)
  | .persoBegin _, e | .persoTagid _, e | .persoKeygen _, e | .persoCert _, e | .persoImage _ _, e
  | .persoClose _, e | .readEvidence _, e | .attest _, e | .imageWrite _ _, e | .imageSwap _, e
  | .recoveryExit _, e | .nonce _, e =>
    done_kept e (svcCall_kept o s _ _ _ hs)
  | .svcCodeUnknown _, e => done_kept e (svcCmd_kept o s _ _ hs)
  | .heldDoorbellRelease, e => done_kept e (heldRelease_kept o s hs)
  | .read1 _ _, e | .read4 _ _, e => done_kept e (qspiRead_kept o s _ _ hs)
  | .write1 _ _ _, e | .write4 _ _ _, e => done_kept e (qspiWrite_kept o s _ _ _ hs)
  | .functionLevelReset _, e => done_kept e (flr_kept o s _ hs)
  | .pcieLinkStateChange _ _, e => done_kept e (linkChange_kept o s _ _ hs)
  | .vfEnableChange _ _, e => done_kept e (vfChange_kept o s _ _ hs)
  | .cardBusEnable _, e => byKeeper_done_kept hs e (fun u hs => crdEnable_kept o u _ hs)
  | .cardRead _, e | .cardWrite _, e | .cardStatus _, e | .cardSleep _, e | .cardWake _, e | .cardSetwp _, e
  | .cardClrwp _, e =>
    done_kept e (cardTake_kept o s _ _ hs)
  | .cardResponse _, e => done_kept e (cardResponse_kept o s _ hs)
  | .activate _, e => done_kept e (isoActivate_kept o s _ hs)
  | .exchange _, e => done_kept e (isoExchange_kept o s _ hs)
  | .deactivate _, e => done_kept e (isoDeactivate_kept o s _ hs)
  | .isoCardReceive _ _, e | .isoWaitingTimeExpiry _, e => done_kept e (isoReceive_kept o s _ _ hs)
  | .canFrameReceived _ _, e => done_kept e (canReceive_kept o s _ _ hs)
  | .canTransmit _, e => done_kept e (canTransmit_kept o s _ hs)
  | .canTransmitAck _, e => done_kept e (canAck_kept o s _ hs)
  | .canErrorDetected _ _ _, e => done_kept e (canError_kept o s _ _ _ hs)
  | .pulseEdge _ _ _, e => done_kept e (pulseEdge_kept o s _ _ _ hs)
  | .pulseReport _, e => done_kept e (pulseReport_kept o s _ hs)
  | .sensorLinkRequest, e => done_kept e (sensorRequest_kept o s hs)
  | .sensorAnswer _ _ _, e => done_kept e (sensorAnswer_kept o s _ _ _ hs)
  | .gnssUartByte _, e => done_kept e (gnssByte_kept o s _ hs)
  | .gnssEventClose, e => done_kept e (gnssClose_kept o s hs)
  | .ppsEdge _, e => done_kept e (ppsEdge_kept o s _ hs)
  | .hostSet, e | .ppsSet, e => done_kept e (timeCmd_kept o s _ hs)
  | .vioSupplyChange _ _ _, e => done_kept e (vioChange_kept o s _ _ _ hs)
  | .registerWrite _ _, e => byKeeper_done_kept hs e (fun u hs => regStore_kept o u _ _ hs)
  | .rcRegisterRead _ _, e => byKeeper_done_kept hs e (fun u hs => rcClear_kept o u _ _ hs)
  | .escResume _ _, e | .escHalt _ _, e =>
    byKeeper_done_kept hs e (fun u hs => escCtrl_kept o u _ _ _ hs)
  | .tamperRaise _ _ _, e => done_kept e (tamperSource_kept o s _ _ _ hs)
  | .governorEvaluation _, e => done_kept e (govern_kept o s _ hs)
  | .nop _, e | .lit _, e | .addi _, e | .div _, e | .rem _, e | .bitNot _, e | .neg _, e | .tst _, e | .rpush _, e
  | .rpop _, e | .rcopy _, e | .tax0 _, e | .tax1 _, e | .txa0 _, e | .txa1 _, e | .lea _, e | .dup _, e
  | .drop _, e | .swap _, e | .over _, e | .rot _, e | .nip _, e | .add _, e | .sub _, e | .mul _, e | .mulh _, e
  | .bitAnd _, e | .bitOr _, e | .bitXor _, e | .shl _, e | .shr _, e | .sar _, e | .cmp _, e =>
    done_kept e (sylA_kept o s _ _ _ hs)
  | .dadd _, e | .dsub _, e | .dmul10 _, e | .dshr _, e | .dshl _, e | .dadj _, e | .dcmp _, e | .bin2dec _, e
  | .dec2bin _, e | .todec _, e | .toint _, e | .totime _, e | .toraw _, e | .tagof _, e | .khandle _, e =>
    done_kept e (sylD_kept o s _ _ _ hs)
  | .ldw _, e | .ldwk _, e | .stw _, e | .stwk _, e | .ld8 _, e | .ld16 _, e | .ld32 _, e | .st8 _, e | .st16 _, e
  | .st32 _, e | .lds _, e | .ldr _, e | .stc _, e | .tas _, e | .fence _, e | .regp _, e | .lda _, e | .sta _, e
  | .ldx0 _, e | .ldx1 _, e | .stx0 _, e | .stx1 _, e =>
    done_kept e (sylM_kept o s _ _ _ hs)
  | .beq _, e | .bltu _, e | .bdc _, e | .brz _, e | .brnz _, e | .call _, e | .calli _, e | .jmpi _, e | .ret _, e
  | .cadr _, e | .gate _, e | .gret _, e | .hwLoop _, e | .getcst _, e | .yield _, e | .testt _, e | .br _, e
  | .bne _, e | .blt _, e | .bge _, e | .bgeu _, e =>
    done_kept e (syl_kept o s _ _ _ _ _ hs)
  | .setfl _, e | .setmask _, e => done_kept e (sylC_kept o s _ _ _ hs)
  | .waitt _, e => done_kept e (waitt_kept o s _ hs)
  | .engineCompletion _ _ _, e => done_kept e (engineCompletion_kept o s _ _ _ hs)
  | .qput _, e | .qget _ _, e | .sealAead _, e | .openAead _, e | .sign _, e | .verify _, e | .agreeEcdhSlot _, e
  | .agreeEcdhEphemeral _, e | .agreeMlkemDecapsulate _, e | .agreeMlkemEncapsulate _, e | .hash _, e | .look _, e
  | .cload _, e | .cstore _, e | .cnew _, e | .cfree _, e | .intent _, e | .commit _, e | .rand _, e
  | .timeRead _, e | .timeWait _, e | .flopProgramCode _, e | .flopProgramData _, e | .flopErase _, e
  | .flopMarginRead _, e | .flopBootSwap _, e | .airBind _, e | .airUnbind _, e | .airLink _, e
  | .airInventory _, e | .arearead _, e =>
    done_kept e (issueRow_kept o s _ _ _ _ _ hs)
  | .interruptTaken _ _ _, e => done_kept e (interruptTaken_kept o s _ _ _ hs)
  | .shingleRebuildComplete, e | .stlGenerationRelease, e | .flushMarksWritten, e | .patrolLate _, e | .waitModeEntry, e
  | .qspiStatus, e | .qspiReadTimeout, e | .boundaryScanAccess _ _, e | .tamperRearm _ _, e | .rateWindowExpiry _, e =>
    done_kept e (if_kept hs hs)
  | .noiseRestartDone, e => done_kept e hs
  | .keySlotLoad _ _, e => done_kept e (keyResume_kept o _ (slotLoad_kept o s _ _ hs))
  | .reservationResume _, e => done_kept e (airResume_kept o _ (resumeKey_kept o s _ hs))
  | .commitAdmission, e => done_kept e (admission_kept o _ (flushSample_kept o s hs))
  | .commitApply, e => done_kept e (commitApply_kept o _ (flushSample_kept o s hs))
  | .activeTimeout, e => done_kept e (if_kept (setTstate_kept o _ _ (dropLink_kept o s hs)) hs)
  | .resultWindowExpiry _, e => done_kept e (if_kept hs (windowExpiry_kept o s _ hs))
  | .shortDip, e => done_kept e (if_kept (State.statInc_kept o s _ _ hs) hs)
  | .deviceStop, e => done_kept e (if_kept (powerLoss_kept o s hs) hs)
  | .workshopInactivityExpiry, e => done_kept e (if_kept (decisionBegin_kept o s _ hs) hs)
  | .brkMeasure, e => done_kept e (if_kept (State.setReg_kept o s _ _ hs) hs)
  | .cardInsertion _ _, e => done_kept e (if_kept (cardInsert_kept o s _ _ hs) hs)
  | .cardRemoval _, e => done_kept e (if_kept (cardRemove_kept o s _ hs) hs)
  | .isoCardPresence _ _, e => done_kept e (if_kept (isoPresence_kept o s _ _ hs) hs)
  | .drainWindowEnd _, e => done_kept e (if_kept (closeIssue_kept o s _ _ hs) hs)
  | .storeSealRecord, e | .standbyDrainEnd, e => done_kept e (if_kept (State.devCommit_kept o s _ _ _ hs) hs)
  | .vholdCharged, e => done_kept e (if_kept (holdVhold_kept o s _ hs) hs)
  | .vholdChargeTimeout, e => done_kept e (if_kept (brkLow_kept o s _ hs) hs)
  | .localBusRead _, e => done_kept e (if_kept (hostRead_kept o s _ _ hs) hs)
  | .localBusWrite _ _, e => done_kept e (if_kept (winWrite_kept o s _ _ _ _ hs) hs)
  | .busMasterDisable _, e => done_kept e (if_kept (stopHostRings_kept o _ _ hs) hs)
  | .canBusOffRecovery _, e => done_kept e (if_kept (setCan_kept o s _ _ hs) hs)
  | .vbatMeasurement _, e => done_kept e (if_kept (kept_of hs rfl rfl rfl) hs)
  | .upperHalfLatch _ _, e => done_kept e (if_kept (latchRead_kept o s _ _ _ hs) hs)
  | .nearMiss _, e => done_kept e (if_kept (State.incReg_kept o _ _ _ (State.statInc_kept o s _ _ hs)) hs)
  | .timeWaitReached _ _, e => done_kept e (if_kept (timeTry_kept o s _ _ _ hs) hs)
  | .portBufferDrain _, e => done_kept e (drainBuf_kept o _ _ s hs)
  | .mpuSetUpdate _ _, e => byKeeper_done_kept hs e (fun u hs => if_kept (mpuWrite_kept o u _ _ hs) hs)
  | .fieldLoss, e => done_kept e (kept_of (if_kept (airIdle_kept o s hs) hs) rfl rfl rfl)
  | .timeSliceEnd _ _, e => done_kept e (if_kept (State.setCtx_kept o _ _ _ (State.statInc64_kept o s _ _ hs)) hs)
  | .doorbell _ _ _ _, e => done_kept e (onWindow_kept o s _ _ _ hs fun u hs => doorbell_kept o u _ _ _ hs)
  | .push _ _ _, e => servingWindow_kept hs e (fun u hs => pushWrite_kept o u _ _ _ hs)
  | .pop _ _ _, e => servingWindow_kept hs e (fun u hs => popWrite_kept o u _ _ _ hs)
  | .rctlDiscard _ _ _, e | .rctlResume _ _ _, e => servingWindow_kept hs e (fun u hs => rctlWrite_kept o u _ _ _ hs)
  | .stagingBufferWrite _ _ _ _ _, e => servingWindow_kept hs e (fun u hs => stageWrite_kept o u _ _ _ _ _ hs)
  | .qputWaitSatisfied r, e => execQputWaitSatisfied_kept hs r e
  | .qgetWaitSatisfied r h, e => execQgetWaitSatisfied_kept hs r h e
  | .readerReplyTimeout b, e => execReaderReplyTimeout_kept hs b e
  | .commitAdmissionTimeout id, e => execCommitAdmissionTimeout_kept hs id e
  | .credentialWithdrawal, e => execCredentialWithdrawal_kept hs e
  | .quiesceBoundExpiry who, e => execQuiesceBoundExpiry_kept hs who e
  | .standbyStripsSigned, e => execStandbyStripsSigned_kept hs e
  | .wakeEvent src, e => execWakeEvent_kept hs src e
  | .busyRelease, e => execBusyRelease_kept hs e
  | .cardResponseTimeout, e => execCardResponseTimeout_kept hs e
  | .cardBusyTimeout, e => execCardBusyTimeout_kept hs e
  | .sensorAnswerTimeout, e => execSensorAnswerTimeout_kept hs e
  | .waittResume n c, e => execWaittResume_kept hs n c e
  | .airWake f, e => execAirWake_kept hs f e
  | .airIdent f, e => execAirIdent_kept hs f e
  | .airSelect f, e => execAirSelect_kept hs f e
  | .getResult f, e => execGetResult_kept hs f e
  | .airApp f, e => execAirApp_kept hs f e
  | .unknownCommand f, e => execUnknownCommand_kept hs f e
  | .readerSignalSample x, e => execReaderSignalSample_kept hs x e
  | .waitProbe loss other, e => execWaitProbe_kept hs loss other e

/-! ## The step -/

/-- What is seen of a state before a step. -/
def seenOf (s : State) : Seen := ⟨s.Canonical, CellsFit s.otp, s.otp⟩

theorem seenOf_kept (s : State) : Kept (seenOf s) s :=
  ⟨fun h => ⟨h.mem, h.tags⟩, fun h => ⟨rfl, id, id, id, le_rfl, le_rfl, le_rfl, le_rfl, le_rfl, le_rfl, h.swap,
    h.workshop, h.recovery, h.fatal, h.set, h.clear⟩⟩

theorem step_nil (h : s.pending = []) : step s = .next (idle s) := by rw [step, h]

theorem step_cons {c : Instr} {l : List Instr} (h : s.pending = c :: l) : 
    step s = exec c { s with pending := l } := by
  rw [step, h]

theorem step_kept (hs : Kept o s) (e : step s = .next t) : Kept o t := by
  cases hp : s.pending with
  | nil =>
    rw [step_nil hp] at e
    cases e
    exact idle_kept o s hs
  | cons c rest =>
    rw [step_cons hp] at e
    have hs' : Kept o { s with pending := rest } := hs
    exact exec_kept hs' c e

/-! ## The obligations -/

/-- Settles O1: the step at a queue with a front is that command's meaning, by the definition of the step. -/
theorem stepRunsTheFrontCommand : Obligations.StepRunsTheFrontCommand := fun _ _ _ => rfl

/-- Settles O2: on an empty queue the step idles, and what idling does follows the supply. -/
theorem stepOnAnEmptyQueueIdles : Obligations.StepOnAnEmptyQueueIdles := by
  intro s h
  have hstep := step_nil h
  exact ⟨fun hup => hstep.trans (congrArg _ (if_pos hup)),
    fun hdown => hstep.trans (congrArg _ (if_neg (by simp [hdown])))⟩

/-- Settles O3: the reset state holds no memory entry, and its one-time counts are zero. -/
theorem resetIsCanonical : Obligations.ResetIsCanonical :=
  ⟨State.reset_canonical, by constructor <;> decide⟩

/-- Settles O4: every operation, and so every command and every step, keeps the form. -/
theorem everyStepKeepsMemoryCanonical : Obligations.EveryStepKeepsMemoryCanonical := by
  intro s t hs e
  obtain ⟨hmem, htags⟩ := (step_kept (seenOf_kept s) e).1 hs
  exact ⟨hmem, htags⟩

/-- Settles O5: every operation, and so every command and every step, only fills the cells, within their fields. -/
theorem oneTimeCellsOnlyFill : Obligations.OneTimeCellsOnlyFill := by
  intro s t hs e
  have h : s.otp.Fills t.otp := (step_kept (seenOf_kept s) e).2 hs
  exact ⟨⟨h.swap64, h.workshop1024, h.recovery1024, h.fatal1024, h.set1024, h.clearSet⟩,
    ⟨h.serial, h.begun, h.closed, h.terminal, h.swap, h.workshop, h.recovery, h.fatal, h.set, h.clear⟩⟩

end Sys2Proof.Machine
end

section
/-! SUPPORT. Products, quotients, the bit operations, shifts and comparisons (R269, R271): what each operation gives on the
tags that it takes, and what refuses the others. -/

open Sys2Proof.Say

namespace Sys2Proof.Machine

variable {s : State} {x : Syl} {c : Ctx} {b : Bundle} {v w : TWord}

/-! ## The flags of an INT result -/

theorem arith_int (r : CpuRegs) (d : Word64) (cf vf : Bool) : r.arith (intW d) cf vf = intFlags r d cf vf := rfl

theorem arith_of_int {t : Word4} (ht : t = Tag.int) (r : CpuRegs) (d : Word64) (cf vf : Bool) :
    r.arith ⟨t, d⟩ cf vf = intFlags r d cf vf := by
  rw [ht]
  rfl

theorem arith_raw (r : CpuRegs) (d : Word64) (cf vf : Bool) : r.arith (rawW d) cf vf = r :=
  arith_of_ne_int r (by decide : Tag.raw ≠ Tag.int) cf vf

theorem bothInt_iff : bothInt v w = true ↔ v.tag = Tag.int ∧ w.tag = Tag.int := by
  simp [bothInt]

theorem bothInt_eq_false (h : ¬ (v.tag = Tag.int ∧ w.tag = Tag.int)) : bothInt v w = false := by
  rw [← Bool.not_eq_true, bothInt_iff]
  exact h

theorem rawOrInt_iff {t : Word4} : rawOrInt t = true ↔ PlainTag t := by
  simp [rawOrInt, PlainTag]

/-! ## Products and quotients -/

/-- The one quotient that does not fit (R271), by the values of its operands. -/
theorem quotientPast_eq (p q : Word64) :
    (p == BitVec.ofInt 64 (-(2 ^ 63)) && q == BitVec.ofInt 64 (-1)) = (p.toInt == -(2 ^ 63) && q.toInt == -1) := by
  have hp : p = BitVec.ofInt 64 (-(2 ^ 63)) ↔ p.toInt = -(2 ^ 63) := by
    rw [← BitVec.toInt_inj]
    rfl
  have hq : q = BitVec.ofInt 64 (-1) ↔ q.toInt = -1 := by
    rw [← BitVec.toInt_inj]
    rfl
  simp only [beq_eq_decide, hp, hq]

theorem opMul_int (hv : v.tag = Tag.int) (hw : w.tag = Tag.int) (r : CpuRegs) :
    opMul r v w = some (intW (v.data * w.data), intFlags r (v.data * w.data)
      (decide ((v.data * w.data).toInt ≠ v.data.toInt * w.data.toInt))
      (decide ((v.data * w.data).toInt ≠ v.data.toInt * w.data.toInt))) := by
  rw [opMul, if_pos (bothInt_iff.2 ⟨hv, hw⟩)]
  rfl

theorem opMulh_int (hv : v.tag = Tag.int) (hw : w.tag = Tag.int) (r : CpuRegs) :
    opMulh r v w = some (intW (BitVec.ofInt 64 (v.data.toInt * w.data.toInt / 2 ^ 64)),
      intFlags r (BitVec.ofInt 64 (v.data.toInt * w.data.toInt / 2 ^ 64)) false false) := by
  rw [opMulh, if_pos (bothInt_iff.2 ⟨hv, hw⟩)]
  rfl

theorem opMul_eq_none (h : ¬ (v.tag = Tag.int ∧ w.tag = Tag.int)) (r : CpuRegs) : opMul r v w = none := by
  rw [opMul, bothInt_eq_false h]
  rfl

theorem opMulh_eq_none (h : ¬ (v.tag = Tag.int ∧ w.tag = Tag.int)) (r : CpuRegs) : opMulh r v w = none := by
  rw [opMulh, bothInt_eq_false h]
  rfl

section
variable (f : CpuRegs → TWord → TWord → TWord × CpuRegs)

theorem divFn_ok (hv : v.tag = Tag.int) (hw : w.tag = Tag.int) (h0 : w.data ≠ 0) (r : CpuRegs) :
    divFn f r v w = .ok (f r v w) := by
  rw [divFn, if_neg (not_not.2 (bothInt_iff.2 ⟨hv, hw⟩)), if_neg h0]

theorem divFn_zero (hv : v.tag = Tag.int) (hw : w.tag = Tag.int) (h0 : w.data = 0) (r : CpuRegs) :
    divFn f r v w = .error { cls := Cls.divZero } := by
  rw [divFn, if_neg (not_not.2 (bothInt_iff.2 ⟨hv, hw⟩)), if_pos h0]

theorem divFn_tag (h : ¬ (v.tag = Tag.int ∧ w.tag = Tag.int)) (r : CpuRegs) : divFn f r v w = .error tagExc := by
  rw [divFn, if_pos (by rwa [bothInt_iff])]

end

theorem opDiv_eq (r : CpuRegs) : opDiv r v w = (intW (BitVec.ofInt 64 (v.data.toInt.tdiv w.data.toInt)),
    intFlags r (BitVec.ofInt 64 (v.data.toInt.tdiv w.data.toInt)) false
      (v.data.toInt == -(2 ^ 63) && w.data.toInt == -1)) := by
  rw [← quotientPast_eq]
  rfl

theorem opRem_eq (r : CpuRegs) : opRem r v w = (intW (BitVec.ofInt 64 (v.data.toInt.tmod w.data.toInt)),
    intFlags r (BitVec.ofInt 64 (v.data.toInt.tmod w.data.toInt)) false
      (v.data.toInt == -(2 ^ 63) && w.data.toInt == -1)) := by
  rw [← quotientPast_eq]
  rfl

/-- A quotient or remainder of INT words whose divisor is not zero is delivered with its flags. -/
theorem binary_divFn {f : CpuRegs → TWord → TWord → TWord × CpuRegs} {u : TWord} {flags : CpuRegs → CpuRegs}
    (ho : Operands2 s x c b v w) (hv : v.tag = Tag.int) (hw : w.tag = Tag.int) (h0 : w.data ≠ 0)
    (hf : ∀ r, f r v w = (u, flags r)) (hds : (flags c.r).ds = c.r.ds)
    (hflags : ∀ l, flags (withDs c.r l) = withDs (flags c.r) l) :
    binary (divFn f) (viewOf s b) (key x) c x = .ok (Result2 c (flags c.r) u) :=
  binary_ok ho hds fun l => by rw [divFn_ok f hv hw h0, hf, hflags]

theorem productsRefused : Say.ProductsRefused := by
  intro s x c b v w ho
  refine ⟨fun hv hw h0 => ⟨fun hr => ?_, fun hr => ?_⟩,
    fun ht => ⟨fun hr => ?_, fun hr => ?_, fun hr => ?_, fun hr => ?_⟩⟩
  · exact takesClass_of_error rfl hr (binary_error ho (divFn_zero opDiv hv hw h0))
  · exact takesClass_of_error rfl hr (binary_error ho (divFn_zero opRem hv hw h0))
  · exact takesClass_of_error rfl hr (binary_none ho (opMul_eq_none ht))
  · exact takesClass_of_error rfl hr (binary_none ho (opMulh_eq_none ht))
  · exact takesClass_of_error rfl hr (binary_error ho (divFn_tag opDiv ht))
  · exact takesClass_of_error rfl hr (binary_error ho (divFn_tag opRem ht))

/-- Settles O7: of two INT words each operation gives its word and its flags, and a ready syllable delivers it; a divisor
of zero and other tags are refused. -/
theorem multiplyAndDivide : Obligations.MultiplyAndDivide := by
  refine ⟨fun s x c b v w ho hv hw => ⟨fun hr => ?_, fun hr => ?_, fun h0 => ⟨fun hr => ?_, fun hr => ?_⟩⟩, productsRefused⟩
  · exact completes_of_ok rfl hr (binary_some ho (opMul_int hv hw) rfl fun _ => rfl)
  · exact completes_of_ok rfl hr (binary_some ho (opMulh_int hv hw) rfl fun _ => rfl)
  · exact completes_of_ok rfl hr (binary_divFn ho hv hw h0 opDiv_eq rfl fun _ => rfl)
  · exact completes_of_ok rfl hr (binary_divFn ho hv hw h0 opRem_eq rfl fun _ => rfl)

/-! ## Bit operations -/

theorem opLogic_int (f : Word64 → Word64 → Word64) (hv : v.tag = Tag.int) (hw : w.tag = Tag.int) (r : CpuRegs) :
    opLogic f r v w = some (intW (f v.data w.data), intFlags r (f v.data w.data) false false) := by
  have htags : (rawOrInt v.tag && rawOrInt w.tag) = true := by rw [hv, hw]; rfl
  rw [opLogic, if_pos htags, if_pos (bothInt_iff.2 ⟨hv, hw⟩)]
  rfl

theorem opLogic_raw (f : Word64 → Word64 → Word64) (hv : PlainTag v.tag) (hw : PlainTag w.tag)
    (h : ¬ (v.tag = Tag.int ∧ w.tag = Tag.int)) (r : CpuRegs) :
    opLogic f r v w = some (rawW (f v.data w.data), r) := by
  have htags : (rawOrInt v.tag && rawOrInt w.tag) = true := by rw [rawOrInt_iff.2 hv, rawOrInt_iff.2 hw]; rfl
  rw [opLogic, if_pos htags, bothInt_eq_false h]
  exact congrArg (fun q => some (rawW (f v.data w.data), q)) (arith_raw r _ _ _)

theorem opLogic_eq_none (f : Word64 → Word64 → Word64) (h : ¬ (PlainTag v.tag ∧ PlainTag w.tag)) (r : CpuRegs) :
    opLogic f r v w = none := by
  rw [opLogic, if_neg (by simpa only [Bool.and_eq_true, rawOrInt_iff] using h)]

/-- AND, OR or XOR of two plain words delivers INT with its flags where both are INT, else RAW. -/
theorem binary_logic (f : Word64 → Word64 → Word64) (ho : Operands2 s x c b v w) (hv : PlainTag v.tag)
    (hw : PlainTag w.tag) :
    binary (fun r v w => orTag (opLogic f r v w)) (viewOf s b) (key x) c x =
      .ok (if v.tag = Tag.int ∧ w.tag = Tag.int then
          Result2 c (intFlags c.r (f v.data w.data) false false) (intW (f v.data w.data))
        else Result2 c c.r (rawW (f v.data w.data))) := by
  split
  case isTrue h => exact binary_some ho (opLogic_int f h.1 h.2) rfl fun _ => rfl
  case isFalse h => exact binary_some ho (opLogic_raw f hv hw h) rfl fun _ => rfl

/-! ## Shifts -/

/-- The word of a shift by `n` places, and the last bit shifted out by a count that is not zero (R269, R271). -/
def shifted (k : ShiftKind) (p : Word64) (n : Nat) : Word64 × Bool :=
  match k with
  | .shl => (p <<< n, p.getLsbD (64 - n))
  | .shr => (p >>> n, p.getLsbD (n - 1))
  | .sar => (p.sshiftRight n, p.getLsbD (n - 1))

theorem opShift_plain (k : ShiftKind) (hv : PlainTag v.tag) (hw : w.tag = Tag.int) (r : CpuRegs) :
    opShift k r v w =
      let n := w.data.toNat % 64
      let d := shifted k v.data n
      some (⟨v.tag, d.1⟩, r.arith ⟨v.tag, d.1⟩ (decide (n ≠ 0) && d.2) false) := by
  have hcarry : ∀ (n : Nat) (q : Bool), (if n = 0 then false else q) = (decide (n ≠ 0) && q) := fun n q => by
    by_cases h : n = 0 <;> simp [h]
  have htags : (rawOrInt v.tag && w.tag == Tag.int) = true := by simp [rawOrInt_iff.2 hv, hw]
  rw [opShift, if_pos htags]
  cases k <;> simp only [shifted, hcarry]

theorem opShift_eq_none (k : ShiftKind) (h : ¬ (PlainTag v.tag ∧ w.tag = Tag.int)) (r : CpuRegs) :
    opShift k r v w = none := by
  rw [opShift, if_neg (by simpa only [Bool.and_eq_true, rawOrInt_iff, beq_iff_eq] using h)]

theorem arith_withDs (r : CpuRegs) (l : List TWord) (u : TWord) (cf vf : Bool) :
    (withDs r l).arith u cf vf = withDs (r.arith u cf vf) l := by
  unfold CpuRegs.arith
  split <;> rfl

theorem arith_ds (r : CpuRegs) (u : TWord) (cf vf : Bool) : (r.arith u cf vf).ds = r.ds := by
  unfold CpuRegs.arith
  split <;> rfl

theorem arith_eq_ite (r : CpuRegs) (t : Word4) (d : Word64) (cf vf : Bool) :
    r.arith ⟨t, d⟩ cf vf = if t = Tag.int then intFlags r d cf vf else r := rfl

/-- A shift of a plain word by an INT delivers the word with its tag; the flags follow where it is INT. -/
theorem binary_shift (k : ShiftKind) (ho : Operands2 s x c b v w) (hv : PlainTag v.tag) (hw : w.tag = Tag.int) :
    let n := w.data.toNat % 64
    let d := shifted k v.data n
    binary (fun r v w => orTag (opShift k r v w)) (viewOf s b) (key x) c x =
      .ok (Result2 c (if v.tag = Tag.int then intFlags c.r d.1 (decide (n ≠ 0) && d.2) false else c.r) ⟨v.tag, d.1⟩) := by
  intro n d
  rw [← arith_eq_ite]
  exact binary_some (flags := fun r => r.arith ⟨v.tag, d.1⟩ (decide (n ≠ 0) && d.2) false) ho (opShift_plain k hv hw)
    (arith_ds _ _ _ _) fun _ => arith_withDs _ _ _ _ _

theorem logicRefused : Say.LogicRefused := by
  intro s x c b v w ho
  refine ⟨fun ht => ⟨fun hr => ?_, fun hr => ?_, fun hr => ?_⟩, fun ht => ⟨fun hr => ?_, fun hr => ?_, fun hr => ?_⟩⟩
  · exact takesClass_of_error rfl hr (binary_none ho (opLogic_eq_none _ ht))
  · exact takesClass_of_error rfl hr (binary_none ho (opLogic_eq_none _ ht))
  · exact takesClass_of_error rfl hr (binary_none ho (opLogic_eq_none _ ht))
  · exact takesClass_of_error rfl hr (binary_none ho (opShift_eq_none .shl ht))
  · exact takesClass_of_error rfl hr (binary_none ho (opShift_eq_none .shr ht))
  · exact takesClass_of_error rfl hr (binary_none ho (opShift_eq_none .sar ht))

/-- Settles O8: the bit operations and the shifts each have one equation on plain words, and a ready syllable delivers
their word; other tags are refused. -/
theorem logicAndShifts : Obligations.LogicAndShifts := by
  refine ⟨fun s x c b v w ho hv => ⟨fun hw => ⟨fun hr => ?_, fun hr => ?_, fun hr => ?_⟩,
    fun hw => ⟨fun hr => ?_, fun hr => ?_, fun hr => ?_⟩⟩, logicRefused⟩
  · exact completes_of_ok rfl hr (binary_logic (· &&& ·) ho hv hw)
  · exact completes_of_ok rfl hr (binary_logic (· ||| ·) ho hv hw)
  · exact completes_of_ok rfl hr (binary_logic (· ^^^ ·) ho hv hw)
  · exact completes_of_ok rfl hr (binary_shift .shl ho hv hw)
  · exact completes_of_ok rfl hr (binary_shift .shr ho hv hw)
  · exact completes_of_ok rfl hr (binary_shift .sar ho hv hw)

/-! ## Comparison and one operand -/

theorem operand1_acc (ho : Operand1 x c v) (h : c.acc = true) : c.r.acc = v := by
  simpa [Operand1, h] using ho.2

theorem operand1_stack (ho : Operand1 x c v) (h : c.acc = false) :
    ∃ rest, c.r.ds.items = v :: rest ∧ 8 * (rest.length + 1) ≤ c.r.ds.size := by
  simpa [Operand1, h] using ho.2

/-- An operation of one operand that gives the word `u` and the flags of `r`, whatever the stack beneath, delivers them
in the place of its operand. -/
theorem unary_ok {g : Un} {u : TWord} {r : CpuRegs} (ho : Operand1 x c v) (hds : r.ds = c.r.ds)
    (hg : ∀ l, g (withDs c.r l) v = .ok (u, withDs r l)) (s : State) :
    unary g s (key x) c x = .ok (Result1 c r u) := by
  cases hacc : c.acc with
  | true =>
    have hr : g (withDs c.r c.r.ds.items) v = .ok (u, withDs r r.ds.items) := by rw [hg, hds]
    change g c.r v = .ok (u, r) at hr
    simp [unary, Result1, hacc, ho.1, operand1_acc ho hacc, hr, bind, Except.bind]
  | false =>
    obtain ⟨rest, hl, hroom⟩ := operand1_stack ho hacc
    have hpop : c.r.pop = .ok (v, withDs c.r rest) := CpuRegs.pop_ok hl
    have hpush : (withDs r rest).push u = .ok (withDs r (u :: rest)) :=
      CpuRegs.push_ok (by simpa only [withDs, hds] using hroom)
    simp [unary, Result1, hacc, ho.1, hpop, hg, hpush, hl, bind, Except.bind]

/-- An operation that refuses its one operand is refused so. -/
theorem unary_error {g : Un} {e : Exc} (ho : Operand1 x c v) (hg : ∀ r, g r v = .error e) (s : State) :
    unary g s (key x) c x = .error e := by
  cases hacc : c.acc with
  | true => simp [unary, hacc, ho.1, operand1_acc ho hacc, hg, bind, Except.bind]
  | false =>
    obtain ⟨rest, hl, -⟩ := operand1_stack ho hacc
    have hpop : c.r.pop = .ok (v, withDs c.r rest) := CpuRegs.pop_ok hl
    simp [unary, hacc, ho.1, hpop, hg, bind, Except.bind]

theorem opCmp_some (htag : v.tag = w.tag) (ht : v.tag = Tag.int ∨ AddrTag v.tag) (r : CpuRegs) :
    opCmp r v w = some (diffFlags r v.data w.data) :=
  if_pos ⟨htag, ht.imp_right isAddrTag_iff.2⟩

theorem opCmp_eq_none (h : ¬ (v.tag = w.tag ∧ (v.tag = Tag.int ∨ AddrTag v.tag))) (r : CpuRegs) : opCmp r v w = none :=
  if_neg fun hp => h ⟨hp.1, hp.2.imp_right isAddrTag_iff.1⟩

theorem opCmp_error (h : ¬ (v.tag = w.tag ∧ (v.tag = Tag.int ∨ AddrTag v.tag))) (r : CpuRegs) :
    orTag (opCmp r v w) = .error tagExc := by
  rw [opCmp_eq_none h]
  rfl

theorem notFn_int (hv : v.tag = Tag.int) (r : CpuRegs) :
    notFn r v = .ok (intW (~~~v.data), intFlags r (~~~v.data) false false) := by
  rw [notFn, if_pos (rawOrInt_iff.2 (.inr hv)), hv]
  rfl

theorem notFn_raw (hv : v.tag = Tag.raw) (r : CpuRegs) : notFn r v = .ok (rawW (~~~v.data), r) := by
  rw [notFn, if_pos (rawOrInt_iff.2 (.inl hv)), hv]
  exact congrArg (fun q => Except.ok (rawW (~~~v.data), q)) (arith_raw r _ _ _)

theorem notFn_error (hv : ¬ PlainTag v.tag) (r : CpuRegs) : notFn r v = .error tagExc :=
  if_neg (by rwa [rawOrInt_iff])

/-- The borrow and the overflow of a negation (R271). -/
theorem negFlags (p : Word64) : subC 0 p = decide (p ≠ 0) ∧ subV 0 p = decide (p.toInt = -(2 ^ 63)) := by
  have hne : 0 < p.toNat ↔ p ≠ 0 := by
    rw [Nat.pos_iff_ne_zero, ne_eq, ne_eq, ← BitVec.toNat_inj]
    rfl
  have hover : (0 - p).toInt ≠ 0 - p.toInt ↔ p.toInt = -(2 ^ 63) := by
    have h := p.isLt
    simp only [BitVec.toInt_eq_toNat_cond, BitVec.toNat_sub, BitVec.ofNat_eq_ofNat, BitVec.toNat_ofNat]
    omega
  exact ⟨decide_eq_decide.2 hne, decide_eq_decide.2 hover⟩

theorem negFn_int (hv : v.tag = Tag.int) (r : CpuRegs) :
    negFn r v = .ok (intW (-v.data),
      intFlags r (-v.data) (decide (v.data ≠ 0)) (decide (v.data.toInt = -(2 ^ 63)))) := by
  obtain ⟨hc, hv'⟩ := negFlags v.data
  rw [negFn, if_pos hv, hc, hv']
  rfl

theorem negFn_error (hv : v.tag ≠ Tag.int) (r : CpuRegs) : negFn r v = .error tagExc := if_neg hv

theorem tstFn_ok (ho : Operand1 x c v) (s : State) :
    tstFn s (key x) c x = .ok { c with r := { c.r with z := v.data == 0, n := v.data.msb } } := by
  cases hacc : c.acc with
  | true => simp [tstFn, hacc, ho.1, operand1_acc ho hacc, CpuRegs.zn]
  | false =>
    obtain ⟨rest, hl, -⟩ := operand1_stack ho hacc
    have hpop : c.r.pop = .ok (v, withDs c.r rest) := CpuRegs.pop_ok hl
    simp [tstFn, hacc, ho.1, hpop, CpuRegs.zn, bind, Except.bind]

theorem operandsRefused : Say.OperandsRefused := by
  intro s x c b v w
  refine ⟨fun ho ht hr => ?_, fun ho => ⟨fun ht hr => ?_, fun ht hr => ?_⟩⟩
  · exact takesClass_of_error rfl hr (compare2_error (e := tagExc) ho (opCmp_error ht))
  · exact takesClass_of_error rfl hr ⟨tagExc, rfl, unary_error ho (notFn_error ht) _⟩
  · exact takesClass_of_error rfl hr ⟨tagExc, rfl, unary_error ho (negFn_error ht) _⟩

/-- Settles O9: the flags of a comparison, and the word and flags of NOT, NEG and TST, by the tag of the operand. That CMP
of words that are not INT sets the flags of the subtraction of their bits is log entry 23 (DEDUCED). -/
theorem compareAndOneOperand : Obligations.CompareAndOneOperand := by
  refine ⟨fun s x c b v w => ⟨fun ho htag ht hr => ?_, fun ho => ⟨fun hv => ⟨fun hr => ?_, fun hr => ?_⟩,
    fun hv hr => ?_, fun hr => ?_⟩⟩, operandsRefused⟩
  · exact completes_of_ok rfl hr (compare2_ok ho rfl fun l => by rw [opCmp_some htag ht]; rfl)
  · exact completes_of_ok rfl hr (unary_ok (r := intFlags c.r _ _ _) ho rfl (fun l => notFn_int hv _) _)
  · exact completes_of_ok rfl hr (unary_ok (r := intFlags c.r _ _ _) ho rfl (fun l => negFn_int hv _) _)
  · exact completes_of_ok rfl hr (unary_ok ho rfl (fun l => notFn_raw hv _) _)
  · exact completes_of_ok rfl hr (tstFn_ok ho _)

end Sys2Proof.Machine
end

section
/-! SUPPORT. The syllables that move words (R239, R242, R246): what each puts where, and the limits of the stacks. -/

open Sys2Proof.Say

namespace Sys2Proof.Machine

variable {s : State} {x : Syl} {c : Ctx} {b : Bundle} {u v w : TWord} {l : List TWord}

/-! ## The data stack -/

theorem hasRoom_stack (hacc : c.acc = false) (h : HasRoom c c.r 1) : 8 * (c.r.ds.items.length + 1) ≤ c.r.ds.size := h hacc

/-- Words pushed one after the other onto a stack with room for them (R239). -/
theorem pushAll_ok (r : CpuRegs) (ws l : List TWord) (h : 8 * (l.length + ws.length) ≤ r.ds.size) :
    (withDs r l).pushAll ws = .ok (withDs r (ws.reverse ++ l)) := by
  induction ws generalizing l with
  | nil => rfl
  | cons w ws ih =>
    simp only [List.length_cons] at h
    have hpush : (withDs r l).push w = .ok (withDs r (w :: l)) := CpuRegs.push_ok (by simp only [withDs]; omega)
    have hrest := ih (w :: l) (by simp only [List.length_cons]; omega)
    simp [CpuRegs.pushAll, hpush, hrest, bind, Except.bind]

/-- The top words that a syllable rearranges. -/
theorem popN_ok {r : CpuRegs} {ws : List TWord} (h : r.ds.items = ws ++ l) :
    r.popN ws.length = .ok (ws.reverse, withDs r l) := by
  simp [CpuRegs.popN, h, withDs]

/-- A syllable that rearranges the top `n` words puts what its function makes of them, the lowest first, in their place. -/
theorem shuffle_ok {n : Nat} {f : List TWord → List TWord} {ws : List TWord} (hx : x.operand = 0)
    (h : c.r.ds.items = ws ++ l) (hn : ws.length = n) (hroom : 8 * (l.length + (f ws.reverse).length) ≤ c.r.ds.size)
    (s : State) (k : Nat) : shuffle n f s k c x = .ok (Holding c ((f ws.reverse).reverse ++ l)) := by
  subst hn
  simp [shuffle, hx, popN_ok h, pushAll_ok _ _ _ hroom, Holding, bind, Except.bind]

/-- The data stack cannot take another word, or has none to give: STACK_LIMIT at the base of its area (R239). -/
theorem push_error {r : CpuRegs} (h : r.ds.size < 8 * (r.ds.items.length + 1)) : r.push w = .error (dsLimit r) := by
  simp [CpuRegs.push, Stk.room, h]

theorem pop_error {r : CpuRegs} (h : r.ds.items = []) : r.pop = .error (dsLimit r) := by
  simp [CpuRegs.pop, h]

theorem pushAll_error (r : CpuRegs) (ws l : List TWord) (h : r.ds.size < 8 * (l.length + ws.length)) (hne : ws ≠ []) :
    (withDs r l).pushAll ws = .error (dsLimit r) := by
  induction ws generalizing l with
  | nil => exact absurd rfl hne
  | cons w ws ih =>
    simp only [List.length_cons] at h
    by_cases hfull : r.ds.size < 8 * (l.length + 1)
    · have hpush : (withDs r l).push w = .error (dsLimit r) := push_error hfull
      simp [CpuRegs.pushAll, hpush, bind, Except.bind]
    · have hpush : (withDs r l).push w = .ok (withDs r (w :: l)) := CpuRegs.push_ok (Nat.not_lt.1 hfull)
      have hrest : (withDs r (w :: l)).pushAll ws = .error (dsLimit r) := by
        refine ih (w :: l) (by simp only [List.length_cons]; omega) ?_
        rintro rfl
        simp only [List.length_nil] at h
        omega
      simp [CpuRegs.pushAll, hpush, hrest, bind, Except.bind]

theorem shuffle_empty {n : Nat} (f : List TWord → List TWord) (hx : x.operand = 0) (h : c.r.ds.items = []) (hn : 0 < n)
    (s : State) (k : Nat) : shuffle n f s k c x = .error (dsLimit c.r) := by
  simp [shuffle, hx, CpuRegs.popN, h, hn, bind, Except.bind]

theorem shuffle_full {n : Nat} {f : List TWord → List TWord} {ws : List TWord} (hx : x.operand = 0)
    (h : c.r.ds.items = ws ++ l) (hn : ws.length = n) (hfull : c.r.ds.size < 8 * (l.length + (f ws.reverse).length))
    (hne : f ws.reverse ≠ []) (s : State) (k : Nat) : shuffle n f s k c x = .error (dsLimit c.r) := by
  subst hn
  simp [shuffle, hx, popN_ok h, pushAll_error _ _ _ hfull hne, bind, Except.bind]

/-- A stack-model operation of two operands needs them. -/
theorem binary_empty (f : Bin) (hx : x.operand = 0) (hacc : c.acc = false) (h : c.r.ds.items = []) (s : State) (k : Nat) :
    binary f s k c x = .error (dsLimit c.r) := by
  simp [binary, hacc, hx, pop_error h, bind, Except.bind]

/-! ## The return stack -/

/-- The registers with other entries on the return stack. -/
def withRs (r : CpuRegs) (l : List TWord) : CpuRegs := { r with rs := { r.rs with items := l } }

theorem rpushFn_ok (hx : x.operand = 0) (hl : c.r.ds.items = u :: l)
    (hroom : 8 * (c.r.rs.items.length + 1) ≤ c.r.rs.size) (s : State) (k : Nat) :
    rpushFn s k c x = .ok { c with r := withRs (withDs c.r l) (u :: c.r.rs.items) } := by
  have hpop : c.r.pop = .ok (u, withDs c.r l) := CpuRegs.pop_ok hl
  have hput : (withDs c.r l).rput u = .ok (withRs (withDs c.r l) (u :: c.r.rs.items)) :=
    if_pos (decide_eq_true hroom)
  simp [rpushFn, hx, hpop, hput, bind, Except.bind]

theorem rpushFn_full (hx : x.operand = 0) (hl : c.r.ds.items = u :: l)
    (hfull : c.r.rs.size < 8 * (c.r.rs.items.length + 1)) (s : State) (k : Nat) :
    rpushFn s k c x = .error (rsLimit c.r) := by
  have hpop : c.r.pop = .ok (u, withDs c.r l) := CpuRegs.pop_ok hl
  have hput : (withDs c.r l).rput u = .error (rsLimit c.r) := 
    if_neg (by rw [Stk.room, decide_eq_true_eq]; exact not_le.2 hfull)
  simp [rpushFn, hx, hpop, hput, bind, Except.bind]

theorem rpopFn_ok (hx : x.operand = 0) (hl : c.r.rs.items = u :: l) (hu : u.tag ≠ Tag.ret)
    (hroom : 8 * (c.r.ds.items.length + 1) ≤ c.r.ds.size) (s : State) (k : Nat) :
    rpopFn s k c x = .ok { c with r := withRs (withDs c.r (u :: c.r.ds.items)) l } := by
  have hpush : (withRs c.r l).push u = .ok (withDs (withRs c.r l) (u :: c.r.ds.items)) := CpuRegs.push_ok hroom
  rw [rpopFn, if_neg (not_not.2 hx), rtop_ok hl, rdrop_eq hl]
  refine (if_neg hu).trans ?_
  change (do let r ← (withRs c.r l).push u; .ok { c with r := r }) = _
  rw [hpush]
  rfl

theorem rpopFn_ret (hx : x.operand = 0) (hl : c.r.rs.items = u :: l) (hu : u.tag = Tag.ret) (s : State) (k : Nat) :
    rpopFn s k c x = .error tagExc := by
  rw [rpopFn, if_neg (not_not.2 hx), rtop_ok hl]
  exact if_pos hu

theorem rpopFn_empty (hx : x.operand = 0) (hl : c.r.rs.items = []) (s : State) (k : Nat) :
    rpopFn s k c x = .error (rsLimit c.r) := by
  simp [rpopFn, hx, CpuRegs.rtop, hl, bind, Except.bind]

theorem rcopyFn_ok (hx : x.operand = 0) (hl : c.r.rs.items = u :: l) (hu : u.tag ≠ Tag.ret)
    (hroom : 8 * (c.r.ds.items.length + 1) ≤ c.r.ds.size) (s : State) (k : Nat) :
    rcopyFn s k c x = .ok (Holding c (u :: c.r.ds.items)) := by
  have hpush : c.r.push u = .ok (withDs c.r (u :: c.r.ds.items)) := CpuRegs.push_ok hroom
  rw [rcopyFn, if_neg (not_not.2 hx), rtop_ok hl]
  refine (if_neg hu).trans ?_
  rw [hpush]
  rfl

theorem rcopyFn_ret (hx : x.operand = 0) (hl : c.r.rs.items = u :: l) (hu : u.tag = Tag.ret) (s : State) (k : Nat) :
    rcopyFn s k c x = .error tagExc := by
  rw [rcopyFn, if_neg (not_not.2 hx), rtop_ok hl]
  exact if_pos hu

/-! ## The index registers -/

theorem taxFn_ok (set : CpuRegs → TWord → CpuRegs) (hx : x.operand = 0) (h : c.r.acc.tag = Tag.ptr) (s : State) (k : Nat) :
    taxFn set s k c x = .ok { c with r := set c.r c.r.acc } := by
  simp [taxFn, toIndex, hx, h]

theorem taxFn_error (set : CpuRegs → TWord → CpuRegs) (hx : x.operand = 0) (h : c.r.acc.tag ≠ Tag.ptr) (s : State)
    (k : Nat) : taxFn set s k c x = .error { cls := Cls.tagCheck, faddr := 0 } := by
  rw [taxFn, if_neg (not_not.2 hx)]
  exact if_neg h

theorem txaFn_ok (get : CpuRegs → TWord) (hx : x.operand = 0) (s : State) (k : Nat) :
    txaFn get s k c x = .ok { c with r := { c.r with acc := get c.r } } := by
  simp [txaFn, hx]

theorem leaFn_ok {p : Word64} (h : effAddr c x = some p) (s : State) (k : Nat) :
    leaFn s k c x = .ok { c with r := { c.r with acc := ptrW p } } := by
  simp [leaFn, h]

theorem effAddr_literal (h : amode x = 3) : effAddr c x = none := by
  simp [effAddr, h]

theorem leaFn_error (h : amode x = 3) (s : State) (k : Nat) : leaFn s k c x = .error (illAt c) := by
  simp [leaFn, effAddr_literal h]

/-! ## The obligation -/

theorem litFn_ok (h : HasRoom c c.r 1) (hm : c.acc = true → amode x = 3) (s : State) (k : Nat) :
    litFn s k c x = .ok (Delivered c c.r (intW (BitVec.ofInt 64 (if c.acc then disp x else imm x)))) := by
  rw [litFn, immOnly_ok hm]
  exact deliver_ok h

theorem stackLimits : Say.StackLimits := by
  intro s x c b hx hacc
  refine ⟨fun hl => ⟨fun hr => ?_, fun hr => ?_⟩, fun u l hl hfull hr => ?_, fun u l hl hfull hr => ?_, fun hl hr => ?_⟩
  · exact takes_of_error rfl hr (shuffle_empty _ hx hl Nat.one_pos _ _)
  · exact takes_of_error rfl hr (binary_empty _ hx hacc hl _ _)
  · exact takes_of_error rfl hr (shuffle_full (ws := [u]) hx hl rfl (by simpa using hfull) (by simp) _ _)
  · exact takes_of_error rfl hr (rpushFn_full hx hl hfull _ _)
  · exact takes_of_error rfl hr (rpopFn_empty hx hl _ _)

theorem movesRefused : Say.MovesRefused := by
  intro s x c b
  refine ⟨fun u l hx hacc hl hroom hu => ⟨fun hr => ?_, fun hr => ?_⟩, fun hx h => ⟨fun hr => ?_, fun hr => ?_⟩,
    fun hm hr => ?_⟩
  · exact takesClass_of_error rfl hr ⟨tagExc, rfl, rpopFn_ret hx hl hu _ _⟩
  · exact takesClass_of_error rfl hr ⟨tagExc, rfl, rcopyFn_ret hx hl hu _ _⟩
  · exact takesClass_of_error rfl hr ⟨_, rfl, taxFn_error setX0 hx h _ _⟩
  · exact takesClass_of_error rfl hr ⟨_, rfl, taxFn_error setX1 hx h _ _⟩
  · exact takesClass_of_error rfl hr ⟨illAt c, rfl, leaFn_error hm _ _⟩

/-- Settles O10: each syllable's function gives the context with the words moved, or its refusal. -/
theorem movesAndStacks : Obligations.MovesAndStacks := by
  refine ⟨fun s x c b => ⟨fun hx hr => ?_, fun hroom hm hr => ?_, fun hx hacc hfit u v w l => ⟨fun hl => ⟨fun hr => ?_,
    fun hroom hr => ?_, fun hroom hr => ?_⟩, fun hl => ⟨fun hr => ?_, fun hr => ?_, fun hroom hr => ?_⟩, fun hl hr => ?_,
    fun hl hroom hu => ⟨fun hr => ?_, fun hr => ?_⟩⟩, fun hx => ⟨fun h => ⟨fun hr => ?_, fun hr => ?_⟩, fun hr => ?_,
    fun hr => ?_⟩, fun hm hr => ?_, fun hm hr => ?_, fun hm hr => ?_⟩, stackLimits, movesRefused⟩
  · exact completes_of_ok rfl hr (if_neg (not_not.2 hx))
  · exact completes_of_ok rfl hr (litFn_ok hroom hm _ _)
  · rw [hl] at hfit
    exact completes_of_ok rfl hr (shuffle_ok (ws := [u]) hx hl rfl (by simp at hfit ⊢; omega) _ _)
  · have := hasRoom_stack hacc hroom
    rw [hl] at this
    exact completes_of_ok rfl hr (shuffle_ok (ws := [u]) hx hl rfl (by simpa [add_assoc] using this) _ _)
  · exact completes_of_ok rfl hr (rpushFn_ok hx hl hroom _ _)
  · rw [hl] at hfit
    exact completes_of_ok rfl hr (shuffle_ok (ws := [v, u]) hx hl rfl (by simpa using hfit) _ _)
  · rw [hl] at hfit
    exact completes_of_ok rfl hr (shuffle_ok (ws := [v, u]) hx hl rfl (by simp at hfit ⊢; omega) _ _)
  · have := hasRoom_stack hacc hroom
    rw [hl] at this
    exact completes_of_ok rfl hr (shuffle_ok (ws := [v, u]) hx hl rfl (by simpa [add_assoc] using this) _ _)
  · rw [hl] at hfit
    exact completes_of_ok rfl hr (shuffle_ok (ws := [w, v, u]) hx hl rfl (by simpa using hfit) _ _)
  · exact completes_of_ok rfl hr (rpopFn_ok hx hl hu (hasRoom_stack hacc hroom) _ _)
  · exact completes_of_ok rfl hr (rcopyFn_ok hx hl hu (hasRoom_stack hacc hroom) _ _)
  · exact completes_of_ok rfl hr (taxFn_ok setX0 hx h _ _)
  · exact completes_of_ok rfl hr (taxFn_ok setX1 hx h _ _)
  · exact completes_of_ok rfl hr (txaFn_ok (·.x0) hx _ _)
  · exact completes_of_ok rfl hr (txaFn_ok (·.x1) hx _ _)
  · exact completes_of_ok rfl hr (leaFn_ok (by simp [effAddr, hm]) _ _)
  · exact completes_of_ok rfl hr (leaFn_ok (by simp [effAddr, hm]) _ _)
  · exact completes_of_ok rfl hr (leaFn_ok (by simp [effAddr, hm]) _ _)

end Sys2Proof.Machine
end

section
/-! SUPPORT. Accesses to memory (R218-R221, R273-R278, R329-R332): what decides an access, what loads and stores deliver and
write, and the syllables of unit M. -/

open Sys2Proof.Say

namespace Sys2Proof.Machine

variable {s : State} {x : Syl} {c : Ctx} {b : Bundle} {p : Word64} {r : CpuRegs} {w : TWord} {a n i : Nat}
  {level : Fin 3} {rt : Right}

/-! ## The checks of an access -/

theorem addrOf_ok (h : p.toNat < 2 ^ 40) : addrOf p = .ok p.toNat := if_pos h

theorem addrOf_error (h : 2 ^ 40 ≤ p.toNat) : addrOf p = .error { cls := Cls.mpu, detail := 6, faddr := p.toNat } :=
  if_neg (Nat.not_lt.2 h)

/-- What is checked of an address below 2^40 (R332). -/
theorem accessCheck_eq (h : p.toNat < 2 ^ 40) :
    accessCheck s i level p n rt =
      if rangeOf p.toNat = some 5 ∧ (n ≠ 4 ∨ p.toNat % 4 ≠ 0) then
        .error { cls := Cls.mpu, detail := 8, faddr := p.toNat }
      else if p.toNat % n ≠ 0 then .error { cls := Cls.mpu, detail := 2, faddr := p.toNat }
      else match byteDenied s i level p.toNat rt with
        | some d => .error { cls := Cls.mpu, detail := d, faddr := p.toNat }
        | none => .ok p.toNat := by
  rw [accessCheck, addrOf_ok h]
  rfl

/-- An access of `n` bytes that passes is at a multiple of `n`. -/
theorem accessCheck_aligned (h : accessCheck s i level p n rt = .ok a) : a % n = 0 := by
  by_cases hp : p.toNat < 2 ^ 40
  · rw [accessCheck_eq hp] at h
    split at h
    · cases h
    · split at h
      · cases h
      · next hn =>
        split at h
        · cases h
        · cases h
          exact not_not.1 hn
  · rw [accessCheck, addrOf_error (Nat.not_lt.1 hp)] at h
    cases h

theorem accessChecksInOrder : Say.AccessChecksInOrder := by
  intro s i level p n rt
  refine ⟨fun h => ?_, fun h => ⟨fun h8 => ?_, fun h8 => ⟨fun h2 => ?_, fun h2 => ⟨fun d hd => ?_, fun hd => ?_⟩⟩⟩⟩
  · rw [accessCheck, addrOf_error h]
    rfl
  · rw [accessCheck_eq h, if_pos h8]
  · rw [accessCheck_eq h, if_neg h8, if_pos h2]
  · rw [accessCheck_eq h, if_neg h8, if_neg (not_not.2 h2), hd]
  · rw [accessCheck_eq h, if_neg h8, if_neg (not_not.2 h2), hd]

/-! ## The deciding region -/

/-- A region that is on and holds the byte. -/
def regionHolds (a : Nat) (r : Word32 × Word32) : Bool := rgnEn r && decide (rgnBase r ≤ a ∧ a < rgnBase r + rgnSize r)

theorem deciding_eq (m : MpuSet) (a : Nat) :
    deciding m a = ((List.range 16).reverse.map m.region).find? (regionHolds a) := rfl

theorem regionHolds_eq_false {q : Word32 × Word32}
    (h : rgnEn q = false ∨ a < rgnBase q ∨ rgnBase q + rgnSize q ≤ a) : regionHolds a q = false := by
  rcases h with h | h | h
  · simp [regionHolds, h]
  · simp [regionHolds, Nat.not_le.2 h]
  · simp [regionHolds, Nat.not_lt.2 h]

/-- Searched from above, the first of the numbers below `k` that passes a test is the highest one. -/
theorem find?_reverse_range {f : Nat → Bool} {k n : Nat} (hn : n < k) (hf : f n = true)
    (hup : ∀ j, n < j → j < k → f j = false) : (List.range k).reverse.find? f = some n := by
  induction k with
  | zero => exact absurd hn (Nat.not_lt_zero n)
  | succ k ih =>
    rw [List.range_succ, List.reverse_append, List.reverse_singleton, List.singleton_append, List.find?_cons]
    rcases Nat.lt_succ_iff_lt_or_eq.1 hn with h | rfl
    · rw [hup k h (Nat.lt_succ_self k)]
      exact ih h fun j hj hk => hup j hj (Nat.lt_succ_of_lt hk)
    · rw [hf]

theorem deciding_some (m : MpuSet) (hn : n < 16) (h : regionHolds a (m.region n) = true)
    (hup : ∀ j, n < j → j < 16 → regionHolds a (m.region j) = false) : deciding m a = some (m.region n) := by
  rw [deciding_eq, List.find?_map, find?_reverse_range (f := regionHolds a ∘ m.region) hn h hup]
  rfl

theorem deciding_none (m : MpuSet) (h : ∀ j, j < 16 → regionHolds a (m.region j) = false) : deciding m a = none := by
  rw [deciding_eq, List.find?_eq_none]
  intro q hq
  obtain ⟨j, hj, rfl⟩ := List.mem_map.1 hq
  rw [h j (by simpa using hj)]
  exact Bool.false_ne_true

theorem level_eq_two_iff (level : Fin 3) : level = 2 ↔ level.val = 2 := by
  rw [Fin.ext_iff]
  rfl

theorem level_eq_zero_iff (level : Fin 3) : level = 0 ↔ level.val = 0 := by
  rw [Fin.ext_iff]
  rfl

theorem setFor_eq (s : State) (i : Nat) (level : Fin 3) : setFor s i level = s.mpuSet (if level.val = 2 then 0 else i) := by
  simp only [setFor, level_eq_two_iff]

/-- A byte of a range that the level reaches is decided by its region, or by the default (R329, R330). -/
theorem byteDenied_eq {rng : Nat} (hr : rangeOf a = some rng) (hp : rangePermits rng level rt = true) :
    byteDenied s i level a rt =
      match deciding (setFor s i level) a with
      | some q => if rgnMin q ≤ level.val ∧ grants (rgnRights q) rt then none else some 4
      | none =>
        if level = 0 then some 3
        else if grants (fld (setFor s i level).dmap.toNat (3 * rng) 3) rt then none else some 5 := by
  simp only [byteDenied, hr, hp, not_true_eq_false, if_false] <;> rfl

theorem regionsDecideAnAccess : Say.RegionsDecideAnAccess := by
  intro s i level a rng rt hr hp m
  have hm : setFor s i level = m := setFor_eq s i level
  refine ⟨fun n hn hen hlo hhi hup => ?_, fun hno => ?_⟩
  · have hn' : regionHolds a (m.region n) = true := by simp [regionHolds, hen, hlo, hhi]
    rw [byteDenied_eq hr hp, hm, deciding_some m hn hn' fun j hj hk => regionHolds_eq_false (hup j hj hk)]
  · rw [byteDenied_eq hr hp, hm, deciding_none m fun j hj => regionHolds_eq_false (hno j hj)]
    simp only [level_eq_zero_iff]

/-- Settles O11: the checks are made in the order of R332, and the byte's region is the first that a search from the
highest number finds. -/
theorem accessChecks : Obligations.AccessChecks := ⟨accessChecksInOrder, regionsDecideAnAccess⟩

/-! ## What a load delivers -/

theorem unitFault_none_of_good (h : s.isBad a = false) : unitFault s a .none = none := by
  simp [unitFault, h]

theorem fetchWord_bad (h : s.isBad a = true) (up : Upset) :
    fetchWord s a up = .error { cls := Cls.poison, faddr := a / 8 * 8, unitHit := some (a, loadLoc a) } := by
  simp [fetchWord, unitFault, h]

theorem fetchWord_good (h : s.isBad a = false) :
    fetchWord s a .none = if (s.rdWord (a / 8 * 8)).tag = Tag.poison then .error { cls := Cls.poison, faddr := a / 8 * 8 }
      else .ok (s.rdWord (a / 8 * 8)) := by
  simp only [fetchWord, unitFault_none_of_good h]

/-- The word as a full-word load delivers it (R218, R226). -/
def loaded (s : State) (i : Nat) (level : Fin 3) (a : Nat) (w : TWord) : TWord :=
  if w.tag = Tag.ret ∨ (w.tag = Tag.code ∧ inX s i level a = true) then rawW w.data else w

/-- A load that passes its checks, of a bank that is not busy, whose word no engine writes. -/
theorem loadWord_eq {up : Upset} {lds : Bool} (hc : accessCheck s i level p 8 .r = .ok a) (hb : busyWord s a = none)
    (hd : destOpen s i a = false) :
    loadWord s i level p up lds = (fetchWord s a up).map (loaded s i level a) := by
  have hif : ∀ w : TWord, (if w.tag = Tag.ret then (.ok (rawW w.data) : Except Exc TWord)
      else if w.tag = Tag.code ∧ inX s i level a = true then .ok (rawW w.data) else .ok w) =
      .ok (loaded s i level a w) := by
    intro w
    unfold loaded
    by_cases hret : w.tag = Tag.ret
    · rw [if_pos hret, if_pos (.inl hret)]
    · by_cases hcode : w.tag = Tag.code ∧ inX s i level a = true
      · rw [if_neg hret, if_pos hcode, if_pos (.inr hcode)]
      · rw [if_neg hret, if_neg hcode, if_neg (not_or.2 ⟨hret, hcode⟩)]
  cases hf : fetchWord s a up with
  | error e => simp [loadWord, hc, hb, hf, bind, Except.bind, Except.map]
  | ok w => simpa [loadWord, hc, hb, hd, hf, bind, Except.bind, Except.map] using hif w

theorem whatAFullWordLoadDelivers : Say.WhatAFullWordLoadDelivers := by
  intro s i level p a lds hc hb hd
  have ha : a / 8 * 8 = a := by
    have := accessCheck_aligned hc
    omega
  refine ⟨fun hbad => ?_, fun hgood => ?_⟩
  · have hload : loadWord s i level p .none lds =
        .error { cls := Cls.poison, faddr := a / 8 * 8, unitHit := some (a, loadLoc a) } := by
      rw [loadWord_eq hc hb hd, fetchWord_bad hbad]
      rfl
    exact ⟨_, hload, rfl, ha, rfl⟩
  · have hload : loadWord s i level p .none lds =
        if (s.rdWord a).tag = Tag.poison then .error { cls := Cls.poison, faddr := a }
        else .ok (loaded s i level a (s.rdWord a)) := by
      rw [loadWord_eq hc hb hd, fetchWord_good hgood, ha]
      split <;> rfl
    refine ⟨fun ht => ?_, fun ht => ?_, fun ht hx => ?_, fun hpoison hret hcode => ?_⟩
    · rw [hload, if_pos ht]
    · rw [hload, if_neg (by rw [ht]; decide), loaded, if_pos (.inl ht)]
    · rw [hload, if_neg (by rw [ht]; decide), loaded, if_pos (.inr ⟨ht, hx⟩)]
    · have : ¬ ((s.rdWord a).tag = Tag.ret ∨ ((s.rdWord a).tag = Tag.code ∧ inX s i level a = true)) := by
        rintro (h | ⟨h, hx⟩)
        · exact hret h
        · rw [hcode h] at hx
          cases hx
      rw [hload, if_neg hpoison, loaded, if_neg this]

theorem partTag_iff {t : Word4} : partTag t = true ↔
    t = Tag.raw ∨ t = Tag.int ∨ t = Tag.dec ∨ t = Tag.time ∨ t = Tag.stat ∨ t = Tag.chk := by
  simp [partTag, or_assoc]

theorem partialLoads : Say.PartialLoads := by
  intro s i cn level p a n hc hr hb hgood hd w hw
  have hf : fetchWord s a .none = .ok w := by rw [fetchWord_good hgood, if_neg hw]
  simp only [← partTag_iff]
  simp [loadPart, hc, hr, hb, hf, hd, fld, bind, Except.bind]

/-! ## What a store writes -/

theorem oldCheck_ok (h : s.isBad a = false) : oldCheck s a .none = .ok () := by
  simp [oldCheck, h]

theorem whatAStoreWrites : Say.WhatAStoreWrites := by
  intro s i level p a n w
  refine ⟨fun hc hgood => ?_, fun hc => ⟨fun hr => ?_, fun hr hgood => ⟨fun ht => ?_, fun ht => ?_⟩⟩⟩
  · rw [storeWord, hc]
    simp only [bind, Except.bind, oldCheck_ok hgood]
  · rw [storePart, hc]
    exact if_pos hr
  · rw [storePart, hc]
    refine (if_neg hr).trans ?_
    simp only [bind, Except.bind, oldCheck_ok hgood]
    exact if_pos ht
  · rw [storePart, hc]
    refine (if_neg hr).trans ?_
    simp only [bind, Except.bind, oldCheck_ok hgood]
    exact if_neg ht

/-! ## The address and the effects of a syllable -/

theorem memAddr_ok (h : Address c x p r) : memAddr c x = .ok (p, r) := by
  unfold Address at h
  split at h
  case isTrue hacc =>
    obtain ⟨hea, rfl⟩ := h
    simp [memAddr, hacc, hea]
  case isFalse hacc =>
    obtain ⟨q, rest, hl, rfl, rfl⟩ := h
    have hpop : c.r.pop = .ok (ptrW q, withDs c.r rest) := CpuRegs.pop_ok hl
    simp [memAddr, hacc, hpop, bind, Except.bind]

@[simp] theorem Ctx.hole_bundle (a : Nat) (c : Ctx) : (c.hole a).bundle = c.bundle := rfl
@[simp] theorem Ctx.hole_acc (a : Nat) (c : Ctx) : (c.hole a).acc = c.acc := rfl

theorem Ctx.holes_keeps {α : Type} (f : Ctx → α) (hf : ∀ c a, f (Ctx.hole a c) = f c) (c : Ctx) (ps : List Pend) :
    f (c.holes ps) = f c := by
  unfold Ctx.holes
  induction ps.filterMap Pend.word generalizing c with
  | nil => rfl
  | cons a l ih => rw [List.foldl_cons, ih, hf]

theorem Ctx.holes_bundle (c : Ctx) (ps : List Pend) : (c.holes ps).bundle = c.bundle :=
  c.holes_keeps Ctx.bundle (fun _ _ => rfl) ps

theorem Ctx.holes_acc (c : Ctx) (ps : List Pend) : (c.holes ps).acc = c.acc :=
  c.holes_keeps Ctx.acc (fun _ _ => rfl) ps

theorem addPend_eq_effects (h : c.bundle = some b) (ps : List Pend) : addPend c ps = Effects c b ps := by
  simp only [addPend, Effects, Ctx.holes_bundle, h, Option.map_some]

/-- A bundle that makes no more effects is as it was. -/
theorem effects_nil (h : c.bundle = some b) : Effects c b [] = c := by
  unfold Effects
  simp only [List.append_nil, Ctx.holes, List.filterMap_nil, List.foldl_nil, ← h]

/-! ## Loads -/

/-- A word goes to ACC, or onto a stack of the registers `r` with room for it. -/
theorem deliver_regs_ok (h : HasRoom c r 1) : deliver c r w = .ok (Delivered c r w) := by
  cases hacc : c.acc with
  | true => simp [deliver, Delivered, hacc]
  | false =>
    have hpush : r.push w = .ok (withDs r (w :: r.ds.items)) := CpuRegs.push_ok (h hacc)
    simp [deliver, Delivered, hacc, hpush, bind, Except.bind]

theorem loadFn_ok {lds keep : Bool} (ha : Address c x p r) (hw : loadWord s (key x / 64) c.r.level p x.upset lds = .ok w)
    (hroom : HasRoom c (if keep then c.r else r) 1) :
    loadFn keep lds s (key x) c x = .ok (Delivered c (if keep then c.r else r) w) := by
  simp only [loadFn, memAddr_ok ha, bind, Except.bind, hw]
  exact deliver_regs_ok hroom

theorem loadPartFn_ok {ps : List Pend} (hb : c.bundle = some b) (ha : Address c x p r)
    (hw : loadPart s (key x / 64) (key x % 64) c.r.level p n x.upset = .ok (w, ps)) (hroom : HasRoom c r 1) :
    loadPartFn n s (key x) c x = .ok (Delivered (Effects c b ps) r w) := by
  simp only [loadPartFn, memAddr_ok ha, bind, Except.bind, hw, addPend_eq_effects hb]
  refine deliver_regs_ok fun h => hroom ?_
  rw [← c.holes_acc ps]
  exact h

theorem loadIndexFn_eq (set : CpuRegs → TWord → CpuRegs) (ha : Address c x p r)
    (hw : loadWord s (key x / 64) c.r.level p x.upset = .ok w) :
    loadIndexFn set s (key x) c x = toIndex set c w p.toNat := by
  simp only [loadIndexFn, memAddr_ok ha, bind, Except.bind, hw]

theorem storePartFn_tag {rest : List TWord} (ha : Address c x p r) (hl : r.ds.items = w :: rest) (hw : ¬ PlainTag w.tag) :
    storePartFn n s (key x) c x = .error tagExc := by
  have hpop : r.pop = .ok (w, withDs r rest) := CpuRegs.pop_ok hl
  simp only [storePartFn, memAddr_ok ha, bind, Except.bind, hpop]
  exact if_neg (by rwa [rawOrInt_iff])

theorem accessesRefused : Say.AccessesRefused := by
  intro s x c b p r w ha
  refine ⟨fun hw ht _ => ⟨fun hr => ?_, fun hr => ?_⟩, fun rest _ hl _ ht => ⟨fun hr => ?_, fun hr => ?_, fun hr => ?_⟩⟩
  · exact takes_of_error rfl hr ((loadIndexFn_eq setX0 ha hw).trans (if_neg ht))
  · exact takes_of_error rfl hr ((loadIndexFn_eq setX1 ha hw).trans (if_neg ht))
  · exact takesClass_of_error rfl hr ⟨tagExc, rfl, storePartFn_tag ha hl ht⟩
  · exact takesClass_of_error rfl hr ⟨tagExc, rfl, storePartFn_tag ha hl ht⟩
  · exact takesClass_of_error rfl hr ⟨tagExc, rfl, storePartFn_tag ha hl ht⟩

/-- Settles O12: each load's function delivers the word that the shared load gives, or its refusal. That a carry fault
found by a load has the location of the memory that holds the word is log entry 17 (DEDUCED). -/
theorem loadsDeliver : Obligations.LoadsDeliver := by
  refine ⟨fun s x c b p r w ha hroom => ⟨fun hw => ⟨fun hr => ?_, fun hr => ?_, fun hkeep hr => ?_, fun ht =>
    ⟨fun hr => ?_, fun hr => ?_⟩⟩, fun hw hr => ?_, fun ps => ⟨fun hw hr => ?_, fun hw hr => ?_, fun hw hr => ?_⟩⟩,
    whatAFullWordLoadDelivers, partialLoads, accessesRefused⟩
  · exact completes_of_ok rfl hr (loadFn_ok (keep := false) ha hw hroom)
  · exact completes_of_ok rfl hr (loadFn_ok (keep := false) ha hw hroom)
  · exact completes_of_ok rfl hr (loadFn_ok (keep := true) ha hw hkeep)
  · exact completes_of_ok rfl hr ((loadIndexFn_eq setX0 ha hw).trans (if_pos ht))
  · exact completes_of_ok rfl hr ((loadIndexFn_eq setX1 ha hw).trans (if_pos ht))
  · exact completes_of_ok rfl hr (loadFn_ok (keep := false) ha hw hroom)
  · exact completes_of_ok rfl hr (loadPartFn_ok (sylReady_bundle hr.next) ha hw hroom)
  · exact completes_of_ok rfl hr (loadPartFn_ok (sylReady_bundle hr.next) ha hw hroom)
  · exact completes_of_ok rfl hr (loadPartFn_ok (sylReady_bundle hr.next) ha hw hroom)

/-! ## Stores -/

section
variable {ps : List Pend} {rest : List TWord}

theorem storeFn_ok (hb : c.bundle = some b) (ha : Address c x p r) (hl : r.ds.items = w :: rest)
    (hs : storeWord s (key x / 64) c.r.level p w x.upset = .ok ps) :
    storeFn false s (key x) c x = .ok (Effects { c with r := withDs r rest } b ps) := by
  have hpop : r.pop = .ok (w, withDs r rest) := CpuRegs.pop_ok hl
  simp only [storeFn, memAddr_ok ha, bind, Except.bind, hpop, hs, Bool.false_eq_true, if_false]
  exact congrArg Except.ok (addPend_eq_effects (by exact hb) _)

theorem storeFn_keep_ok (hb : c.bundle = some b) (ha : Address c x p r) (hl : r.ds.items = w :: rest)
    (hroom : 8 * (rest.length + 1) ≤ r.ds.size) (hs : storeWord s (key x / 64) c.r.level p w x.upset = .ok ps) :
    storeFn true s (key x) c x =
      .ok (Effects { c with r := withDs r (c.r.ds.items.headD (rawW 0) :: rest) } b ps) := by
  have hpop : r.pop = .ok (w, withDs r rest) := CpuRegs.pop_ok hl
  have hpush : (withDs r rest).push (c.r.ds.items.headD (rawW 0)) =
      .ok (withDs r (c.r.ds.items.headD (rawW 0) :: rest)) := CpuRegs.push_ok hroom
  simp only [storeFn, memAddr_ok ha, bind, Except.bind, hpop, hs, if_true, hpush]
  exact congrArg Except.ok (addPend_eq_effects (by exact hb) _)

theorem storePartFn_ok (hb : c.bundle = some b) (ha : Address c x p r) (hl : r.ds.items = w :: rest)
    (hw : PlainTag w.tag) (hs : storePart s (key x / 64) c.r.level p n w x.upset = .ok ps) :
    storePartFn n s (key x) c x = .ok (Effects { c with r := withDs r rest } b ps) := by
  have hpop : r.pop = .ok (w, withDs r rest) := CpuRegs.pop_ok hl
  simp only [storePartFn, memAddr_ok ha, bind, Except.bind, hpop, rawOrInt_iff.2 hw, hs, if_true]
  exact congrArg Except.ok (addPend_eq_effects (by exact hb) _)

theorem storeRegFn_ok (get : CpuRegs → TWord) (hb : c.bundle = some b) (ha : Address c x p r)
    (hs : storeWord s (key x / 64) c.r.level p (get c.r) x.upset = .ok ps) :
    storeRegFn get s (key x) c x = .ok (Effects c b ps) := by
  simp only [storeRegFn, memAddr_ok ha, bind, Except.bind, hs, addPend_eq_effects hb]

end

/-- Settles O13: each store's function adds the effects that the shared store gives to its bundle, which makes them as it
commits. -/
theorem storesWrite : Obligations.StoresWrite := by
  refine ⟨fun s x c b p r ps ha => ⟨fun w rest _ hl hroom => ⟨fun hs => ⟨fun hr => ?_, fun hr => ?_⟩,
    fun ht => ⟨fun hs hr => ?_, fun hs hr => ?_, fun hs hr => ?_⟩⟩, fun hs hr => ?_, fun hs hr => ?_, fun hs hr => ?_⟩,
    whatAStoreWrites⟩
  · exact completes_of_ok rfl hr (storeFn_ok (sylReady_bundle hr.next) ha hl hs)
  · exact completes_of_ok rfl hr (storeFn_keep_ok (sylReady_bundle hr.next) ha hl (by omega) hs)
  · exact completes_of_ok rfl hr (storePartFn_ok (sylReady_bundle hr.next) ha hl ht hs)
  · exact completes_of_ok rfl hr (storePartFn_ok (sylReady_bundle hr.next) ha hl ht hs)
  · exact completes_of_ok rfl hr (storePartFn_ok (sylReady_bundle hr.next) ha hl ht hs)
  · exact completes_of_ok rfl hr (storeRegFn_ok (·.acc) (sylReady_bundle hr.next) ha hs)
  · exact completes_of_ok rfl hr (storeRegFn_ok (·.x0) (sylReady_bundle hr.next) ha hs)
  · exact completes_of_ok rfl hr (storeRegFn_ok (·.x1) (sylReady_bundle hr.next) ha hs)

/-! ## Atomic accesses -/

/-- An address of tagged SRAM or DRAM, where the atomics reach (R278). -/
def TaggedMem (a : Nat) : Prop := rangeOf a = some 1 ∨ rangeOf a = some 6 ∨ rangeOf a = some 7

theorem atomicAddr_ok (hc : accessCheck s i level p 8 rt = .ok a) (hm : TaggedMem a) :
    atomicAddr s i level p rt = .ok a := by
  rw [atomicAddr, hc]
  exact if_pos hm

theorem atomicAddr_outside (hc : accessCheck s i level p 8 rt = .ok a) (hm : ¬ TaggedMem a) :
    atomicAddr s i level p rt = .error { cls := Cls.mpu, detail := 10, faddr := a } := by
  rw [atomicAddr, hc]
  exact if_neg hm

theorem ldrFn_ok (ha : Address c x p r) (hc : accessCheck s (key x / 64) c.r.level p 8 .r = .ok a) (hm : TaggedMem a)
    (hroom : HasRoom c r 1) (hw : loadWord s (key x / 64) c.r.level p x.upset = .ok w) :
    ldrFn s (key x) c x = .ok (Delivered c { r with resv := some (a / 64) } w) := by
  have hdel : deliver c { r with resv := some (a / 64) } w = .ok (Delivered c { r with resv := some (a / 64) } w) :=
    deliver_regs_ok hroom
  simp only [ldrFn, memAddr_ok ha, atomicAddr_ok hc hm, hw, hdel, bind, Except.bind]
  cases hacc : c.acc <;> simp [Delivered, hacc, withDs]

/-- The registers after an STC that stored or did not: what it says, and no reservation (R276). -/
def afterStc (c : Ctx) (r : CpuRegs) (rest : List TWord) (ok : Bool) : CpuRegs :=
  if c.acc then { r with resv := none, z := !ok }
  else withDs { r with resv := none } (intW (if ok then 1 else 0) :: rest)

theorem stcFn_held {rest : List TWord} (hb : c.bundle = some b) (ha : Address c x p r)
    (hc : accessCheck s (key x / 64) c.r.level p 8 .w = .ok a) (hm : TaggedMem a)
    (hwa : c.acc = true → w = c.r.acc ∧ r = c.r)
    (hws : c.acc = false → r.ds.items = w :: rest ∧ 8 * (rest.length + 1) ≤ r.ds.size)
    (hres : c.r.resv = some (a / 64)) (hold : oldCheck s a x.upset = .ok ()) :
    stcFn s (key x) c x = .ok (Effects { c with r := afterStc c r rest true } b
      [.stc a (if inX s (key x / 64) c.r.level a then rawW w.data else w)]) := by
  cases hacc : c.acc with
  | true =>
    obtain ⟨rfl, rfl⟩ := hwa hacc
    simp [stcFn, memAddr_ok ha, hacc, atomicAddr_ok hc hm, hres, hold, bind, Except.bind, afterStc]
    exact addPend_eq_effects (by exact hb) _
  | false =>
    obtain ⟨hl, hroom⟩ := hws hacc
    have hpop : r.pop = .ok (w, withDs r rest) := CpuRegs.pop_ok hl
    have hpush : ∀ v, CpuRegs.push { withDs r rest with resv := none } v = .ok (withDs { r with resv := none } (v :: rest)) :=
      fun v => CpuRegs.push_ok hroom
    simp [stcFn, memAddr_ok ha, hacc, hpop, atomicAddr_ok hc hm, hres, hold, hpush, bind, Except.bind, afterStc]
    exact addPend_eq_effects (by exact hb) _

theorem stcFn_lost {rest : List TWord} (hb : c.bundle = some b) (ha : Address c x p r)
    (hc : accessCheck s (key x / 64) c.r.level p 8 .w = .ok a) (hm : TaggedMem a)
    (hwa : c.acc = true → w = c.r.acc ∧ r = c.r)
    (hws : c.acc = false → r.ds.items = w :: rest ∧ 8 * (rest.length + 1) ≤ r.ds.size)
    (hres : c.r.resv ≠ some (a / 64)) : stcFn s (key x) c x = .ok { c with r := afterStc c r rest false } := by
  have hnil : ∀ d : Ctx, d.bundle = some b → addPend d [] = d := fun d h => (addPend_eq_effects h []).trans (effects_nil h)
  cases hacc : c.acc with
  | true =>
    obtain ⟨rfl, rfl⟩ := hwa hacc
    simp [stcFn, memAddr_ok ha, hacc, atomicAddr_ok hc hm, hres, bind, Except.bind, afterStc]
    exact hnil _ (by exact hb)
  | false =>
    obtain ⟨hl, hroom⟩ := hws hacc
    have hpop : r.pop = .ok (w, withDs r rest) := CpuRegs.pop_ok hl
    have hpush : ∀ v, CpuRegs.push { withDs r rest with resv := none } v = .ok (withDs { r with resv := none } (v :: rest)) :=
      fun v => CpuRegs.push_ok hroom
    simp [stcFn, memAddr_ok ha, hacc, hpop, atomicAddr_ok hc hm, hres, hpush, bind, Except.bind, afterStc]
    exact hnil _ (by exact hb)

theorem tasFn_ok (hb : c.bundle = some b) (ha : Address c x p r)
    (hc : accessCheck s (key x / 64) c.r.level p 8 .rw = .ok a) (hm : TaggedMem a) (hroom : HasRoom c r 1)
    (hf : fetchWord s a x.upset = .ok w) (hw : PlainTag w.tag) :
    tasFn s (key x) c x = .ok (Effects { c with
      r := if c.acc then { r with acc := w, z := w.data == 0 } else withDs r (w :: r.ds.items) } b [.tas a w]) := by
  cases hacc : c.acc with
  | true =>
    simp only [tasFn, memAddr_ok ha, atomicAddr_ok hc hm, hf, rawOrInt_iff.2 hw, hacc, if_true, bind, Except.bind]
    exact congrArg Except.ok (addPend_eq_effects (by exact hb) _)
  | false =>
    have hpush : r.push w = .ok (withDs r (w :: r.ds.items)) := CpuRegs.push_ok (hroom hacc)
    simp only [tasFn, memAddr_ok ha, atomicAddr_ok hc hm, hf, rawOrInt_iff.2 hw, hacc, if_true, Bool.false_eq_true,
      if_false, hpush, bind, Except.bind]
    exact congrArg Except.ok (addPend_eq_effects (by exact hb) _)

theorem regpFn_eq (hn : n < 16) (hacc : c.acc = true → amode x = 3 ∧ fld x.operand.toNat 0 18 = n)
    (hstk : c.acc = false → x.operand.toNat = n) :
    regpFn s (key x) c x =
      let g := (s.mpuSet (if c.r.level.val = 2 then 0 else key x / 64)).region n
      if rgnEn g = true ∧ rgnMin g ≤ c.r.level.val then deliver c c.r (ptrW (BitVec.ofNat 64 (rgnBase g)))
      else .error { cls := Cls.mpu, detail := 9, freeAddr := true } := by
  have hf : (if c.acc then fld x.operand.toNat 0 18 else x.operand.toNat) = n := by
    cases h : c.acc with
    | true => exact (hacc h).2
    | false => exact hstk h
  have hleg : ¬ (16 ≤ n ∨ (c.acc = true ∧ amode x ≠ 3)) := by
    rintro (h | ⟨h, hm⟩)
    · omega
    · exact hm (hacc h).1
  simp only [regpFn, hf, if_neg hleg, setFor_eq]

theorem atomicsRefused : Say.AtomicsRefused := by
  refine ⟨fun s x c b p r a w ha => ⟨fun hc hm hr => ?_, fun hc hm _ hf hw hr => ?_⟩,
    fun s x c b n hn hacc hstk hg hr => ?_⟩
  · refine takes_of_error rfl hr ?_
    simp only [ldrFn, memAddr_ok ha, atomicAddr_outside hc hm, bind, Except.bind]
  · refine takes_of_error rfl hr ?_
    simp only [tasFn, memAddr_ok ha, atomicAddr_ok hc hm, hf, bind, Except.bind]
    exact if_neg (by rwa [rawOrInt_iff])
  · exact takes_of_error rfl hr ((regpFn_eq hn hacc hstk).trans (if_neg hg))

/-- Settles O14: each atomic's function gives its word, its reservation and its effect, or its refusal. -/
theorem atomicsAndOrder : Obligations.AtomicsAndOrder := by
  refine ⟨fun s x c b p r a w ha => ⟨fun hc hm hroom hw hr => ?_, fun hc hm rest hwa hws => ⟨fun hresv hup hgood hr => ?_,
    fun hresv hr => ?_⟩, fun hc hm hroom hf hw hr => ?_⟩,
    fun s x c b => ⟨fun hx hr => ?_, fun n hn hacc hstk hen hmin hroom hr => ?_⟩, atomicsRefused⟩
  · exact completes_of_ok rfl hr (ldrFn_ok ha hc hm hroom hw)
  · have hold : oldCheck (viewOf s b) a x.upset = .ok () := by rw [hup]; exact oldCheck_ok hgood
    exact completes_of_ok rfl hr (stcFn_held (sylReady_bundle hr.next) ha hc hm hwa hws hresv hold)
  · exact completes_of_ok rfl hr (stcFn_lost (sylReady_bundle hr.next) ha hc hm hwa hws hresv)
  · exact completes_of_ok rfl hr (tasFn_ok (sylReady_bundle hr.next) ha hc hm hroom hf hw)
  · exact completes_of_ok rfl hr (if_neg (not_not.2 hx))
  · exact completes_of_ok rfl hr ((regpFn_eq hn hacc hstk).trans ((if_pos ⟨hen, hmin⟩).trans (deliver_ok hroom)))

end Sys2Proof.Machine
end

section
/-! SUPPORT. Branches, loops and the status (R238, R252, R277, R280, R281): where the branches of unit C lead, and what
LOOP, GETCST, SETFL, SETMASK and YIELD leave. -/

open Sys2Proof.Say

namespace Sys2Proof.Machine

variable {s : State} {x : Syl} {c : Ctx} {b : Bundle} {w : TWord} {l : List TWord}

/-! ## Branches -/

/-- A branch leads to its target where its condition holds, and else leaves the context (R281). -/
theorem branchFn_ok {cond : CpuRegs → Bool} (hb : c.bundle = some b) (hm : c.acc = true → amode x = 3) :
    branchFn cond s (key x) c x = .ok (if cond c.r then
      Leads c b (BitVec.ofInt 64 (c.r.pc + 4 * (if c.acc then disp x else imm x))).toNat true else c) := by
  simp only [branchFn, target_ok hm, bind, Except.bind, goTo_eq_leads hb]

/-- BRZ and BRNZ pop the word that they test. -/
theorem branchPopFn_ok {zero : Bool} (hb : c.bundle = some b) (hm : c.acc = true → amode x = 3)
    (hl : c.r.ds.items = w :: l) :
    branchPopFn zero s (key x) c x = .ok (if (w.data == 0) == zero then
      Leads (Holding c l) b (BitVec.ofInt 64 (c.r.pc + 4 * (if c.acc then disp x else imm x))).toNat true
      else Holding c l) := by
  have hpop : c.r.pop = .ok (w, withDs c.r l) := CpuRegs.pop_ok hl
  have hgo : ∀ a, goTo (Holding c l) a true = Leads (Holding c l) b a true := fun a => goTo_eq_leads (by exact hb) true
  simp only [branchPopFn, target_ok hm, bind, Except.bind, hpop, ← hgo]
  rfl

/-! ## LOOP -/

/-- The context whose bundle starts a loop as it commits (R252). -/
def LoopStarts (c : Ctx) (b : Bundle) (x : Syl) (n : Nat) : Ctx :=
  { c with bundle := some { b with newLoop := some (n, x.operand.toNat) } }

theorem withDs_items (r : CpuRegs) : withDs r r.ds.items = r := rfl

theorem operand_loop (hop : x.operand.toNat < 4096) (hlen : c.r.loops.length < 2) :
    ¬ (fld x.operand.toNat 12 8 ≠ 0 ∨ 2 ≤ c.r.loops.length) ∧ fld x.operand.toNat 0 12 = x.operand.toNat := by
  simp only [fld]
  omega

theorem loopFn_ext {e : BitVec 28} (hb : c.bundle = some b) (hop : x.operand.toNat < 4096)
    (hlen : c.r.loops.length < 2) (hx : x.ext = some e) (he : e.toNat < 65536) :
    loopFn s (key x) c x = .ok (LoopStarts c b x e.toNat) := by
  obtain ⟨hform, hf⟩ := operand_loop (x := x) (c := c) hop hlen
  have hlow : fld e.toNat 0 16 = e.toNat := by simp only [fld]; omega
  have hhigh : fld e.toNat 16 12 = 0 := by simp only [fld]; omega
  rw [loopFn, if_neg hform]
  simp only [hx, hf, hlow, hhigh, ne_eq, not_true_eq_false, if_false, bind, Except.bind, hb, Option.map_some, LoopStarts]

theorem loopFn_top {n : Word64} (hb : c.bundle = some b) (hop : x.operand.toNat < 4096)
    (hlen : c.r.loops.length < 2) (hx : x.ext = none) (hn : n.toNat < 65536) (ht : OnTop c (intW n) l) :
    loopFn s (key x) c x = .ok (LoopStarts (Holding c l) b x n.toNat) := by
  obtain ⟨hform, hf⟩ := operand_loop (x := x) (c := c) hop hlen
  have hn' : ¬ 65535 < n.toNat := by omega
  rw [loopFn, if_neg hform]
  cases hacc : c.acc with
  | true =>
    obtain ⟨hw, rfl⟩ : c.r.acc = intW n ∧ l = c.r.ds.items := by simpa [OnTop, hacc] using ht
    simp [hx, hf, hw, hn', hb, bind, Except.bind, LoopStarts, Holding, hacc, withDs_items]
  | false =>
    have hpop : c.r.pop = .ok (intW n, withDs c.r l) := CpuRegs.pop_ok (by simpa [OnTop, hacc] using ht)
    simp [hx, hf, hpop, hn', hb, bind, Except.bind, LoopStarts, Holding, hacc]

/-! ## The status -/

theorem getcstFn_ok (hx : x.operand = 0) (hroom : HasRoom c c.r 1) :
    getcstFn s (key x) c x = .ok (Delivered c c.r (intW (cstWord (key x / 64) c c.r))) :=
  (if_neg (not_not.2 hx)).trans (deliver_ok hroom)

/-- A syllable that sets a part of the status takes the INT of its operand (R280). -/
theorem setCst_ok {set : CpuRegs → Nat → CpuRegs} {n : Word64}
    (hacc : c.acc = true → l = c.r.ds.items ∧ opdVal s (key x / 64) c x = .ok (intW n))
    (hstk : c.acc = false → x.operand = 0 ∧ c.r.ds.items = intW n :: l) :
    setCst set s (key x) c x = .ok { c with r := set (withDs c.r l) n.toNat } := by
  cases h : c.acc with
  | true =>
    obtain ⟨rfl, hw⟩ := hacc h
    simp [setCst, h, hw, bind, Except.bind, withDs]
  | false =>
    obtain ⟨hx, hl⟩ := hstk h
    have hpop : c.r.pop = .ok (intW n, withDs c.r l) := CpuRegs.pop_ok hl
    simp [setCst, h, hx, hpop, bind, Except.bind]

theorem yieldFn_ok (hb : c.bundle = some b) (hx : x.operand = 0) :
    yieldFn s (key x) c x =
      .ok { c with bundle := some { b with yields := true }, r := { c.r with resv := none } } := by
  rw [yieldFn, if_neg (not_not.2 hx), hb]
  rfl

/-- Settles O15: each syllable's function gives where it leads or what it leaves, and a ready syllable goes on with that.
LENGTH of 2048 and more in LOOP, the reservation that YIELD takes, and the MASK that SETMASK leaves in a level-7 handler
are log entries 28, 34 and 35 (DEDUCED). -/
theorem branchesAndLoops : Obligations.BranchesAndLoops := by
  refine fun s x c b => ⟨fun hm => ⟨fun hr => ?_, fun hr => ?_, fun hr => ?_, fun hr => ?_, fun hr => ?_, fun hr => ?_,
    fun hr => ?_, fun hr => ?_, fun w rest hl => ⟨fun hr => ?_, fun hr => ?_⟩⟩,
    fun hop hlen => ⟨fun e hx he hr => ?_, fun hx n l hn ht hr => ?_⟩, fun hx => ⟨fun hroom hr => ?_, fun hr => ?_⟩,
    fun n l hacc hstk => ⟨fun hr => ?_, fun hr => ?_⟩⟩
  · exact completes_of_ok rfl hr (branchFn_ok (sylReady_bundle hr.next) hm)
  · exact completes_of_ok rfl hr (branchFn_ok (sylReady_bundle hr.next) hm)
  · exact completes_of_ok rfl hr (branchFn_ok (sylReady_bundle hr.next) hm)
  · exact completes_of_ok rfl hr (branchFn_ok (sylReady_bundle hr.next) hm)
  · exact completes_of_ok rfl hr (branchFn_ok (sylReady_bundle hr.next) hm)
  · exact completes_of_ok rfl hr (branchFn_ok (sylReady_bundle hr.next) hm)
  · exact completes_of_ok rfl hr (branchFn_ok (sylReady_bundle hr.next) hm)
  · exact completes_of_ok rfl hr (branchFn_ok (sylReady_bundle hr.next) hm)
  · refine completes_of_ok rfl hr ((branchPopFn_ok (sylReady_bundle hr.next) hm hl).trans ?_)
    by_cases h : w.data = 0 <;> simp [h]
  · refine completes_of_ok rfl hr ((branchPopFn_ok (sylReady_bundle hr.next) hm hl).trans ?_)
    by_cases h : w.data = 0 <;> simp [h]
  · exact completes_of_ok rfl hr (loopFn_ext (sylReady_bundle hr.next) hop hlen hx he)
  · exact completes_of_ok rfl hr (loopFn_top (sylReady_bundle hr.next) hop hlen hx hn ht)
  · exact completes_of_ok rfl hr (getcstFn_ok hx hroom)
  · exact completes_of_ok rfl hr (yieldFn_ok (sylReady_bundle hr.next) hx)
  · exact completes_of_ok rfl hr (setCst_ok hacc hstk)
  · refine completes_of_ok rfl hr ((setCst_ok hacc hstk).trans ?_)
    by_cases h : key x = keeperKey ∧ inLevel7 c = true
    · rw [if_pos h, if_pos h]
    · rw [if_neg h, if_neg h]
      rfl

end Sys2Proof.Machine
end

section
/-! SUPPORT. Gates (R309-R314, R327, R328): what GATE enters and what refuses it, and what GRET returns to. -/

open Sys2Proof.Say

namespace Sys2Proof.Machine

variable {s : State} {x : Syl} {unit op : Nat} {mem : Bool} {c : Ctx} {b : Bundle} {w : TWord} {l : List TWord}

/-! ## The context of a ready syllable -/

/-- A bundle is fetched in the model of its context. -/
theorem bundleAt_acc {k : Nat} {up : Upset} (h : bundleAt s k up = .ok (c, b)) : c.acc = (s.ctx k).acc := by
  simp only [bundleAt] at h
  split at h
  · cases h
    rfl
  · split at h
    · cases h
    · split at h
      · cases h
      · cases h
        rfl

theorem sylReady_acc {k : Nat} (h : sylReady s k unit op x mem = .ok (some (c, b))) : c.acc = (s.ctx k).acc := by
  unfold sylReady at h
  split at h
  · cases h
  · next hat =>
    split at h
    · cases h
    · split at h
      · cases h
      · have hat := bundleAt_acc hat
        cases h
        exact hat

/-! ## Words that stack entries leave in memory -/

/-- Effects that are not stores of the program. -/
def NoWords (ps : List Pend) : Prop := ∀ p ∈ ps, p.word = none

theorem noWords_spills (a : Nat) (ws : List TWord) : NoWords (ws.mapIdx fun q w => Pend.spill (a + 8 * q) w) := by
  intro p hp
  obtain ⟨i, hi, rfl⟩ := List.mem_mapIdx.1 hp
  rfl

theorem NoWords.append {ps qs : List Pend} (hp : NoWords ps) (hq : NoWords qs) : NoWords (ps ++ qs) := by
  intro p h
  exact (List.mem_append.1 h).elim (hp p) (hq p)

theorem moveOut_noWords {i keep : Nat} {level : Fin 3} {up : Upset} {k k' : Stk} {ps : List Pend}
    (h : moveOut s i level up keep k = .ok (ps, k')) : NoWords ps := by
  unfold moveOut at h
  simp only at h
  split at h
  · cases h
    simp [NoWords]
  · split at h
    · cases h
    · cases h
    · cases h
      exact noWords_spills _ _

theorem moveStk_noWords {i keep : Nat} {level : Fin 3} {up : Upset} {data : Bool} {k k' : Stk} {ps : List Pend}
    (h : moveStk s i level up keep data k = .ok (ps, k')) : NoWords ps := by
  unfold moveStk at h
  simp only [bind, Except.bind] at h
  split at h
  · cases h
  · exact moveOut_noWords h

theorem moveStacks_noWords {i kd kr : Nat} {acc : Bool} {up : Upset} {r r' : CpuRegs} {ps : List Pend}
    (h : moveStacks s i kd kr acc up r = .ok (ps, r')) : NoWords ps := by
  cases acc with
  | true =>
    simp only [moveStacks, if_true, bind, Except.bind] at h
    split at h
    · cases h
    · next hrs =>
      cases h
      exact moveStk_noWords hrs
  | false =>
    simp only [moveStacks, Bool.false_eq_true, if_false, bind, Except.bind] at h
    split at h
    · cases h
    · next hds =>
      split at h
      · cases h
      · next hrs =>
        cases h
        exact (moveStk_noWords hds).append (moveStk_noWords hrs)

theorem gateArgs_noWords {tbl top : Nat} {lv : Fin 3} {args : List TWord} {up : Upset} {ps : List Pend}
    (h : gateArgs s tbl lv top args up = .ok ps) : NoWords ps := by
  simp only [gateArgs] at h
  split at h
  · cases h
    simp [NoWords]
  · split at h
    · cases h
    · cases h
    · cases h
      exact noWords_spills _ _

/-- Effects without stores of the program leave the stacks. -/
theorem holes_noWords {ps : List Pend} (h : NoWords ps) (c : Ctx) : c.holes ps = c := by
  have : ps.filterMap Pend.word = [] := List.filterMap_eq_nil_iff.2 h
  simp [Ctx.holes, this]

theorem addPend_noWords {ps : List Pend} (hb : c.bundle = some b) (h : NoWords ps) :
    addPend c ps = { c with bundle := some { b with pend := b.pend ++ ps } } := by
  simp only [addPend, holes_noWords h, hb, Option.map_some]

/-! ## GATE -/

theorem addPend_twice {ps qs : List Pend} (hb : c.bundle = some b) (hp : NoWords ps) (hq : NoWords qs) :
    addPend (addPend c ps) qs = { c with bundle := some { b with pend := b.pend ++ ps ++ qs } } := by
  rw [addPend_noWords hb hp, addPend_noWords (b := { b with pend := b.pend ++ ps }) rfl hq]

theorem gateFn_ok {q : GateRun} (hq : q.Holds s x c b) :
    gateFn (viewOf s b) (key x) c x =
      .ok (Leads (q.entered x c) { b with pend := b.pend ++ q.moved ++ q.stored } q.g.entry false) := by
  obtain ⟨hr, ⟨hn, hkeeper⟩, hsound, hread, hformed, hstack, hblock, hmasks, hbufs, hroom, hmoves⟩ := hq
  have hb := sylReady_bundle hr.next
  have hn' : ¬ 256 ≤ x.operand.toNat := Nat.not_le.2 hn
  have hkeeper' : ¬ (c.r.level = 1 ∧ 64 ≤ x.operand.toNat) := fun h => Nat.not_le.2 (hkeeper h.1) h.2
  have hany : ((List.range q.g.argc).any fun j => !maskTag (q.g.masks.getD j 0) (q.args.getD j (rawW 0)).tag) = false := by
    simpa using hmasks
  have hroom' : ¬ shadowFree c.shadow < 4 := Nat.not_lt.2 hroom
  have hmoved : NoWords q.moved := moveStacks_noWords hmoves
  unfold gateFn
  simp only [gateTable] at hsound hread hformed hblock
  cases hacc : c.acc with
  | true =>
    obtain ⟨hargs, hm, hstored⟩ := hblock hacc
    have hstored' : NoWords q.stored := gateArgs_noWords hstored
    unfold GateRun.top GateRun.ds gateLevel gateTable at hstored
    rw [hacc, hm] at hmoves
    simp only [hn', hkeeper', hsound, hread, hformed, hargs, hany, hbufs, hroom', hmoves, hstored, bind, Except.bind,
      if_false, if_true, not_true_eq_false, Bool.false_eq_true, addPend_twice hb hmoved hstored']
    simp only [GateRun.entered, GateRun.ds, GateRun.top, gateLevel, gateTable, hacc, if_true]
    rfl
  | false =>
    obtain ⟨hlen, hargs, hm, hstored⟩ := hstack hacc
    have hpop : c.r.popN q.g.argc = .ok (q.args, q.m) := by
      rw [hargs, hm]
      exact if_neg (Nat.not_lt.2 hlen)
    rw [hacc] at hmoves
    simp only [hn', hkeeper', hsound, hread, hformed, hpop, hany, hbufs, hroom', hmoves, bind, Except.bind,
      if_false, not_true_eq_false, Bool.false_eq_true, addPend_twice hb hmoved (qs := []) (by simp [NoWords])]
    simp only [GateRun.entered, GateRun.ds, gateLevel, gateTable, hacc, hstored, Bool.false_eq_true, if_false]
    rfl

/-- The table that a GATE looks in (R307). -/
theorem exec_gate (hr : sylReady s (key x) unit op x mem = .ok (some (c, b))) :
    exec (.gate x) s = done s (syl s x 3 0x18 c.acc gateFn) := by
  rw [sylReady_acc hr]
  rfl

theorem gateFn_above (hn : x.operand.toNat < 256) (hl : c.r.level = 1) (h : 64 ≤ x.operand.toNat) :
    gateFn s (key x) c x = .error { cls := Cls.gateCheck, detail := 1, faddr := gateAddr s (gateTable x c) x.operand.toNat } := by
  unfold gateFn
  simp only [Nat.not_le.2 hn, if_false, hl, h, and_self, if_true, gateTable]

/-- The gate number is one that its table has (R310). -/
def GateNumber (c : Ctx) (x : Syl) : Prop := x.operand.toNat < 256 ∧ (c.r.level = 1 → x.operand.toNat < 64)

theorem gateFn_noDescriptor (hn : GateNumber c x) (hs : gateFault s (gateTable x c) x.operand.toNat x.side = none)
    (hg : readGate s (gateTable x c) x.operand.toNat = none) :
    gateFn s (key x) c x = .error { cls := Cls.gateCheck, detail := 2, faddr := gateAddr s (gateTable x c) x.operand.toNat } := by
  have hk : ¬ (c.r.level = 1 ∧ 64 ≤ x.operand.toNat) := fun h => Nat.not_le.2 (hn.2 h.1) h.2
  unfold gateFn
  simp only [gateTable] at hs hg
  simp only [Nat.not_le.2 hn.1, if_false, hk, hs, hg, gateTable]

theorem gateFn_illFormed {g : GateDesc} (hn : GateNumber c x)
    (hs : gateFault s (gateTable x c) x.operand.toNat x.side = none)
    (hg : readGate s (gateTable x c) x.operand.toNat = some g) (hw : g.wellFormed (gateTable x c) = false) :
    gateFn s (key x) c x = .error { cls := Cls.gateCheck, detail := 2, faddr := gateAddr s (gateTable x c) x.operand.toNat } := by
  have hk : ¬ (c.r.level = 1 ∧ 64 ≤ x.operand.toNat) := fun h => Nat.not_le.2 (hn.2 h.1) h.2
  unfold gateFn
  simp only [gateTable] at hs hg hw
  simp only [Nat.not_le.2 hn.1, if_false, hk, hs, hg, hw, gateTable, Bool.false_eq_true, not_false_eq_true, if_true]

theorem gateFn_mask {g : GateDesc} (hn : GateNumber c x)
    (hs : gateFault s (gateTable x c) x.operand.toNat x.side = none)
    (hg : readGate s (gateTable x c) x.operand.toNat = some g) (hw : g.wellFormed (gateTable x c) = true)
    (hacc : c.acc = false) (hlen : g.argc ≤ c.r.ds.items.length)
    (hm : ∃ k, k < g.argc ∧
      maskTag (g.masks.getD k 0) ((c.r.ds.items.take g.argc).reverse.getD k (rawW 0)).tag = false) :
    gateFn s (key x) c x = .error { cls := Cls.gateCheck, detail := 3, faddr := gateAddr s (gateTable x c) x.operand.toNat } := by
  have hk : ¬ (c.r.level = 1 ∧ 64 ≤ x.operand.toNat) := fun h => Nat.not_le.2 (hn.2 h.1) h.2
  have hpop : c.r.popN g.argc = .ok ((c.r.ds.items.take g.argc).reverse, withDs c.r (c.r.ds.items.drop g.argc)) :=
    if_neg (Nat.not_lt.2 hlen)
  have hany : ((List.range g.argc).any fun j =>
      !maskTag (g.masks.getD j 0) ((c.r.ds.items.take g.argc).reverse.getD j (rawW 0)).tag) = true := by
    obtain ⟨k, hk, hm⟩ := hm
    exact List.any_eq_true.2 ⟨k, List.mem_range.2 hk, by rw [hm]; rfl⟩
  unfold gateFn
  simp only [gateTable] at hs hg hw
  simp only [Nat.not_le.2 hn.1, if_false, hk, hs, hg, hw, gateTable, Bool.false_eq_true, not_true_eq_false, hacc,
    hpop, hany, if_true, bind, Except.bind]

theorem gateChecks : Say.GateChecks := by
  intro s x c b hr v n tbl hs refused hn
  have refuse : ∀ {d}, gateFn v (key x) c x = .error { cls := Cls.gateCheck, detail := d, faddr := gateAddr v tbl n } →
      refused d := fun h => takes_of_error (exec_gate hr.next) hr h
  refine ⟨fun hl h => ?_, fun hk => ⟨fun hg => ?_, fun g hg => ⟨fun hw => ?_, fun hw hacc hlen hm => ?_⟩⟩⟩
  · exact refuse (gateFn_above hn hl h)
  · exact refuse (gateFn_noDescriptor ⟨hn, hk⟩ hs hg)
  · exact refuse (gateFn_illFormed ⟨hn, hk⟩ hs hg hw)
  · exact refuse (gateFn_mask ⟨hn, hk⟩ hs hg hw hacc hlen hm)

/-- Settles O17: a GATE whose checks pass enters its gate, and each check that fails refuses it. That the gate's data area
shrinks by the arguments that stand in it, and that their write is checked with the gate's rights, are log entries 37
and 118 (DEDUCED). -/
theorem gateCalls : Obligations.GateCalls :=
  ⟨fun _ _ _ _ _ hq => completes_of_ok (exec_gate hq.ready.next) hq.ready (gateFn_ok hq), gateChecks⟩

/-! ## GRET -/

theorem gretFn_ok {d : Ctx} (hb : c.bundle = some b) (hx : x.operand = 0) (h : gretAct s (key x) c x.upset = .ok d) :
    gretFn s (key x) c x = .ok { c with bundle := some { b with ret := true } } := by
  simp [gretFn, hx, h, hb, bind, Except.bind]

theorem gateReturn : Say.GateReturn := by
  intro s k c up ret ds rs level mask x0 x1 w resc rest l hsh hrs
  refine ⟨fun ht hd => ⟨fun hacc hlen hroom => ?_, fun hacc => ?_⟩, fun ht hd => ?_⟩
  · have hpop : c.r.popN resc = .ok ((c.r.ds.items.take resc).reverse, withDs c.r (c.r.ds.items.drop resc)) :=
      if_neg (Nat.not_lt.2 hlen)
    have hpush : CpuRegs.pushAll { c.r with ds := ds, rs := rs, level := level, mask := mask }
        (c.r.ds.items.take resc).reverse = .ok { c.r with
          ds := { ds with items := c.r.ds.items.take resc ++ ds.items }, rs := rs, level := level, mask := mask } :=
      (pushAll_ok { c.r with ds := ds, rs := rs, level := level, mask := mask } _ ds.items
        (by simpa [Nat.min_eq_left hlen] using hroom)).trans (by rw [List.reverse_reverse]; rfl)
    simp only [gretAct, hsh, hrs, ht, hd, hacc, hpop, hpush, and_self, if_true, Bool.false_eq_true, if_false, bind,
      Except.bind]
  · simp only [gretAct, hsh, hrs, ht, hd, hacc, and_self, if_true, bind, Except.bind, CpuRegs.pushAll]
  · simp [gretAct, hsh, hrs, ht, hd]

theorem exceptionReturn : Say.ExceptionReturn := by
  intro s k c up resume level fa saved r rest
  refine ⟨fun hsh => ?_, fun hsh fr hread hclean hrestore => ?_, fun a hsh => ?_, fun hsh hl => ?_⟩
  · simp only [gretAct, hsh, if_true]
  · simp only [gretAct, hsh, Bool.false_eq_true, if_false, hread, hclean, hrestore, bind, Except.bind]
  · simp only [gretAct, hsh]
  · have : ¬ c.r.level = 1 := by rw [hl]; decide
    simp only [gretAct, hsh, this, if_false]

/-- Settles O18: GRET marks its bundle where its return can be made, and the return is that of the entry on the shadow
stack. SHADOW with DETAIL 0 for a RET word that differs at a gate entry is log entry 29 (DEDUCED). -/
theorem gateAndExceptionReturns : Obligations.GateAndExceptionReturns :=
  ⟨fun _ _ _ _ _ hr hx h => completes_of_ok rfl hr (gretFn_ok (sylReady_bundle hr.next) hx h), gateReturn, exceptionReturn⟩

end Sys2Proof.Machine
end

section
/-! SUPPORT. Conversions and digit shifts (R222, R283-R286): what each gives on the words that it takes, and what it
refuses. -/

open Sys2Proof.Say

namespace Sys2Proof.Machine

variable {s : State} {x : Syl} {c : Ctx} {b : Bundle} {v : TWord} {n : Nat}

/-! ## What each conversion gives -/

theorem bin2decFn_ok (r : CpuRegs) (hv : v.tag = Tag.int) (h : v.data.toInt.natAbs < 10 ^ 15) :
    bin2decFn r v = .ok (decW (decMake (decide (v.data.toInt < 0)) v.data.toInt.natAbs), r) := by
  rw [bin2decFn, if_neg (not_not.2 hv), if_neg (Nat.not_le.2 h)]

theorem bin2decFn_error (r : CpuRegs) (hv : v.tag = Tag.int) (h : 10 ^ 15 ≤ v.data.toInt.natAbs) :
    bin2decFn r v = .error decExc := by
  rw [bin2decFn, if_neg (not_not.2 hv), if_pos h]

theorem dec2binFn_ok (r : CpuRegs) (hv : v.tag = Tag.dec) :
    dec2binFn r v = .ok (intW (BitVec.ofInt 64 (decVal v.data)), r) := if_neg (not_not.2 hv)

theorem todecFn_ok (r : CpuRegs) (hv : v.tag = Tag.raw) (h : decValid v.data = true) :
    todecFn r v = .ok (decW (decMake (decNeg v.data) (decMag v.data)), r) := by
  rw [todecFn, if_neg (not_not.2 hv), if_neg (not_not.2 h)]

theorem todecFn_error (r : CpuRegs) (hv : v.tag = Tag.raw) (h : decValid v.data = false) :
    todecFn r v = .error decExc := by
  rw [todecFn, if_neg (not_not.2 hv), if_pos (by rw [h]; exact Bool.false_ne_true)]

theorem tointFn_eq (r : CpuRegs) :
    tointFn r v = if PlainTag v.tag ∨ v.tag = Tag.time then .ok (intW v.data, r) else .error tagExc := by
  simp only [tointFn, PlainTag, or_assoc]

theorem totimeFn_eq (r : CpuRegs) :
    totimeFn r v = if PlainTag v.tag then .ok (timeW v.data, r) else .error tagExc := by
  simp only [totimeFn, rawOrInt_iff]

theorem torawFn_eq (r : CpuRegs) :
    torawFn r v = if v.tag = Tag.poison then .error tagExc else .ok (rawW v.data, r) := rfl

/-- DADJ looks at the nibble carries, not at the stack. -/
theorem opDadj_withDs (r : CpuRegs) (l : List TWord) (d : Word64) :
    opDadj (withDs r l) d = (opDadj r d).map fun p => (p.1, withDs p.2 l) := by
  have hhcv : (withDs r l).hcv = r.hcv := rfl
  simp only [opDadj, hhcv]
  split
  · rfl
  · rfl

theorem opDadj_ds {r r' : CpuRegs} {d : Word64} {u : TWord} (h : opDadj r d = some (u, r')) : r'.ds = r.ds := by
  simp only [opDadj] at h
  split at h
  · cases h
    rfl
  · cases h

theorem dadjFn_ok {r : CpuRegs} {u : TWord} (hv : v.tag = Tag.int) (h : opDadj c.r v.data = some (u, r))
    (l : List TWord) : dadjFn (withDs c.r l) v = .ok (u, withDs r l) := by
  rw [dadjFn, if_neg (not_not.2 hv), opDadj_withDs, h]
  rfl

theorem dadjFn_error (hv : v.tag = Tag.int) (h : opDadj c.r v.data = none) (l : List TWord) :
    dadjFn (withDs c.r l) v = .error decExc := by
  rw [dadjFn, if_neg (not_not.2 hv), opDadj_withDs, h]
  rfl

/-- An operation of one operand that refuses it, whatever the stack beneath. -/
theorem unary_error_withDs {g : Un} {e : Exc} (ho : Operand1 x c v) (hg : ∀ l, g (withDs c.r l) v = .error e)
    (s : State) : unary g s (key x) c x = .error e := by
  cases hacc : c.acc with
  | true =>
    have hc : g c.r v = .error e := hg c.r.ds.items
    simp [unary, hacc, ho.1, operand1_acc ho hacc, hc, bind, Except.bind]
  | false =>
    obtain ⟨rest, hl, -⟩ := operand1_stack ho hacc
    have hpop : c.r.pop = .ok (v, withDs c.r rest) := CpuRegs.pop_ok hl
    simp [unary, hacc, ho.1, hpop, hg, bind, Except.bind]

theorem khandleFn_ok (ho : Operand1 x c v) (hv : v.tag = Tag.int)
    (h : v.data.toNat < 4096 ∧ keySlotIn s (key x / 64) v.data.toNat = true) :
    khandleFn s (key x) c x =
      .ok (Result1 c c.r ⟨Tag.keyh, BitVec.ofNat 64 (key x / 64 * 2 ^ 32 + v.data.toNat)⟩) :=
  unary_ok ho rfl (fun l => by rw [if_neg (not_not.2 hv), if_pos h]) s

theorem khandleFn_error (ho : Operand1 x c v) (hv : v.tag = Tag.int)
    (h : ¬ (v.data.toNat < 4096 ∧ keySlotIn s (key x / 64) v.data.toNat = true)) :
    khandleFn s (key x) c x = .error { cls := Cls.mpu, detail := 7, freeAddr := true } :=
  unary_error ho (fun r => by rw [if_neg (not_not.2 hv), if_neg h]) s

/-! ## Digit shifts and TAGOF -/

/-- A shift of a DEC word by `n` digits gives the word and the flags of the shift (R284). -/
theorem dshFn_ok {left : Bool} (hn : n ≤ 15) (hv : v.tag = Tag.dec)
    (hacc : c.acc = true → amode x = 3 ∧ disp x = n ∧ c.r.acc = v)
    (hstk : c.acc = false → imm x = n ∧ ∃ rest, c.r.ds.items = v :: rest ∧ 8 * (rest.length + 1) ≤ c.r.ds.size) :
    dshFn left s (key x) c x =
      .ok (Result1 c (decShift left c.r v.data n).2 (decShift left c.r v.data n).1) := by
  have himm : immOnly c x = .ok (n : Int) := by
    rw [immOnly_ok fun h => (hacc h).1]
    cases h : c.acc with
    | true => simp [(hacc h).2.1]
    | false => simp [(hstk h).1]
  cases h : c.acc with
  | true =>
    obtain ⟨-, -, rfl⟩ := hacc h
    simp [dshFn, himm, hn, hv, h, Result1, bind, Except.bind]
  | false =>
    obtain ⟨-, rest, hl, hroom⟩ := hstk h
    have hpop : c.r.pop = .ok (v, withDs c.r rest) := CpuRegs.pop_ok hl
    have hpush : CpuRegs.push (decShift left (withDs c.r rest) v.data n).2 (decShift left (withDs c.r rest) v.data n).1 =
        .ok (withDs (decShift left c.r v.data n).2 ((decShift left c.r v.data n).1 :: rest)) := CpuRegs.push_ok hroom
    simp [dshFn, himm, hn, hv, h, hpop, hpush, Result1, hl, bind, Except.bind]

theorem tagofFn_acc (hacc : c.acc = true) (h : opdVal s (key x / 64) c x = .ok v) :
    tagofFn s (key x) c x = .ok { c with r := { c.r with acc := intW (v.tag.setWidth 64) } } := by
  simp [tagofFn, hacc, h, bind, Except.bind]

theorem tagofFn_stack {l : List TWord} (hacc : c.acc = false) (hx : x.operand = 0) (hl : c.r.ds.items = v :: l)
    (hroom : HasRoom c c.r 1) :
    tagofFn s (key x) c x = .ok (Holding c (intW (v.tag.setWidth 64) :: v :: l)) := by
  have hpop : c.r.pop = .ok (v, withDs c.r l) := CpuRegs.pop_ok hl
  have hpush : c.r.push (intW (v.tag.setWidth 64)) = .ok (withDs c.r (intW (v.tag.setWidth 64) :: c.r.ds.items)) :=
    CpuRegs.push_ok (hroom hacc)
  simp [tagofFn, hacc, hx, hpop, hpush, hl, Holding, bind, Except.bind]

/-! ## The obligation -/

theorem conversionsRefused : Say.ConversionsRefused := by
  intro s x c b v ho
  refine ⟨fun hv => ⟨fun h hr => ?_, fun h hr => ?_, fun h hr => ?_⟩, fun hv h hr => ?_, fun h hr => ?_, fun h hr => ?_,
    fun h hr => ?_⟩
  · exact takesClass_of_error rfl hr ⟨decExc, rfl, unary_error ho (fun r => bin2decFn_error r hv h) _⟩
  · exact takesClass_of_error rfl hr ⟨decExc, rfl, unary_error_withDs ho (dadjFn_error hv h) _⟩
  · exact takes_of_error rfl hr (khandleFn_error ho hv h)
  · exact takesClass_of_error rfl hr ⟨decExc, rfl, unary_error ho (fun r => todecFn_error r hv h) _⟩
  · exact takesClass_of_error rfl hr ⟨tagExc, rfl, unary_error ho (fun r => (tointFn_eq r).trans (if_neg h)) _⟩
  · exact takesClass_of_error rfl hr ⟨tagExc, rfl, unary_error ho (fun r => (totimeFn_eq r).trans (if_neg h)) _⟩
  · exact takesClass_of_error rfl hr ⟨tagExc, rfl, unary_error ho (fun r => (torawFn_eq r).trans (if_pos h)) _⟩

/-- Settles O20: each conversion gives its word on the tags that it takes, and a ready syllable delivers it; on the others
it gives its exception. -/
theorem conversions : Obligations.Conversions := by
  refine ⟨fun s x c b v => ⟨fun ho => ⟨fun hv => ⟨fun h hr => ?_, fun u r h hr => ?_, fun h hs hr => ?_⟩, fun hv hr => ?_,
    fun hv h hr => ?_, fun h hr => ?_, fun h hr => ?_, fun h hr => ?_⟩, fun n hn hv hacc hstk => ⟨fun hr => ?_,
    fun hr => ?_⟩, fun hacc h hr => ?_, fun l hacc hx hl hroom hr => ?_⟩, conversionsRefused⟩
  · exact completes_of_ok rfl hr (unary_ok ho rfl (fun l => bin2decFn_ok _ hv h) _)
  · exact completes_of_ok rfl hr (unary_ok ho (opDadj_ds h) (dadjFn_ok hv h) _)
  · exact completes_of_ok rfl hr (khandleFn_ok ho hv ⟨h, hs⟩)
  · exact completes_of_ok rfl hr (unary_ok ho rfl (fun l => dec2binFn_ok _ hv) _)
  · exact completes_of_ok rfl hr (unary_ok ho rfl (fun l => todecFn_ok _ hv h) _)
  · exact completes_of_ok rfl hr (unary_ok ho rfl (fun l => (tointFn_eq _).trans (if_pos h)) _)
  · exact completes_of_ok rfl hr (unary_ok ho rfl (fun l => (totimeFn_eq _).trans (if_pos h)) _)
  · exact completes_of_ok rfl hr (unary_ok ho rfl (fun l => (torawFn_eq _).trans (if_neg h)) _)
  · exact completes_of_ok rfl hr (dshFn_ok (left := false) hn hv hacc hstk)
  · exact completes_of_ok rfl hr (dshFn_ok (left := true) hn hv hacc hstk)
  · exact completes_of_ok rfl hr (tagofFn_acc hacc h)
  · exact completes_of_ok rfl hr (tagofFn_stack hacc hx hl hroom)

end Sys2Proof.Machine
end

section
/-! SUPPORT. Unit X (R259-R264, R287-R302): the issue of a request, and what WAITT and TESTT make of a ticket. -/

open Sys2Proof.Say

namespace Sys2Proof.Machine

variable {s : State} {x : Syl} {unit op code : Nat} {mem : Bool} {c d : Ctx} {b : Bundle} {f : XFn} {i : Instr}
  {g : State → State}

/-! ## A syllable of unit X -/

theorem writeBack_none (h : x.writeBack = none) : writeBack s x = s := by
  simp only [writeBack, h]

theorem runX_ok {st : RegStore} {ld : RegLoaded} (hr : Ready s x unit op mem c b)
    (hf : f (viewOf s b) (key x) c x = .ok (some (d, g))) :
    runX st ld s x unit op mem f = sylEnds st ld s (key x) unit op x d g := by
  unfold runX
  simp only [writeBack_none hr.quiet, hr.runs, not_true_eq_false, if_false, hr.next, hf]

theorem runX_error {st : RegStore} {ld : RegLoaded} {e : Exc} (hr : Ready s x unit op mem c b)
    (hf : f (viewOf s b) (key x) c x = .error e) :
    runX st ld s x unit op mem f = sylFails s (key x) unit op x e := by
  unfold runX
  simp only [writeBack_none hr.quiet, hr.runs, not_true_eq_false, if_false, hr.next, hf]

theorem runX_waits {st : RegStore} {ld : RegLoaded} (hr : Ready s x unit op mem c b)
    (hf : f (viewOf s b) (key x) c x = .ok none) :
    runX st ld s x unit op mem f =
      chargeCore (s.setCtx (key x) { s.ctx (key x) with waiting := some x }) (key x) := by
  unfold runX
  simp only [writeBack_none hr.quiet, hr.runs, not_true_eq_false, if_false, hr.next, hf]

/-- A command meant by a run of unit X whose function gives a context and an issue completes and issues. -/
theorem issues_of_ok (hi : exec i s = done s (runX regStore regLoaded s x unit op mem f))
    (hr : Ready s x unit op mem c b) (hf : f (viewOf s b) (key x) c x = .ok (some (d, g))) : Issues i s x d g := by
  intro hx b₁ d₁ b' e q r hb hm hb' hc hn
  have hget : d₁.bundle.getD b₁ = b' := by rw [hb', Option.getD_some]
  rw [hi, runX_ok hr hf, sylEnds_stop regStore regLoaded g hx hb hm (by rw [hget]; exact hc) (by rw [hget]; exact hn)]

theorem takes_of_runX_error {e : Exc} (hi : exec i s = done s (runX regStore regLoaded s x unit op mem f))
    (hr : Ready s x unit op mem c b) (hf : f (viewOf s b) (key x) c x = .error e) : Takes i s x unit op e := by
  rw [Takes, hi, runX_error hr hf]

/-! ## The issue -/

section
variable {sel t : Nat} {args : List TWord} {blk : Option Nat} {h : HostFetch}

/-- The context of an issue: the ticket word in ACC, or in the place of the arguments (R261). -/
def Ticketed (s : State) (x : Syl) (code t : Nat) (c : Ctx) (b : Bundle) : Ctx :=
  let w := ticketWord (key x / 64) t (((viewOf s b).tk (key x / 64) t).serial + 1)
  { c with r := if c.acc then { c.r with acc := w } else withDs c.r (w :: c.r.ds.items.drop (opShape code).1) }

/-- A request that passes the checks of R288 is issued. -/
theorem issueX_ok (hq : Request s x code c b sel t args blk) :
    issueX code h (viewOf s b) (key x) c x =
      .ok (some (Ticketed s x code t c b, fun u => issueNow u (key x) t code sel args blk c.r.pc h)) := by
  obtain ⟨-, -, hentry, hstack, hblock⟩ := hq
  cases hacc : c.acc with
  | true =>
    obtain ⟨p, w, hp, rfl, hread, hwrite, hwords, rfl, hchecks⟩ := hblock hacc
    simp only [issueX, hacc, if_true, hp, hentry, hread, hwrite, hwords, bind, Except.bind, List.drop_succ_cons,
      List.drop_zero, List.getD_cons_zero, hchecks, Ticketed]
  | false =>
    obtain ⟨hform, rfl, rfl, hlen, rfl, hroom, hchecks⟩ := hstack hacc
    have hpop : c.r.popN (opShape code).1 =
        .ok ((c.r.ds.items.take (opShape code).1).reverse, withDs c.r (c.r.ds.items.drop (opShape code).1)) :=
      if_neg (Nat.not_lt.2 hlen)
    have hpush : ∀ w, (withDs c.r (c.r.ds.items.drop (opShape code).1)).push w =
        .ok (withDs c.r (w :: c.r.ds.items.drop (opShape code).1)) := fun w =>
      CpuRegs.push_ok (r := withDs c.r (c.r.ds.items.drop (opShape code).1)) (by simpa [withDs] using hroom)
    simp only [issueX, hacc, Bool.false_eq_true, if_false, hform, ne_eq, not_true_eq_false, hpop, hentry, hpush, hchecks,
      bind, Except.bind, Ticketed]

theorem issueRow_eq {mine all : List Nat} (hsel : rowSel s x ∈ all → rowSel s x ∈ mine) (ha : s.kpr.standby = 0) :
    issueRow s x code mine all h = runX regStore regLoaded s x 5 code (s.ctx (key x)).acc (issueX code h) := by
  have hmine : ¬ (rowSel s x ∈ all ∧ rowSel s x ∉ mine) := fun hm => hm.2 (hsel hm.1)
  simp only [issueRow, if_neg hmine, ha, ne_eq, not_true_eq_false, if_false]

/-- The syllable of a row issues its request where its SEL is one of the row's, or none of the code's rows'. -/
theorem issuesRequest_of_row {mine all : List Nat} (hi : exec i s = done s (issueRow s x code mine all h))
    (hsel : rowSel s x ∈ all → rowSel s x ∈ mine) : IssuesRequest i s x code h := by
  intro c b sel t args blk hq
  refine issues_of_ok (hi.trans ?_) hq.ready (issueX_ok hq)
  rw [issueRow_eq hsel hq.awake]

/-- A row of one code alone. -/
theorem issuesRequest_of_only (hi : exec i s = done s (issueRow s x code [] [] h)) : IssuesRequest i s x code h :=
  issuesRequest_of_row hi fun hm => absurd hm List.not_mem_nil

/-- A row of a selector. -/
theorem issuesRequest_of_sel {n : Nat} {all : List Nat} (hi : exec i s = done s (issueRow s x code [n] all h))
    (hn : rowSel s x = n) : IssuesRequest i s x code h :=
  issuesRequest_of_row hi fun _ => List.mem_singleton.2 hn

end

/-- Settles O21: each row's syllable is the issue of its code, which is made where the checks of R287 and R288 pass. -/
theorem requestsAreIssued : Obligations.RequestsAreIssued := by
  refine fun s x => ⟨fun h => ?_, ?_, ?_, ?_, ?_, ?_, ?_, ?_, ?_, ?_, ?_, ?_, ?_, ?_, ?_, fun hn => ?_,
    fun hn => ⟨?_, ?_, ?_, ?_⟩, fun hn => ⟨?_, ?_, ?_⟩, fun hn => ⟨?_, ?_, ?_⟩, fun hn => ⟨?_, ?_, ?_⟩, fun hn => ⟨?_, ?_⟩⟩
  · exact issuesRequest_of_only rfl
  · exact issuesRequest_of_only rfl
  · exact issuesRequest_of_only rfl
  · exact issuesRequest_of_only rfl
  · exact issuesRequest_of_only rfl
  · exact issuesRequest_of_only rfl
  · exact issuesRequest_of_only rfl
  · exact issuesRequest_of_only rfl
  · exact issuesRequest_of_only rfl
  · exact issuesRequest_of_only rfl
  · exact issuesRequest_of_only rfl
  · exact issuesRequest_of_only rfl
  · exact issuesRequest_of_only rfl
  · exact issuesRequest_of_only rfl
  · exact issuesRequest_of_only rfl
  · exact issuesRequest_of_sel rfl hn
  · exact issuesRequest_of_sel rfl hn
  · exact issuesRequest_of_sel rfl hn
  · exact issuesRequest_of_sel rfl hn
  · exact issuesRequest_of_sel rfl hn
  · exact issuesRequest_of_sel rfl hn
  · exact issuesRequest_of_sel rfl hn
  · exact issuesRequest_of_sel rfl hn
  · exact issuesRequest_of_sel rfl hn
  · exact issuesRequest_of_sel rfl hn
  · exact issuesRequest_of_sel rfl hn
  · exact issuesRequest_of_sel rfl hn
  · exact issuesRequest_of_sel rfl hn
  · exact issuesRequest_of_sel rfl hn
  · exact issuesRequest_of_sel rfl hn
  · exact issuesRequest_of_sel rfl hn

/-! ## Ticket words -/

section
variable {n j t : Nat}

theorem ticketWord_toNat (hj : j < 64) (ht : t < 256) (v : BitVec 24) :
    (ticketWord j t v).data.toNat = 2 ^ 60 + t * 2 ^ 52 + j * 2 ^ 46 + v.toNat * 2 ^ 16 := by
  have hv := v.isLt
  simp only [ticketWord, statW, BitVec.toNat_ofNat]
  omega

/-- The fields of a ticket's word (R261). -/
theorem ticketWord_fields (hj : j < 64) (ht : t < 256) (v : BitVec 24) :
    fld (ticketWord j t v).data.toNat 60 4 = 1 ∧ fld (ticketWord j t v).data.toNat 52 8 = t ∧
      fld (ticketWord j t v).data.toNat 46 6 = j ∧ fld (ticketWord j t v).data.toNat 16 24 = v.toNat := by
  have hv := v.isLt
  rw [ticketWord_toNat hj ht]
  simp only [fld]
  omega

theorem ticketOf_ticketWord (hj : j < 64) (ht : t < 256) (s : State) (v : BitVec 24) :
    ticketOf s n (ticketWord j t v) =
      if j ≠ n ∨ ¬ (s.tk n t).used ∨ (s.tk n t).serial.toNat ≠ v.toNat then .error { cls := Cls.deviceSync }
      else .ok (t, s.tk n t) := by
  obtain ⟨hkind, hentry, hinst, hserial⟩ := ticketWord_fields hj ht v
  have htag : ¬ ((ticketWord j t v).tag ≠ Tag.stat ∨ fld (ticketWord j t v).data.toNat 60 4 ≠ 1) := by
    rintro (h | h)
    · exact h rfl
    · exact h hkind
  simp only [ticketOf, if_neg htag, hentry, hinst, hserial]

end

/-- A word of another tag names no ticket. That a STAT word of another kind takes TAG_CHECK too is log entry 40. -/
theorem ticketOf_tag {n : Nat} {w : TWord} (h : w.tag ≠ Tag.stat) : ticketOf s n w = .error tagExc := if_pos (.inl h)

theorem ticketWords : Say.TicketWords := by
  intro s i t hi ht
  refine ⟨fun hu => ?_, fun hu n => ?_, fun n hn => ?_, fun j n hj hne => ?_, fun w hw => ticketOf_tag hw⟩
  · rw [ticketOf_ticketWord hi ht, if_neg]
    simp [hu]
  · rw [ticketOf_ticketWord hi ht, if_pos (.inr (.inl (by simp [hu])))]
  · rw [ticketOf_ticketWord hi ht, if_pos (.inr (.inr fun h => hn (BitVec.eq_of_toNat_eq h).symm))]
  · rw [ticketOf_ticketWord hj ht, if_pos (.inl hne)]

/-! ## An issue takes a ticket -/

theorem grantUnit_units (s : State) (u a : Nat) : grantUnit s u a = { s with units := (grantUnit s u a).units } := by
  simp only [grantUnit]
  (repeat' split) <;> rfl

theorem grantUnits_units (l : List (Nat × Nat)) (s : State) :
    l.foldl (fun s p => grantUnit s p.1 p.2) s =
      { s with units := (l.foldl (fun s p => grantUnit s p.1 p.2) s).units } := by
  induction l generalizing s with
  | nil => rfl
  | cons p l ih =>
    rw [List.foldl_cons, ih, grantUnit_units]

/-- The arbiters change nothing but their units (R17). -/
theorem arbitrate_units (s : State) : arbitrate s = { s with units := (arbitrate s).units } := by
  rw [arbitrate, grantUnits_units]

@[simp] theorem arbitrate_tk (s : State) (i t : Nat) : (arbitrate s).tk i t = s.tk i t := by
  rw [arbitrate_units]
  rfl

/-- The ticket entry of a request as it is issued (R261, R288). -/
def issuedTicket (s : State) (k t code sel : Nat) (args : List TWord) (blk : Option Nat) : Ticket :=
  { serial := (s.tk (k / 64) t).serial + 1, used := true, nres := (opShape code).2, block := blk
    op := .x code sel args ((opSources code sel args).map fun q => s.rdPayload q.1 q.2) 0, ctx := k, no := s.freeCtr + 1 }

/-- The state in which a request other than COMMIT goes to its engine. -/
def issuedState (s : State) (k t code sel : Nat) (args : List TWord) (blk : Option Nat) : State :=
  let i := k / 64
  let u := ({ s with
    freeCtr := s.freeCtr + 1
    units := { s.units with held := s.units.held.filter fun p => p.2 ≠ (i, t) } }).setTk i t
      (issuedTicket s k t code sel args blk)
  (u.statInc (instStat i 0x10)).statMax (instStat i 0x3C) (ticketsUsed (u.statInc (instStat i 0x10)) i)

theorem issueNow_eq {k t sel pc : Nat} {args : List TWord} {blk : Option Nat} {h : HostFetch} (hc : code ≠ 0x49) :
    issueNow s k t code sel args blk pc h =
      if (s.inst (k / 64)).closed then
        (issuedState s k t code sel args blk).tkDone (k / 64) t St.instanceQuiescing
      else opIssue (issuedState s k t code sel args blk) (k / 64) t pc h := by
  simp only [issueNow, if_neg hc]
  rfl

section
variable {k t sel : Nat} {args : List TWord} {blk : Option Nat}

@[simp] theorem issuedState_tk_self :
    (issuedState s k t code sel args blk).tk (k / 64) t = issuedTicket s k t code sel args blk :=
  State.tk_setTk_self _ _ _ _

theorem issuedState_tk_ne {i j : Nat} (ht : t < 256) (hj : j < 256) (h : (i, j) ≠ (k / 64, t)) :
    (issuedState s k t code sel args blk).tk i j = s.tk i j := by
  refine State.tk_setTk_ne _ _ fun he => h ?_
  rw [Prod.mk.injEq]
  omega

/-- A ticket that waits is completed with a status and its results (R261). -/
theorem tkDone_waiting {i : Nat} (hu : (s.tk i t).used = true) (hd : (s.tk i t).done = false) (st : Word16)
    (res : List TWord) (v l : Nat) :
    s.tkDone i t st res v l = s.setTk i t { s.tk i t with
      done := true, status := st, loc := BitVec.ofNat 8 l, value := BitVec.ofNat 24 v,
      results := if st = St.ok then res else List.replicate (s.tk i t).nres (intW 0) } := by
  simp only [State.tkDone, hu, hd, Bool.not_false, Bool.and_self, if_true]

theorem opIssue_pke {u : State} {i pc : Nat} {h : HostFetch}
    (hc : (u.tk i t).op.code = 0x28 ∨ (u.tk i t).op.code = 0x29 ∨ (u.tk i t).op.code = 0x2A ∨ (u.tk i t).op.code = 0x30) :
    opIssue u i t pc h = arbitrate u := by
  simp only [opIssue]
  rcases hc with h | h | h | h <;> simp only [h]

end

section
variable {k t sel pc : Nat} {args : List TWord} {blk : Option Nat} {h : HostFetch}

/-- A request of the public-key or the hash engine is issued: it waits for its units, or the closed door ends it. -/
theorem issueNow_pke (hcode : code = 0x28 ∨ code = 0x29 ∨ code = 0x2A ∨ code = 0x30) :
    issueNow s k t code sel args blk pc h =
      if (s.inst (k / 64)).closed then
        (issuedState s k t code sel args blk).setTk (k / 64) t { issuedTicket s k t code sel args blk with
          done := true, status := St.instanceQuiescing, loc := 0, value := 0
          results := List.replicate (opShape code).2 (intW 0) }
      else arbitrate (issuedState s k t code sel args blk) := by
  rw [issueNow_eq (by omega), opIssue_pke (by rw [issuedState_tk_self]; exact hcode),
    tkDone_waiting (by rw [issuedState_tk_self]; rfl) (by rw [issuedState_tk_self]; rfl), issuedState_tk_self]
  rfl

theorem issueNow_pke_tk (hcode : code = 0x28 ∨ code = 0x29 ∨ code = 0x2A ∨ code = 0x30) :
    (issueNow s k t code sel args blk pc h).tk (k / 64) t =
      if (s.inst (k / 64)).closed then
        { issuedTicket s k t code sel args blk with
          done := true, status := St.instanceQuiescing, loc := 0, value := 0
          results := List.replicate (opShape code).2 (intW 0) }
      else issuedTicket s k t code sel args blk := by
  rw [issueNow_pke hcode]
  split
  · rw [State.tk_setTk_self]
  · rw [arbitrate_tk, issuedState_tk_self]

theorem issueNow_pke_tk_ne {i j : Nat} (hcode : code = 0x28 ∨ code = 0x29 ∨ code = 0x2A ∨ code = 0x30) (ht : t < 256)
    (hj : j < 256) (hij : (i, j) ≠ (k / 64, t)) :
    (issueNow s k t code sel args blk pc h).tk i j = s.tk i j := by
  rw [issueNow_pke hcode]
  split
  · rw [State.tk_setTk_ne, issuedState_tk_ne ht hj hij]
    intro he
    refine hij ?_
    rw [Prod.mk.injEq]
    omega
  · rw [arbitrate_tk, issuedState_tk_ne ht hj hij]

theorem issueNow_pke_frame (hcode : code = 0x28 ∨ code = 0x29 ∨ code = 0x2A ∨ code = 0x30) :
    (issueNow s k t code sel args blk pc h).mem = s.mem ∧ (issueNow s k t code sel args blk pc h).tags = s.tags ∧
      (issueNow s k t code sel args blk pc h).regs = s.regs ∧ (issueNow s k t code sel args blk pc h).ctxs = s.ctxs := by
  rw [issueNow_pke hcode]
  split
  · simp [issuedState]
  · rw [arbitrate_units]
    simp [issuedState]

end

theorem anIssueTakesATicket : Say.AnIssueTakesATicket := by
  intro s k t code sel args blk pc h ht hcode
  have hres : (opShape code).2 = if code = 0x30 then 8 else 0 := by
    rcases hcode with rfl | rfl | rfl | rfl <;> rfl
  intro u e
  have he : e = _ := issueNow_pke_tk hcode
  obtain ⟨hmem, htags, hregs, hctxs⟩ := issueNow_pke_frame (s := s) (k := k) (t := t) (sel := sel) (args := args)
    (blk := blk) (pc := pc) (h := h) hcode
  clear_value e
  subst he
  cases (s.inst (k / 64)).closed with
  | true =>
    exact ⟨rfl, rfl, hres, rfl, rfl, rfl, rfl, fun h => Bool.noConfusion h, fun _ => ⟨rfl, rfl, rfl⟩,
      fun i j hj hij => issueNow_pke_tk_ne hcode ht hj hij, hmem, htags, hregs, hctxs⟩
  | false =>
    exact ⟨rfl, rfl, hres, rfl, rfl, rfl, rfl, fun _ => rfl, fun h => Bool.noConfusion h,
      fun i j hj hij => issueNow_pke_tk_ne hcode ht hj hij, hmem, htags, hregs, hctxs⟩

/-! ## WAITT and TESTT -/

section
variable {w : TWord} {l : List TWord} {t : Nat} {e : Ticket}

theorem onTop_acc (h : OnTop c w l) (hacc : c.acc = true) : c.r.acc = w ∧ l = c.r.ds.items := by
  simpa [OnTop, hacc] using h

theorem onTop_stack (h : OnTop c w l) (hacc : c.acc = false) : c.r.pop = .ok (w, withDs c.r l) :=
  CpuRegs.pop_ok (by simpa [OnTop, hacc] using h)

theorem waittX_waits (hx : x.operand = 0) (ho : OnTop c w l) (ht : ticketOf s (key x / 64) w = .ok (t, e))
    (hd : e.done = false) : waittX s (key x) c x = .ok none := by
  cases hacc : c.acc with
  | true => simp [waittX, hx, hacc, (onTop_acc ho hacc).1, ht, hd, bind, Except.bind]
  | false => simp [waittX, hx, hacc, onTop_stack ho hacc, ht, hd, bind, Except.bind]

theorem waittX_stack (hx : x.operand = 0) (hacc : c.acc = false) (ho : OnTop c w l)
    (ht : ticketOf s (key x / 64) w = .ok (t, e)) (hd : e.done = true)
    (hroom : 8 * (l.length + e.results.length + 1) ≤ c.r.ds.size) :
    waittX s (key x) c x =
      .ok (some (Holding c (completionWord t e :: (e.results.reverse ++ l)), collect (key x / 64) t)) := by
  have hpush : (withDs c.r l).pushAll (e.results ++ [completionWord t e]) =
      .ok (withDs c.r (completionWord t e :: (e.results.reverse ++ l))) := by
    rw [pushAll_ok c.r _ l (by simpa [Nat.add_assoc] using hroom)]
    simp
  simp [waittX, hx, hacc, onTop_stack ho hacc, ht, hd, hpush, bind, Except.bind, Holding]

theorem waittX_acc {ps : List Pend} (hb : c.bundle = some b) (hx : x.operand = 0) (hacc : c.acc = true) (ho : OnTop c w l)
    (ht : ticketOf s (key x / 64) w = .ok (t, e)) (hd : e.done = true)
    (hblk : ∀ a, e.block = some a → blockStores s (key x / 64) c.r.level x.upset a e.results = .ok ps)
    (hnone : e.block = none → ps = []) :
    waittX s (key x) c x = .ok (some
      ({ Effects c b ps with r := { (Effects c b ps).r with acc := completionWord t e } }, collect (key x / 64) t)) := by
  cases hbl : e.block with
  | none =>
    obtain rfl := hnone hbl
    simp [waittX, hx, hacc, (onTop_acc ho hacc).1, ht, hd, hbl, bind, Except.bind, pure, Except.pure, addPend_eq_effects hb]
  | some a =>
    simp [waittX, hx, hacc, (onTop_acc ho hacc).1, ht, hd, hbl, hblk a hbl, bind, Except.bind, addPend_eq_effects hb]

theorem testtFn_acc (hx : x.operand = 0) (hacc : c.acc = true) (ho : OnTop c w l)
    (ht : ticketOf s (key x / 64) w = .ok (t, e)) :
    testtFn s (key x) c x = .ok { c with r := { c.r with z := !e.done } } := by
  simp [testtFn, hx, hacc, (onTop_acc ho hacc).1, ht, bind, Except.bind]

theorem testtFn_stack (hx : x.operand = 0) (hacc : c.acc = false) (ho : OnTop c w l) (hroom : HasRoom c c.r 1)
    (ht : ticketOf s (key x / 64) w = .ok (t, e)) :
    testtFn s (key x) c x = .ok (Holding c (intW (BitVec.ofNat 64 (b2n e.done)) :: w :: l)) := by
  have hl : c.r.ds.items = w :: l := by simpa [OnTop, hacc] using ho
  have hpush : ∀ v, c.r.push v = .ok (withDs c.r (v :: c.r.ds.items)) := fun v => CpuRegs.push_ok (hroom hacc)
  simp [testtFn, hx, hacc, onTop_stack ho hacc, ht, hpush, hl, bind, Except.bind, Holding]

theorem waittX_error {r : Exc} (hx : x.operand = 0) (ho : OnTop c w l) (ht : ticketOf s (key x / 64) w = .error r) :
    waittX s (key x) c x = .error r := by
  cases hacc : c.acc with
  | true => simp [waittX, hx, hacc, (onTop_acc ho hacc).1, ht, bind, Except.bind]
  | false => simp [waittX, hx, hacc, onTop_stack ho hacc, ht, bind, Except.bind]

theorem testtFn_error {r : Exc} (hx : x.operand = 0) (ho : OnTop c w l) (ht : ticketOf s (key x / 64) w = .error r) :
    testtFn s (key x) c x = .error r := by
  cases hacc : c.acc with
  | true => simp [testtFn, hx, hacc, (onTop_acc ho hacc).1, ht, bind, Except.bind]
  | false => simp [testtFn, hx, hacc, onTop_stack ho hacc, ht, bind, Except.bind]

end

@[simp] theorem chargeCore_pending (s : State) (k : Nat) : (chargeCore s k).pending = s.pending := by
  unfold chargeCore
  split <;> rfl

theorem waitsRefused : Say.WaitsRefused := by
  intro s x c b w l e hx ho ht
  exact ⟨fun hr => takes_of_runX_error rfl hr (waittX_error hx ho ht),
    fun hr => takes_of_error rfl hr (testtFn_error hx ho ht)⟩

/-- Settles O22: WAITT and TESTT look at the entry that the word names, an issue takes the entry, and the word's fields
name it. That a STAT word of another kind takes TAG_CHECK too is log entry 40 (DEDUCED). -/
theorem tickets : Obligations.Tickets := by
  refine ⟨fun s x c b w t e l hx ho ht => ⟨fun hr => ⟨fun hd hacc hroom => ?_, fun ps hd hacc hblk hnone => ?_,
    fun hd => ?_⟩, fun hr => ⟨fun hacc => ?_, fun hacc hroom => ?_⟩⟩, anIssueTakesATicket, ticketWords, waitsRefused⟩
  · exact issues_of_ok rfl hr (waittX_stack hx hacc ho ht hd hroom)
  · exact issues_of_ok rfl hr (waittX_acc (sylReady_bundle hr.next) hx hacc ho ht hd hblk hnone)
  · have hrun : exec (.waitt x) s = done s (waitt s x) := rfl
    rw [hrun, waitt, runX_waits hr (waittX_waits hx ho ht hd)]
    have hp : s.pending = (chargeCore (s.setCtx (key x) { s.ctx (key x) with waiting := some x }) (key x)).pending := by
      rw [chargeCore_pending, State.setCtx_pending]
    rw [done, hp]
  · exact completes_of_ok rfl hr (testtFn_acc hx hacc ho ht)
  · exact completes_of_ok rfl hr (testtFn_stack hx hacc ho hroom ht)

end Sys2Proof.Machine
end

section
/-! SUPPORT. Operations in flight (R262, R265, R291, R295, R300, R301, R422, R425): a WAITT and a TIME that wait, and how the
hash and the public-key engines end a request. -/

open Sys2Proof.Say

namespace Sys2Proof.Machine

variable {s u v : State} {c : Instr}

/-- A command leaves the state that its effect gives. -/
theorem leaves_of_eq (hi : exec c s = done s u) (h : u = v) : Leaves c s v := by
  rw [Leaves, hi, h]

/-! ## Waits that end -/

theorem waittResume_eq (n m : Fin 64) {x : Syl} (hrun : (s.ctx (ctxKey n.val m.val)).run = .running)
    (hw : (s.ctx (ctxKey n.val m.val)).waiting = some x) :
    exec (.waittResume n m) s = done s (waitt (s.setCtx (ctxKey n.val m.val)
      { s.ctx (ctxKey n.val m.val) with waiting := none }) x) := by
  refine congrArg (done s) ?_
  simp only [hw, hrun, if_true]

/-- The condition of TIME_WAIT_REACHED: the ticket waits for a TIME. -/
theorem timeWaitReached_eq (n : Fin 64) (t : Byte) {data : List Payload} {w : TWord} {g : Nat}
    (hu : (s.tk n.val t.toNat).used = true) (hd : (s.tk n.val t.toNat).done = false)
    (ho : (s.tk n.val t.toNat).op = .x 0x51 1 [w] data g) :
    exec (.timeWaitReached n t) s = done s
      (if w.data.toNat ≤ s.kpr.devtime.toNat then timeDone s n.val t.toNat else s) := by
  refine congrArg (done s) ?_
  have hcond : (s.tk n.val t.toNat).used = true ∧ ¬ (s.tk n.val t.toNat).done = true ∧ (s.tk n.val t.toNat).op.code = 0x51 :=
    ⟨hu, by simp [hd], by rw [ho]; rfl⟩
  refine (if_pos hcond).trans ?_
  rw [ho, timeTry, if_neg (show ¬ 1 < Op.sel (.x 0x51 1 [w] data g) from Nat.lt_irrefl 1)]
  simp [Op.sel, Op.word, Op.args]

/-! ## Engines -/

section
variable {i : Fin 64} {t : Byte} {e : EngineEnv} {o : Op} {sel : Nat} {args : List TWord} {data ps : List Payload} {g : Nat}

/-- A request that an engine goes on with: it waits, it holds its units, and its sources are not busy (R417, R425). -/
structure Served (u : State) (i t : Nat) (o : Op) : Prop where
  used : (u.tk i t).used = true
  waits : (u.tk i t).done = false
  held : u.pwr.flush = 0
  units : granted u i t = true
  op : (u.tk i t).op = o
  free : srcBusy u o = false

theorem Served.step {j k : Nat} (h : Served u j k o) :
    ¬ (¬ (u.tk j k).used ∨ (u.tk j k).done ∨ u.pwr.flush ≠ 0 ∨ srcBusy u (u.tk j k).op ∨ ¬ granted u j k) := by
  simp [h.used, h.waits, h.held, h.units, h.op, h.free]

theorem engineStep_hash {j k : Nat} (h : Served u j k (.x 0x30 sel args data g)) :
    engineStep u j k e = hashDone u j k (.x 0x30 sel args data g) e := by
  refine (if_neg h.step).trans ?_
  simp only [h.op, Op.code]

theorem engineStep_sign {j k : Nat} (h : Served u j k (.x 0x28 sel args data g)) :
    engineStep u j k e = signDone u j k (.x 0x28 sel args data g) e := by
  refine (if_neg h.step).trans ?_
  simp only [h.op, Op.code]

theorem engineStep_verify {j k : Nat} (h : Served u j k (.x 0x29 sel args data g)) :
    engineStep u j k e = verifyDone u j k (.x 0x29 sel args data g) e := by
  refine (if_neg h.step).trans ?_
  simp only [h.op, Op.code]

theorem hashDone_ok {p : Payload} {n : Nat} {j k : Nat} (hl : digestLen o = some n) (hlen : o.num 2 < 2 ^ 32)
    (ht : takeSources u (some j) o e.upset e.memUpset = (.ok [p], v)) :
    hashDone u j k o e = (hashCount v p.bytes.length).tkDone j k St.ok
      ((List.range 8).map fun q => ⟨Tag.chk, BitVec.ofNat 64 (getLe (genBytes n (Config.hashByte o.sel p.bytes)) (8 * q) 8)⟩) n := by
  simp only [hashDone, hl, if_neg (Nat.not_le.2 hlen), ht, List.getD_cons_zero]

theorem hashDone_none {j k : Nat} (hl : digestLen o = none) : hashDone u j k o e = u.tkDone j k St.argInvalid := by
  simp only [hashDone, hl]

/-- An Ed25519 signature, which draws no random bytes (R422). -/
theorem signDone_ok {j k : Nat} (hs : o.sel = 5) (h3 : o.num 3 ≤ 65536) (h5 : sigLen 5 ≤ o.num 5)
    (hready : slotsReady u = true) (ht : takeSources u (some j) o e.upset e.memUpset = (.ok ps, v))
    (hslot : slotCheck v j (kOwner (o.word 1).data) (kSlot (o.word 1).data) (· == 0x15) = St.ok)
    (hfault : e.fault = false) (hbus : e.busErr = false) :
    signDone u j k o e = deliverTo (v.incReg Reg.PKE_SIGNS) j k (o.num 4)
      (rawPayload (signature 5 (v.slot (kSlot (o.word 1).data)).v (ps.getD 0 ⟨0, []⟩).bytes [])) e.destUpset (sigLen 5) := by
  have hargs : ¬ (o.sel = 0 ∨ 8 < o.sel ∨ 65536 < o.num 3 ∨ o.num 5 < sigLen o.sel) := by
    rw [hs]
    omega
  rw [signDone, if_neg hargs]
  simp only [hready, not_true_eq_false, if_false, ht, hs, hslot, ne_eq, hbus, hfault, Bool.false_eq_true, if_true]

theorem verifyDone_ok {j k : Nat} (hkey : (o.word 1).tag ≠ Tag.keyh) (hlo : 1 ≤ o.sel) (hhi : o.sel ≤ 8)
    (h4 : o.num 4 ≤ 65536) (h6 : o.num 6 = sigLen o.sel)
    (ht : takeSources u (some j) o e.upset e.memUpset = (.ok ps, v)) :
    verifyDone u j k o e = (v.incReg Reg.PKE_VERIFIES).tkDone j k
      (if sigVerify o.sel (ps.getD 0 ⟨0, []⟩).bytes (ps.getD 1 ⟨0, []⟩).bytes (ps.getD 2 ⟨0, []⟩).bytes = true then St.ok
        else St.authFail) := by
  have hby : ((o.word 1).tag == Tag.keyh) = false := beq_false_of_ne hkey
  have hargs : ¬ (o.sel = 0 ∨ 9 < o.sel ∨ 65536 < o.num 4 ∨ (o.sel ≠ 9 ∧ o.num 6 ≠ sigLen o.sel) ∨
      (false = true ∧ o.num 2 ≠ 0)) := by
    rintro (h | h | h | ⟨-, h⟩ | ⟨h, -⟩)
    · omega
    · omega
    · omega
    · exact h h6
    · cases h
  simp only [verifyDone, hby]
  rw [if_neg hargs]
  simp only [Bool.false_eq_true, false_and, if_false, ht, ne_eq, not_true_eq_false, not_false_eq_true, if_true]
  cases sigVerify o.sel (ps.getD 0 ⟨0, []⟩).bytes (ps.getD 1 ⟨0, []⟩).bytes (ps.getD 2 ⟨0, []⟩).bytes <;> rfl

end

theorem enginesEnd : Say.EnginesEnd := by
  refine ⟨fun s n m x hrun hw => ?_, fun s n t data w g hu hd ho hlt => ?_,
    fun s v i t e sel args data ps g hu hd hf hg => ⟨fun hk hb hl => ?_, fun htook hsel h3 h5 hr hfault hbus hslot => ?_,
      fun htook hkey hlo hhi h4 h6 => ?_⟩⟩
  · rw [waittResume_eq n m hrun hw]
    rfl
  · exact leaves_of_eq (timeWaitReached_eq n t hu hd ho) (if_neg (Nat.not_le.2 hlt))
  · refine leaves_of_eq rfl (congrArg arbitrate ?_)
    rw [engineStep_hash ⟨hu, hd, hf, hg, hk, hb⟩, hashDone_none hl]
  · obtain ⟨hk, hb, ht⟩ := htook
    refine leaves_of_eq rfl (congrArg arbitrate ?_)
    rw [engineStep_sign ⟨hu, hd, hf, hg, hk, hb⟩, signDone_ok (o := .x 0x28 sel args data g) hsel h3 h5 hr ht hslot hfault hbus]
  · obtain ⟨hk, hb, ht⟩ := htook
    refine leaves_of_eq rfl (congrArg arbitrate ?_)
    rw [engineStep_verify ⟨hu, hd, hf, hg, hk, hb⟩, verifyDone_ok hkey hlo hhi h4 h6 ht]
    rfl

/-- Settles O23: an engine's step on a request that holds its units is its algorithm's end. That a SEL that names no form
ends ARG_INVALID, and that the sources are taken as the engine serves, are log entries 44 and 10 (DEDUCED). -/
theorem operationsEnd : Obligations.OperationsEnd := by
  refine ⟨fun s n m x hrun hw => leaves_of_eq (waittResume_eq n m hrun hw) rfl, fun s n t data w g hu hd ho hle => ?_,
    fun s v i t e sel args data p g hu hd hf hg hk hb ht n hl hlen => ?_, enginesEnd⟩
  · exact leaves_of_eq (timeWaitReached_eq n t hu hd ho) (if_pos hle)
  · refine leaves_of_eq rfl (congrArg arbitrate ?_)
    rw [engineStep_hash ⟨hu, hd, hf, hg, hk, hb⟩, hashDone_ok hl hlen ht]
    rfl

end Sys2Proof.Machine
end

section
/-! SUPPORT. Rings (R293, R392-R403): the ring in a state, QPUT and QGET that wait, and the control of the keeper and of
the hosts. -/

open Sys2Proof.Say

namespace Sys2Proof.Machine

variable {s u : State} {r i t n sel g : Nat} {x : Ring} {args : List TWord} {data : List Payload} {p : Payload}

/-! ## The rings of a state -/

@[simp] theorem ring_setRing_self (s : State) (r : Nat) (x : Ring) : (s.setRing r x).ring r = x := by
  simp [State.ring, State.setRing]

theorem ring_setRing_ne (s : State) {r q : Nat} (x : Ring) (h : q ≠ r) : (s.setRing r x).ring q = s.ring q := by
  simp [State.ring, State.setRing, sget_sset_ne _ _ x h]

theorem byKeeper_running (h : s.kpr.running = true) (f : State → State) : s.byKeeper f = f s := if_pos h

theorem byKeeper_stopped (h : s.kpr.running = false) (f : State → State) : s.byKeeper f = s := by
  simp [State.byKeeper, h]

theorem ringRefusal_active (h : x.st = 1) : ringRefusal x = none := if_pos h

/-! ## Operations that wait on a ring (R293, R401) -/

/-- What a QPUT makes of an entry that it took whole: it is put where the slots are free (R396). -/
theorem qputTry_took {p : Payload} {o : Op} (hr : o.num 1 = r) (hin : ringBound s i r = true)
    (hout : (s.ring r).outbound = true) (hhost : (s.ring r).inHost = false)
    (hst : (s.ring r).st = 1) (hlo : 1 ≤ o.num 3) (hhi : o.num 3 ≤ 16) (hb : srcBusy s o = false)
    (ht : takeSources s (some i) o false = (.ok [p], u)) (hc : countOk (s.ring r) p (o.num 3) = true) :
    qputTry s i t o false =
      if (s.ring r).size < o.num 3 ∨ (s.ring r).free < o.num 3 then
        if o.sel % 2 = 0 then (u.statInc (ringStat r 8)).tkDone i t St.ringFull else ringWait u i t r
      else (ringPut (ringUnwait u i t r) r p (o.num 3)).tkDone i t St.ok [] (o.num 3) := by
  subst hr
  have hargs : ¬ (¬ ringBound s i (o.num 1) ∨ ((s.ring (o.num 1)).en ∧ ¬ (s.ring (o.num 1)).outbound) ∨ o.num 3 = 0 ∨
      16 < o.num 3) := by
    simp only [hin, hout, not_true_eq_false, and_false, false_or]
    omega
  refine (if_neg hargs).trans ?_
  simp only [ringRefusal_active hst, hb, Bool.false_eq_true, if_false, ht, List.getD_cons_zero, hc, not_true_eq_false,
    hhost]

/-- What the oldest QGET that waits makes of a ring that holds entries: it takes the oldest (R396). -/
theorem qgetTry_took {o : Op} (hr : o.num 1 = r) {h : HostFetch} (hin : ringBound s i r = true)
    (hout : (s.ring r).outbound = false) (hhost : (s.ring r).inHost = false)
    (hst : (s.ring r).st = 1) (hlo : 1 ≤ o.num 3) (hhi : o.num 3 ≤ 16) (hu : (s.ring r).used ≠ 0)
    (hw : (s.ring r).waiters.head? = some (i, t)) :
    qgetTry s i t o h false =
      let v := ringUnwait s i t r
      if o.num 3 < (s.ring r).lens.headD 0 then v.tkDone i t St.argInvalid
      else match ringHeadEntry v r (some i) with
        | none => v.tkDone i t St.ok [] 0
        | some (n, ws, fail, v) =>
          if fail then (engWrite v (o.num 2) ⟨64 * n, ws⟩ (some i) false).2.tkDone i t St.carryFault [] n 0x11
          else deliverTo v i t (o.num 2) ⟨64 * n, ws⟩ false n := by
  subst hr
  have hargs : ¬ (¬ ringBound s i (o.num 1) ∨ ((s.ring (o.num 1)).en ∧ (s.ring (o.num 1)).outbound) ∨ o.num 3 = 0 ∨
      16 < o.num 3) := by
    simp only [hin, hout, not_true_eq_false, Bool.false_eq_true, and_false, false_or]
    omega
  have hturn : ¬ ((s.ring (o.num 1)).used = 0 ∨
      ((s.ring (o.num 1)).waiters ≠ [] ∧ (s.ring (o.num 1)).waiters.head? ≠ some (i, t))) := by
    simp [hu, hw]
  refine (if_neg hargs).trans ?_
  simp only [ringRefusal_active hst]
  refine (if_neg hturn).trans ?_
  simp only [hhost, Bool.false_eq_true, if_false] <;> rfl

/-- A device ring gives up its oldest entry: the words of its slots, where no unit fails its check (R121). -/
theorem ringHeadEntry_good {ls : List Nat} {who : Option Nat} (hl : (s.ring r).lens = n :: ls)
    (hgood : ∀ k, k < n → s.isBad ((s.ring r).slotAddr ((s.ring r).head + BitVec.ofNat 32 k)) = false) :
    ringHeadEntry s r who = some (n,
      ((List.range n).map fun k => s.rdWords ((s.ring r).slotAddr ((s.ring r).head + BitVec.ofNat 32 k)) 8).flatten, false,
      (s.setRing r { s.ring r with head := (s.ring r).head + BitVec.ofNat 32 n, lens := ls }).statInc (ringStat r 4)) := by
  have hbad : ((List.range n).map fun k => (s.ring r).slotAddr ((s.ring r).head + BitVec.ofNat 32 k)).filter s.isBad = [] := by
    rw [List.filter_eq_nil_iff]
    intro a ha
    obtain ⟨k, hk, rfl⟩ := List.mem_map.1 ha
    rw [hgood k (List.mem_range.1 hk)]
    exact Bool.false_ne_true
  simp only [ringHeadEntry, hl, hbad, List.foldl_nil, List.map_map, List.isEmpty_nil, Bool.not_true]
  rfl

theorem ringUnwait_ring (s : State) (i t r : Nat) :
    (ringUnwait s i t r).ring r = { s.ring r with waiters := (s.ring r).waiters.erase (i, t) } :=
  ring_setRing_self _ _ _

theorem qputWaitSatisfied_eq (r : Fin 4096) {o : Op} (hw : ringWaiter s r.val 0x10 = some (i, t)) (ho : (s.tk i t).op = o) :
    exec (.qputWaitSatisfied r) s = done s (qputTry s i t o false) := by
  refine congrArg (done s) ?_
  simp only [hw, ho]

theorem qgetWaitSatisfied_eq (r : Fin 4096) (h : HostFetch) {o : Op} (hw : ringWaiter s r.val 0x11 = some (i, t))
    (ho : (s.tk i t).op = o) (hu : (s.ring r.val).used ≠ 0) :
    exec (.qgetWaitSatisfied r h) s = done s (qgetTry s i t o h false) := by
  refine congrArg (done s) ?_
  simp only [hw, ho, if_neg hu]

theorem ringWaitersStay : Say.RingWaitersStay := by
  refine ⟨fun s u r i t sel args data g p => ?_, fun s r h i t sel n args data g ls => ?_⟩
  · intro x o n hw ho hr hin hen hout hhost hst hlo hhi hb ht hc hfull hsel hmem
    have hodd : ¬ o.sel % 2 = 0 := fun h => absurd (hsel.symm.trans h) Nat.one_ne_zero
    refine leaves_of_eq (qputWaitSatisfied_eq r hw ho) ?_
    rw [qputTry_took hr hin hout hhost hst hlo hhi hb ht hc, if_pos (.inr hfull), if_neg hodd]
    exact if_pos hmem
  · intro x o hw hhead ho hr hin hen hout hhost hst hlo hhi hu hl hlt
    refine leaves_of_eq (qgetWaitSatisfied_eq r h hw ho hu) ?_
    rw [qgetTry_took hr hin hout hhost hst hlo hhi hu hhead]
    exact if_pos (by rw [hl]; exact hlt)

/-- Settles O24: QPUT and QGET run again for the operation that waits, on the ring as it then stands. -/
theorem ringWaiters : Obligations.RingWaiters := by
  refine ⟨fun s u r i t sel args data g p => ?_, fun s r h i t sel n args data g ls => ?_, ringWaitersStay⟩
  · intro x o n hw ho hr hin hen hout hhost hst hlo hhi hb ht hc hsize hfree
    refine leaves_of_eq (qputWaitSatisfied_eq r hw ho) ?_
    rw [qputTry_took hr hin hout hhost hst hlo hhi hb ht hc,
      if_neg (not_or.2 ⟨Nat.not_lt.2 hsize, Nat.not_lt.2 hfree⟩)]
  · intro x o u y slot hw hhead ho hr hin hen hout hhost hst hlo hhi hu hl hle hgood v
    refine leaves_of_eq (qgetWaitSatisfied_eq r h hw ho hu) ?_
    have hy : u.ring r.val = { x with waiters := x.waiters.erase (i, t) } := ringUnwait_ring s i t r.val
    have hentry := ringHeadEntry_good (s := u) (r := r.val) (n := n) (ls := ls) (who := some i) (by rw [hy]; exact hl)
      (by rw [hy]; exact hgood)
    rw [qgetTry_took hr hin hout hhost hst hlo hhi hu hhead]
    refine (if_neg (by rw [hl]; exact Nat.not_lt.2 hle)).trans ?_
    have hslot : (fun k => u.rdWords ((u.ring r.val).slotAddr ((u.ring r.val).head + BitVec.ofNat 32 k)) 8) =
        fun k => u.rdWords (slot k) 8 := by
      rw [hy]
      rfl
    rw [hentry, hslot]
    rfl

/-! ## The keeper's control (R392, R397, R403) -/

/-- What RING.CFG holds after a write of the value that it shows with EN set: the fields, once more (R392). -/
def cfgAgain (x : Ring) : Word32 := (x.cfg &&& 0x7FC007E0) ||| BitVec.ofNat 32 (2048 * x.eslots + fld x.cfg.toNat 0 5)

/-- A field of a register as a part of its bits. -/
theorem fld_eq_extract (w : Word32) (lo k : Nat) : fld w.toNat lo k = (w.extractLsb' lo k).toNat := by
  rw [BitVec.extractLsb'_toNat, Nat.shiftRight_eq_div_pow, fld]

/-- Bits beside a field leave it. -/
theorem fld_or {w v : Word32} {lo k : Nat} (h : v.extractLsb' lo k = 0) : fld (w ||| v).toNat lo k = fld w.toNat lo k := by
  rw [fld_eq_extract, fld_eq_extract, BitVec.extractLsb'_or, h]
  exact congrArg BitVec.toNat (BitVec.or_zero)

theorem fld_and {w m : Word32} {lo k : Nat} (h : m.extractLsb' lo k = BitVec.allOnes k) :
    fld (w &&& m).toNat lo k = fld w.toNat lo k := by
  rw [fld_eq_extract, fld_eq_extract, BitVec.extractLsb'_and, h, BitVec.and_allOnes]

/-- A number below a field has none of its bits. -/
theorem extract_ofNat_small {v lo k : Nat} (h : v < 2 ^ lo) : (BitVec.ofNat 32 v).extractLsb' lo k = 0 := by
  apply BitVec.eq_of_toNat_eq
  have : v % 2 ^ 32 < 2 ^ lo := (Nat.mod_le _ _).trans_lt h
  rw [BitVec.extractLsb'_toNat, BitVec.toNat_ofNat, Nat.shiftRight_eq_div_pow, Nat.div_eq_of_lt this, Nat.zero_mod]
  rfl

/-- The fields that the sizes of a ring take stay below bit 17. -/
theorem sizes_lt {a b : Nat} (ha : a ≤ 16) (hb : b ≤ 16) : 2048 * a + b < 2 ^ 17 := by omega

theorem owner_cfgAgain (he : x.eslots ≤ 16) (hs : fld x.cfg.toNat 0 5 ≤ 16) :
    Ring.owner { x with cfg := cfgAgain x } = x.owner := by
  rw [Ring.owner, cfgAgain, fld_or (extract_ofNat_small ((sizes_lt he hs).trans (by decide))), fld_and (by decide)]
  rfl

theorem inHost_cfgAgain (he : x.eslots ≤ 16) (hs : fld x.cfg.toNat 0 5 ≤ 16) :
    Ring.inHost { x with cfg := cfgAgain x } = x.inHost := by
  have h : (BitVec.ofNat 32 (2048 * x.eslots + fld x.cfg.toNat 0 5)).getLsbD 29 = false := by
    rw [BitVec.getLsbD_ofNat, Nat.testBit_lt_two_pow ((sizes_lt he hs).trans (by decide)), Bool.and_false]
  simp only [Ring.inHost, cfgAgain, BitVec.getLsbD_or, BitVec.getLsbD_and, h, Bool.or_false]
  exact Bool.and_true _

/-- The state of a ring as it is enabled: empty and Active (R392, R397). -/
def enabledRing (x : Ring) : Ring :=
  { x with cfg := cfgAgain x ||| 0x80000000, head := 0, tail := 0, lens := [], haltAt := 0, err := 0, st := 1 }

theorem ringCfg_again (hen : (s.ring (rsel s)).en = false) (he : (s.ring (rsel s)).eslots ≤ 16)
    (hlo : 1 ≤ fld (s.ring (rsel s)).cfg.toNat 0 5) (hs : fld (s.ring (rsel s)).cfg.toNat 0 5 ≤ 16) :
    ringCfg s ((s.ring (rsel s)).cfg ||| 0x80000000) =
      let x := s.ring (rsel s)
      let y : Ring := { x with cfg := cfgAgain x }
      if ringRules s (rsel s) y then
        s.setRing (rsel s) { y with
          cfg := cfgAgain x ||| 0x80000000, head := 0, tail := 0, lens := [], haltAt := 0
          err := if x.inHost ∧ ¬ busMaster s x.owner then St.ringStopped else 0
          st := if x.inHost ∧ ¬ busMaster s x.owner then 3 else 1 }
      else s.setReg Reg.RING_STATUS (s.reg Reg.RING_STATUS ||| 1) := by
  generalize hx : s.ring (rsel s) = x at hen he hlo hs
  have hes : fld (x.cfg ||| 0x80000000).toNat 11 5 = x.eslots := fld_or (by decide)
  have hsz : fld (x.cfg ||| 0x80000000).toNat 0 5 = fld x.cfg.toNat 0 5 := fld_or (by decide)
  have hmask : (x.cfg ||| 0x80000000) &&& 0x7FC007E0 = x.cfg &&& 0x7FC007E0 := by
    rw [BitVec.and_comm, BitVec.and_or_distrib_left, BitVec.and_comm, show (0x7FC007E0 : Word32) &&& 0x80000000 = 0 from by decide]
    exact BitVec.or_zero
  have hbit : (x.cfg ||| 0x80000000).getLsbD 31 = true := by
    rw [BitVec.getLsbD_or]
    exact Bool.or_true _
  have hes' : ¬ 16 < x.eslots := Nat.not_lt.2 he
  have hsz' : ¬ (fld x.cfg.toNat 0 5 = 0 ∨ 16 < fld x.cfg.toNat 0 5) := by omega
  have howner := owner_cfgAgain he hs
  have hhost := inHost_cfgAgain he hs
  simp only [cfgAgain] at howner hhost
  simp only [ringCfg, hx, hen, Bool.false_eq_true, if_false, hes, hes', hsz, hsz', hmask, hbit, not_true_eq_false, cfgAgain,
    howner, hhost] <;> rfl

/-! ## Rings that stop -/

/-- A completion changes the tickets alone. -/
theorem tkDone_tickets (s : State) (i t : Nat) (st : Word16) (res : List TWord) (v l : Nat) :
    s.tkDone i t st res v l = { s with tickets := (s.tkDone i t st res v l).tickets } := by
  unfold State.tkDone
  dsimp only
  split <;> rfl

theorem tkDones_tickets (st : Word16) (l : List (Nat × Nat)) (s : State) :
    l.foldl (fun s w => s.tkDone w.1 w.2 st) s =
      { s with tickets := (l.foldl (fun s w => s.tkDone w.1 w.2 st) s).tickets } := by
  induction l generalizing s with
  | nil => rfl
  | cons w l ih =>
    rw [List.foldl_cons, ih, tkDone_tickets]

/-- A ring that leaves Active loses its waiters, whose tickets complete (R397). -/
theorem failWaiters_eq (s : State) (r : Nat) (st : Word16) :
    failWaiters s r st =
      { s.setRing r { s.ring r with waiters := [] } with tickets := (failWaiters s r st).tickets } :=
  tkDones_tickets st _ _

theorem failWaiters_none {st : Word16} (h : (s.ring r).waiters = []) :
    failWaiters s r st = s.setRing r { s.ring r with waiters := [] } := by
  rw [failWaiters, h, List.foldl_nil]

@[simp] theorem failWaiters_ring_self (s : State) (r : Nat) (st : Word16) :
    (failWaiters s r st).ring r = { s.ring r with waiters := [] } := by
  rw [failWaiters_eq]
  exact ring_setRing_self s r _

theorem failWaiters_ring_ne (s : State) {r q : Nat} (st : Word16) (h : q ≠ r) : (failWaiters s r st).ring q = s.ring q := by
  rw [failWaiters_eq]
  exact ring_setRing_ne s _ h

@[simp] theorem stopRing_ring_self (s : State) (r : Nat) (err : Word16) :
    (stopRing s r err).ring r = { s.ring r with st := 3, err := err, waiters := [] } := by
  rw [stopRing, failWaiters_ring_self, ring_setRing_self]

theorem stopRing_ring_ne (s : State) {r q : Nat} (err : Word16) (h : q ≠ r) : (stopRing s r err).ring q = s.ring q := by
  rw [stopRing, failWaiters_ring_ne _ _ h, ring_setRing_ne _ _ h]

/-- A stop of a ring changes its tickets and the ring alone. -/
theorem stopRing_eq (s : State) (r : Nat) (err : Word16) :
    stopRing s r err = { s with rings := (stopRing s r err).rings, tickets := (stopRing s r err).tickets } := by
  rw [stopRing, failWaiters_eq]
  rfl

theorem resumeRing_ok (hst : (s.ring r).st = 2 ∨ (s.ring r).st = 3)
    (hb : (s.ring r).inHost = false ∨ busMaster s (s.ring r).owner = true) :
    resumeRing s r = s.setRing r { s.ring r with st := 1, err := 0, haltAt := 0 } := by
  have hmay : ¬ ((s.ring r).inHost = true ∧ ¬ busMaster s (s.ring r).owner = true) := by
    rintro ⟨hh, hn⟩
    rcases hb with h | h
    · rw [h] at hh
      cases hh
    · exact hn h
  exact if_pos ⟨hst, hmay⟩

theorem resumeRing_stays (h2 : (s.ring r).st ≠ 2) (h3 : (s.ring r).st ≠ 3) : resumeRing s r = s :=
  if_neg fun h => h.1.elim h2 h3

/-- The keeper's stop of a ring that no operation waits on. -/
theorem ringCtrlStop_ok (hst : (s.ring (rsel s)).st = 1) :
    ringCtrl s 3 = stopRing s (rsel s) St.ringStopped := if_pos (.inl hst)

/-! ## The hosts' control (R395) -/

theorem onWindow_reaches {p : Iface} {w : Nat} (h : reaches s p w = true) (f : State → State) : onWindow s p w f = f s :=
  if_pos h

theorem rctlWrite_ok {w k op : Nat} (hw : windowRing s w k = some r) :
    rctlWrite s w k op = if (s.ring r).st = 2 ∨ (s.ring r).st = 3 then
      (if op = 1 then discardRing s r else if op = 2 then resumeRing s r else s) else s := by
  simp only [rctlWrite, hw]

/-- A command of a host that its window takes (R380). -/
theorem served_eq {p : Iface} {w : Nat} (hr : reaches s p w = true) (hs : serving s = true) (f : State → State) :
    (onWindow s p w fun s => if serving s then f s else s) = f s := by
  rw [onWindow_reaches hr, if_pos hs]

theorem ringsThatStay : Say.RingsThatStay := by
  refine ⟨fun s => ⟨fun hk => ⟨fun hen he hlo hs hrules => ?_, fun hen => ?_, fun hst => ⟨?_, ?_⟩⟩,
    fun hk => ⟨?_, ?_, ?_, ?_⟩⟩, fun s p w k o v hr hs => ⟨fun r hw h2 h3 => ⟨?_, ?_⟩, fun hbad => ?_⟩⟩
  · refine leaves_of_eq rfl ((byKeeper_running hk _).trans ((ringCfg_again hen he hlo hs).trans (if_neg ?_)))
    rw [cfgAgain, hrules]
    exact Bool.false_ne_true
  · refine leaves_of_eq rfl ((byKeeper_running hk _).trans ?_)
    have hbit : ((s.ring (rsel s)).cfg ||| 0x80000000).getLsbD 31 = true := by
      rw [BitVec.getLsbD_or]
      exact Bool.or_true _
    exact (if_pos hen).trans (if_pos hbit)
  · refine leaves_of_eq rfl ((byKeeper_running hk _).trans (resumeRing_stays ?_ ?_))
    · rw [hst]; decide
    · rw [hst]; decide
  · refine leaves_of_eq rfl ((byKeeper_running hk _).trans (if_neg ?_))
    rw [hst]
    decide
  · exact leaves_of_eq rfl (byKeeper_stopped hk _)
  · exact leaves_of_eq rfl (byKeeper_stopped hk _)
  · exact leaves_of_eq rfl (byKeeper_stopped hk _)
  · exact leaves_of_eq rfl (byKeeper_stopped hk _)
  · exact leaves_of_eq rfl ((served_eq hr hs _).trans ((rctlWrite_ok hw).trans (if_neg (not_or.2 ⟨h2, h3⟩))))
  · exact leaves_of_eq rfl ((served_eq hr hs _).trans ((rctlWrite_ok hw).trans (if_neg (not_or.2 ⟨h2, h3⟩))))
  · exact leaves_of_eq rfl ((served_eq hr hs _).trans (if_pos hbad))

/-- Settles O25: each command is a write of the ring's record, where the ring takes it. That a resume clears the error and
the halt count, and that a POISON slot of the staging buffer keeps out a word, are log entries 88 and 85 (DEDUCED). -/
theorem ringControl : Obligations.RingControl := by
  refine ⟨fun s => ?_, fun s p w k o v hr hs => ⟨fun r hw hst => ⟨?_, fun hhost => ?_⟩, fun hok => ?_⟩, ringsThatStay⟩
  · intro r x cfg hk
    refine ⟨fun hen he hlo hsz hrules hbus => ?_, ?_, fun hst hbus => ?_, fun hst hw => ?_⟩
    · refine leaves_of_eq rfl ((byKeeper_running hk _).trans ((ringCfg_again hen he hlo hsz).trans ((if_pos hrules).trans ?_)))
      have hmay : ¬ (x.inHost = true ∧ ¬ busMaster s x.owner = true) := by
        rintro ⟨hh, hn⟩
        rcases hbus with h | h
        · rw [h] at hh
          cases hh
        · exact hn h
      have hmay' : ¬ ((s.ring (rsel s)).inHost = true ∧ ¬ busMaster s (s.ring (rsel s)).owner = true) := hmay
      simp only [if_neg hmay']
      rfl
    · exact leaves_of_eq rfl (byKeeper_running hk _)
    · exact leaves_of_eq rfl ((byKeeper_running hk _).trans (resumeRing_ok hst hbus))
    · refine ⟨stopRing s r St.ringStopped, leaves_of_eq rfl ((byKeeper_running hk _).trans (ringCtrlStop_ok hst)), ?_,
        fun q hq => stopRing_ring_ne s _ hq, ?_, ?_⟩
      · rw [stopRing_ring_self, ← hw]
      · rw [stopRing_eq]
      · rw [stopRing, failWaiters_none (by rw [ring_setRing_self]; exact hw)]
        rfl
  · exact leaves_of_eq rfl ((served_eq hr hs _).trans ((rctlWrite_ok hw).trans (if_pos hst)))
  · exact leaves_of_eq rfl ((served_eq hr hs _).trans ((rctlWrite_ok hw).trans ((if_pos hst).trans
      (resumeRing_ok hst (.inl hhost)))))
  · exact leaves_of_eq rfl ((served_eq hr hs _).trans ((if_neg hok).trans (if_neg Bool.false_ne_true)))

end Sys2Proof.Machine
end

section
/-! SUPPORT. Host interfaces (R58, R376-R401): doorbells, the push and pop ports, the local bus and QSPI, and what stops the
rings of functions. -/

open Sys2Proof.Say

namespace Sys2Proof.Machine

variable {s : State} {p : Iface} {w k r n : Nat} {v : Word32} {x : Ring}

/-! ## Doorbells -/

/-- No source wakes a device in Service that is on its way to no Standby (R66). -/
theorem wakeSource_service (hm : s.mode = Mode.service) (hs : s.kpr.standby = 0) (k : Nat) : wakeSource s k = s := by
  have hstandby : ¬ s.mode = Mode.standby := by rw [hm]; decide
  have hno : ¬ s.kpr.standby ≠ 0 := not_not.2 hs
  simp only [wakeSource, if_neg hstandby, if_neg hno, ite_self]

theorem terminated_service (hm : s.mode = Mode.service) : s.terminated = false := by
  rw [State.mode] at hm
  rw [State.terminated, hm]
  rfl

/-- A doorbell in Service reaches its ring. -/
theorem doorbell_service (hm : s.mode = Mode.service) (hs : s.kpr.standby = 0) :
    doorbell s w k v = ringDoorbell s w k v := by
  have hterm : ¬ s.terminated = true := by rw [terminated_service hm]; exact Bool.false_ne_true
  have hstart : ¬ s.mode = Mode.starting := by rw [hm]; decide
  rw [doorbell, if_neg hterm, if_neg hstart, wakeSource_service hm hs]

theorem doorbell_starting (ht : s.terminated = false) (hm : s.mode = Mode.starting) :
    doorbell s w k v = { s with host := { s.host with heldDb := s.host.heldDb ++ [(w, k, v)] } } := by
  rw [doorbell, if_neg (by rw [ht]; exact Bool.false_ne_true), if_pos hm]

/-- What a doorbell does to a host-memory ring that is Active (R394). -/
theorem ringDoorbell_outbound (hw : windowRing s w k = some r) (hst : (s.ring r).st = 1) (hh : (s.ring r).inHost = true)
    (ho : (s.ring r).outbound = true) :
    ringDoorbell s w k v = if (v - (s.ring r).head).toNat ≤ (s.ring r).used then s.setRing r { s.ring r with head := v }
      else haltRing s r St.doorbellOverrun (s.ring r).head := by
  simp only [ringDoorbell, hw, hst, hh, ho, ne_eq, not_true_eq_false, false_and, or_self, if_false, if_true]

theorem ringDoorbell_inbound (hw : windowRing s w k = some r) (hst : (s.ring r).st = 1) (hh : (s.ring r).inHost = true)
    (ho : (s.ring r).outbound = false) (hrun : ownerRuns s (s.ring r).owner = true)
    (hd : (v - (s.ring r).tail).toNat ≠ 0) :
    ringDoorbell s w k v =
      if (v - (s.ring r).tail).toNat % (s.ring r).eslots = 0 ∧ (v - (s.ring r).tail).toNat ≤ (s.ring r).free then
        if (s.ring r).used = 0 then ringIrq (s.setRing r { s.ring r with tail := v }) r
        else s.setRing r { s.ring r with tail := v }
      else haltRing s r St.doorbellOverrun (s.ring r).tail := by
  simp only [ringDoorbell, hw, hst, hh, ho, hrun, hd, ne_eq, not_true_eq_false, not_false_eq_true, Bool.false_eq_true,
    and_false, or_self, if_false]

theorem ringDoorbell_none (hw : windowRing s w k = none) : ringDoorbell s w k v = s.incReg Reg.RING_DBERR := by
  simp only [ringDoorbell, hw, badDoorbell]

theorem ringDoorbell_device (hw : windowRing s w k = some r) (hh : (s.ring r).inHost = false) :
    ringDoorbell s w k v = s.incReg Reg.RING_DBERR := by
  simp only [ringDoorbell, hw, hh, Bool.false_eq_true, not_false_eq_true, true_or, or_true, if_true, badDoorbell]

theorem doorbellsRefused : Say.DoorbellsRefused := by
  intro s p w k v hr hm hs
  have enter : ∀ {t}, ringDoorbell s w.val k.val v = t → Leaves (.doorbell p w k v) s t := fun h =>
    leaves_of_eq rfl ((onWindow_reaches hr _).trans ((doorbell_service hm hs).trans h))
  refine ⟨fun hw => enter (ringDoorbell_none hw), fun r hw => ?_⟩
  refine ⟨fun hh => enter (ringDoorbell_device hw hh), fun hst hh => ⟨fun ho hlt => ?_, fun ho hrun hd hbad => ?_⟩⟩
  · exact enter ((ringDoorbell_outbound hw hst hh ho).trans (if_neg (Nat.not_le.2 hlt)))
  · exact enter ((ringDoorbell_inbound hw hst hh ho hrun hd).trans (if_neg hbad))

/-- Settles O26: a doorbell is held in start-up and reaches its ring in Service, where it moves the host's count or halts
the ring. -/
theorem hostDoorbells : Obligations.HostDoorbells := by
  refine ⟨fun s p w k v hr ht => ⟨fun hm => ?_, fun r hm hs hw => ?_⟩, fun s w k v hd hm => ?_, doorbellsRefused⟩
  · exact leaves_of_eq rfl ((onWindow_reaches hr _).trans (doorbell_starting ht hm))
  · have enter : ∀ {t}, ringDoorbell s w.val k.val v = t → Leaves (.doorbell p w k v) s t := fun h =>
      leaves_of_eq rfl ((onWindow_reaches hr _).trans ((doorbell_service hm hs).trans h))
    refine fun hst hh => ⟨fun ho hle => ?_, fun ho hrun hd hmod hle => ?_⟩
    · exact enter ((ringDoorbell_outbound hw hst hh ho).trans (if_pos hle))
    · exact enter ((ringDoorbell_inbound hw hst hh ho hrun hd).trans (if_pos ⟨hmod, hle⟩))
  · refine leaves_of_eq rfl ((if_neg hm).trans ?_)
    rw [hd]
    rfl

end Sys2Proof.Machine
end

section
/-! SUPPORT. The windows of the hosts (R376, R380, R388-R391, R395, R396): the push and pop ports, and what the local bus and
QSPI read and write. -/

open Sys2Proof.Say

namespace Sys2Proof.Machine

variable {s u : State} {p : Iface} {w r n : Nat} {v : Word32}

/-! ## Ports -/

@[simp] theorem hport_setHport_self (s : State) (p : Iface) (w : Nat) (x : HostPort) : (s.setHport p w x).hport p w = x := by
  simp [State.hport, State.setHport]

@[simp] theorem ring_setHport (s : State) (p : Iface) (w r : Nat) (x : HostPort) : (s.setHport p w x).ring r = s.ring r := rfl
@[simp] theorem ring_statInc (s : State) (o n r : Nat) : (s.statInc o n).ring r = s.ring r := rfl
@[simp] theorem mem_setHport (s : State) (p : Iface) (w : Nat) (x : HostPort) : (s.setHport p w x).mem = s.mem := rfl
@[simp] theorem tags_setHport (s : State) (p : Iface) (w : Nat) (x : HostPort) : (s.setHport p w x).tags = s.tags := rfl
@[simp] theorem mem_setRing (s : State) (r : Nat) (x : Ring) : (s.setRing r x).mem = s.mem := rfl
@[simp] theorem tags_setRing (s : State) (r : Nat) (x : Ring) : (s.setRing r x).tags = s.tags := rfl
@[simp] theorem hport_statInc (s : State) (o n : Nat) (p : Iface) (w : Nat) : (s.statInc o n).hport p w = s.hport p w := rfl
@[simp] theorem hport_setRing (s : State) (r : Nat) (x : Ring) (p : Iface) (w : Nat) :
    (s.setRing r x).hport p w = s.hport p w := rfl

/-- The entry that a push takes from the staging buffer (R395). -/
def stagedEntry (x : HostPort) (n : Nat) : Payload :=
  let half := fun k => (sget (fun _ => (0 : Word32)) x.staging k).setWidth 64
  ⟨64 * n, (List.range (8 * n)).map fun k => rawW (half (2 * k) ||| half (2 * k + 1) <<< 32)⟩

/-- A push of an entry that its inbound device ring may take (R396). -/
theorem pushWrite_taken (hw : windowRing s w (fld v.toNat 16 10) = some r) (ho : (s.ring r).outbound = false)
    (hh : (s.ring r).inHost = false) (hst : (s.ring r).st = 1) (hrun : ownerRuns s (s.ring r).owner = true)
    (hlo : 1 ≤ fld v.toNat 0 5) (hhi : fld v.toNat 0 5 ≤ 16) (hgood : ∀ k, k < fld v.toNat 0 5 → k ∉ (s.hport p w).stagingBad)
    (hc : countOk (s.ring r) (stagedEntry (s.hport p w) (fld v.toNat 0 5)) (fld v.toNat 0 5) = true) :
    pushWrite s p w v =
      if (s.ring r).size < fld v.toNat 0 5 ∨ (s.ring r).free < fld v.toNat 0 5 then
        pushEnd (s.statInc (ringStat r 8)) p w St.ringFull
      else pushEnd (ringPut s r (stagedEntry (s.hport p w) (fld v.toNat 0 5)) (fld v.toNat 0 5)) p w St.ok := by
  have hargs : ¬ (((s.ring r).en ∧ ((s.ring r).outbound ∨ (s.ring r).inHost)) ∨ fld v.toNat 0 5 = 0 ∨ 16 < fld v.toNat 0 5) := by
    simp only [ho, hh, Bool.false_eq_true, or_self, and_false, false_or]
    omega
  have hruns : ¬ ((s.ring r).en = true ∧ ¬ ownerRuns s (s.ring r).owner = true) := fun h => h.2 hrun
  have hany : ((List.range (fld v.toNat 0 5)).any fun k => decide (k ∈ (s.hport p w).stagingBad)) = false := by
    simpa using hgood
  simp only [stagedEntry] at hc
  simp only [pushWrite, hw]
  rw [if_neg hargs, if_neg hruns]
  simp only [ringRefusal_active hst, hany, Bool.false_eq_true, if_false, hc, not_true_eq_false, stagedEntry]

/-- A pop of an outbound device ring takes what its head holds (R395). -/
theorem popWrite_eq (hw : windowRing s w (fld v.toNat 16 10) = some r) (ho : (s.ring r).outbound = true)
    (hh : (s.ring r).inHost = false) (hst : (s.ring r).st = 1) :
    popWrite s p w v = match ringHeadEntry s r none with
      | none => s.setHport p w { s.hport p w with popStat := St.ok, popped := 0 }
      | some (n, ws, fail, u) =>
        let u := u.setHport p w { u.hport p w with popBuf := ws }
        u.setHport p w { u.hport p w with popStat := if fail then St.carryFault else St.ok, popped := n } := by
  have hargs : ¬ ((s.ring r).en = true ∧ (¬ (s.ring r).outbound = true ∨ (s.ring r).inHost = true)) := by
    simp [ho, hh]
  simp only [popWrite, hw]
  rw [if_neg hargs]
  simp only [ringRefusal_active hst] <;> rfl

theorem ringHeadEntry_empty {who : Option Nat} (h : (s.ring r).lens = []) : ringHeadEntry s r who = none := by
  simp only [ringHeadEntry, h]

/-- A pop that takes an entry: the ring without it, and its words in the port's buffer. -/
theorem popWrite_taken {ls : List Nat} (hw : windowRing s w (fld v.toNat 16 10) = some r)
    (ho : (s.ring r).outbound = true) (hh : (s.ring r).inHost = false) (hst : (s.ring r).st = 1)
    (hl : (s.ring r).lens = n :: ls)
    (hgood : ∀ k, k < n → s.isBad ((s.ring r).slotAddr ((s.ring r).head + BitVec.ofNat 32 k)) = false) :
    (popWrite s p w v).ring r = { s.ring r with head := (s.ring r).head + BitVec.ofNat 32 n, lens := ls } ∧
      (popWrite s p w v).hport p w = { s.hport p w with
        popBuf := ((List.range n).map fun k => s.rdWords ((s.ring r).slotAddr ((s.ring r).head + BitVec.ofNat 32 k)) 8).flatten
        popStat := St.ok, popped := n } ∧
      (popWrite s p w v).mem = s.mem ∧ (popWrite s p w v).tags = s.tags := by
  rw [popWrite_eq hw ho hh hst, ringHeadEntry_good hl hgood]
  simp

/-! ## Reads of a window -/

/-- A read latches, or uses up, an upper half, and changes nothing else (R30). -/
theorem winLatch_eq (s : State) (p : Iface) (w off : Nat) :
    winLatch s p w off = { s with latch := (winLatch s p w off).latch } := by
  simp only [winLatch]
  split
  · rfl
  · split <;> rfl

theorem winLatch_plain {off : Nat} (h : winLower off = false) (h4 : off < 4 ∨ winLower (off - 4) = false) :
    winLatch s p w off = s := by
  have hupper : ¬ (4 ≤ off ∧ winLower (off - 4) = true) := by
    rintro ⟨hle, ht⟩
    rcases h4 with h4 | h4
    · omega
    · rw [h4] at ht
      cases ht
  simp only [winLatch, h, Bool.false_eq_true, if_false, if_neg hupper]

/-- A word that is no slot of the pop buffer goes out as the window shows it. -/
theorem readOut_word {w off : Nat} (h : popSlot off = none) : readOut s p w off = (winRead s p w off, s) := by
  simp only [readOut, h, ite_self]

theorem readOut_slot {off k : Nat} (hoff : off < 65536) (hs : serving s = true) (h : popSlot off = some k)
    (he : egress s (0x30 + ifaceIdx p) none = (true, u)) : readOut s p w off = (winRead u p w off, u) := by
  simp only [readOut, hoff, hs, and_self, if_true, h, he]

/-- A slot that fails its check as it leaves is POISON from then on (R121). -/
theorem readOut_slot_fails {off k : Nat} (hoff : off < 65536) (hs : serving s = true) (h : popSlot off = some k)
    (he : egress s (0x30 + ifaceIdx p) none = (false, u)) : readOut s p w off = popFails u p w k := by
  simp only [readOut, hoff, hs, and_self, if_true, h, he]

theorem hostRead_out {a : Nat} (h : readOut s p (a / 65536) (a % 65536) = (v, u)) :
    hostRead s p a = { u with outbox := u.outbox ++ [.hostRead p a v], latch := (hostRead s p a).latch } := by
  simp only [hostRead, h]
  exact winLatch_eq _ _ _ _

theorem hostRead_word {a : Nat} (h : popSlot (a % 65536) = none) :
    hostRead s p a = winLatch { s with outbox := s.outbox ++ [.hostRead p a (winRead s p (a / 65536) (a % 65536))] } p
      (a / 65536) (a % 65536) := by
  simp only [hostRead, readOut_word h]

theorem hostRead_word_latch {a : Nat} (h : popSlot (a % 65536) = none) :
    hostRead s p a = { s with
      outbox := s.outbox ++ [.hostRead p a (winRead s p (a / 65536) (a % 65536))], latch := (hostRead s p a).latch } :=
  hostRead_out (readOut_word h)

/-! ## QSPI (R388-R391) -/

/-- The words of a read that ends within its window. -/
theorem qspiAddrs_within {a n : Nat} (h : a % 65536 + 4 * n ≤ 65536) :
    qspiAddrs a n = (List.range n).map fun k => a + 4 * k := by
  rw [qspiAddrs, Nat.min_eq_left (by omega)]

theorem winAddr_last {a : Nat} (h : winAddr a = true) : a % 65536 + 4 * 1 ≤ 65536 := by
  have : a % 4 = 0 ∧ a < 0x400000 := by simpa [winAddr] using h
  omega

theorem qspiRead_within {a n : Nat} (hr : reaches s .qspi 0 = true) (ha : winAddr a = true) (h : a % 65536 + 4 * n ≤ 65536) :
    qspiRead s a n =
      let t := (List.range n).foldl (fun s k => hostRead s .qspi (a + 4 * k)) s
      let crc := crc16 ([BitVec.ofNat 8 (a / 65536), BitVec.ofNat 8 (a / 256), BitVec.ofNat 8 a] ++
        readBytes (t.outbox.drop s.outbox.length))
      if t.regBit Reg.RING_HIF 3 then { t with outbox := t.outbox ++ [Out.qspiCrc crc] } else t := by
  simp only [qspiRead, hr, ha, Bool.and_self, if_true, qspiAddrs_within h, List.length_map, List.length_range, Nat.sub_self,
    List.range_zero, List.map_nil, List.append_nil, List.foldl_map]

/-- A read of one word, and the CRC after it where QCRC is set (R391). -/
theorem qspiRead_crc {a : Nat} (hr : reaches s .qspi 0 = true) (ha : winAddr a = true) (h : popSlot (a % 65536) = none)
    (hq : s.regBit Reg.RING_HIF 3 = true) :
    (qspiRead s a 1).outbox = s.outbox ++ [.hostRead .qspi a (winRead s .qspi (a / 65536) (a % 65536)), .qspiCrc
      (crc16 ([BitVec.ofNat 8 (a / 65536), BitVec.ofNat 8 (a / 256), BitVec.ofNat 8 a] ++
        leBytes 4 (winRead s .qspi (a / 65536) (a % 65536)).toNat))] := by
  have hreg : (hostRead s .qspi a).regBit Reg.RING_HIF 3 = true := by
    rw [hostRead_word_latch h]
    exact hq
  have hout : (hostRead s .qspi a).outbox = s.outbox ++ [.hostRead .qspi a (winRead s .qspi (a / 65536) (a % 65536))] := by
    rw [hostRead_word_latch h]
  have hone : (List.range 1).foldl (fun s k => hostRead s .qspi (a + 4 * k)) s = hostRead s .qspi a := rfl
  rw [qspiRead_within hr ha (winAddr_last ha), hone]
  simp only [hreg, if_true, hout, List.drop_left, readBytes, List.append_nil, List.append_assoc, List.singleton_append]

theorem qspiWrite_reached {a : Nat} {d : List Byte} {crcOk : Bool} (hr : reaches s .qspi 0 = true) (ha : winAddr a = true) :
    qspiWrite s a d crcOk =
      if s.regBit Reg.RING_HIF 3 ∧ ¬ crcOk then
        { s.incReg Reg.RING_QCRCERR with host := { (s.incReg Reg.RING_QCRCERR).host with
          qstat := (s.incReg Reg.RING_QCRCERR).host.qstat ||| 2 } }
      else if d.length % 4 ≠ 0 ∨ 1024 < d.length then { s with host := { s.host with qstat := s.host.qstat ||| 4 } }
      else (qspiAddrs a (d.length / 4)).foldl (fun s b =>
        winWrite s .qspi (b / 65536) (b % 65536) (BitVec.ofNat 32 (getLe d (b - a) 4))) s := by
  simp only [qspiWrite, hr, ha, Bool.and_self, if_true]

/-- A write of one word. -/
theorem qspiWrite_word {a : Nat} {d : List Byte} {crcOk : Bool} (hr : reaches s .qspi 0 = true) (ha : winAddr a = true)
    (hd : d.length = 4) (hc : s.regBit Reg.RING_HIF 3 = false ∨ crcOk = true) :
    qspiWrite s a d crcOk = winWrite s .qspi (a / 65536) (a % 65536) (BitVec.ofNat 32 (getLe d 0 4)) := by
  have hcrc : ¬ (s.regBit Reg.RING_HIF 3 = true ∧ ¬ crcOk = true) := by
    rintro ⟨hb, hn⟩
    rcases hc with h | h
    · rw [h] at hb
      cases hb
    · exact hn h
  have haddr : qspiAddrs a (d.length / 4) = [a] := by
    rw [hd, qspiAddrs_within (winAddr_last ha)]
    rfl
  rw [qspiWrite_reached hr ha, if_neg hcrc, if_neg (by rw [hd]; decide), haddr]
  simp only [List.foldl_cons, List.foldl_nil, Nat.sub_self]

/-! ## The statements -/

theorem windowsRefuse : Say.WindowsRefuse := by
  refine ⟨fun s p w v r hr hs hw hen hh hst => ⟨fun ho hrun hlo hhi hgood hc hfull => ?_, fun ho hl => ?_⟩,
    fun s a d ha hr => ⟨fun hq => ?_, fun hd => ?_⟩⟩
  · refine leaves_of_eq rfl ((served_eq hr hs _).trans ?_)
    rw [pushWrite_taken hw ho hh hst hrun hlo hhi hgood hc, if_pos (.inr hfull)]
  · refine leaves_of_eq rfl ((served_eq hr hs _).trans ?_)
    rw [popWrite_eq hw ho hh hst, ringHeadEntry_empty hl]
  · exact leaves_of_eq rfl ((qspiWrite_reached hr ha).trans (if_pos ⟨hq, Bool.false_ne_true⟩))
  · exact leaves_of_eq rfl ((qspiWrite_reached hr ha).trans ((if_neg fun h => h.2 rfl).trans (if_pos (.inl hd))))

theorem windowsAreRead : Say.WindowsAreRead := by
  refine ⟨fun s p a h => ⟨?_, ?_, ?_, ?_, ?_, fun hl h4 => ?_⟩, fun s u p a k hs hk => ⟨fun he => ?_, fun he => ?_⟩,
    fun s a ha h hr hq => ?_⟩
  · rw [hostRead_word_latch h]
  · rw [hostRead_word_latch h]
  · rw [hostRead_word_latch h]
  · rw [hostRead_word_latch h]
  · rw [hostRead_word_latch h]
  · rw [hostRead_word h, winLatch_plain hl h4]
  · rw [hostRead_out (readOut_slot (Nat.mod_lt _ (by decide)) hs hk he)]
  · have hout := readOut_slot_fails (w := a / 65536) (Nat.mod_lt _ (by decide)) hs hk he
    refine ⟨(popFails u p (a / 65536) k).1, ?_, ?_⟩
    · rw [hostRead_out hout]
      rfl
    · rw [hostRead_out hout]
      exact congrArg HostPort.popBuf (hport_setHport_self _ _ _ _)
  · exact ⟨_, leaves_of_eq rfl rfl, qspiRead_crc hr ha h hq⟩

/-- Settles O27: the ports act on the ring that the window's number names, and a read or a write of an interface is that of
its words. QSPI status bit 7, the CRC of QSPI and the check as a slot leaves are log entries 89 (DEDUCED), 128 (PRESUMED)
and 121. -/
theorem hostWindows : Obligations.HostWindows := by
  refine ⟨fun s p w v r hr hs hw => ?_, fun s a n v d crcOk ha => ⟨fun hr => ⟨?_, ?_⟩, fun hr => ⟨fun hfit hq => ⟨?_, ?_⟩,
    fun hd hc => ⟨?_, ?_⟩, ?_, ?_⟩⟩, windowsRefuse, windowsAreRead⟩
  · intro x port hen hh hst
    refine ⟨fun ho => ?_, fun ho n ls hl hgood => ?_⟩
    · intro n half d hrun hlo hhi hgood hc hsize hfree
      refine leaves_of_eq rfl ((served_eq hr hs _).trans ?_)
      rw [pushWrite_taken hw ho hh hst hrun hlo hhi hgood hc,
        if_neg (not_or.2 ⟨Nat.not_lt.2 hsize, Nat.not_lt.2 hfree⟩)]
      rfl
    · exact ⟨_, leaves_of_eq rfl (served_eq hr hs _), popWrite_taken hw ho hh hst hl hgood⟩
  · exact leaves_of_eq rfl (if_pos (by rw [hr, ha]; rfl))
  · exact leaves_of_eq rfl (if_pos (by rw [hr, ha]; rfl))
  · exact leaves_of_eq rfl ((qspiRead_within hr ha hfit).trans (if_neg (by rw [hq]; exact Bool.false_ne_true)))
  · exact leaves_of_eq rfl ((qspiRead_within hr ha hfit).trans (if_neg (by rw [hq]; exact Bool.false_ne_true)))
  · exact leaves_of_eq rfl (qspiWrite_word hr ha hd hc)
  · exact leaves_of_eq rfl (qspiWrite_word hr ha hd hc)
  · exact leaves_of_eq rfl (if_pos hr)
  · exact leaves_of_eq rfl (if_pos hr)

end Sys2Proof.Machine
end

section
/-! SUPPORT. Functions and the link (R381, R384-R386): what stops rings of host memory. -/

open Sys2Proof.Say

namespace Sys2Proof.Machine

variable {s : State} {f : Nat} {hit : Nat → Bool}

/-- A step of `stopRings`: a ring of the list stops where it is Active or Halted and meets the condition. -/
def stopOne (p : Ring → Bool) (err : Word16) (s : State) (r : Nat) : State :=
  if ((s.ring r).st = 1 ∨ (s.ring r).st = 2) ∧ p (s.ring r) then stopRing s r err else s

theorem stopOne_eq (p : Ring → Bool) (err : Word16) (s : State) (r : Nat) :
    stopOne p err s r = { s with rings := (stopOne p err s r).rings, tickets := (stopOne p err s r).tickets } := by
  unfold stopOne
  split
  · exact stopRing_eq s r err
  · rfl

/-- The rings of a list are stopped one after the other; nothing but rings and tickets changes. -/
theorem stopAll_eq (p : Ring → Bool) (err : Word16) (l : List (Nat × Ring)) (s : State) :
    l.foldl (fun s q => stopOne p err s q.1) s = { s with
      rings := (l.foldl (fun s q => stopOne p err s q.1) s).rings
      tickets := (l.foldl (fun s q => stopOne p err s q.1) s).tickets } := by
  induction l generalizing s with
  | nil => rfl
  | cons q l ih =>
    rw [List.foldl_cons, ih, stopOne_eq]

theorem stopRings_eq (s : State) (p : Ring → Bool) (err : Word16) :
    stopRings s p err =
      { s with rings := (stopRings s p err).rings, tickets := (stopRings s p err).tickets } :=
  stopAll_eq p err s.rings s

/-- A ring after a stop of the rings with a property of their fixed fields (R397). -/
def StoppedAs (p : Ring → Bool) (x y : Ring) : Prop :=
  y.st = (if (x.st = 1 ∨ x.st = 2) ∧ p x = true then 3 else x.st) ∧ y.head = x.head ∧ y.tail = x.tail ∧ y.cfg = x.cfg

/-- Whether a ring meets the property is told by RING.CFG, which a stop leaves. -/
def OnCfg (p : Ring → Bool) : Prop := ∀ x y : Ring, x.cfg = y.cfg → p x = p y

theorem stopOne_ring_self (p : Ring → Bool) (err : Word16) (s : State) (r : Nat) :
    StoppedAs p (s.ring r) ((stopOne p err s r).ring r) := by
  by_cases h : ((s.ring r).st = 1 ∨ (s.ring r).st = 2) ∧ p (s.ring r) = true
  · rw [stopOne, if_pos h, stopRing_ring_self]
    exact ⟨(if_pos h).symm, rfl, rfl, rfl⟩
  · rw [stopOne, if_neg h]
    exact ⟨(if_neg h).symm, rfl, rfl, rfl⟩

theorem stopOne_ring_ne (p : Ring → Bool) (err : Word16) (s : State) {r q : Nat} (h : q ≠ r) :
    (stopOne p err s r).ring q = s.ring q := by
  unfold stopOne
  split
  · exact stopRing_ring_ne s err h
  · rfl

/-- A ring that is stopped, or that does not meet the property, stays as a further stop finds it. -/
theorem StoppedAs.again {p : Ring → Bool} {x y z : Ring} (hp : OnCfg p) (hxy : StoppedAs p x y) (hyz : StoppedAs p y z) :
    StoppedAs p x z := by
  obtain ⟨hst, hh, ht, hc⟩ := hxy
  obtain ⟨hst', hh', ht', hc'⟩ := hyz
  refine ⟨?_, hh'.trans hh, ht'.trans ht, hc'.trans hc⟩
  rw [hst', hp y x hc]
  by_cases h : (x.st = 1 ∨ x.st = 2) ∧ p x = true
  · rw [if_pos h] at hst ⊢
    rw [hst]
    exact if_neg fun h3 => h3.1.elim (by decide) (by decide)
  · rw [if_neg h] at hst ⊢
    rw [hst, if_neg h]

/-- A ring among those of the list is stopped where it meets the property; another is as it was. -/
theorem stopAll_ring {p : Ring → Bool} (hp : OnCfg p) (err : Word16) (l : List (Nat × Ring)) (s : State) (r : Nat) :
    ((∃ q ∈ l, q.1 = r) → StoppedAs p (s.ring r) ((l.foldl (fun s q => stopOne p err s q.1) s).ring r)) ∧
      ((∀ q ∈ l, q.1 ≠ r) → (l.foldl (fun s q => stopOne p err s q.1) s).ring r = s.ring r) := by
  induction l generalizing s with
  | nil => exact ⟨fun ⟨_, h, _⟩ => absurd h List.not_mem_nil, fun _ => rfl⟩
  | cons q l ih =>
    obtain ⟨hin, hout⟩ := ih (stopOne p err s q.1)
    rw [List.foldl_cons]
    by_cases hq : q.1 = r
    · refine ⟨fun _ => ?_, fun h => absurd hq (h q List.mem_cons_self)⟩
      rw [hq] at hin hout ⊢
      by_cases hl : ∃ q' ∈ l, q'.1 = r
      · exact (stopOne_ring_self p err s r).again hp (hin hl)
      · rw [hout fun q' hq' he => hl ⟨q', hq', he⟩]
        exact stopOne_ring_self p err s r
    · have hne : (stopOne p err s q.1).ring r = s.ring r := stopOne_ring_ne p err s (Ne.symm hq)
      rw [hne] at hin hout
      refine ⟨fun ⟨q', hmem, he⟩ => ?_, fun h => hout fun q' hq' => h q' (List.mem_cons_of_mem _ hq')⟩
      rcases List.mem_cons.1 hmem with rfl | hmem
      · exact absurd he hq
      · exact hin ⟨q', hmem, he⟩

theorem sget_of_not_mem {α : Type} (d : Nat → α) (m : List (Nat × α)) (k : Nat) (h : ∀ q ∈ m, q.1 ≠ k) :
    sget d m k = d k := by
  induction m with
  | nil => rfl
  | cons q m ih =>
    rw [sget, if_neg (h q List.mem_cons_self), ih fun q' hq' => h q' (List.mem_cons_of_mem _ hq')]

/-- Every ring after a stop: one that no record holds is off, and stays so. -/
theorem stopRings_ring {p : Ring → Bool} (hp : OnCfg p) (s : State) (err : Word16) (r : Nat) :
    StoppedAs p (s.ring r) ((stopRings s p err).ring r) := by
  obtain ⟨hin, hout⟩ := stopAll_ring hp err s.rings s r
  by_cases h : ∃ q ∈ s.rings, q.1 = r
  · exact hin h
  · have hno : ∀ q ∈ s.rings, q.1 ≠ r := fun q hq he => h ⟨q, hq, he⟩
    have hring : s.ring r = {} := sget_of_not_mem _ _ _ hno
    have hsame : (stopRings s p err).ring r = s.ring r := hout hno
    rw [hsame]
    refine ⟨?_, rfl, rfl, rfl⟩
    rw [hring]
    exact (if_neg fun h => h.1.elim (by decide) (by decide)).symm

/-- The host-memory rings whose owner the stop reaches (R385). -/
theorem stopHostRings_ring (s : State) (hit : Nat → Bool) (r : Nat) :
    ((stopHostRings s hit).ring r).st = (if ((s.ring r).st = 1 ∨ (s.ring r).st = 2) ∧ (s.ring r).inHost = true ∧
        hit (s.ring r).owner = true then 3 else (s.ring r).st) ∧
      ((stopHostRings s hit).ring r).head = (s.ring r).head ∧ ((stopHostRings s hit).ring r).tail = (s.ring r).tail ∧
      ((stopHostRings s hit).ring r).cfg = (s.ring r).cfg := by
  have hp : OnCfg fun x => x.inHost && hit x.owner := fun x y h => by
    simp only [Ring.inHost, Ring.owner, h]
  obtain ⟨hst, hrest⟩ := stopRings_ring hp s St.ringStopped r
  refine ⟨?_, hrest⟩
  rw [stopHostRings, hst]
  simp only [Bool.and_eq_true]

theorem stopHostRings_eq (s : State) (hit : Nat → Bool) :
    stopHostRings s hit = { s with rings := (stopHostRings s hit).rings, tickets := (stopHostRings s hit).tickets } :=
  stopRings_eq _ _ _

/-- A disabled endpoint stops every host-memory ring (R381). -/
theorem stopRings_inHost (s : State) (err : Word16) : stopRings s (·.inHost) err = stopRings s (fun x => x.inHost && true) err := by
  simp only [Bool.and_true]

/-- What a stop of host-memory rings leaves of `s`, in a state that has the rings of `stopHostRings u`. -/
theorem stopped_of_rings {s u : State} {hit : Nat → Bool} (hu : u.rings = s.rings) (r : Nat) :
    ((stopHostRings u hit).ring r).st = (if ((s.ring r).st = 1 ∨ (s.ring r).st = 2) ∧ (s.ring r).inHost = true ∧
        hit (s.ring r).owner = true then 3 else (s.ring r).st) ∧
      ((stopHostRings u hit).ring r).head = (s.ring r).head ∧ ((stopHostRings u hit).ring r).tail = (s.ring r).tail ∧
      ((stopHostRings u hit).ring r).cfg = (s.ring r).cfg := by
  have hr : u.ring r = s.ring r := by rw [State.ring, hu]; rfl
  rw [← hr]
  exact stopHostRings_ring u hit r

theorem stopHostRings_host (s : State) (hit : Nat → Bool) : (stopHostRings s hit).host = s.host := by
  rw [stopHostRings_eq]

theorem stopHostRings_reg (s : State) (hit : Nat → Bool) (a : Nat) : (stopHostRings s hit).reg a = s.reg a := by
  rw [stopHostRings_eq]; rfl

/-- Settles O28: each of the events stops the host-memory rings whose owner it reaches, by one rule over all rings. The
readings of Bus Master Enable and of a link that goes down are log entries 20 (DESIGN CHOICE) and 87 (DEDUCED). -/
theorem functionsStopTheirRings : Obligations.FunctionsStopTheirRings := by
  refine fun s f => ⟨fun hr => ⟨⟨flr s f.val, leaves_of_eq rfl rfl, ?_⟩, ?_⟩, ?_, ?_, ?_⟩
  · have hnr : ¬ ¬ reaches s .pcie f.val = true := not_not.2 hr
    have hall : (f.val == 0) = (f == 0) := by
      rw [Bool.eq_iff_iff, beq_iff_eq, beq_iff_eq, Fin.ext_iff]; rfl
    rw [flr, if_neg hnr]
    simp only [hall]
    refine ⟨fun r => stopped_of_rings (u := s.incReg Reg.RING_FLRCNT) rfl r, ?_, fun h0 => ?_, ?_⟩
    · simp
    · simp [h0]
    · refine (stopHostRings_reg _ _ _).trans ?_
      exact State.reg_setReg_self _ _ _
  · refine ⟨_, leaves_of_eq rfl (if_pos hr), fun r => stopped_of_rings rfl r, ?_⟩
    rw [stopHostRings_host]
    dsimp only
    split <;> simp [*]
  · intro hr en n
    refine ⟨vfChange s en n.val, leaves_of_eq rfl rfl, ?_⟩
    rw [vfChange, if_neg (not_not.2 hr)]
    exact ⟨fun r => stopped_of_rings rfl r, congrArg HostSide.vfEnable (stopHostRings_host _ _)⟩
  · intro hup hen width speed
    have hon : ¬ (¬ s.pwr.up = true ∨ ¬ s.regBit Reg.RING_HIF 0 = true) := fun h => h.elim (· hup) (· hen)
    refine ⟨fun hw hs => leaves_of_eq rfl ((if_neg hon).trans (if_neg fun h => h.elim hw hs)),
      linkChange s 0 speed, leaves_of_eq rfl rfl, ?_⟩
    rw [linkChange, if_neg hon, if_pos (.inl rfl)]
    exact ⟨fun r => stopped_of_rings rfl r, by rw [stopHostRings_host]⟩
  · intro hk v
    refine ⟨hifWrite s v, leaves_of_eq rfl (byKeeper_running hk _), ?_⟩
    cases hv : v.getLsbD 0 with
    | true =>
      have ht : hifWrite s v = s.setReg Reg.RING_HIF (v &&& 0x1F) := if_pos hv
      rw [ht]
      exact ⟨State.reg_setReg_self _ _ _, nofun⟩
    | false =>
      have ht : hifWrite s v = stopHostRings { s.setReg Reg.RING_HIF (v &&& 0x1F) with
          host := { s.host with width := 0, speed := 0, vfEnable := false, numVfs := 0, bmeOff := [] } } (fun _ => true) :=
        (if_neg fun h => Bool.false_ne_true (hv.symm.trans h)).trans (stopRings_inHost _ _)
      rw [ht, stopHostRings_reg, stopHostRings_host]
      exact ⟨State.reg_setReg_self _ _ _, fun _ => ⟨fun r => stopped_of_rings rfl r, rfl⟩⟩

end Sys2Proof.Machine
end

section
/-! SUPPORT. The commit (R104-R117): its admission, where it waits alone, and what the parts of an admission leave. -/

open Sys2Proof.Say

namespace Sys2Proof.Machine

variable {s : State} {c : Commit}

/-- What each step of a fold leaves, the fold leaves. -/
theorem foldl_leaves {α β γ : Type} (m : α → γ) {f : α → β → α} (hf : ∀ a b, m (f a b) = m a) (l : List β) (a : α) :
    m (l.foldl f a) = m a := by
  induction l generalizing a with
  | nil => rfl
  | cons b l ih => exact (ih (f a b)).trans (hf a b)

/-- The state without its durable state. -/
def State.butDur (s : State) : State := { s with dur := {} }

/-- The state without its durable state and its statistics. -/
def State.butDurStat (s : State) : State := { s with dur := {}, stat := [] }

/-- A close of strips changes the durable state only. -/
theorem settleVol_butDur (s : State) (v : Nat) : (settleVol s v).butDur = s.butDur := by
  unfold settleVol
  dsimp only
  split <;> rfl

theorem settleStrips_butDur (s : State) : (settleStrips s).butDur = s.butDur :=
  foldl_leaves State.butDur (fun s (p : Nat × Vol) => settleVol_butDur s p.1) _ s

theorem fullStrips_butDur (s : State) (d : Durable) (l : List Eff) : (fullStrips s d l).butDur = s.butDur := by
  refine foldl_leaves (fun a : State × Durable => a.1.butDur) (fun a e => ?_) l (s, d)
  cases e
  case record v r => dsimp only; split <;> rfl
  all_goals rfl

theorem butDurStat_of_butDur {s t : State} (h : t.butDur = s.butDur) : t.butDurStat = s.butDurStat :=
  congrArg (fun u : State => { u with stat := [] }) h

/-- A sample after a main loss changes the supply, its statistic and the free values (log entry 15). -/
theorem flushSample_eq (s : State) : flushSample s = { s with
    pwr := (flushSample s).pwr, stat := (flushSample s).stat, freeCtr := (flushSample s).freeCtr } := by
  unfold flushSample sampleVhold lowVhold
  split
  · rfl
  · rfl

theorem flushSample_low (s : State) : (flushSample s).pwr.low = s.pwr.low := by
  unfold flushSample sampleVhold lowVhold
  split
  · rfl
  · rfl

theorem flushSample_flush (s : State) : (flushSample s).pwr.flush = s.pwr.flush := by
  unfold flushSample sampleVhold lowVhold
  split
  · rfl
  · rfl

@[simp] theorem flushSample_tdl (s : State) : (flushSample s).tdl = s.tdl := by rw [flushSample_eq]
@[simp] theorem flushSample_kpr (s : State) : (flushSample s).kpr = s.kpr := by rw [flushSample_eq]
@[simp] theorem flushSample_dur (s : State) : (flushSample s).dur = s.dur := by rw [flushSample_eq]
@[simp] theorem flushSample_mem (s : State) : (flushSample s).mem = s.mem := by rw [flushSample_eq]
@[simp] theorem flushSample_tickets (s : State) : (flushSample s).tickets = s.tickets := by rw [flushSample_eq]

/-- The requester that an admission begins with next is not looked at by the checks of a commit. -/
def withPtr (s : State) (p : Nat) : State := { s with tdl := { s.tdl with ptr := p } }

theorem resolveAll_withPtr (s : State) (p : Nat) (c : Commit) (d : Durable) (n : Nat) :
    resolveAll (withPtr s p) c d n = resolveAll s c d n := rfl

theorem checkState_withPtr (s : State) (p : Nat) (c : Commit) (d : Durable) :
    checkState (withPtr s p) c d = checkState s c d := rfl

theorem fits_withPtr (s : State) (p : Nat) (c : Commit) : fits (withPtr s p) c = fits s c := rfl

/-- The one element of a list that a search takes is what it finds. -/
theorem findSome?_of_only {α β : Type} {l : List α} {g : α → Option β} {a : α} {b : β} (hmem : a ∈ l) (ha : g a = some b)
    (hne : ∀ x ∈ l, x ≠ a → g x = none) : l.findSome? g = some b := by
  induction l with
  | nil => exact absurd hmem List.not_mem_nil
  | cons x l ih =>
    rw [List.findSome?_cons]
    by_cases hx : x = a
    · rw [hx, ha]
    · rw [hne x List.mem_cons_self hx]
      exact ih ((List.mem_cons.1 hmem).resolve_left (Ne.symm hx)) fun y hy => hne y (List.mem_cons_of_mem _ hy)

theorem headOf_one (h : s.tdl.waiting = [c]) (src : Nat) : headOf s src = if c.src = src then some c else none := by
  unfold headOf
  rw [h]
  by_cases h64 : src = 64
  · rw [if_pos h64, h64]
    by_cases hc : c.src = 64
    · rw [if_pos hc]
      cases hr : c.reserve <;> simp [hc, hr]
    · simp [hc]
  · rw [if_neg h64]
    by_cases hc : c.src = src <;> simp [hc]

/-- The records of a start-up and of a change of mode go first (R53). -/
def goesFirst (c : Commit) : Bool := match c.purpose with | .startup => true | .transition _ => true | _ => false

theorem goesFirst_no (h1 : c.purpose ≠ .startup) (h2 : ∀ n, c.purpose ≠ .transition n) : goesFirst c = false := by
  unfold goesFirst
  split
  · exact absurd (by assumption) h1
  · exact absurd (by assumption) (h2 _)
  · rfl

/-- The one waiting commit, of any requester, is the one that an admission looks at (R109). -/
theorem admission_one (hwait : s.tdl.waiting = [c]) (hsrc : c.src < 65) (hrep : s.kpr.replayDone = true)
    (hlast : s.tdl.admitted.any Commit.last = false) (hlow : s.pwr.low = false) (hrec : s.kpr.records = true)
    (hfirst : goesFirst c = false) (hready : c.ready s = true) :
    admission s = admitOrFail (withPtr s ((c.src + 1) % 65)) c := by
  have hfind : s.tdl.waiting.find? goesFirst = none := by
    rw [hwait, List.find?_cons_of_neg (by rw [hfirst]; decide)]; rfl
  have hsome : ((List.range 65).map fun k => (s.tdl.ptr + k) % 65).findSome? (fun src => (headOf s src).bind fun c =>
      if c.ready s then some c else none) = some c := by
    refine findSome?_of_only (a := c.src) ?_ ?_ ?_
    · exact List.mem_map.2 ⟨(c.src + 65 - s.tdl.ptr % 65) % 65, List.mem_range.2 (Nat.mod_lt _ (by decide)), by omega⟩
    · rw [headOf_one hwait, if_pos rfl, Option.bind_some, if_pos hready]
    · intro x _ hx
      rw [headOf_one hwait, if_neg (Ne.symm hx)]
      rfl
  refine (if_neg ?_).trans ((if_neg ?_).trans ((if_neg ?_).trans ?_))
  · rw [hrep, hlast]; decide
  · rw [hlow]; decide
  · rw [hrec]; exact fun h => h.1 rfl
  · change (match s.tdl.waiting.find? goesFirst with | some c => _ | none => _) = _
    rw [hfind]
    dsimp only
    rw [hsome]
    rfl

/-- The commit as it stands once it is admitted (R104-R106). -/
def admitted (s : State) (c : Commit) : Commit :=
  let r := resolveAll s c s.projected s.tdl.next
  { c with
    num := s.tdl.next, effs := markLast r.effs, cost := commitCost s r, codes := r.codes, pages := intentPages r
    firstSeq := r.first, time := s.kpr.devtime, lost := r.lost }

/-- The commit joins the admitted ones and takes its journal pages. -/
def admitTo (s : State) (num : Nat) (c : Commit) : State :=
  { s with tdl := { s.tdl with
      next := num + 1, admitted := s.tdl.admitted ++ [c], pages := s.tdl.pages ++ List.replicate c.pages [num] } }

/-- What an admission of a commit does, where every device record finds space and the commit is no fold (R104-R106). -/
theorem admitCommit_butDurStat (hfold : ∀ a, c.purpose ≠ .fold a)
    (hfull : (resolveAll s c s.projected s.tdl.next).devFull = []) :
    (admitCommit s c).butDurStat = (admitTo (unqueue s c) s.tdl.next (admitted s c)).butDurStat := by
  unfold admitCommit
  dsimp only
  rw [hfull]
  split
  · exact absurd (by assumption) (hfold _)
  refine (butDurStat_of_butDur (settleStrips_butDur _)).trans ?_
  exact congrArg (fun t => (admitTo t s.tdl.next (admitted s c)).butDurStat) (fullStrips_butDur (unqueue s c) _ _)

theorem unqueue_one (h : s.tdl.waiting = [c]) : (unqueue s c).tdl.waiting = [] := by
  change s.tdl.waiting.filter _ = []
  rw [h, List.filter_cons_of_neg (by simp)]; rfl

theorem admitted_withPtr (s : State) (p : Nat) (c : Commit) : admitted (withPtr s p) c = admitted s c := by
  have hr : resolveAll (withPtr s p) c (withPtr s p).projected (withPtr s p).tdl.next =
      resolveAll s c s.projected s.tdl.next := resolveAll_withPtr s p c _ _
  unfold admitted
  rw [hr]
  rfl

/-- The one waiting commit, whose checks pass and which fits, is admitted (R104, R106, R116). -/
theorem admission_admits (hwait : s.tdl.waiting = [c]) (hsrc : c.src < 65) (hrep : s.kpr.replayDone = true)
    (hlast : s.tdl.admitted.any Commit.last = false) (hlow : s.pwr.low = false) (hrec : s.kpr.records = true)
    (hnst : c.purpose ≠ .startup) (hntr : ∀ n, c.purpose ≠ .transition n) (hfold : ∀ a, c.purpose ≠ .fold a)
    (hchk : checkState s c s.projected = none) (hbrk : s.kpr.brkReady = true) (hfits : fits s c = true)
    (hfull : (resolveAll s c s.projected s.tdl.next).devFull = []) :
    (admission s).butDurStat =
      (admitTo (unqueue (withPtr s ((c.src + 1) % 65)) c) s.tdl.next (admitted s c)).butDurStat := by
  have hready : c.ready s = true := by
    simp only [Commit.ready, hchk, hfits, hbrk, Bool.and_self, Bool.or_true, Bool.true_or]
  have hnone : checkState (withPtr s ((c.src + 1) % 65)) c (withPtr s ((c.src + 1) % 65)).projected = none :=
    (checkState_withPtr s _ c _).trans hchk
  rw [admission_one hwait hsrc hrep hlast hlow hrec (goesFirst_no hnst hntr) hready, ← admitted_withPtr s ((c.src + 1) % 65)]
  unfold admitOrFail
  rw [hnone]
  dsimp only
  rw [fits_withPtr, if_pos hfits]
  exact admitCommit_butDurStat hfold ((congrArg Resolve.devFull (resolveAll_withPtr s _ c _ _)).trans hfull)

/-- Settles O29: the admission looks at the one commit that waits, and every check has passed. The sample of VHOLD after a
main loss is log entry 15's. -/
theorem aCommitIsAdmitted : Obligations.ACommitIsAdmitted := by
  intro s c hwait hsrc
  refine ⟨?_, ?_, ?_⟩
  · intro u r hrep hlow hrec hlast hnst hntr hfold hchk hbrk hfits hfull
    have hrun : exec .commitAdmission s = done s (admission u) := rfl
    have htdl : u.tdl = s.tdl := flushSample_tdl s
    have hkpr : u.kpr = s.kpr := flushSample_kpr s
    have hmem : u.mem = s.mem := flushSample_mem s
    have htk : u.tickets = s.tickets := flushSample_tickets s
    have hlow : u.pwr.low = false := (flushSample_low s).trans hlow
    have hr : r = resolveAll u c u.projected u.tdl.next := rfl
    clear_value r u
    subst hr
    have hw : u.tdl.waiting = [c] := (congrArg (·.waiting) htdl).trans hwait
    have hall := admission_admits hw hsrc (by rw [hkpr]; exact hrep) (by rw [htdl]; exact hlast) hlow
      (by rw [hkpr]; exact hrec) hnst hntr hfold hchk (by rw [hkpr]; exact hbrk) hfits hfull
    refine ⟨admission u, leaves_of_eq hrun rfl, ?_, ?_, ⟨admitted u c, ?_, ?_, rfl, rfl, rfl, rfl, rfl⟩, ?_, ?_, ?_⟩
    · exact (congrArg (fun t => t.tdl.waiting) hall).trans (unqueue_one (s := withPtr u _) hw)
    · exact (congrArg (fun t => t.tdl.next) hall).trans (congrArg (fun t => t.next + 1) htdl)
    · have had : u.tdl.admitted = s.tdl.admitted := congrArg Tdl.admitted htdl
      exact (congrArg (fun t => t.tdl.admitted) hall).trans (congrArg (· ++ [admitted u c]) had)
    · exact congrArg (fun t => t.next) htdl
    · exact (congrArg State.mem hall).trans hmem
    · exact (congrArg State.tickets hall).trans htk
    · exact (congrArg State.kpr hall).trans hkpr
  · intro hbrk hres hmode
    have hfind : s.tdl.waiting.find? (·.id == c.id) = some c := by
      rw [hwait, List.find?_cons_of_pos (by simp)]
    refine leaves_of_eq rfl ?_
    rw [hfind]
    refine (if_neg ?_).trans ?_
    · rw [hbrk, hres]
      exact fun h => h.elim (· rfl) fun h => h.elim Bool.noConfusion hmode
    · cases journalFree s (intentPages (resolveAll s c s.projected s.tdl.next)) <;> rfl
  · refine ⟨fun hrep => leaves_of_eq rfl ?_, fun hrep hlow hlast => leaves_of_eq rfl ?_⟩
    · exact if_pos (.inl (by rw [flushSample_kpr, hrep]; decide))
    · refine (if_neg ?_).trans ((if_pos ((flushSample_low s).trans hlow)).trans ?_)
      · rw [flushSample_kpr, flushSample_tdl, hrep, hlast]; decide
      · rw [flushSample_tdl, hwait]

end Sys2Proof.Machine
end

section
/-! SUPPORT. The mark, the apply and the failures of a commit (R105-R108), where one commit is admitted. -/

open Sys2Proof.Say

namespace Sys2Proof.Machine

variable {s : State} {c : Commit}

/-- What the ends of a commit are told by: its queues, the tickets, the memory and the durable state. -/
def State.commitView (s : State) : Tdl × List (Nat × Ticket) × List Host.Cell × Durable :=
  (s.tdl, s.tickets, s.mem, s.dur)

theorem learn_view (s : State) (k m : Nat) : (learn s k m).commitView = s.commitView := rfl

theorem learnCommit_view (s : State) (codes : List Nat) (m n : Nat) :
    (learnCommit s codes m n).commitView = s.commitView :=
  (learn_view _ _ _).trans (foldl_leaves State.commitView (fun s (p : Nat × Nat) => learn_view s p.1 p.2) _ s)

theorem effHook_view (s : State) (src : Nat) (e : Eff) : (effHook s src e).commitView = s.commitView := by
  cases e
  case sticky m b => cases b <;> rfl
  case slot n x => unfold effHook; dsimp only; split <;> rfl
  case record v r => unfold effHook; dsimp only; split <;> rfl
  case ctxUpdate => unfold effHook; dsimp only; split <;> rfl
  all_goals rfl

/-- The durable state and the queues as the mark of a commit makes them, before its hooks (R107). -/
def markDur (s : State) (c : Commit) : State :=
  let d := c.effs.foldl applyEff s.dur
  { s with
    dur := { d with slots := if s.terminated then [] else d.slots, devrecLost := d.devrecLost + c.lost }
    tdl := { s.tdl with
      admitted := s.tdl.admitted.filter (·.id ≠ c.id)
      marked := s.tdl.marked ++ [{ c with before := some ⟨s.dur, s.tdl.lastMarked, s.tdl.lastTime⟩ }], lastMarked := c.num
      lastTime := if c.effs.any (fun e => match e with | .record _ _ => true | _ => false) then c.time else s.tdl.lastTime
      times := (s.tdl.times ++ [(s.kpr.devtime - c.issued).toNat / 1000]).drop (s.tdl.times.length - 63) } }

theorem markVisible_eq (s : State) (c : Commit) : markVisible s c =
    settleStrips (commitDone (freeLocks (c.effs.foldl (fun s e => effHook s c.src e) (markDur s c)) c.id) c) := rfl

theorem commitDone_tdl (s : State) (c : Commit) : (commitDone s c).tdl = s.tdl ∧ (commitDone s c).mem = s.mem := by
  unfold commitDone
  split
  · exact ⟨rfl, rfl⟩
  · dsimp only
    split <;> rw [tkDone_tickets] <;> exact ⟨rfl, rfl⟩

/-- The ticket of a commit is complete at its mark, with the commit number and the first SEQ (R291). -/
theorem commitDone_tk {t : Nat} (ht : c.ticket = some t) (hd : c.deliver = .commit) (hu : (s.tk c.src t).used = true)
    (hw : (s.tk c.src t).done = false) :
    ((commitDone s c).tk c.src t).done = true ∧ ((commitDone s c).tk c.src t).status = St.ok ∧
      ((commitDone s c).tk c.src t).results = [intW (BitVec.ofNat 64 c.num), intW (BitVec.ofNat 64 c.firstSeq)] := by
  unfold commitDone
  rw [ht]
  dsimp only
  rw [hd]
  dsimp only
  rw [tkDone_waiting (s := s.statInc _ _) hu hw, State.tk_setTk_self]
  exact ⟨rfl, rfl, by dsimp only; rw [if_pos rfl]⟩

/-- What the mark of a commit leaves of its queues and of the memory (R107). -/
theorem markVisible_tdl (s : State) (c : Commit) :
    (markVisible s c).tdl = (markDur s c).tdl ∧ (markVisible s c).mem = s.mem := by
  have hview := foldl_leaves State.commitView (fun s e => effHook_view s c.src e) c.effs (markDur s c)
  rw [markVisible_eq]
  have hset := settleStrips_butDur (commitDone (freeLocks (c.effs.foldl (fun s e => effHook s c.src e) (markDur s c)) c.id) c)
  obtain ⟨htdl, hmem⟩ := commitDone_tdl (freeLocks (c.effs.foldl (fun s e => effHook s c.src e) (markDur s c)) c.id) c
  exact ⟨(congrArg State.tdl hset).trans (htdl.trans (congrArg (·.1) hview)),
    (congrArg State.mem hset).trans (hmem.trans (congrArg (·.2.2.1) hview))⟩

theorem markVisible_tk {t : Nat} (ht : c.ticket = some t) (hd : c.deliver = .commit) (hu : (s.tk c.src t).used = true)
    (hw : (s.tk c.src t).done = false) :
    ((markVisible s c).tk c.src t).done = true ∧ ((markVisible s c).tk c.src t).status = St.ok ∧
      ((markVisible s c).tk c.src t).results = [intW (BitVec.ofNat 64 c.num), intW (BitVec.ofNat 64 c.firstSeq)] := by
  have hview := foldl_leaves State.commitView (fun s e => effHook_view s c.src e) c.effs (markDur s c)
  have htk : (freeLocks (c.effs.foldl (fun s e => effHook s c.src e) (markDur s c)) c.id).tk c.src t = s.tk c.src t :=
    congrArg (fun v : Tdl × List (Nat × Ticket) × List Host.Cell × Durable => sget (fun _ => {}) v.2.1 (256 * c.src + t)) hview
  have hset := settleStrips_butDur (commitDone (freeLocks (c.effs.foldl (fun s e => effHook s c.src e) (markDur s c)) c.id) c)
  have hsame : (markVisible s c).tk c.src t =
      (commitDone (freeLocks (c.effs.foldl (fun s e => effHook s c.src e) (markDur s c)) c.id) c).tk c.src t := by
    have := congrArg (fun u : State => u.tk c.src t) hset
    exact this
  rw [hsame]
  exact commitDone_tk ht hd (by rw [htk]; exact hu) (by rw [htk]; exact hw)

/-- The mark of the one admitted commit, where it is for nothing more (R105-R107). -/
theorem commitMark_one (hadm : s.tdl.admitted = [c]) (hp : c.purpose = .none) (n : Nat) (a b : List Nat) :
    ∃ u : State, u.commitView = ({ s with tdl := { s.tdl with pages := s.tdl.pages ++ [[c.num]] } } : State).commitView ∧
      commitMark s n a b = markVisible u c := by
  have htake : s.tdl.admitted.take (max 1 n) = [c] := by
    rw [hadm]
    exact List.take_of_length_le (by simp)
  have hres : ∀ u : State, c.resets u = false := fun u => by rw [Commit.resets, hp]
  refine ⟨learnCommit ((({ s with tdl := { s.tdl with pages := s.tdl.pages ++ [[c.num]] } } : State).statInc 0x70 1).statInc
    0x74) c.codes (a.getD 0 0) (b.getD 0 0), learnCommit_view _ _ _ _, ?_⟩
  unfold commitMark
  rw [htake]
  simp only [List.cons_ne_nil, if_false, List.zipIdx_cons, List.zipIdx_nil, List.foldl_cons, List.foldl_nil, hres,
    Bool.not_false, List.filter_cons, List.filter_nil, if_true, List.find?_cons, List.find?_nil, List.map_cons, List.map_nil,
    List.length_cons, List.length_nil, purposeMarked, hp]

/-- What failing commits keep: their queues, the counters of the durable state and the tickets but their own. -/
theorem keepVolumes_ctrs (s : State) (c : Commit) : (keepVolumes s c).dur.ctrs = s.dur.ctrs := by
  refine foldl_leaves (fun d : Durable => d.ctrs) (fun d e => ?_) (devEffs c) s.dur
  cases e
  case newVol v g a => dsimp only; split <;> rfl
  all_goals rfl

/-- A commit with a ticket, for nothing more, that fails for its journal pages (R108). -/
theorem commitFails_journal {t : Nat} (ht : c.ticket = some t) (hi : c.src < 64) (hp : c.purpose = .none) :
    ∃ u : State, u.tickets = s.tickets ∧ u.tdl = s.tdl ∧ u.dur.ctrs = s.dur.ctrs ∧
      commitFails s c St.journalFault = { ((u.tkDone c.src t St.journalFault).statInc (instStat c.src 0x18)) with
        dur := { u.dur with devrecLost := u.dur.devrecLost + devRecs c } } := by
  refine ⟨freeLocks (keepVolumes s c) c.id, rfl, rfl, keepVolumes_ctrs s c, ?_⟩
  have hne : c.src ≠ 64 := by omega
  unfold commitFails
  rw [ht]
  dsimp only
  rw [if_neg fun h => hne h.1, if_neg fun h => absurd h.2 (by decide), if_neg (by decide)]
  unfold purposeFailed
  rw [hp]
  dsimp only
  rw [tkDone_tickets]
  rfl

theorem settleStrips_ctrs (s : State) : (settleStrips s).dur.ctrs = s.dur.ctrs := by
  refine foldl_leaves (fun s : State => s.dur.ctrs) (fun s (p : Nat × Vol) => ?_) s.dur.vols s
  unfold settleVol
  dsimp only
  split <;> rfl

/-- The one admitted commit, at the third failure of one of its pages (R108). -/
theorem journalFault_one {t : Nat} (hadm : s.tdl.admitted = [c]) (ht : c.ticket = some t) (hi : c.src < 64)
    (hp : c.purpose = .none) (hu : (s.tk c.src t).used = true) (hw : (s.tk c.src t).done = false) :
    (journalFault s c).tdl.admitted = [] ∧ ((journalFault s c).tk c.src t).done = true ∧
      ((journalFault s c).tk c.src t).status = St.journalFault ∧ (journalFault s c).dur.ctrs = s.dur.ctrs := by
  have hafter : s.tdl.admitted.filter (fun d => decide (c.num < d.num)) = [] := by
    rw [hadm, List.filter_cons_of_neg (by simp)]; rfl
  have hbefore : s.tdl.admitted.filter (fun d => decide (d.num < c.num)) = [] := by
    rw [hadm, List.filter_cons_of_neg (by simp)]; rfl
  unfold journalFault
  dsimp only
  rw [hafter, hbefore, List.foldl_nil]
  generalize hv : ({ s with tdl := { s.tdl with admitted := [], pages := _ } } : State) = v
  obtain ⟨u, htk, htdl, hctr, he⟩ := commitFails_journal (s := v) ht hi hp
  have hset := settleStrips_butDur (commitFails v c St.journalFault)
  have htk' : u.tk c.src t = s.tk c.src t := by rw [State.tk, htk, ← hv]; rfl
  have hdone : u.tkDone c.src t St.journalFault = _ := tkDone_waiting (htk' ▸ hu) (htk' ▸ hw) _ _ _ _
  rw [hdone] at he
  have hend : (settleStrips (commitFails v c St.journalFault)).tk c.src t = { u.tk c.src t with
      done := true, status := St.journalFault, loc := 0, value := 0
      results := List.replicate (u.tk c.src t).nres (intW 0) } := by
    have h := congrArg (fun u : State => u.tk c.src t) hset
    refine (show (settleStrips (commitFails v c St.journalFault)).tk c.src t = _ from h).trans ?_
    rw [he]
    exact State.tk_setTk_self u c.src t _
  rw [hend, settleStrips_ctrs]
  refine ⟨?_, rfl, rfl, ?_⟩
  · have h := congrArg (fun u : State => u.tdl.admitted) hset
    refine (show (settleStrips (commitFails v c St.journalFault)).tdl.admitted = _ from h).trans ?_
    rw [he]
    exact (congrArg Tdl.admitted htdl).trans (by rw [← hv])
  · rw [he]
    exact hctr.trans (by rw [← hv])

/-- The failure of a page counts against the commits that it hits (R108). -/
def countFailure (s : State) (ids : List Nat) (key : Nat) : State :=
  let s := { s.incReg Reg.TDL_PFAIL with tdl := { s.tdl with
    pfail := s.tdl.pfail + 1
    admitted := s.tdl.admitted.map fun c =>
      if c.id ∈ ids then { c with failed := sset (fun _ => 0) c.failed key (sget (fun _ => 0) c.failed key + 1) } else c } }
  match s.tdl.admitted.find? (fun c => decide (c.id ∈ ids ∧ 3 ≤ sget (fun _ => 0) c.failed key)) with
  | some c => journalFault s c
  | none => s

theorem journalFailure_marks (s : State) (n : Nat) :
    journalFailure s none n = countFailure s ((s.tdl.admitted.take n).map fun c => c.id) 3 := rfl

theorem journalFailure_page (s : State) (k : Fin 3) (n : Nat) : journalFailure s (some k) n =
    countFailure s ((s.tdl.admitted.filter fun c => c.num == n && decide (k.val < c.pages)).map fun c => c.id) k.val := rfl

/-- The commit after one more failure of a page. -/
def oneMore (c : Commit) (key : Nat) : Commit :=
  { c with failed := sset (fun _ => 0) c.failed key (sget (fun _ => 0) c.failed key + 1) }

/-- The state after one more failure of a page of the one admitted commit. -/
def failedOnce (s : State) (c : Commit) (key : Nat) : State :=
  { s.incReg Reg.TDL_PFAIL with tdl := { s.tdl with pfail := s.tdl.pfail + 1, admitted := [oneMore c key] } }

theorem countFailure_one (hadm : s.tdl.admitted = [c]) (key : Nat) : countFailure s [c.id] key =
    if 3 ≤ sget (fun _ => 0) c.failed key + 1 then journalFault (failedOnce s c key) (oneMore c key)
    else failedOnce s c key := by
  have hmap : s.tdl.admitted.map (fun c' : Commit => if c'.id ∈ [c.id] then oneMore c' key else c') = [oneMore c key] := by
    rw [hadm, List.map_cons, if_pos (List.mem_singleton.2 rfl)]; rfl
  have hmore : sget (fun _ => 0) (oneMore c key).failed key = sget (fun _ => 0) c.failed key + 1 := by
    unfold oneMore
    exact sget_sset_self (fun _ => 0) c.failed key (sget (fun _ => 0) c.failed key + 1)
  have hst : (countFailure s [c.id] key) =
      match [oneMore c key].find? (fun d => decide (d.id ∈ [c.id] ∧ 3 ≤ sget (fun _ => 0) d.failed key)) with
      | some d => journalFault (failedOnce s c key) d
      | none => failedOnce s c key := by
    unfold failedOnce
    rw [← hmap]
    rfl
  rw [hst, List.find?_cons, hmore, List.find?_nil]
  by_cases h3 : 3 ≤ sget (fun _ => 0) c.failed key + 1
  · rw [if_pos h3, decide_eq_true ⟨List.mem_singleton.2 rfl, h3⟩]
  · rw [if_neg h3, decide_eq_false fun h => h3 h.2]

/-- A page of the one admitted commit that fails to program counts once against it (R108). -/
theorem journalFailure_one (hadm : s.tdl.admitted = [c]) {page : Option (Fin 3)} {n : Nat} (hnone : page = none → 1 ≤ n)
    (hsome : ∀ k, page = some k → n = c.num ∧ k.val < c.pages) :
    journalFailure s page n = countFailure s [c.id] (match page with | some k => k.val | none => 3) := by
  cases page with
  | none => rw [journalFailure_marks, hadm, List.take_of_length_le (hnone rfl)]; rfl
  | some k =>
    obtain ⟨hn, hk⟩ := hsome k rfl
    rw [journalFailure_page, hadm, List.filter_cons_of_pos (by simp [hn, hk])]
    rfl

/-- Settles O30: each end of the commit goes through the lemma about its step. -/
theorem commitsEnd : Obligations.CommitsEnd := by
  intro s c
  refine ⟨?_, ?_, ?_, ?_, ?_, ?_, ?_⟩
  · intro n i t a b hadm hp ht hi hlt _ hd hu hw
    obtain ⟨u, hview, hmark⟩ := commitMark_one hadm hp n a b
    have hu' : u.tk i t = s.tk i t := by
      have := congrArg (fun v : Tdl × List (Nat × Ticket) × List Host.Cell × Durable => sget (fun _ => {}) v.2.1 (256 * i + t))
        hview
      exact this
    have htdl : u.tdl = { s.tdl with pages := s.tdl.pages ++ [[c.num]] } := congrArg (·.1) hview
    have hmem : u.mem = s.mem := congrArg (·.2.2.1) hview
    have hdur : u.dur = s.dur := congrArg (·.2.2.2) hview
    obtain ⟨htdl', hmem'⟩ := markVisible_tdl u c
    subst hi
    obtain ⟨hdn, hst, hres⟩ := markVisible_tk (s := u) ht hd (by rw [hu']; exact hu) (by rw [hu']; exact hw)
    refine ⟨markVisible u c, leaves_of_eq rfl hmark, ?_, ?_, ?_, hdn, hst, hres, hmem'.trans hmem⟩
    · rw [htdl']
      change u.tdl.admitted.filter _ = []
      rw [htdl, hadm, List.filter_cons_of_neg (by simp)]
      rfl
    · rw [htdl']
      change u.tdl.marked ++ [{ c with before := some ⟨u.dur, u.tdl.lastMarked, u.tdl.lastTime⟩ }] = _
      rw [htdl, hdur]
    · rw [htdl']
      rfl
  · intro cs hf hm
    refine leaves_of_eq rfl ?_
    have hs : flushSample s = s := if_pos hf
    rw [hs]
    unfold commitApply
    rw [hm]
    exact if_neg fun h => h.1 hf
  · intro ha hm
    refine leaves_of_eq rfl ?_
    have hall : s.tdl.pages.filter (fun p => p.any fun n => decide (n ∈ ([] : List Nat))) = [] := by simp
    unfold appliedMark
    rw [ha, hm]
    simp only [List.append_nil, List.map_nil, hall]
  · intro page n hadm hnone hsome key fails
    have hkey : (match page with | some k => k.val | none => 3) = key := by cases page <;> rfl
    have hrun := journalFailure_one hadm hnone hsome
    rw [hkey, countFailure_one hadm key] at hrun
    have hf : sget (fun _ => 0) c.failed key = fails := rfl
    refine ⟨fun hlt => leaves_of_eq rfl ?_, fun i t hge ht hi hlt _ hp hu hw => ?_⟩
    · rw [hrun, if_neg (by omega)]
      rfl
    subst hi
    rw [if_pos (by omega)] at hrun
    obtain ⟨hadm', hdn, hst, hctr⟩ :=
      journalFault_one (s := failedOnce s c key) (c := oneMore c key) rfl ht ‹_› hp hu hw
    exact ⟨_, leaves_of_eq rfl hrun, hadm', hdn, hst, hctr⟩
  · exact fun ha n a b => leaves_of_eq rfl (by simp [commitMark, ha])
  · intro hm
    refine leaves_of_eq rfl ?_
    unfold commitApply
    rw [flushSample_tdl, hm]
  · intro cs hf hm
    refine ⟨fun hle => leaves_of_eq rfl ?_, fun hlt => leaves_of_eq rfl ?_⟩ <;> unfold commitApply
    · rw [flushSample_tdl, hm]
      exact if_pos ⟨(flushSample_flush s).symm ▸ hf, hle⟩
    · rw [flushSample_tdl, hm]
      exact if_neg fun h => absurd h.2 (Nat.not_le_of_lt hlt)

end Sys2Proof.Machine
end

section
/-! SUPPORT. The evidence store (R85-R101): the closes, the trailers and seals, and the reads. -/

open Sys2Proof.Say

namespace Sys2Proof.Machine

variable {s u v : State} {op : Nat} {q r : StrataReq}

@[simp] theorem vol_setVol_self (d : Durable) (k : Nat) (x : Vol) : (d.setVol k x).vol k = x := by
  simp only [Durable.vol, Durable.setVol, sget_sset_self]

/-- A read that reaches its request is answered with what its items came to (R99). -/
theorem readServe_ok {st : Word16} {l : List (Nat × Payload)} {n loc : Nat} (hrep : s.kpr.replayDone = true)
    (hreq : readRequest s op q = some (.ok r, u)) (hread : strataRead u op r = (st, l))
    (hdel : readDeliver u r (readOwner r.who) l 0 = (n, loc, v)) :
    readServe s op q = { v with
      outbox := v.outbox ++ [.readCompletion r.who (if loc = 0 then st else St.carryFault) n loc] } := by
  unfold readServe
  rw [if_neg (not_not.2 hrep), hreq]
  dsimp only
  rw [hread]
  dsimp only
  rw [hdel]

theorem readServe_starting (hrep : s.kpr.replayDone = false) : readServe s op q = s :=
  if_pos (by rw [hrep]; decide)

/-- A trailer is made only for a closed strip, with a strip key in force, where it reads back intact (R86-R90). -/
theorem stripSigned_no {k : Nat} {ok : Bool} (h : ok = false ∨ stripRoot s = none) : stripSigned s k ok = s := by
  unfold stripSigned
  dsimp only
  split
  · rename_i hroot
    split
    · rfl
    · refine if_pos (.inl ?_)
      rcases h with h | h
      · rw [h]; decide
      · rw [hroot] at h
        cases h
  · rfl

theorem bandSeal_no {k : Nat} (h : stripRoot s = none) : bandSeal s k = s := by
  unfold bandSeal
  dsimp only
  rw [h]
  split
  · rename_i h; cases h
  · rfl

section
variable {v : Nat} {root : Nat} {g : List Byte}

/-- A trailer that is signed takes its strip off those that wait (R86, R87). -/
theorem stripSigned_ok {t : Strip} {e : Nat × Word64 × Nat} (hf : s.pwr.flush = 0) (hr : stripRoot s = some root)
    (hfind : (s.dur.vol v).strips.find? (·.closed.isSome) = some t) (hq : t.closed = some e)
    (hsign : hybridSign s (pairValue s Lbl.strip root)
      (trailerHead (s.dur.vol v) v t e (keyId (pubKey 0x18 (pairValue s Lbl.strip root)))) = (.ok g, u)) :
    let b := trailerHead (s.dur.vol v) v t e (keyId (pubKey 0x18 (pairValue s Lbl.strip root))) ++ g ++ zeros 19
    stripSigned s v true = { u.statInc 0x78 with dur := u.dur.setVol v { u.dur.vol v with
      strips := (u.dur.vol v).strips.filter (·.num ≠ t.num), trailers := (u.dur.vol v).trailers ++ [(t.num, b)]
      prevHash := genBytes 48 (Config.hashByte 2 b) } } := by
  unfold stripSigned
  dsimp only
  rw [hfind, hr]
  dsimp only
  rw [hq]
  dsimp only
  rw [if_neg (by simp [hf]), hsign]

theorem bandSeal_ok {b : Nat} (hf : s.pwr.flush = 0) (hr : stripRoot s = some root) (hn : nextSeal (s.dur.vol v) = some b)
    (hsign : hybridSign s (pairValue s Lbl.strip root)
      (sealHead s (s.dur.vol v) v b (keyId (pubKey 0x18 (pairValue s Lbl.strip root)))) = (.ok g, u)) :
    bandSeal s v = { u with dur := u.dur.setVol v { u.dur.vol v with seals := (s.dur.vol v).seals ++
      [(b, sealHead s (s.dur.vol v) v b (keyId (pubKey 0x18 (pairValue s Lbl.strip root))) ++ g ++ zeros 35)] } } := by
  unfold bandSeal
  dsimp only
  rw [hn, hr]
  dsimp only
  rw [if_neg (not_not.2 hf), hsign]

end

/-- An entry of a read ring that can be read, of one slot: its request, or INTENT_INVALID (R99). -/
theorem readRequest_entry {i : Nat} {p : Payload} (hi : readOwner q.who = some i)
    (hw : readWaits s i (s.descF i .rdRing) op = true) (ht : takeRing s (s.descF i .rdRing) = (some p, u))
    (hp : p.poisoned = false) :
    readRequest s op q =
      if p.len ≠ 64 ∨ getLe p.bytes 0 1 ≠ op ∨ (i = 0 ∧ 63 < getLe p.bytes 1 1) ∨
          (p.words.getD 2 (rawW 0)).tag ≠ Tag.ptr then some (.error (St.intentInvalid, 0), u)
      else some (.ok { q with
        volume := Fin.ofNat 64 (getLe p.bytes 1 1), count := getLe p.bytes 2 2, start := getLe p.bytes 8 8
        dest := getLe p.bytes 0x10 8, dlen := getLe p.bytes 0x18 4 }, u) := by
  unfold readRequest
  rw [hi]
  dsimp only
  rw [if_neg (not_not.2 hw), ht]
  dsimp only
  rw [if_neg (by rw [hp]; decide)]

theorem readDeliver_cons {w : Option Nat} {a n : Nat} {p : Payload} {l : List (Nat × Payload)} (hf : q.flash ≠ some n) :
    readDeliver s q w ((a, p) :: l) n =
      match engWrite s (q.dest + a) p w q.upset with
      | (false, s) => (n, 0x0B, s)
      | (true, s) => readDeliver s q w l (n + 1) := by
  rw [readDeliver, if_neg hf] <;> rfl

/-- The strips that wait. -/
theorem stripsThatWait : StripsThatWait := by
  intro s v
  refine ⟨fun ho => leaves_of_eq rfl ?_, leaves_of_eq rfl (stripSigned_no (.inl rfl)), fun hr => ⟨?_, ?_⟩⟩
  · exact if_neg fun h => Bool.false_ne_true (ho.symm.trans h.2)
  · exact leaves_of_eq rfl (stripSigned_no (.inr hr))
  · exact leaves_of_eq rfl (bandSeal_no hr)

/-- The requests of reads. -/
theorem evidenceRequests : EvidenceRequests := by
  refine ⟨fun s q hrep => ?_, fun s q op i => ⟨fun hrom => ?_, fun hi => ⟨fun hw => ?_, ?_⟩⟩, ?_⟩
  · have hno : ∀ op, readServe s op q = s := fun op => readServe_starting hrep
    exact ⟨leaves_of_eq rfl (hno 1), leaves_of_eq rfl (hno 2), leaves_of_eq rfl (hno 3), leaves_of_eq rfl (hno 4),
      leaves_of_eq rfl (hno 5)⟩
  · unfold readRequest
    rw [hrom]
    rfl
  · unfold readRequest
    rw [hi]
    exact if_pos (by rw [hw]; decide)
  · intro p u hw ht hp hlen b good
    have hreq := readRequest_entry hi hw ht hp
    refine ⟨fun ⟨hop, hvol, hptr⟩ => hreq.trans (if_neg ?_), fun hbad => hreq.trans (if_pos ?_)⟩
    · rintro (h | h | h | h)
      · exact h hlen
      · exact h hop
      · exact absurd (hvol h.1) (Nat.not_le_of_lt h.2)
      · exact h hptr
    · by_contra hno
      simp only [not_or, not_not, not_and, Nat.not_lt] at hno
      exact hbad ⟨hno.2.1, hno.2.2.1, hno.2.2.2⟩
  · refine fun s u q w a n p l => ⟨rfl, fun hf => ⟨fun hw => ?_, fun hw => ?_⟩⟩
    · rw [readDeliver_cons hf, hw]
    · rw [readDeliver_cons hf, hw]

/-- Settles O32: closes, trailers, seals and reads, each by the lemma about its step. The keeper's read ring is log entry
111's (DEDUCED), INTENT_INVALID before the item is looked for log entry 104's (DESIGN CHOICE), and the place of the
completion log entry 13's. -/
theorem evidenceCloses : Obligations.EvidenceCloses := by
  refine ⟨?_, ?_, ?_, stripsThatWait, evidenceRequests⟩
  · intro s v x y hx ho
    exact leaves_of_eq rfl (if_pos ⟨hx, ho⟩)
  · intro s u v r g hf hr
    refine ⟨fun t q hfind hq hsign => ?_, fun b hn hsign => leaves_of_eq rfl (bandSeal_ok hf hr hn hsign)⟩
    refine ⟨_, leaves_of_eq rfl (stripSigned_ok hf hr hfind hq hsign), ?_, ?_, rfl⟩ <;> rw [vol_setVol_self]
  · intro s q hrep
    have hserve : ∀ op r u st l n loc v, readRequest s op q = some (.ok r, u) → strataRead u op r = (st, l) →
        readDeliver u r (readOwner r.who) l 0 = (n, loc, v) → readServe s op q = { v with
          outbox := v.outbox ++ [.readCompletion r.who (if loc = 0 then st else St.carryFault) n loc] } :=
      fun op r u st l n loc v hreq hread hdel => readServe_ok hrep hreq hread hdel
    refine ⟨?_, ?_, ?_, ?_, ?_⟩ <;> intro r u st l n loc v hreq hread hdel
    · exact leaves_of_eq rfl (hserve 1 r u st l n loc v hreq hread hdel)
    · exact leaves_of_eq rfl (hserve 2 r u st l n loc v hreq hread hdel)
    · exact leaves_of_eq rfl (hserve 3 r u st l n loc v hreq hread hdel)
    · exact leaves_of_eq rfl (hserve 4 r u st l n loc v hreq hread hdel)
    · exact leaves_of_eq rfl (hserve 5 r u st l n loc v hreq hread hdel)

end Sys2Proof.Machine
end

section
/-! SUPPORT. The cipher lanes (R405-R412): a lane that takes its counter value, the grant and the resume. -/

open Sys2Proof.Say

namespace Sys2Proof.Machine

variable {s u : State} {n : Nat} {l : Lane}

theorem mem_sput_self {α : Type} (k : Nat) (v : α) (m : List (Nat × α)) : (k, v) ∈ sput k v m := by
  induction m with
  | nil => exact List.mem_singleton.2 rfl
  | cons p m ih =>
    unfold sput
    split
    · exact List.mem_cons_of_mem _ ih
    · split <;> exact List.mem_cons_self

theorem sput_one {α : Type} (k : Nat) (v w : α) : sput k v [(k, w)] = [(k, v)] := by
  rw [sput, if_neg (Nat.lt_irrefl k), if_pos rfl]

/-- What a lane's counter value leaves: the memory, the cipher engine and the link. -/
def State.laneView (s : State) : List Host.Cell × Cip × Air × Pwr := (s.mem, s.cip, s.air, s.pwr)

theorem devCommit_laneView (s : State) (l : List Intent) (p : Purpose) (b : Bool) :
    (s.devCommit l p b).laneView = s.laneView := by
  unfold State.devCommit
  split <;> rfl

theorem setIvctr_laneView (s : State) (k : KeyRef) (n : Nat) : (setIvctr s k n).laneView = s.laneView := by
  cases k <;> rfl

theorem issueAdvance_laneView (s : State) (k : KeyRef) : (issueAdvance s k).laneView = s.laneView :=
  devCommit_laneView _ _ _ _

theorem afterTake_laneView (s : State) (k : KeyRef) : (afterTake s k).laneView = s.laneView := by
  unfold afterTake
  dsimp only
  split
  · exact devCommit_laneView _ _ _ _
  · split
    · exact issueAdvance_laneView s k
    · rfl

/-- The lane as it stands after it took a value, or waits for its reservation (R410, R412). -/
def Lane.took (l : Lane) (d : Durable) : Lane :=
  if (keyCtr d l.ref).ivctr < (keyCtr d l.ref).reslim then { l with c := some (keyCtr d l.ref).ivctr } else l

theorem Lane.took_eq (l : Lane) (d : Durable) : l.took d =
    { l with c := if (keyCtr d l.ref).ivctr < (keyCtr d l.ref).reslim then some (keyCtr d l.ref).ivctr else l.c } := by
  unfold Lane.took
  split <;> rfl

/-- A lane whose key is not at its limit takes the next value, or waits (R410, R412). -/
theorem laneTake_laneView (hex : (keyCtr s.dur l.ref).exhausted = false)
    (hlim : (keyCtr s.dur l.ref).ivctr < 2 ^ (keyCtr s.dur l.ref).limlog) :
    (laneTake s n l).laneView =
      ({ s with cip := { s.cip with lanes := sput n (l.took s.dur) s.cip.lanes } } : State).laneView := by
  unfold laneTake Lane.took
  dsimp only
  rw [if_neg (by rw [hex]; exact fun h => h.elim Bool.noConfusion fun h => absurd hlim (Nat.not_lt.2 h))]
  split
  · exact (afterTake_laneView _ _).trans (setIvctr_laneView _ _ _)
  · split
    · rfl
    · exact issueAdvance_laneView _ _

/-- The request that a grant looks at (R405). -/
theorem laneGrant_takes {i t sel : Nat} {args : List TWord} {data p : List Payload} {ok : Bool} (hs : slotsReady s = true)
    (hf : s.pwr.flush = 0) (hn : nextRequester s = some i) (hl : freeLane s = some n)
    (hq : s.cip.queue.find? (·.1 == i) = some (i, t)) (ho : (s.tk i t).op = .x 0x20 sel args data 0)
    (hb : srcBusy s (s.tk i t).op = false)
    (hu : u = { s with cip := { s.cip with queue := s.cip.queue.erase (i, t), ptr := (i + 1) % 64 } })
    (ht : takeSources u (some i) (s.tk i t).op false = (.ok p, u)) {st : Word16} {ref : KeyRef} {key : List Byte}
    {long good : Bool} (hk : cipherKey u i ((s.tk i t).op.word 1) = (st, ref, key, long, good)) :
    laneGrant s ok =
      if st ≠ St.ok then u.tkDone i t st
      else if ¬ ok then (busFailure u).tkDone i t St.slotBad
      else if ¬ good then (rateEvent (u.incReg Reg.SHG_BAD) 20 none).tkDone i t St.contextBad
      else
        let v := u.setTk i t { u.tk i t with op := .x 0x20 sel args data 1 }
        laneTake (if (keyCtr v.dur ref).ivctr < (keyCtr v.dur ref).reslim then v else v.incReg Reg.CIP_RESWAIT) n
          { inst := i, ticket := t, mode := sel, long := long, ref := ref, key := key } := by
  subst hu
  unfold laneGrant
  rw [if_neg (by rw [hs, hf]; decide), hn, hl]
  dsimp only
  rw [hq]
  dsimp only
  rw [hb]
  simp only [Bool.false_eq_true, if_false]
  rw [ht]
  dsimp only
  rw [hk]
  dsimp only
  rw [ho]
  rfl

theorem airResume_idle (hh : s.air.held = []) (hd : s.air.due = []) (ht : s.air.heldTx = []) (hf : s.pwr.flush = 0) :
    airResume s = s := by
  have hsame : ({ s with air := { s.air with held := [], due := [], heldTx := [] } } : State) = s := by
    rw [← hh, ← hd, ← ht]
  unfold airResume
  dsimp only
  rw [hsame, hh, hd, ht]
  exact if_neg fun h => h.1 hf

theorem laneGrant_waits {ok : Bool}
    (h : slotsReady s = false ∨ s.pwr.flush ≠ 0 ∨ nextRequester s = none ∨ freeLane s = none) : laneGrant s ok = s := by
  unfold laneGrant
  split
  · rfl
  · rename_i hno
    rw [not_or, not_not, not_not] at hno
    rcases h with h | h | h | h
    · exact absurd hno.1 (by rw [h]; decide)
    · exact absurd hno.2 h
    · rw [h]
    · rw [h]
      split
      · rename_i h; cases h
      · rfl

/-- Settles O51: the grant and the resume go through what a lane leaves that takes its counter value. -/
theorem lanesAreGranted : Obligations.LanesAreGranted := by
  refine ⟨?_, ?_, fun s ok k => ⟨fun h => leaves_of_eq rfl (laneGrant_waits h), fun hl hh hd ht hf => ?_⟩⟩
  · intro s ok i n t sel args data p hs hf hn hl hq o ho hb u hu st ref key long good hk
    have hgrant := laneGrant_takes (ok := ok) hs hf hn hl hq ho hb rfl hu hk
    refine ⟨fun hst => leaves_of_eq rfl (hgrant.trans (if_pos hst)), ?_⟩
    intro q hst hok hgood hex hlim
    rw [if_neg (not_not.2 hst), if_neg (not_not.2 hok), if_neg (not_not.2 hgood)] at hgrant
    let v : State := { s with cip := { s.cip with queue := s.cip.queue.erase (i, t), ptr := (i + 1) % 64 } }.setTk i t
      { s.tk i t with op := .x 0x20 sel args data 1 }
    let w := if q.ivctr < q.reslim then v else v.incReg Reg.CIP_RESWAIT
    let lane : Lane := { inst := i, ticket := t, mode := sel, long := long, ref := ref, key := key }
    have hw : w.laneView = v.laneView ∧ w.dur = s.dur := by
      unfold w
      split <;> exact ⟨rfl, rfl⟩
    have hrun : laneGrant s ok = laneTake w n lane := hgrant
    have htake := laneTake_laneView (s := w) (n := n) (l := lane) (by rw [hw.2]; exact hex) (by rw [hw.2]; exact hlim)
    rw [hw.2, Lane.took_eq] at htake
    have hmem := congrArg (·.1) htake
    have hcip := congrArg (fun x : List Host.Cell × Cip × Air × Pwr => x.2.1.lanes) htake
    refine ⟨laneTake w n lane, { lane with c := if q.ivctr < q.reslim then some q.ivctr else none },
      leaves_of_eq rfl hrun, ?_, rfl, rfl, rfl, rfl, rfl, rfl, hmem.trans (congrArg (·.1) hw.1), rfl⟩
    exact hcip ▸ mem_sput_self n _ _
  · intro s k n l hl hk hc hh hd ht hf q hex hlim hres
    subst hk
    have hview := laneTake_laneView (n := n) hex hlim
    have hresume : resumeKey s l.ref = laneTake s n l := by
      unfold resumeKey
      rw [hl, List.foldl_cons, List.foldl_nil, hl]
      have hget : sget (fun _ => l) [(n, l)] n = l := by simp [sget]
      dsimp only
      rw [hget, if_pos ⟨rfl, by rw [hc]; rfl, by simp⟩, if_pos (.inl hres)]
    have hair : (laneTake s n l).air = s.air := congrArg (·.2.2.1) hview
    have hpwr : (laneTake s n l).pwr = s.pwr := congrArg (·.2.2.2) hview
    have hidle : airResume (laneTake s n l) = laneTake s n l :=
      airResume_idle (by rw [hair]; exact hh) (by rw [hair]; exact hd) (by rw [hair]; exact ht) (by rw [hpwr]; exact hf)
    refine ⟨_, leaves_of_eq rfl ((congrArg airResume hresume).trans hidle), ?_⟩
    refine (congrArg (fun x : List Host.Cell × Cip × Air × Pwr => x.2.1.lanes) hview).trans ?_
    change sput n (l.took s.dur) s.cip.lanes = _
    rw [hl, sput_one, Lane.took, if_pos hres]
  · have hres : resumeKey s k = s := by rw [resumeKey, hl]; rfl
    exact leaves_of_eq rfl ((congrArg airResume hres).trans (airResume_idle hh hd ht hf))

end Sys2Proof.Machine
end

section
/-! SUPPORT. Session contexts and the standing list (R129-R162). -/

open Sys2Proof.Say

namespace Sys2Proof.Machine

variable {s t : State}

/-! ## Handles and new contexts -/

@[simp] theorem sctx_setSctx_self (s : State) (k : Nat) (c : ShgCtx) : (s.setSctx k c).sctx k = c := by
  simp only [State.sctx, Durable.sctx, State.setSctx, sget_sset_self]

theorem sctx_setSctx_ne (s : State) {j k : Nat} (c : ShgCtx) (h : j ≠ k) : (s.setSctx k c).sctx j = s.sctx j := by
  simp only [State.sctx, Durable.sctx, State.setSctx, sget_sset_ne _ _ c h]

section
variable {owner gen index : Nat} (ho : owner < 64) (hg : gen < 4096) (hi : index < 2 ^ 20)
include ho hg hi

theorem handleWord_toNat : (handleWord owner gen index).data.toNat = owner * 2 ^ 32 + gen * 2 ^ 20 + index := by
  rw [handleWord, BitVec.toNat_ofNat, Nat.mod_eq_of_lt (by omega)]

theorem hOwner_handleWord : hOwner (handleWord owner gen index).data = owner := by
  rw [hOwner, handleWord_toNat ho hg hi, fld]
  omega

theorem hGen_handleWord : hGen (handleWord owner gen index).data = gen := by
  rw [hGen, handleWord_toNat ho hg hi, fld]
  omega

theorem hIndex_handleWord : hIndex (handleWord owner gen index).data = index := by
  rw [hIndex, handleWord_toNat ho hg hi, fld]
  omega

end

/-- The checks of a handle that names a context in use as it stands (R130). -/
theorem handleCheck_named {d : Durable} {h : Word64} {i : Nat} (hk : 1 ≤ (d.sctx (hIndex h)).kind)
    (hg : hGen h = (d.sctx (hIndex h)).gen) (ho : hOwner h = (d.sctx (hIndex h)).owner) :
    handleCheck d i h = if i ≠ 0 ∧ hOwner h ≠ i then St.contextForeign else St.ok := by
  unfold handleCheck
  dsimp only
  split
  · rfl
  · refine if_neg ?_
    rintro (h | h | h)
    · omega
    · exact h hg
    · exact h ho

/-- The context that CNEW takes while some have never been taken: the lowest of them (R134, R141). -/
def newContext (s : State) (q : NewCtx) : ShgCtx :=
  { kind := q.kind, owner := q.owner, gen := (s.sctx s.dur.shgFresh).gen, provisional := true
    keyPresent := q.slot.isSome || q.key.isSome
    slotRef := q.slot
    wrapped := q.key.map fun b => wrapSession (shgWrapKey s s.dur.wrapgen)
      (sessionPlain b s.dur.shgFresh (s.sctx s.dur.shgFresh).gen q.owner q.limlog)
    reslim := if q.key.isSome then min 4096 (2 ^ q.limlog) else 0
    limlog := q.limlog, created := s.kpr.devtime, cred := q.cred
    area := List.replicate 16 (rawW 0) }

theorem cnewTake_fresh {q : NewCtx} (h : s.dur.shgFresh < 2 ^ 20) :
    cnewTake s q = some (handleWord q.owner (s.sctx s.dur.shgFresh).gen s.dur.shgFresh,
      ({ s with dur := { s.dur with shgFresh := s.dur.shgFresh + 1 } } : State).setSctx s.dur.shgFresh (newContext s q)) := by
  unfold cnewTake takeFree
  rw [if_pos h]
  rfl

theorem newContexts : NewContexts := by
  intro s t q w hkind howner hfresh hgen htake k c
  rw [cnewTake_fresh hfresh, Option.some.injEq, Prod.mk.injEq] at htake
  obtain ⟨hw, ht⟩ := htake
  have hi : hIndex w.data = k := hw ▸ hIndex_handleWord howner hgen hfresh
  have ho : hOwner w.data = q.owner := hw ▸ hOwner_handleWord howner hgen hfresh
  have hg : hGen w.data = (s.sctx k).gen := hw ▸ hGen_handleWord howner hgen hfresh
  have hc : t.dur.sctx k = newContext s q := ht ▸ sctx_setSctx_self _ _ _
  have hcheck : ∀ i, handleCheck t.dur i w.data = if i ≠ 0 ∧ hOwner w.data ≠ i then St.contextForeign else St.ok := fun i =>
    handleCheck_named (by rw [hi, hc]; exact hkind) (by rw [hi, hc]; exact hg) (by rw [hi, hc]; exact ho)
  refine ⟨hw ▸ rfl, hi, ho, hg, ht ▸ rfl, congrArg ShgCtx.kind hc, congrArg ShgCtx.owner hc, congrArg ShgCtx.provisional hc,
    congrArg ShgCtx.version hc, congrArg ShgCtx.cred hc, fun j hj => ht ▸ sctx_setSctx_ne _ _ hj, fun i hi' => ?_,
    fun i h0 hne => (hcheck i).trans (if_pos ⟨h0, fun h => hne (h.symm.trans ho)⟩)⟩
  refine (hcheck i).trans (if_neg ?_)
  rintro ⟨h0, hne⟩
  exact hi'.elim h0 fun h => hne (ho.trans h.symm)

/-! ## The loads of the standing list -/

theorem stlLoad_loads {k : Nat} (hrep : s.kpr.replayDone = true) (hl : s.stlLoaded k = false)
    (ha : k = s.dur.stlActive ∨ s.stlLoaded s.dur.stlActive = true) :
    (stlLoad s k).stlLoaded k = true ∧ (stlLoad s k).stlGen k =
      if k ≠ s.dur.stlActive ∧ ¬ (s.dur.stlHome k).sealed then { s.dur.stlHome k with entries := [] } else s.dur.stlHome k := by
  have hno : ¬ (¬ s.kpr.replayDone ∨ s.stlLoaded k ∨ (k ≠ s.dur.stlActive ∧ ¬ s.stlLoaded s.dur.stlActive)) := by
    rw [hrep, hl]
    rintro (h | h | ⟨h, h'⟩)
    · exact h rfl
    · cases h
    · exact ha.elim h h'
  unfold stlLoad
  dsimp only
  rw [if_neg hno]
  by_cases hk : k = 0
  · simp only [State.stlLoaded, State.stlGen, State.setStlGen, if_pos hk, and_self]
  · simp only [State.stlLoaded, State.stlGen, State.setStlGen, if_neg hk, and_self]

theorem sessionsWait : SessionsWait := by
  intro s
  refine ⟨fun hrep => ?_, fun g ha hl => leaves_of_eq rfl ?_⟩
  · have hno : ¬ s.kpr.replayDone = true := by rw [hrep]; decide
    exact ⟨leaves_of_eq rfl (if_neg hno), fun g => leaves_of_eq rfl (if_pos (.inl hno))⟩
  · have hne : g.val ≠ s.dur.stlActive := by rw [ha]; omega
    have hld : ¬ s.stlLoaded s.dur.stlActive = true := by rw [ha, hl]; decide
    exact if_pos (.inr (.inr ⟨hne, hld⟩))

/-- Settles O33: the loads, the waits, and the handle that a new context is given. -/
theorem sessionContexts : Obligations.SessionContexts := by
  refine ⟨fun s hrep => ⟨leaves_of_eq rfl (if_pos hrep), fun g hl ha => ?_⟩, sessionsWait, newContexts⟩
  have hact : g.val = s.dur.stlActive ∨ s.stlLoaded s.dur.stlActive = true := by
    rcases ha with h | ⟨h, h'⟩
    · exact .inl h.symm
    · exact .inr (h ▸ h')
  obtain ⟨hloaded, hgen⟩ := stlLoad_loads hrep hl hact
  refine ⟨stlLoad s g.val, leaves_of_eq rfl rfl, hloaded, hgen.trans ?_⟩
  by_cases hs : s.dur.stlActive = g.val ∨ (s.dur.stlHome g.val).sealed = true
  · exact (if_neg fun h => hs.elim (fun e => h.1 e.symm) h.2).trans (if_pos hs).symm
  · rw [not_or] at hs
    exact (if_pos ⟨fun e => hs.1 e.symm, hs.2⟩).trans (if_neg (not_or.2 hs)).symm

/-! ## Edits -/

@[simp] theorem stlGen_setStlGen_self (s : State) (k : Nat) (g : StlGen) : (s.setStlGen k g).stlGen k = g := by
  by_cases hk : k = 0
  · simp only [State.stlGen, State.setStlGen, if_pos hk]
  · simp only [State.stlGen, State.setStlGen, if_neg hk]

theorem stlGen_setStlGen_ne (s : State) {j k : Nat} (g : StlGen) (h : (j = 0) ≠ (k = 0)) :
    (s.setStlGen k g).stlGen j = s.stlGen j := by
  by_cases hk : k = 0
  · have hj : ¬ j = 0 := fun hj => h (propext ⟨fun _ => hk, fun _ => hj⟩)
    simp only [State.stlGen, State.setStlGen, if_pos hk, if_neg hj]
  · have hj : j = 0 := by
      by_contra hj
      exact h (propext ⟨fun h => absurd h hj, fun h => absurd h hk⟩)
    simp only [State.stlGen, State.setStlGen, if_neg hk, if_pos hj]

@[simp] theorem stlHome_setStlHome_self (d : Durable) (k : Nat) (g : StlGen) : (d.setStlHome k g).stlHome k = g := by
  by_cases hk : k = 0
  · simp only [Durable.stlHome, Durable.setStlHome, if_pos hk]
  · simp only [Durable.stlHome, Durable.setStlHome, if_neg hk]

theorem stlHome_setStlHome_ne (d : Durable) {j k : Nat} (g : StlGen) (h : (j = 0) ≠ (k = 0)) :
    (d.setStlHome k g).stlHome j = d.stlHome j := by
  by_cases hk : k = 0
  · have hj : ¬ j = 0 := fun hj => h (propext ⟨fun _ => hk, fun _ => hj⟩)
    simp only [Durable.stlHome, Durable.setStlHome, if_pos hk, if_neg hj]
  · have hj : j = 0 := by
      by_contra hj
      exact h (propext ⟨fun h => absurd h hj, fun h => absurd h hk⟩)
    simp only [Durable.stlHome, Durable.setStlHome, if_neg hk, if_pos hj]

/-- An edit that was made ends: the engine's copy and the home copy of its generation, and its status. -/
def editEnds (s : State) (k : Nat) (g home : StlGen) (m : Nat) : State :=
  { s.setStlGen k g with
    dur := s.dur.setStlHome k home
    stl := { (s.setStlGen k g).stl with busy := none, stat := St.ok, moves := m } }

theorem editEnds_spec (s : State) {k : Nat} (hk : k ≤ 1) (g home : StlGen) (m : Nat) :
    let t := editEnds s k g home m
    t.stl.busy = none ∧ t.stl.stat = St.ok ∧ t.stlGen k = g ∧ t.dur.stlHome k = home ∧
      t.stlGen (1 - k) = s.stlGen (1 - k) ∧ t.dur.stlHome (1 - k) = s.dur.stlHome (1 - k) := by
  have hne : (1 - k = 0) ≠ (k = 0) := by
    intro h
    have : 1 - k = 0 ↔ k = 0 := h ▸ Iff.rfl
    omega
  exact ⟨rfl, rfl, stlGen_setStlGen_self s k g, stlHome_setStlHome_self s.dur k home, stlGen_setStlGen_ne s g hne,
    stlHome_setStlHome_ne s.dur home hne⟩

section
variable {b : StlEdit} (hb : s.stl.busy = some b) (hi : s.indigo = true)
include hb hi

theorem stlEditDone_busy (h : b.refused = true ∨ stlSwitching s = true) :
    stlEditDone s = { s with stl := { s.stl with busy := none, stat := St.genBusy } } := by
  unfold stlEditDone
  rw [hb]
  exact (if_neg (not_not.2 hi)).trans (if_pos h)

variable (hr : b.refused = false) (hs : stlSwitching s = false)
include hr hs

theorem stlEditDone_waits (h : s.stlLoaded (1 - s.dur.stlActive) = false ∨ s.stl.releasing = true) : stlEditDone s = s := by
  unfold stlEditDone
  rw [hb]
  refine (if_neg (not_not.2 hi)).trans ((if_neg (by rw [hr, hs]; decide)).trans (if_pos ?_))
  exact h.imp_left fun h => by rw [h]; decide

/-- The edit that acts: what each operation makes of the inactive generation (R154-R157). -/
theorem stlEditDone_acts (hl : s.stlLoaded (1 - s.dur.stlActive) = true) (hrel : s.stl.releasing = false) :
    let k := 1 - s.dur.stlActive
    let g := s.stlGen k
    let unsealed := { s.dur.stlHome k with sealed := false }
    (b.op = 1 → ∀ h m, g.insert (stlEntry b.entry) s.freeCtr = some (h, m) →
      stlEditDone s = editEnds { s with freeCtr := s.freeCtr + 66 } k h unsealed m) ∧
    (b.op = 2 → ∀ p e, g.find (b.entry.take 16) = some (p, e) →
      stlEditDone s = editEnds s k { g with entries := sdel p g.entries } unsealed s.stl.moves) ∧
    (b.op = 2 → g.find (b.entry.take 16) = none →
      stlEditDone s = { s with stl := { s.stl with busy := none, stat := St.listMiss } }) ∧
    (b.op = 3 → stlEditDone s = editEnds s k { g with entries := [] } unsealed s.stl.moves) ∧
    (b.op = 4 → g.entries = [] → stlEditDone s = editEnds s k { g with salt := b.entry.take 16 } unsealed s.stl.moves) ∧
    (b.op = 5 → stlEditDone s = { s with
      dur := s.dur.setStlHome k { g with sealed := true }
      stl := { s.stl with busy := none, stat := St.ok } }) := by
  have hno2 : ¬ (b.refused = true ∨ stlSwitching s = true) := by rw [hr, hs]; decide
  have hno3 : ¬ (¬ s.stlLoaded (1 - s.dur.stlActive) = true ∨ s.stl.releasing = true) := by rw [hl, hrel]; decide
  intro k g unsealed
  unfold stlEditDone
  rw [hb]
  simp only [hi, not_true_eq_false, if_false, if_neg hno2, if_neg hno3]
  refine ⟨fun ho h m hins => ?_, fun ho p e hf => ?_, fun ho hf => ?_, fun ho => ?_, fun ho he => ?_, fun ho => ?_⟩ <;>
    rw [ho]
  · rw [hins]
    rfl
  · rw [hf]
    rfl
  · rw [hf]
    rfl
  · rfl
  · rw [if_pos he]
    rfl
  · rfl

end

/-- A write of STL.CMD by the keeper begins its edit, is refused, or finds one in progress (R154, R162). -/
theorem stlCmd_begins {op : Nat} (hi : s.indigo = true) (hb : s.stl.busy = none) (ho : 1 ≤ op) (ho' : op ≤ 5) :
    stlCmd s op =
      { s with stl := { s.stl with busy := some { op := op, entry := stlEntryBytes s, refused := stlSwitching s } } } := by
  unfold stlCmd
  refine (if_neg ?_).trans (if_neg (not_not.2 hi))
  rw [hb]
  rintro (h | h | h)
  · cases h
  · omega
  · omega

theorem stlCmd_busy {op : Nat} (hb : s.stl.busy.isSome = true) : stlCmd s op = s := if_pos (.inl hb)

theorem stlCmd_refused {op : Nat} (hi : s.indigo = false) (hb : s.stl.busy = none) (ho : 1 ≤ op) (ho' : op ≤ 5) :
    stlCmd s op = { s with stl := { s.stl with stat := St.modeRefused } } := by
  unfold stlCmd
  refine (if_neg ?_).trans (if_pos (by rw [hi]; decide))
  rw [hb]
  rintro (h | h | h)
  · cases h
  · omega
  · omega

theorem byKeeper_same {f : State → State} (h : f s = s) : s.byKeeper f = s := by
  unfold State.byKeeper
  split
  · exact h
  · rfl

theorem editsRefused : EditsRefused := by
  refine ⟨fun s => ⟨fun hb => ?_, fun hk hi hb => ?_⟩, fun s b hb hi => ⟨fun h => ?_, fun hr hs => ⟨fun h => ?_, ?_⟩⟩⟩
  · have hsame : ∀ op, s.byKeeper (fun s => stlCmd s op) = s := fun op => byKeeper_same (stlCmd_busy hb)
    exact ⟨leaves_of_eq rfl (hsame 1), leaves_of_eq rfl (hsame 2), leaves_of_eq rfl (hsame 3), leaves_of_eq rfl (hsame 4),
      leaves_of_eq rfl (hsame 5)⟩
  · have hends : ∀ op, 1 ≤ op → op ≤ 5 → s.byKeeper (fun s => stlCmd s op) = _ := fun op ho ho' =>
      (byKeeper_running hk _).trans (stlCmd_refused hi hb ho ho')
    exact ⟨leaves_of_eq rfl (hends 1 (by decide) (by decide)), leaves_of_eq rfl (hends 2 (by decide) (by decide)),
      leaves_of_eq rfl (hends 3 (by decide) (by decide)), leaves_of_eq rfl (hends 4 (by decide) (by decide)),
      leaves_of_eq rfl (hends 5 (by decide) (by decide))⟩
  · exact leaves_of_eq rfl (stlEditDone_busy hb hi h)
  · exact leaves_of_eq rfl (stlEditDone_waits hb hi hr hs h)
  · intro hl hrel ho hf
    obtain ⟨-, -, hmiss, -⟩ := stlEditDone_acts hb hi hr hs hl hrel
    exact leaves_of_eq rfl (hmiss ho hf)

theorem lookups : Lookups := by
  intro s cred
  refine ⟨fun p e hf => ?_, fun hf => ?_⟩
  · have hf' : ((s.incReg Reg.STL_LOOKUPS).stlGen (s.incReg Reg.STL_LOOKUPS).dur.stlActive).find cred = some (p, e) := hf
    unfold lookNow
    dsimp only
    rw [hf']
  · have hf' : ((s.incReg Reg.STL_LOOKUPS).stlGen (s.incReg Reg.STL_LOOKUPS).dur.stlActive).find cred = none := hf
    unfold lookNow
    dsimp only
    rw [hf']

/-- Settles O34: the commands, the edits that act, and the refusals. LIST_MISS for a DELETE and the seal that an edit without
effect keeps are log entries 114 and 115 (the model's choice), MOVES log entry 116. -/
theorem standingLists : Obligations.StandingLists := by
  refine ⟨fun s hk hi hb => ?_, ?_, editsRefused, lookups⟩
  · have hbegins : ∀ op, 1 ≤ op → op ≤ 5 → s.byKeeper (fun s => stlCmd s op) = _ := fun op ho ho' =>
      (byKeeper_running hk _).trans (stlCmd_begins hi hb ho ho')
    exact ⟨leaves_of_eq rfl (hbegins 1 (by decide) (by decide)), leaves_of_eq rfl (hbegins 2 (by decide) (by decide)),
      leaves_of_eq rfl (hbegins 3 (by decide) (by decide)), leaves_of_eq rfl (hbegins 4 (by decide) (by decide)),
      leaves_of_eq rfl (hbegins 5 (by decide) (by decide))⟩
  · intro s b hb hact hi hr hs k g ends unsealed
    refine ⟨leaves_of_eq rfl (if_neg (by rw [hs]; decide)), fun hl hrel => ?_⟩
    obtain ⟨hins, hdel, -, hclear, hsalt, hseal⟩ := stlEditDone_acts hb hi hr hs hl hrel
    have hk : k ≤ 1 := Nat.sub_le _ _
    have hedit : ∀ (u : State) (g' home : StlGen) (m : Nat), u.dur = s.dur → u.stl = s.stl →
        stlEditDone s = editEnds u k g' home m → ends g' home := by
      intro u g' home m hd hst he
      obtain ⟨h1, h2, h3, h4, h5, h6⟩ := editEnds_spec u hk g' home m
      have hgen : u.stlGen (1 - k) = s.stlGen (1 - k) := by rw [State.stlGen, hst]; rfl
      exact ⟨_, leaves_of_eq rfl he, h1, h2, h3, h4, h5.trans hgen, h6.trans (by rw [hd])⟩
    refine ⟨fun ho h m he => ?_, fun ho p e he => ?_, fun ho => ?_, fun ho he => ?_, fun ho => ?_⟩
    · exact hedit { s with freeCtr := s.freeCtr + 66 } _ _ _ rfl rfl (hins ho h m he)
    · exact hedit _ _ _ _ rfl rfl (hdel ho p e he)
    · exact hedit _ _ _ _ rfl rfl (hclear ho)
    · exact hedit _ _ _ _ rfl rfl (hsalt ho he)
    · have hne : (1 - k = 0) ≠ (k = 0) := by
        intro h
        have : 1 - k = 0 ↔ k = 0 := h ▸ Iff.rfl
        omega
      exact ⟨_, leaves_of_eq rfl (hseal ho), rfl, rfl, rfl, stlHome_setStlHome_self _ _ _, rfl, stlHome_setStlHome_ne _ _ hne⟩

end Sys2Proof.Machine
end

section
/-! SUPPORT. The key commands of the keeper (R443-R445): each check in turn, and what a command that passes does. -/

open Sys2Proof.Say

namespace Sys2Proof.Machine

variable {s u : State} {op : Nat}

theorem mode_permits {m : Word4} (h : m = Mode.workshop ∨ m = Mode.service) : ¬ (m ≠ Mode.workshop ∧ m ≠ Mode.service) :=
  fun hn => h.elim hn.1 hn.2

/-- A key command as it begins (R443). -/
def keyBegun (s : State) (op : Nat) : State := { s with key := { s.key with cmd := some op } }

theorem keyCmd_begins (hc : s.key.cmd = none) (h1 : 1 ≤ op) (h5 : op ≤ 5) : keyCmd s op = keyTry (keyBegun s op) := by
  refine if_neg ?_
  rw [hc]
  rintro (h | h | h)
  · cases h
  · omega
  · omega

theorem keyCmd_ignored (hc : s.key.cmd.isSome = true) : keyCmd s op = s := if_pos (.inl hc)

section
variable (hm : s.mode = Mode.workshop ∨ s.mode = Mode.service)
include hm

theorem keyTry_waits (hs : slotsReady s = false) :
    keyTry (keyBegun s op) = { s with key := { s.key with cmd := some op, held := true } } :=
  (if_neg (mode_permits hm)).trans (if_pos (by
    change ¬ slotsReady s = true
    rw [hs]; decide))

variable (hs : slotsReady s = true)
include hs

theorem keyTry_zeroise : keyTry (keyBegun s 5) = keyCommit (keyBegun s 5) (s.regFld Reg.KEY_SSEL 0 12) {} :=
  (if_neg (mode_permits hm)).trans ((if_neg (not_not.2 hs)).trans (if_pos rfl))

theorem keyTry_argInvalid (ho : op ≠ 5)
    (ha : attrOk s (s.regFld Reg.KEY_SSEL 0 12) (nattrSlot s) cmdKinds = false) :
    keyTry (keyBegun s op) = { s with key := { s.key with cmd := none, held := false, stat := St.argInvalid } } :=
  (if_neg (mode_permits hm)).trans ((if_neg (not_not.2 hs)).trans ((if_neg ho).trans (if_pos (.inl (by
    change ¬ attrOk s (s.regFld Reg.KEY_SSEL 0 12) (nattrSlot s) cmdKinds = true
    rw [ha]; decide)))))

variable (ho : op ≠ 5) (ha : attrOk s (s.regFld Reg.KEY_SSEL 0 12) (nattrSlot s) cmdKinds = true)
  (hk : op ≠ 1 → inKeeperData (s.reg64 Reg.KEY_ARG_LO) (if op = 4 then 40 else 16) = true)
include ho ha hk

theorem keyTry_occupied (hn : (s.slot (s.regFld Reg.KEY_SSEL 0 12)).kind ≠ 0) :
    keyTry (keyBegun s op) = { s with key := { s.key with cmd := none, held := false, stat := St.slotOccupied } } :=
  (if_neg (mode_permits hm)).trans ((if_neg (not_not.2 hs)).trans ((if_neg ho).trans ((if_neg fun h =>
    h.elim (· ha) fun h => h.2 (hk h.1)).trans (if_pos hn))))

variable (hn : (s.slot (s.regFld Reg.KEY_SSEL 0 12)).kind = 0)
include hn

theorem keyTry_generate {r : List Byte} (h1 : op = 1) (hr : rngDraw (keyBegun s op) 32 = (.ok r, u)) :
    keyTry (keyBegun s op) = keyCommit u (s.regFld Reg.KEY_SSEL 0 12) ((nattrSlot s).fresh r) := by
  refine (if_neg (mode_permits hm)).trans ((if_neg (not_not.2 hs)).trans ((if_neg ho).trans ((if_neg fun h =>
    h.elim (· ha) fun h => h.2 (hk h.1)).trans ((if_neg (not_not.2 hn)).trans ((if_pos h1).trans ?_)))))
  rw [hr]
  rfl

variable {p : Payload} (h1 : op ≠ 1)
  (hag : op = 3 → (agreeSecret s 0 (fld (s.reg Reg.KEY_ARG2).toNat 24 8) (fld (s.reg Reg.KEY_ARG2).toNat 0 24)).isSome = true)
  (hkek : op = 4 → slotCheck s 0 0 (fld (s.reg Reg.KEY_ARG2).toNat 0 12) (· == 0x50) = St.ok)
  (hread : engRead (keyBegun s op) (s.reg64 Reg.KEY_ARG_LO) (if op = 4 then 40 else 16) 0x28 none false = (.ok p, u))
include h1 hag hkek hread

/-- A command that took its argument makes the new slot's value from it (R444, R445). -/
theorem keyTry_arg : keyTry (keyBegun s op) =
    if op = 2 then keyCommit u (s.regFld Reg.KEY_SSEL 0 12) ((nattrSlot s).fresh
      (kdf Lbl.slot (u.root (nattrSlot s).root).bits (leBytes 2 (s.regFld Reg.KEY_SSEL 0 12) ++ p.bytes) 32))
    else if op = 3 then
      match agreeSecret u 0 (fld (s.reg Reg.KEY_ARG2).toNat 24 8) (fld (s.reg Reg.KEY_ARG2).toNat 0 24) with
      | some z => keyCommit (dropSecret u 0 (fld (s.reg Reg.KEY_ARG2).toNat 24 8)) (s.regFld Reg.KEY_SSEL 0 12)
          ((nattrSlot s).fresh (kdf Lbl.agree z p.bytes 32))
      | none => keyFail u St.argInvalid
    else
      match unwrapKey (kdf Lbl.importKey (u.slot (fld (s.reg Reg.KEY_ARG2).toNat 0 12)).v [] 32) p.bytes 32 with
      | some v => keyCommit u (s.regFld Reg.KEY_SSEL 0 12) ((nattrSlot s).fresh v)
      | none => keyFail u St.authFail := by
  have harg : keyArg (keyBegun s op) (if op = 4 then 40 else 16) = .ok (p.bytes, u) := by
    unfold keyArg
    rw [show (keyBegun s op).reg64 Reg.KEY_ARG_LO = s.reg64 Reg.KEY_ARG_LO from rfl, hread]
  have hst : (if op = 4 then slotCheck (keyBegun s op) 0 0 (fld (s.reg Reg.KEY_ARG2).toNat 0 12) (· == 0x50) else St.ok) =
      St.ok := by
    split
    · exact hkek ‹_›
    · rfl
  refine (if_neg (mode_permits hm)).trans ((if_neg (not_not.2 hs)).trans ((if_neg ho).trans ((if_neg fun h =>
    h.elim (· ha) fun h => h.2 (hk h.1)).trans ((if_neg (not_not.2 hn)).trans ((if_neg h1).trans ((if_neg ?_).trans
      ((if_neg (not_not.2 hst)).trans ?_)))))))
  · rintro ⟨h3, hnone⟩
    exact Option.not_isSome_iff_eq_none.2 (Option.isNone_iff_eq_none.1 hnone) (hag h3)
  · rw [harg]
    rfl

end

/-- What the commands that were begun by a write leave. -/
theorem keyCmd_leaves {c : Instr} {t : State} (he : exec c s = done s (s.byKeeper fun s => keyCmd s op))
    (hr : s.kpr.running = true) (hc : s.key.cmd = none) (h1 : 1 ≤ op) (h5 : op ≤ 5) (ht : keyTry (keyBegun s op) = t) :
    Leaves c s t :=
  leaves_of_eq he ((byKeeper_running hr _).trans ((keyCmd_begins hc h1 h5).trans ht))

theorem keyCommandsRefused : KeyCommandsRefused := by
  refine fun s => ⟨fun h => ?_, fun hr hc hm => ⟨fun hs => ?_, fun hs => ⟨fun ha => ?_, fun ha hn => ?_, ?_⟩⟩⟩
  · have hsame : ∀ op, s.byKeeper (fun s => keyCmd s op) = s := fun op =>
      h.elim (fun h => byKeeper_same (keyCmd_ignored h)) fun h => byKeeper_stopped h _
    exact ⟨leaves_of_eq rfl (hsame 1), leaves_of_eq rfl (hsame 2), leaves_of_eq rfl (hsame 3), leaves_of_eq rfl (hsame 4),
      leaves_of_eq rfl (hsame 5)⟩
  · exact keyCmd_leaves rfl hr hc (by decide) (by decide) (keyTry_waits hm hs)
  · exact keyCmd_leaves rfl hr hc (by decide) (by decide) (keyTry_argInvalid hm hs (by decide) ha)
  · exact keyCmd_leaves rfl hr hc (by decide) (by decide)
      (keyTry_occupied hm hs (by decide) ha (fun h => absurd rfl h) hn)
  · intro ha hn hk hkek p u hread hun
    refine keyCmd_leaves rfl hr hc (by decide) (by decide) ((keyTry_arg hm hs (op := 4) (by decide) ha (fun _ => hk) hn
      (by decide) (fun h => absurd h (by decide)) (fun _ => hkek) hread).trans ?_)
    rw [if_neg (by decide), if_neg (by decide), hun]

/-- Settles O35: each command that passes its checks, and the refusals. -/
theorem keyCommands : Obligations.KeyCommands := by
  refine ⟨?_, keyCommandsRefused⟩
  intro s u p hr hc hm hs n x begun arg arg2 took
  refine ⟨keyCmd_leaves rfl hr hc (by decide) (by decide) (keyTry_zeroise hm hs), fun ha hn => ⟨?_, ?_, ?_, ?_⟩⟩
  · intro r hdraw
    exact keyCmd_leaves rfl hr hc (by decide) (by decide)
      (keyTry_generate hm hs (by decide) ha (fun h => absurd rfl h) hn rfl hdraw)
  · rintro ⟨hk, hread⟩
    refine keyCmd_leaves rfl hr hc (by decide) (by decide) ((keyTry_arg hm hs (op := 2) (by decide) ha (fun _ => hk) hn
      (by decide) (fun h => absurd h (by decide)) (fun h => absurd h (by decide)) hread).trans ?_)
    exact if_pos rfl
  · rintro i secret z hz hz' ⟨hk, hread⟩
    refine keyCmd_leaves rfl hr hc (by decide) (by decide) ((keyTry_arg hm hs (op := 3) (by decide) ha (fun _ => hk) hn
      (by decide) (fun _ => ?_) (fun h => absurd h (by decide)) hread).trans ?_)
    · exact Option.isSome_iff_exists.2 ⟨z, hz⟩
    · have hz'' : agreeSecret u 0 (fld (s.reg Reg.KEY_ARG2).toNat 24 8) (fld (s.reg Reg.KEY_ARG2).toNat 0 24) = some z := hz'
      rw [if_neg (by decide), if_pos rfl, hz'']
  · rintro kek v hkek ⟨hk, hread⟩ hun
    refine keyCmd_leaves rfl hr hc (by decide) (by decide) ((keyTry_arg hm hs (op := 4) (by decide) ha (fun _ => hk) hn
      (by decide) (fun h => absurd h (by decide)) (fun _ => hkek) hread).trans ?_)
    have hun' : unwrapKey (kdf Lbl.importKey (u.slot (fld (s.reg Reg.KEY_ARG2).toNat 0 12)).v [] 32) p.bytes 32 = some v := hun
    rw [if_neg (by decide), if_neg (by decide), hun']

end Sys2Proof.Machine
end

section
/-! SUPPORT. Public keys, the attestation statement, the load of the slots, and the random source (R420-R464). -/

open Sys2Proof.Say

namespace Sys2Proof.Machine

variable {s u : State}

/-! ## Public keys and statements -/

/-- A command on a public key as it begins (R420). -/
def pubBegun (s : State) (op : Nat) : State := { s with pke := { s.pke with busy := some op } }

theorem pubCmd_begins {op : Nat} (hb : s.pke.busy = none) (ho : op = 1 ∨ op = 2) : pubCmd s op = pubTry (pubBegun s op) := by
  refine if_neg ?_
  rw [hb]
  rintro (h | h)
  · cases h
  · exact ho.elim h.1 h.2

theorem pubCmd_ignored {op : Nat} (hb : s.pke.busy.isSome = true) : pubCmd s op = s := if_pos (.inl hb)

section
variable (hm : s.mode = Mode.workshop ∨ s.mode = Mode.service) (hs : slotsReady s = true)
include hm hs

/-- The public key that EXPORT writes (R420). -/
def exported (s : State) : List Byte :=
  let x := s.slot (s.regFld Reg.PKE_PUB_SLOT 0 12)
  if 0x41 ≤ x.kind then x.pubRec else pubKey x.kind x.v

theorem pubTry_export
    (hst : slotCheck s 0 0 (s.regFld Reg.PKE_PUB_SLOT 0 12) (fun k => !(aeadKind k || k == 0x50)) = St.ok)
    (hlen : (exported s).length ≤ s.regFld Reg.PKE_PUB_LEN 0 16)
    (hk : inKeeperData (s.reg64 Reg.PKE_PUB_ADDR_LO) (exported s).length = true)
    (hw : engWrite (pubBegun s 1) (s.reg64 Reg.PKE_PUB_ADDR_LO) (rawPayload (exported s)) none = (true, u)) :
    pubTry (pubBegun s 1) =
      pubFail (u.setReg Reg.PKE_PUB_LEN (BitVec.ofNat 32 (exported s).length)) St.ok := by
  refine (if_neg (mode_permits hm)).trans ((if_neg (not_not.2 hs)).trans ((if_pos rfl).trans
    ((if_neg (not_not.2 hst)).trans ((if_neg ?_).trans ?_))))
  · exact fun h => h.elim (Nat.not_lt.2 hlen) (· hk)
  · have hw' : engWrite (pubBegun s 1) ((pubBegun s 1).reg64 Reg.PKE_PUB_ADDR_LO) (rawPayload (exported (pubBegun s 1))) none =
        (true, u) := hw
    unfold exported at hw'
    rw [hw']
    rfl

theorem pubTry_load {p : Payload}
    (ha : attrOk s (s.regFld Reg.PKE_PUB_SLOT 0 12) (nattrSlot s) (fun k => 0x41 ≤ k && k ≤ 0x49) = true)
    (hlen : s.regFld Reg.PKE_PUB_LEN 0 16 = pubLen (nattrSlot s).kind)
    (hk : inKeeperData (s.reg64 Reg.PKE_PUB_ADDR_LO) (s.regFld Reg.PKE_PUB_LEN 0 16) = true)
    (hn : (s.slot (s.regFld Reg.PKE_PUB_SLOT 0 12)).kind = 0)
    (hr : engRead (pubBegun s 2) (s.reg64 Reg.PKE_PUB_ADDR_LO) (s.regFld Reg.PKE_PUB_LEN 0 16) 0x27 none false =
      (.ok p, u)) :
    pubTry (pubBegun s 2) = ({ u with pke := { u.pke with busy := some 3 } } : State).devCommit
      [.effects [.slot (s.regFld Reg.PKE_PUB_SLOT 0 12)
        { nattrSlot s with v := genBytes 32 (Config.hashByte 1 p.bytes), pubRec := p.bytes }]]
      (.pubLoad (s.regFld Reg.PKE_PUB_SLOT 0 12)) := by
  refine (if_neg (mode_permits hm)).trans ((if_neg (not_not.2 hs)).trans ((if_neg
    (by decide)).trans ((if_neg ?_).trans ((if_neg (not_not.2 hn)).trans ?_))))
  · rintro (h | h | h)
    · exact h ha
    · exact h hlen
    · exact h hk
  · have hr' : engRead (pubBegun s 2) ((pubBegun s 2).reg64 Reg.PKE_PUB_ADDR_LO) ((pubBegun s 2).regFld Reg.PKE_PUB_LEN 0 16)
        0x27 none false = (.ok p, u) := hr
    rw [hr']
    rfl

end

/-- The keeper's statement as it begins (R450). -/
def attBegun (s : State) : State := { s with key := { s.key with att := true } }

theorem attTry_writes {v w : State} {p : Payload} {st : List Byte} (hm : s.mode = Mode.workshop ∨ s.mode = Mode.service)
    (hcap : 0xC8 + 104 * (measured s).length + 3429 ≤ s.regFld Reg.KEY_ATT_LEN 0 16)
    (hk : inKeeperData (s.reg64 Reg.KEY_ATT_ADDR_LO) (s.regFld Reg.KEY_ATT_LEN 0 16) = true)
    (hr : engRead (attBegun s) (s.reg64 Reg.KEY_ATT_ADDR_LO) 32 0x28 none false = (.ok p, u))
    (hs : signedStatement u p.bytes = (.ok st, v))
    (hw : engWrite v (s.reg64 Reg.KEY_ATT_ADDR_LO) (rawPayload st) none = (true, w)) :
    attTry (attBegun s) = attFail (w.setReg Reg.KEY_ATT_LEN (BitVec.ofNat 32 st.length)) St.ok := by
  refine (if_neg (not_not.2 rfl)).trans ((if_neg (mode_permits hm)).trans ((if_neg ?_).trans ?_))
  · exact fun h => h.elim (Nat.not_lt.2 hcap) (· hk)
  · have hr' : engRead (attBegun s) ((attBegun s).reg64 Reg.KEY_ATT_ADDR_LO) 32 0x28 none false = (.ok p, u) := hr
    have hw' : engWrite v ((attBegun s).reg64 Reg.KEY_ATT_ADDR_LO) (rawPayload st) none = (true, w) := hw
    rw [hr']
    dsimp only
    rw [hs]
    dsimp only
    rw [hw']

/-! ## The load of the slots -/

theorem slotLoad_waits (hr : s.kpr.replayDone = false) (bad err : List Nat) : slotLoad s bad err = s :=
  if_pos (.inl (by rw [hr]; decide))

/-- A load that finds nothing bad (R442). -/
theorem slotLoad_clean (hr : s.kpr.replayDone = true) (hl : s.key.loaded = false) (hroot : rootOf s.mode ≠ 4) :
    slotLoad s [] [] = { s with key := { s.key with
      loaded := true
      bad := s.key.bad.filter fun n => !decide ((s.slot n).kind ≠ 0 ∧ (s.slot n).root = rootOf s.mode) } } := by
  refine (if_neg ?_).trans ?_
  · rw [hr]
    exact fun h => h.elim (· rfl) hroot
  · simp only [hl, List.not_mem_nil, decide_false, Bool.false_and, List.filter_false, List.append_nil, List.foldl_nil,
      Bool.false_or, Bool.or_false]

/-! ## The random source -/

theorem rawBlock_tests (hp : s.pwr.up = true) (hf : s.rng.fatal = false) (hr : s.rng.restarting = false) (a b : BitVec 2048) :
    rawBlock s a b = blockTested s (rawSamples a b) (repetitionFails (rawSamples a b)) (proportionFails (rawSamples a b)) := by
  refine if_neg ?_
  rw [hp, hf, hr]
  decide

/-- A block that passes both tests (R459). -/
theorem rngBlock_passes : rngBlock s false false =
    (false, { ((s.incReg Reg.RNG_BLOCKS).statInc 0x58) with rng := { s.rng with lastfail := 0 } }) := rfl

/-- A passing block refills the seed buffer (R461). -/
theorem blockTested_refills {l : List Bool} (hs : s.kpr.seedDone = true) (hw : s.rng.waiting = false) :
    blockTested s l false false = putSeed (rngBlock s false false).2 l := by
  unfold blockTested
  rw [rngBlock_passes]
  simp only [Bool.or_self, Bool.false_eq_true, if_false]
  refine (if_pos hs).trans (if_neg ?_)
  change ¬ s.rng.waiting = true
  rw [hw]
  decide

/-- A passing block counts towards the first seed (R464). -/
theorem blockTested_counts {l : List Bool} (hs : s.kpr.seedDone = false) (hp : s.rng.passes < 16) :
    blockTested s l false false = { (rngBlock s false false).2 with
      rng := { (rngBlock s false false).2.rng with passes := s.rng.passes + 1 } } := by
  have hno : ¬ 17 ≤ s.rng.passes + 1 := by omega
  unfold blockTested
  rw [rngBlock_passes]
  simp only [Bool.or_self, Bool.false_eq_true, if_false, State.incReg, State.statInc_kpr, State.setReg_kpr, hs, if_neg hno]

/-- A block that fails, while the failures do not reach the fatal count (R462). -/
theorem rngBlock_fails {rep prop : Bool} (hs : s.kpr.seedDone = true) (he : s.rng.epfail < 3) (h : rep = true ∨ prop = true) :
    (rngBlock s rep prop).1 = false ∧ (rngBlock s rep prop).2.rng.restarting = true ∧
      (rngBlock s rep prop).2.rng.fatal = false ∧ (rngBlock s rep prop).2.rng.cond = 0 ∧
      (rngBlock s rep prop).2.rng.epfail = s.rng.epfail + 1 := by
  have hor : (rep || prop) = true := by rw [Bool.or_eq_true]; exact h
  have hmin : min 4 (s.rng.epfail + 1) = s.rng.epfail + 1 := by omega
  have hno : decide (4 ≤ s.rng.epfail + 1) = false := decide_eq_false (by omega)
  have hrep : ∀ u : State, (if rep = true then u.statInc 0x5C else u).kpr = u.kpr ∧
      (if rep = true then u.statInc 0x5C else u).rng = u.rng := fun u => by split <;> exact ⟨rfl, rfl⟩
  have hprop : ∀ u : State, (if prop = true then u.statInc 0x60 else u).kpr = u.kpr ∧
      (if prop = true then u.statInc 0x60 else u).rng = u.rng := fun u => by split <;> exact ⟨rfl, rfl⟩
  unfold rngBlock
  simp only [if_pos hor, (hrep _).1, (hrep _).2, (hprop _).1, (hprop _).2, State.incReg, State.setReg_kpr, State.statInc_kpr,
    State.statInc_rng, State.setReg_rng, hs, if_true, hmin, hno]
  exact ⟨trivial, rfl, rfl, rfl, rfl⟩

/-- The conditioner's register takes a raw bit at bit 0 and shifts towards bit 255 (R458). -/
theorem lfsrStep_getLsbD (r : BitVec 256) (b : Bool) {k : Nat} (hk : k < 256) : (lfsrStep r b).getLsbD k =
    if k = 0 then (((r.getLsbD 255 ^^ r.getLsbD 9) ^^ (r.getLsbD 4 ^^ r.getLsbD 1)) ^^ b) else r.getLsbD (k - 1) := by
  have hbit : ∀ f : Bool, (if f = true then 1 else 0 : BitVec 256).getLsbD k = (f && decide (k = 0)) := by
    intro f
    cases f
    · simp
    · simp [BitVec.getLsbD_one]
  unfold lfsrStep
  dsimp only
  rw [BitVec.getLsbD_or, BitVec.getLsbD_shiftLeft, hbit]
  by_cases h0 : k = 0
  · simp [h0]
  · have h1 : ¬ k < 1 := by omega
    simp [h0, h1, hk]

/-- One output bit for eight raw bits (R458). -/
theorem lfsrBits_length (r : BitVec 256) (l : List Bool) (n : Nat) (out : List Bool) :
    (lfsrBits r l n out).2.length = out.length + ((n + l.length) / 8 - n / 8) := by
  induction l generalizing r n out with
  | nil => simp [lfsrBits]
  | cons b l ih =>
    rw [lfsrBits, ih, List.length_cons]
    split
    · rw [List.length_append, List.length_singleton]
      omega
    · omega

theorem rawSamples_length (a b : BitVec 2048) : (rawSamples a b).length = 4096 := by
  simp [rawSamples]

/-- 4,096 samples give a seed of 64 bytes (R457). -/
theorem condition_length (r : BitVec 256) (a b : BitVec 2048) : (condition r (rawSamples a b)).2.length = 64 := by
  unfold condition bitBytes
  dsimp only
  rw [List.length_map, List.length_range, lfsrBits_length, rawSamples_length]
  rfl

/-- The longest run so far stays. -/
theorem longestRun_ge (p : Option Bool) (run m : Nat) (l : List Bool) : m ≤ longestRun p run m l := by
  induction l generalizing p run m with
  | nil => exact Nat.le_refl m
  | cons b l ih => exact (Nat.le_max_left _ _).trans (ih _ _ _)

/-- A run that goes on for `n` more samples. -/
theorem longestRun_run (b : Bool) (run m n : Nat) (l : List Bool) (hm : run ≤ m) :
    run + n ≤ longestRun (some b) run m (List.replicate n b ++ l) := by
  induction n generalizing run m with
  | zero => exact hm.trans (longestRun_ge _ _ _ _)
  | succ n ih =>
    rw [List.replicate_succ, List.cons_append, longestRun, if_pos rfl]
    have := ih (run + 1) (max m (run + 1)) (Nat.le_max_right _ _)
    omega

/-- A run after other samples. -/
theorem longestRun_after (p : Option Bool) (run m : Nat) (k : List Bool) (b : Bool) (n : Nat) (l : List Bool) :
    n + 1 ≤ longestRun p run m (k ++ (List.replicate (n + 1) b ++ l)) := by
  induction k generalizing p run m with
  | nil =>
    rw [List.nil_append, List.replicate_succ, List.cons_append, longestRun]
    have h1 : 1 ≤ if p = some b then run + 1 else 1 := by split <;> omega
    have := longestRun_run b (if p = some b then run + 1 else 1) _ n l (Nat.le_max_right m _)
    omega
  | cons c k ih => exact ih _ _ _

theorem randomSource : RandomSource := by
  refine ⟨fun r b k hk => lfsrStep_getLsbD r b hk, condition_length, fun s l => rfl, fun b k l => ?_⟩
  rw [List.append_assoc]
  exact decide_eq_true (longestRun_after none 0 0 k b 40 l)

theorem keeperCommandsWait : KeeperCommandsWait := by
  refine fun s => ⟨fun h => ?_, fun h => ?_, fun h bad err => ?_⟩
  · have hsame : ∀ op, s.byKeeper (fun s => pubCmd s op) = s := fun op =>
      h.elim (fun h => byKeeper_same (pubCmd_ignored h)) fun h => byKeeper_stopped h _
    exact ⟨leaves_of_eq rfl (hsame 1), leaves_of_eq rfl (hsame 2)⟩
  · exact leaves_of_eq rfl (h.elim (fun h => byKeeper_same (if_pos h)) fun h => byKeeper_stopped h _)
  · exact leaves_of_eq rfl (congrArg keyResume (slotLoad_waits h bad err))

/-- A block of samples that passes, or fails, the two tests (R459-R464): `u` is the state with the block counted. -/
theorem rawBlock_leaves (hp : s.pwr.up = true) (hf : s.rng.fatal = false) (hr : s.rng.restarting = false)
    {a b : BitVec 2048} {rep prop : Bool} (hrep : repetitionFails (rawSamples a b) = rep)
    (hprop : proportionFails (rawSamples a b) = prop) (hu : (rngBlock s rep prop).2 = u) :
    (s.kpr.seedDone = true → rep = false → prop = false → s.rng.waiting = false →
      Leaves (.rawBlockTested a b) s (putSeed u (rawSamples a b))) ∧
    (s.kpr.seedDone = false → rep = false → prop = false → s.rng.passes < 16 →
      Leaves (.rawBlockTested a b) s { u with rng := { u.rng with passes := s.rng.passes + 1 } }) ∧
    (s.kpr.seedDone = true → s.rng.epfail < 3 → rep = true ∨ prop = true →
      ∃ t, Leaves (.rawBlockTested a b) s t ∧ t.rng.restarting = true ∧ t.rng.fatal = false ∧ t.rng.cond = 0 ∧
        t.rng.epfail = s.rng.epfail + 1) := by
  have hrun := rawBlock_tests hp hf hr a b
  rw [hrep, hprop] at hrun
  subst hu
  refine ⟨fun hs h1 h2 hw => leaves_of_eq rfl (hrun.trans ?_), fun hs h1 h2 hps => leaves_of_eq rfl (hrun.trans ?_),
    fun hs he h => ?_⟩
  · rw [h1, h2]
    exact blockTested_refills hs hw
  · rw [h1, h2]
    exact blockTested_counts hs hps
  · obtain ⟨h0, hrest⟩ := rngBlock_fails hs he h
    have hpair : rngBlock s rep prop = (false, (rngBlock s rep prop).2) := Prod.ext h0 rfl
    have hblock : blockTested s (rawSamples a b) rep prop = (rngBlock s rep prop).2 := by
      unfold blockTested
      rw [hpair]
      exact if_pos (by rw [Bool.or_eq_true]; exact h)
    exact ⟨_, leaves_of_eq rfl (hrun.trans hblock), hrest⟩

/-- Settles O36: the commands of the keeper, the load of the slots, and the blocks of the noise source. The conditioner's bit
order, the seed that replaces the one in the buffer and the first 16 blocks without a seed are log entry 125 (DEDUCED). -/
theorem publicKeysAndRandomness : Obligations.PublicKeysAndRandomness := by
  refine ⟨?_, fun s => ⟨fun hr hl hroot => ?_, ?_, leaves_of_eq rfl rfl⟩, keeperCommandsWait, randomSource⟩
  · intro s u p hr hm
    refine ⟨fun hb hs => ⟨fun hst hlen hk hw => ?_, fun ha hlen hk hn hread => ?_⟩, fun ha hcap hk v st w hread hsign hw => ?_⟩
    · exact leaves_of_eq rfl ((byKeeper_running hr _).trans
        ((pubCmd_begins hb (.inl rfl)).trans (pubTry_export hm hs hst hlen hk hw)))
    · exact leaves_of_eq rfl ((byKeeper_running hr _).trans
        ((pubCmd_begins hb (.inr rfl)).trans (pubTry_load hm hs ha hlen hk hn hread)))
    · exact leaves_of_eq rfl ((byKeeper_running hr _).trans
        ((if_neg (by rw [ha]; decide)).trans (attTry_writes hm hcap hk hread hsign hw)))
  · exact leaves_of_eq rfl (congrArg keyResume (slotLoad_clean hr hl hroot))
  · exact fun a b hp hf hrs => rawBlock_leaves hp hf hrs rfl rfl
      (u := (rngBlock s (repetitionFails (rawSamples a b)) (proportionFails (rawSamples a b))).2) rfl

end Sys2Proof.Machine
end

section
/-! SUPPORT. Accesses of the registers (R7-R9, R29, R30) and of the protection sets (R333). -/

open Sys2Proof.Say

namespace Sys2Proof.Machine

variable {s : State} {a : Nat} {v : Word32}

/-- A plain register takes a store by its access codes (R7). -/
theorem regStore_plain (hc : a ∉ commandRegs) (hm : isMpuReg a = false) (hb : bindShut s a = false) :
    regStore s a v = bankWrite s a v := by
  simp only [commandRegs, List.mem_cons, List.not_mem_nil, or_false, not_or] at hc
  simp only [regStore, hc, hm, hb, if_false, Bool.false_eq_true]

theorem bankWrite_some {d : RegDesc} (hd : regDesc a = some d) : bankWrite s a v = s.setReg a (regWritten d (s.reg a) v) := by
  rw [bankWrite, hd]

theorem bankWrite_none (hd : regDesc a = none) : bankWrite s a v = s := by rw [bankWrite, hd]

theorem rcClear_rc {d : RegDesc} (hd : regDesc a = some d) (hrc : d.rc = true) : rcClear s a v = s.setReg a v := by
  rw [rcClear, hd]
  exact if_pos hrc

/-- Bit by bit, what a write by the access codes leaves where no field has reserved values (R7). -/
theorem regWritten_getLsbD {d : RegDesc} (hl : d.legal = []) (old v : Word32) {k : Nat} (hk : k < 32) :
    (regWritten d old v).getLsbD k =
      (((old.getLsbD k && !d.rw.getLsbD k || v.getLsbD k && d.rw.getLsbD k) && !(v.getLsbD k && d.w1c.getLsbD k)) ||
        v.getLsbD k && d.w1s.getLsbD k) := by
  have hz : (0 : Word32).getLsbD k = false := BitVec.getLsbD_zero
  simp only [regWritten, reservedMask, hl, List.foldl_nil, BitVec.getLsbD_or, BitVec.getLsbD_and, BitVec.getLsbD_not, hk,
    decide_true, Bool.true_and, hz, Bool.not_false, Bool.and_true]

theorem accessCodes : AccessCodes := by
  intro d old v hl k hk w
  have hw : w = _ := regWritten_getLsbD hl old v hk
  rw [hw]
  refine ⟨fun h1 h2 => ?_, fun h1 h2 h3 => ?_, fun h1 h2 h3 => ?_, fun h1 h2 h3 => ?_⟩
  · rw [h1, h2, Bool.and_self, Bool.or_true]
  · rw [h1, h2, h3, Bool.and_self, Bool.not_true, Bool.and_false, Bool.and_false, Bool.or_self]
  · rw [h1, h2, h3]
    cases old.getLsbD k <;> cases v.getLsbD k <;> rfl
  · rw [h1, h2, h3]
    cases old.getLsbD k <;> cases v.getLsbD k <;> rfl

/-- The upper half that a read of a lower half latches is what the agent's next read of it returns (R30). -/
theorem regLoad_latchRead (ag : Nat ⊕ Nat) (hl : isLower a = true) (hi : Word32) :
    regLoad (latchRead s ag a hi) ag (a + 4) = hi := by
  have hlatch : latchRead s ag a hi = { s with latch := (latchKey ag (a + 4), hi) ::
      (s.latch.filter fun q => q.1 ≠ latchKey ag a).filter fun q => q.1 ≠ latchKey ag (a + 4) } := if_pos hl
  have hfind : (latchRead s ag a hi).latch.find? (fun p => p.1 == latchKey ag (a + 4)) = some (latchKey ag (a + 4), hi) := by
    rw [hlatch]
    exact List.find?_cons_of_pos (beq_self_eq_true _)
  rw [regLoad, hfind]

theorem noAccess : NoAccess := by
  refine fun s a v => ⟨fun hr hc hm hb hd => ?_, fun hr => ?_⟩
  · exact leaves_of_eq rfl ((byKeeper_running hr _).trans ((regStore_plain hc hm hb).trans (bankWrite_none hd)))
  · exact ⟨leaves_of_eq rfl (byKeeper_stopped hr _), leaves_of_eq rfl (byKeeper_stopped hr _),
      leaves_of_eq rfl (byKeeper_stopped hr _)⟩

/-- The registers of region `n` in the set shown. -/
theorem isMpuReg_region {n k : Nat} (hn : n < 16) (hk : k < 2) : isMpuReg (Reg.MPU_RGN_LO + 8 * n + 4 * k) = true := by
  unfold isMpuReg
  simp only [Reg.MPU_RGN_LO]
  have h1 : 0x1500100 ≤ 0x1500100 + 8 * n + 4 * k ∧ 0x1500100 + 8 * n + 4 * k < 0x1500100 + 0x80 := by omega
  have h2 : (0x1500100 + 8 * n + 4 * k) % 4 = 0 := by omega
  rw [decide_eq_true h1, h2]
  simp

/-- The lower half of a region is latched; it changes no region yet (R333). -/
theorem mpuWrite_rgnLo (n : Nat) : mpuWrite s (Reg.MPU_RGN_LO + 8 * n) v = s.setMpu (misel s) { s.mpuSet (misel s) with
    rgnLo := sset (fun n => ((s.mpuSet (misel s)).region n).1) (s.mpuSet (misel s)).rgnLo n (v &&& 0xFFFFFFC0) } := by
  have hn : (Reg.MPU_RGN_LO + 8 * n - Reg.MPU_RGN_LO) / 8 = n := by omega
  refine (if_neg (by simp only [Reg.MPU_RGN_LO, Reg.MPU_DMAP]; omega)).trans ((if_neg
    (by simp only [Reg.MPU_RGN_LO, Reg.MPU_GATE_LO]; omega)).trans ((if_neg
    (by simp only [Reg.MPU_RGN_LO, Reg.MPU_GATE_HI]; omega)).trans ?_))
  rw [hn]
  exact if_pos (by simp only [Reg.MPU_RGN_LO]; omega)

theorem mpuWrite_rgnHi (n : Nat) : mpuWrite s (Reg.MPU_RGN_LO + 8 * n + 4) v = rgnHi s n v := by
  have hn : (Reg.MPU_RGN_LO + 8 * n + 4 - Reg.MPU_RGN_LO) / 8 = n := by omega
  refine (if_neg (by simp only [Reg.MPU_RGN_LO, Reg.MPU_DMAP]; omega)).trans ((if_neg
    (by simp only [Reg.MPU_RGN_LO, Reg.MPU_GATE_LO]; omega)).trans ((if_neg
    (by simp only [Reg.MPU_RGN_LO, Reg.MPU_GATE_HI]; omega)).trans ?_))
  rw [hn]
  exact if_neg (by simp only [Reg.MPU_RGN_LO]; omega)

theorem mpuSetUpdate_leaves {t : State} (hr : s.kpr.running = true) (hm : isMpuReg a = true) (he : mpuWrite s a v = t) :
    Leaves (.mpuSetUpdate a v) s t :=
  leaves_of_eq rfl ((byKeeper_running hr _).trans ((if_pos hm).trans he))

/-- Settles O37: the accesses by their codes, the latched halves, and the registers of the set shown. -/
theorem registers : Obligations.Registers := by
  refine ⟨fun s a v => ⟨fun hr d hd => ⟨fun hc hm hb => ?_, fun hrc => ?_⟩, fun hl r => ?_, fun hr => ?_⟩,
    accessCodes, noAccess⟩
  · exact leaves_of_eq rfl ((byKeeper_running hr _).trans ((regStore_plain hc hm hb).trans (bankWrite_some hd)))
  · exact leaves_of_eq rfl ((byKeeper_running hr _).trans (rcClear_rc hd hrc))
  · refine ⟨latchRead s (agentOf r) a (regRead s (a + 4)), leaves_of_eq rfl (if_pos hl), regLoad_latchRead _ hl _, ?_, ?_⟩
    all_goals
      unfold latchRead
      dsimp only
      rw [if_pos hl]
  · intro i m gives
    refine ⟨mpuSetUpdate_leaves hr rfl rfl, mpuSetUpdate_leaves hr rfl rfl, mpuSetUpdate_leaves hr rfl rfl, fun n hn => ⟨?_, ?_⟩⟩
    · refine ⟨_, mpuSetUpdate_leaves hr (isMpuReg_region (k := 0) hn (by decide)) (mpuWrite_rgnLo n), fun j => ?_, fun j hj => ?_⟩
      · rw [State.mpuSet_setMpu_self]
        rfl
      · exact State.mpuSet_setMpu_ne _ _ hj
    · exact mpuSetUpdate_leaves hr (isMpuReg_region (k := 1) hn (by decide)) (mpuWrite_rgnHi n)

end Sys2Proof.Machine
end

section
/-! SUPPORT. Power-up and the resets (R51-R60), the replay (R113) and the measurement of the capacitance (R115). -/

open Sys2Proof.Say

namespace Sys2Proof.Machine

variable {s : State}

/-! ## What a device reset leaves -/

theorem flopStop_idle (h : s.cfl.busy = []) : flopStop s = { s with cfl := { s.cfl with busy := [] } } := by
  unfold flopStop
  rw [h]
  rfl

/-- A table of which the entries with some keys are kept. -/
theorem sget_filter {α : Type} (d : Nat → α) (f : Nat → Bool) (m : List (Nat × α)) (k : Nat) :
    sget d (m.filter fun p => f p.1) k = if f k = true then sget d m k else d k := by
  induction m with
  | nil => rw [List.filter_nil, sget, ite_self]
  | cons p m ih =>
    by_cases hp : f p.1 = true
    · rw [List.filter_cons_of_pos (p := fun q : Nat × α => f q.1) hp, sget, sget, ih]
      by_cases hk : p.1 = k
      · rw [if_pos hk, if_pos hk, if_pos (hk ▸ hp)]
      · rw [if_neg hk, if_neg hk]
    · rw [List.filter_cons_of_neg (p := fun q : Nat × α => f q.1) hp, ih, sget]
      by_cases hk : p.1 = k
      · rw [if_neg (hk ▸ hp), if_neg (hk ▸ hp)]
      · rw [if_neg hk]

/-- An address outside the window of the boot blocks is its own cell. -/
theorem phys_outside (s : State) {a : Nat} (h : a < 0x28000000 ∨ 0x28200000 ≤ a) : phys s a = a :=
  if_neg fun h' => by omega

section
variable {t : State} {a : Nat} (hr : 0x40000 ≤ a) (hp : a < 0x28000000 ∨ 0x28200000 ≤ a)
include hr hp

theorem rdByte_outside (s : State) : s.rdByte a = sget (fun _ => 0) s.mem a := by
  rw [State.rdByte, if_neg (by omega), phys_outside s hp]

theorem rdTag_outside (s : State) : s.rdTag a = sget (fun _ => 0) s.tags (a / 8) := by
  rw [State.rdTag, if_neg (by omega), phys_outside s hp]

/-- What a reset leaves of a byte and its tag, where its cell is kept and where it is not (R60). -/
theorem kept_cell (hm : t.mem = s.mem.filter fun p => keptAddr p.1) (ht : t.tags = s.tags.filter fun p => keptAddr (8 * p.1)) :
    t.rdByte a = (if keptAddr a = true then s.rdByte a else 0) ∧
      t.rdTag a = if keptAddr (8 * (a / 8)) = true then s.rdTag a else 0 := by
  rw [rdByte_outside hr hp, rdTag_outside hr hp, rdByte_outside hr hp, rdTag_outside hr hp, hm, ht]
  exact ⟨sget_filter _ keptAddr _ _, sget_filter _ (fun k => keptAddr (8 * k)) _ _⟩

end

theorem keptAddr_flash {a : Nat} (h1 : 0x20000000 ≤ a) (h2 : a < 0x22000000) : keptAddr a = true := by
  simp [keptAddr, h1, h2]

theorem keptAddr_ram {a : Nat} (h : a < 0x20000000 ∨ 0x22000000 ≤ a) (h2 : a < 0x10000000000) : keptAddr a = false := by
  have h3 : ¬ (0x20000000 ≤ a ∧ a < 0x22000000) := by omega
  have h4 : ¬ 0x10000000000 ≤ a := by omega
  simp only [keptAddr, ← Bool.decide_and, decide_eq_false h3, decide_eq_false h4, Bool.or_self]

theorem whatADeviceResetLeaves : WhatADeviceResetLeaves := by
  intro s cause hb t
  have ht : t = deviceReset { s with cfl := { s.cfl with busy := [] } } cause := by
    change deviceReset s cause = _
    unfold deviceReset
    rw [flopStop_idle hb]
    rfl
  have hm : t.mem = s.mem.filter fun p => keptAddr p.1 := by rw [ht]; rfl
  have htg : t.tags = s.tags.filter fun p => keptAddr (8 * p.1) := by rw [ht]; rfl
  clear_value t
  refine ⟨by rw [ht]; rfl, by rw [ht]; rfl, by rw [ht]; rfl, by rw [ht]; rfl, by rw [ht]; rfl, by rw [ht]; rfl,
    by rw [ht]; rfl, by rw [ht]; rfl, by rw [ht]; rfl, by rw [ht]; rfl, by rw [ht]; rfl, by rw [ht]; rfl, by rw [ht]; rfl,
    by rw [ht]; rfl, by rw [ht]; rfl, by rw [ht]; rfl, by rw [ht]; rfl, by rw [ht]; rfl, fun a h1 h2 => ?_,
    fun a h1 h2 => ?_, fun a h1 h2 => ?_⟩
  · obtain ⟨h3, h4⟩ := kept_cell (by omega) (by omega) hm htg (a := a)
    rw [h3, h4, if_pos (keptAddr_flash h1 h2), if_pos (keptAddr_flash (by omega) (by omega))]
    exact ⟨rfl, rfl⟩
  · obtain ⟨h3, h4⟩ := kept_cell (by omega) (by omega) hm htg (a := a)
    rw [h3, h4, keptAddr_ram (by omega) (by omega), keptAddr_ram (by omega) (by omega)]
    exact ⟨rfl, rfl⟩
  · obtain ⟨h3, h4⟩ := kept_cell (by omega) (by omega) hm htg (a := a)
    rw [h3, h4, keptAddr_ram (by omega) (by omega), keptAddr_ram (by omega) (by omega)]
    exact ⟨rfl, rfl⟩

/-! ## Power-up and the resets -/

theorem powerOn_up (h : s.pwr.up = true) (k : Bool) (e : PowerEnv) (l m : Bool) : powerOn s k e l m = s := if_pos h

/-- A sample leaves the state but for the supply and its statistic. -/
theorem holdVhold_eq (s : State) (mv : Nat) : holdVhold s mv =
    { s with pwr := { s.pwr with vhold := mv, samples := List.replicate 8 mv }, stat := (holdVhold s mv).stat } := by
  unfold holdVhold lowVhold
  split <;> rfl

/-- Power-up with lid loop and mesh good (R51). -/
theorem powerOn_down (h : s.pwr.up = false) (k : Bool) (e : PowerEnv) :
    powerOn s k e true true = { s with
      stat := (holdVhold s e.vholdMv).stat
      kpr := { s.kpr with monOk := true, cause := 0, devtime := s.tdl.lastTime, timeSet := false }
      pwr := { s.pwr with
        vhold := e.vholdMv, samples := List.replicate 8 e.vholdMv, up := true, charged := decide (16000 ≤ e.vholdMv)
        reached := decide (16000 ≤ e.vholdMv), want := true }
      tdl := { s.tdl with unread := (e.marksLost, e.appliedLost) }
      tmp := { s.tmp with on := true, armed := 0x1FFFFEF }
      roots := if k = true then s.roots else [] } := by
  refine (if_neg (by rw [h]; decide)).trans ?_
  dsimp only
  rw [holdVhold_eq]
  cases k <;> rfl

theorem powerStays : PowerStays := by
  refine fun s => ⟨fun h e => ⟨_, leaves_of_eq rfl (powerOn_down h false e), rfl⟩,
    fun h k e l m => leaves_of_eq rfl (powerOn_up h k e l m), fun ns h => leaves_of_eq rfl (if_pos (.inr (.inr h))), fun h => ?_⟩
  exact leaves_of_eq rfl ((if_pos (by decide)).trans (if_neg (by rw [h]; decide)))

/-- Settles O38: power-up, the resets, and the fields that a device reset leaves. Memory that reads zero tagged RAW after a
device reset is log entry 8 (DEDUCED). -/
theorem powerAndReset : Obligations.PowerAndReset := by
  refine ⟨fun s => ⟨fun h e => ?_, fun h hf ns hns => ?_, fun h => ?_⟩, powerStays, whatADeviceResetLeaves⟩
  · exact ⟨_, leaves_of_eq rfl (powerOn_down h true e), rfl, rfl, rfl, rfl, rfl, rfl, rfl, rfl, rfl, rfl⟩
  · refine leaves_of_eq rfl ((if_neg ?_).trans (if_pos hns))
    rw [h, hf]
    rintro (h | h | h)
    · exact h rfl
    · exact h rfl
    · omega
  · exact leaves_of_eq rfl ((if_pos (by decide)).trans (if_pos h))

end Sys2Proof.Machine
end

section
/-! SUPPORT. The replay (R113), the measurement of the capacitance (R115), and the records of start-up (R51). -/

open Sys2Proof.Say

namespace Sys2Proof.Machine

variable {s : State} {c : Commit}

/-! ## The replay -/

theorem dropMarks_none (h : s.tdl.unread.1 = 0) : dropMarks s = s := by
  unfold dropMarks
  dsimp only
  rw [h, Nat.sub_zero, List.drop_length]

/-- The one marked commit whose mark does not read back intact is discarded (R114). -/
theorem dropMarks_one {b : Rollback} (hm : s.tdl.marked = [c]) (hb : c.before = some b) (h : s.tdl.unread.1 = 1) :
    dropMarks s = { s with
      dur := rolledBack s.dur b.dur
      insts := instsAfterReset (rolledBack s.dur b.dur)
      kpr := { s.kpr with
        devtime := if s.kpr.timeSet then s.kpr.devtime else s.kpr.devtime - s.tdl.lastTime + b.lastTime }
      tdl := { s.tdl with
        marked := [], lastMarked := b.lastMarked, lastTime := b.lastTime, lost := s.tdl.lost ++ [c.num] } } := by
  unfold dropMarks
  dsimp only
  rw [h, hm]
  simp only [List.length_singleton, Nat.sub_self, List.drop_zero, hb, Option.getD_some, List.take_zero, List.map_cons,
    List.map_nil]

/-! ## The measurement -/

theorem measured_idle (h : s.pwr.measuring = false) (n : Nat) : measured_ s n = s := if_pos (by rw [h]; decide)

/-- The state with the measured capacitance, before it is judged (R115). -/
def measuredAs (s : State) (n : Nat) : State :=
  { ({ holdVhold s 15500 with pwr := { (holdVhold s 15500).pwr with
      measuring := false, cmeas := n / 160, charged := false } } : State).setReg Reg.BRK_MEAS (BitVec.ofNat 32 n) with
    stat := sset (fun _ => 0) (holdVhold s 15500).stat 0x50 (n / 160) }

theorem measuredAs_capMin (s : State) (n : Nat) :
    (measuredAs s n).regFld Reg.BRK_CAP_MIN 0 16 = s.regFld Reg.BRK_CAP_MIN 0 16 := by
  have h : (measuredAs s n).reg Reg.BRK_CAP_MIN = (holdVhold s 15500).reg Reg.BRK_CAP_MIN :=
    State.reg_setReg_ne _ _ (by decide)
  rw [State.regFld, h, holdVhold_eq]
  rfl

theorem measured_judged (h : s.pwr.measuring = true) (n : Nat) : measured_ s n =
    if n / 160 < (measuredAs s n).regFld Reg.BRK_CAP_MIN 0 16 then
      brkLow (measuredAs s n) (0x80000000 ||| BitVec.ofNat 32 (n / 160))
    else { measuredAs s n with
      pwr := { (measuredAs s n).pwr with low := false }
      kpr := { (measuredAs s n).kpr with brkReady := true }
      tmp := { (measuredAs s n).tmp with armed := (measuredAs s n).tmp.armed ||| 0x10 } } :=
  if_neg (not_not.2 h)

@[simp] theorem measuredAs_tdl (s : State) (n : Nat) : (measuredAs s n).tdl = s.tdl := by
  change (holdVhold s 15500).tdl = s.tdl
  rw [holdVhold_eq]

theorem measuredAs_low (s : State) (n : Nat) : (measuredAs s n).pwr.low = s.pwr.low := by
  change (holdVhold s 15500).pwr.low = s.pwr.low
  rw [holdVhold_eq]

/-- A capacitance that was low already, with no commit waiting (R55). -/
theorem brkLow_again (h : s.pwr.low = true) (hw : s.tdl.waiting = []) (v : Word32) :
    brkLow s v = { s with kpr := { s.kpr with brkReady := false } } := by
  unfold brkLow
  dsimp only
  rw [hw, failEach, List.foldl_nil, if_pos h, ← h]

/-! ## The records -/

/-- The commits that the device issues, one after the other, wait in their order. -/
theorem devCommits_waiting (p : Purpose) (l : List (List Intent)) (s : State) (ht : s.terminated = false) :
    ∃ cs : List Commit, (l.foldl (fun s l => s.devCommit l p) s).tdl.waiting = s.tdl.waiting ++ cs ∧
      cs.map (·.intents) = l ∧ (∀ c ∈ cs, c.src = 64 ∧ c.purpose = p) ∧
      (l.foldl (fun s l => s.devCommit l p) s).mem = s.mem ∧ (l.foldl (fun s l => s.devCommit l p) s).dur = s.dur := by
  induction l generalizing s with
  | nil => exact ⟨[], (List.append_nil _).symm, rfl, fun c hc => absurd hc List.not_mem_nil, rfl, rfl⟩
  | cons i l ih =>
    have hdev : s.devCommit i p = s.enqueue { id := 0, src := 64, intents := i, purpose := p } :=
      if_neg (by rw [ht]; decide)
    obtain ⟨cs, hw, hi, hall, hm, hd⟩ := ih (s.devCommit i p) (by rw [hdev]; exact ht)
    rw [List.foldl_cons]
    refine ⟨{ id := s.tdl.nextId, issued := s.kpr.devtime, src := 64, intents := i, purpose := p } :: cs, ?_, ?_, ?_, ?_, ?_⟩
    · rw [hw, hdev]
      exact List.append_assoc _ _ _
    · rw [List.map_cons, hi]
    · intro c hc
      rcases List.mem_cons.1 hc with rfl | hc
      · exact ⟨rfl, rfl⟩
      · exact hall c hc
    · rw [hm, hdev]
      rfl
    · rw [hd, hdev]
      rfl

theorem startUpWaits : StartUpWaits := by
  intro s
  refine ⟨fun h => leaves_of_eq rfl (if_pos (.inr (.inl h))), fun c b hm hb h => ?_, dropMarks_none,
    fun h n => leaves_of_eq rfl (measured_idle h n), fun h hw hl n hn => ?_, fun h => leaves_of_eq rfl (if_neg ?_),
    fun h => leaves_of_eq rfl (if_pos ?_)⟩
  · dsimp only
    rw [dropMarks_one hm hb h]
    exact ⟨rfl, rfl, rfl, rfl, rfl⟩
  · have hrun := measured_judged h n
    rw [measuredAs_capMin, if_pos hn, brkLow_again ((measuredAs_low s n).trans hl) (by rw [measuredAs_tdl]; exact hw)] at hrun
    exact ⟨_, leaves_of_eq rfl hrun, rfl, (measuredAs_low s n).trans hl, rfl⟩
  · exact fun hv => absurd hv.2.2.2 (Nat.not_lt.2 h)
  · rcases h with h | h | h
    · exact .inl h
    · exact .inr (.inl (by rw [h]; decide))
    · exact .inr (.inr (.inl (by rw [h]; decide)))

/-- Settles O39: the replay, the measurement and the records. C_meas in whole µF, rounded down, is log entry 105 (DEDUCED), and
the marks that POWER_ON brings as lost log entry 134 (DEDUCED). -/
theorem startUpCompletes : Obligations.StartUpCompletes := by
  refine ⟨fun s => ⟨?_, fun h => leaves_of_eq rfl (if_pos h), fun hp hf hm => ⟨?_, fun hc hw hwt => ?_⟩, fun h n hn => ?_,
    fun hp hb hc hv => leaves_of_eq rfl (if_pos ⟨hp, by rw [hb]; decide, by rw [hc]; decide, hv⟩), fun hr hrep hb ht hm => ?_⟩,
    startUpWaits⟩
  · intro hp hrep hf hun u
    refine leaves_of_eq rfl ((if_neg ?_).trans ?_)
    · rw [hp, hrep, hf]
      decide
    · have hu : u = { u with tdl := { u.tdl with unread := (0, 0) } } := by rw [← hun]
      rw [hu]
      simp only [dropMarks_none (congrArg Prod.fst hun), hun, Nat.zero_min, Nat.add_zero, u]
  · refine ⟨_, leaves_of_eq rfl (if_pos ⟨hp, hf, by rw [hm]; decide⟩), rfl, ?_, ?_⟩
    · rw [holdVhold_eq]
    · rw [holdVhold_eq]
  · refine ⟨_, leaves_of_eq rfl (if_pos ⟨hp, hf, hc, by rw [hm]; decide, .inl hw, .inl hwt⟩), rfl, rfl, ?_⟩
    change ((s.setReg Reg.BRK_CTRL (s.reg Reg.BRK_CTRL &&& ~~~0x100)).reg Reg.BRK_CTRL).getLsbD 8 = false
    rw [State.reg_setReg_self, BitVec.getLsbD_and]
    exact Bool.and_false _
  · have hrun := measured_judged h n
    rw [measuredAs_capMin, if_neg (Nat.not_lt.2 hn)] at hrun
    exact ⟨_, leaves_of_eq rfl hrun, rfl, rfl, rfl, rfl, State.reg_setReg_self _ _ _, measuredAs_tdl s n⟩
  · obtain ⟨cs, hwait, hint, hall, hmem, hdur⟩ := devCommits_waiting .startup (startupIntents s) s ht
    have hset : modeSettled s = true := by rw [modeSettled, bne_iff_ne.2 hm]; rfl
    have hdrop : ((startupIntents s).foldl (fun s l => s.devCommit l .startup) s).tdl.waiting.drop s.tdl.waiting.length = cs := by
      rw [hwait, List.drop_left]
    refine ⟨_, leaves_of_eq rfl (if_neg ?_), rfl, hmem, hdur, ?_, ?_⟩
    · rw [hr, hrep, hb, ht, hset]
      decide
    · exact (congrArg (·.map (·.intents)) hdrop).trans hint
    · exact fun c hc => hall c (hdrop ▸ hc)

end Sys2Proof.Machine
end

section
/-! SUPPORT. The requests for a mode (R42), and the decisions on them (R39-R41). -/

open Sys2Proof.Say

namespace Sys2Proof.Machine

variable {s u : State} {d : Decision} {f : Word4 → Bool}

/-! ## Requests -/

theorem reqMode_ignored (h : reqReady s = false) : reqMode s f d = s := if_pos (by rw [h]; decide)

theorem reqMode_begins (h : reqReady s = true) (hf : f s.mode = true) : reqMode s f d = decisionBegin s d :=
  (if_neg (not_not.2 h)).trans (if_pos hf)

theorem reqMode_refused (h : reqReady s = true) (hf : f s.mode = false) : reqMode s f d = modeEnd s St.modeRefused :=
  (if_neg (not_not.2 h)).trans (if_neg (by rw [hf]; decide))

theorem reqStandby_ignored (h : reqReady s = false) : reqStandby s = s :=
  (if_neg fun h' => by rw [h] at h'; exact Bool.noConfusion h'.1).trans (reqMode_ignored h)

theorem reqStandby_refused (h : reqReady s = true) (hm : s.mode ≠ Mode.service) : reqStandby s = modeEnd s St.modeRefused :=
  (if_neg fun h' => hm h'.2).trans (reqMode_refused h rfl)

/-- A target that R42 permits from no mode. -/
theorem modeReq_refused {g : Word4} (h : reqReady s = true) (h2 : g ≠ 2) (h3 : g ≠ 3) (h4 : g ≠ 4) (h15 : g ≠ 15) :
    modeReq s (g.setWidth 32) = modeEnd s St.modeRefused := by
  have hg : (g.setWidth 32).toNat = g.toNat := by
    rw [BitVec.toNat_setWidth, Nat.mod_eq_of_lt (by omega)]
  have hne : ∀ k : Word4, g ≠ k → fld (g.setWidth 32).toNat 0 4 ≠ k.toNat := by
    intro k hk he
    refine hk (BitVec.eq_of_toNat_eq ?_)
    rw [hg, fld] at he
    omega
  have hreset : fld (g.setWidth 32).toNat 8 8 ≠ 0xA5 := by
    rw [hg, fld]
    omega
  refine (if_neg hreset).trans ?_
  split
  · exact absurd (by assumption) (hne 2 h2)
  · exact absurd (by assumption) (hne 3 h3)
  · exact absurd (by assumption) (hne 4 h4)
  · exact absurd (by assumption) (hne 15 h15)
  · exact reqMode_refused h rfl

/-! ## The beginning of a decision -/

theorem decisionBegin_fatal (h : s.rng.fatal = true) : decisionBegin s d = decisionRefused s d St.rngFatal := if_pos h

theorem decisionBegin_blocked (h : s.rng.fatal = false) (hb : decisionBlocked s = true) :
    decisionBegin s d = { s with kpr := { s.kpr with decision := some (d, none) } } :=
  (if_neg (by rw [h]; decide)).trans (if_pos hb)

theorem decisionBegin_draws {b : List Byte} (h : s.rng.fatal = false) (hb : decisionBlocked s = false)
    (hd : rngDraw s 1 = (.ok b, u)) : decisionBegin s d = firstEvaluation u d := by
  refine (if_neg (by rw [h]; decide)).trans ((if_neg (by rw [hb]; decide)).trans ?_)
  rw [hd]

theorem firstEvaluation_plain (hi : d.image u = none) (hw : d ≠ .workshop) (hd : d ≠ .decommission) :
    firstEvaluation u d = { u with kpr := { u.kpr with decision := some (d, some (evaluate u d)) } } := by
  unfold firstEvaluation
  rw [hi]
  dsimp only
  rw [if_neg fun h => h.elim hw hd]

theorem decisionDeferred_begins (hd : s.kpr.decision = some (d, none)) (hb : decisionBlocked s = false) :
    decisionDeferred s = decisionBegin s d := by
  unfold decisionDeferred
  rw [hd]
  exact if_neg fun h' => by rw [hb] at h'; exact Bool.noConfusion h'.1

theorem decisionDeferred_waits (hd : s.kpr.decision = some (d, none)) (h : s.rng.fatal = false) (hb : decisionBlocked s = true) :
    decisionDeferred s = s := by
  unfold decisionDeferred
  rw [hd]
  exact if_pos ⟨hb, by rw [h]; decide⟩

/-! ## The second evaluation -/

theorem decisionSecond_none (h : s.kpr.decision = none) (b : Bool) : decisionSecond s b = s := by
  rw [decisionSecond, h]

/-- What a decision comes to on which both units agree, with the verdict `v`. -/
def decisionAgreed (s : State) (d : Decision) (v : Word16) : State :=
  match d with
  | .startup => imageDecided s (v == St.ok)
  | .startMode good => startMode { s with kpr := { s.kpr with decision := none } } good
  | d => if (v == St.ok) = true then decisionAct { s with kpr := { s.kpr with decision := none } } d
      else decisionRefused s d v

section
variable {v : Word16} (hd : s.kpr.decision = some (d, some v))
include hd

theorem decisionSecond_waits (hw : d.waits s = true) (b : Bool) : decisionSecond s b = s := by
  rw [decisionSecond, hd]
  exact if_pos hw

variable (hw : d.waits s = false)
include hw

/-- The units disagree (R40, R561). -/
theorem decisionSecond_disagree (hv : v = St.ok) (he : evaluate s d = St.ok) (hs : d ≠ .startup) :
    decisionSecond s false = tamperRaise (decisionRefused s d St.decisionMismatch) 15 d.kind := by
  rw [decisionSecond, hd]
  dsimp only
  rw [if_neg (by rw [hw]; decide), hv, he, if_pos (by decide), if_neg hs]

theorem decisionSecond_same {b : Bool} (hb : (v == St.ok) = secondVerdict b (evaluate s d == St.ok)) :
    decisionSecond s b = decisionAgreed s d v := by
  unfold decisionSecond
  split
  · rename_i d' v' h
    rw [hd, Option.some.injEq, Prod.mk.injEq, Option.some.injEq] at h
    obtain ⟨rfl, rfl⟩ := h
    rw [if_neg (by rw [hw]; decide)]
    dsimp only
    rw [if_neg (not_not.2 hb), ← hb]
    cases d <;> rfl
  · rename_i h
    exact absurd hd (h d v)

/-- Both units find the request in order. -/
theorem decisionSecond_agree (hv : v = St.ok) (he : evaluate s d = St.ok) : decisionSecond s true = decisionAgreed s d St.ok := by
  rw [decisionSecond_same hd hw (by rw [hv, he]; rfl), hv]

/-- Both units refuse. -/
theorem decisionSecond_refuse (hv : v ≠ St.ok) (he : evaluate s d ≠ St.ok) : decisionSecond s true = decisionAgreed s d v := by
  have hv' : (v == St.ok) = false := beq_eq_false_iff_ne.2 hv
  have he' : (evaluate s d == St.ok) = false := beq_eq_false_iff_ne.2 he
  exact decisionSecond_same (b := true) hd hw (by rw [hv', he']; rfl)

end

theorem decisionsBegin : DecisionsBegin := fun _ _ _ _ =>
  ⟨decisionBegin_fatal, decisionBegin_blocked, decisionBegin_draws, firstEvaluation_plain⟩

theorem decisionsRefused : DecisionsRefused := by
  refine fun s => ⟨fun h => ?_, fun h => ⟨fun hm => ⟨?_, ?_⟩, fun hm => ?_⟩, fun h b => leaves_of_eq rfl (decisionSecond_none h b),
    fun d v hd => ⟨fun hw b => leaves_of_eq rfl (decisionSecond_waits hd hw b), fun hw hv he hs => ?_, fun hw hv he => ⟨?_, ?_⟩⟩,
    fun d hd hf hb => leaves_of_eq rfl (decisionDeferred_waits hd hf hb)⟩
  · exact ⟨leaves_of_eq rfl (reqMode_ignored h), leaves_of_eq rfl (reqMode_ignored h), leaves_of_eq rfl (reqStandby_ignored h),
      leaves_of_eq rfl (reqMode_ignored h)⟩
  · exact leaves_of_eq rfl (reqMode_refused h (beq_eq_false_iff_ne.2 hm))
  · exact leaves_of_eq rfl (reqStandby_refused h hm)
  · exact leaves_of_eq rfl (reqMode_refused h (beq_eq_false_iff_ne.2 hm))
  · exact leaves_of_eq rfl (decisionSecond_disagree hd hw hv he hs)
  · rintro rfl
    refine leaves_of_eq rfl ((decisionSecond_refuse hd hw hv he).trans ?_)
    exact congrArg (imageDecided s) (beq_eq_false_iff_ne.2 hv)
  · intro hs hg
    refine leaves_of_eq rfl ((decisionSecond_refuse hd hw hv he).trans ?_)
    unfold decisionAgreed
    split
    · exact absurd rfl hs
    · exact absurd rfl (hg _)
    · exact if_neg (by rw [beq_eq_false_iff_ne.2 hv]; decide)

/-- Settles O40: the requests, and the two evaluations of their decisions. -/
theorem modesChange : Obligations.ModesChange := by
  refine ⟨fun s => ⟨fun h => ⟨fun hm => ⟨?_, ?_⟩, fun hm => ?_, ?_, fun g h2 h3 h4 h15 => ?_⟩, fun d u b hd hf hb hr => ?_,
    fun d hd he hw => ?_⟩, decisionsBegin, decisionsRefused⟩
  · exact leaves_of_eq rfl (reqMode_begins h (beq_iff_eq.2 hm))
  · exact leaves_of_eq rfl (if_pos ⟨h, hm⟩)
  · exact leaves_of_eq rfl (reqMode_begins h (beq_iff_eq.2 hm))
  · exact leaves_of_eq rfl (reqMode_begins h rfl)
  · exact leaves_of_eq rfl (modeReq_refused h h2 h3 h4 h15)
  · exact leaves_of_eq rfl ((decisionDeferred_begins hd hb).trans (decisionBegin_draws hf hb hr))
  · refine leaves_of_eq rfl ((decisionSecond_agree hd hw rfl he).trans ?_)
    cases d <;> rfl

end Sys2Proof.Machine
end

section
/-! SUPPORT. Into and out of Workshop and Standby (R43-R49, R63-R67). -/

open Sys2Proof.Say

namespace Sys2Proof.Machine

variable {s u : State}

/-! ## Workshop -/

theorem devCommit_eq (h : s.terminated = false) (l : List Intent) (p : Purpose) :
    s.devCommit l p = s.enqueue { id := 0, src := 64, intents := l, purpose := p } :=
  if_neg (by rw [h]; decide)

/-- The state in which Service begins after Workshop, before the keeper starts. -/
def backInService (s : State) (n : Nat) : State :=
  let s := setMode (clearKeeperData (clearLanes s)) Mode.service
  { s with
    tmp := { s.tmp with wnonce := [] }
    air := { s.air with roleLocked := false }
    kpr := { s.kpr with notAfter := none, decision := none, modeStat := if n = 0 then St.ok else s.kpr.modeStat } }

theorem leaveWorkshop_eq (s : State) (n : Nat) : leaveWorkshop s n =
    (startKeeper (backInService s n) romEntry).enqueue
      { id := 0, src := 64, intents := [transitionRec Mode.workshop Mode.service n], purpose := .transition n } :=
  devCommit_eq rfl _ _

theorem startKeeper_ctx (s : State) (pc : Nat) : (startKeeper s pc).ctx 0 = keeperCtx s pc := by
  change (s.setCtx 0 (keeperCtx s pc)).ctx 0 = keeperCtx s pc
  exact State.ctx_setCtx_self _ _ _

/-- The keeper data area after it is cleared (R43). -/
theorem clearKeeperData_cell {t : State} {a : Nat} (h1 : 0x1C0000000 ≤ a) (h2 : a < 0x1CE000000)
    (hm : t.mem = (clearKeeperData s).mem) (ht : t.tags = (clearKeeperData s).tags) : t.rdByte a = 0 ∧ t.rdTag a = Tag.raw := by
  rw [rdByte_outside (by omega) (by omega), rdTag_outside (by omega) (by omega), hm, ht]
  constructor
  · refine (sget_filter _ (fun k => !decide (0x1C0000000 ≤ k ∧ k < 0x1CE000000)) _ _).trans (if_neg ?_)
    rw [decide_eq_true ⟨h1, h2⟩]
    decide
  · refine (sget_filter _ (fun k => !decide (0x1C0000000 ≤ 8 * k ∧ 8 * k < 0x1CE000000)) _ _).trans (if_neg ?_)
    rw [decide_eq_true ⟨by omega, by omega⟩]
    decide

/-! ## The wake -/

theorem wakeSource_off {k : Nat} (h : s.regBit Reg.KPR_WAKE_EN k = false) : wakeSource s k = s :=
  if_pos (by rw [h]; decide)

theorem wakeSource_awake {k : Nat} (hm : s.mode ≠ Mode.standby) (hs : s.kpr.standby = 0) : wakeSource s k = s := by
  unfold wakeSource
  dsimp only
  rw [if_neg hm, if_neg (not_not.2 hs), ite_self]

theorem wakeSource_standby {k : Nat} (h : s.regBit Reg.KPR_WAKE_EN k = true) (hm : s.mode = Mode.standby)
    (hd : s.kpr.decision = none) : wakeSource s k =
      { s.setReg Reg.KPR_WAKE_CAUSE (s.reg Reg.KPR_WAKE_CAUSE ||| BitVec.ofNat 32 (2 ^ k)) with
        kpr := { s.kpr with decision := some (.wake, none) } } := by
  unfold wakeSource
  dsimp only
  rw [if_neg (not_not.2 h), if_pos hm, hd]
  rfl

/-- The wake, but for its record (R67). -/
def awake (s : State) : State :=
  (List.range 64).foldl (fun s i => s.modInst i fun x =>
    { x with closed := if i = 0 ∨ x.state = 2 ∨ (x.state = 3 ∧ x.drain) then false else x.closed })
    { s with
      air := { s.air with roleLocked := false }
      kpr := { s.kpr with mode := Mode.service, standby := 0, waking := false, running := true } }

theorem modInsts_kpr (g : Nat → Inst → Inst) (l : List Nat) (s : State) :
    (l.foldl (fun s i => s.modInst i (g i)) s).kpr = s.kpr :=
  foldl_leaves (f := fun s i => s.modInst i (g i)) (fun s : State => s.kpr) (fun _ _ => rfl) l s

theorem awake_kpr (s : State) : (awake s).kpr =
    { s.kpr with mode := Mode.service, standby := 0, waking := false, running := true } :=
  modInsts_kpr _ (List.range 64) _

theorem awake_going (s : State) : (awake s).terminated = false := by
  rw [State.terminated, awake_kpr]
  rfl

theorem wakeNow_eq (s : State) : wakeNow s =
    (awake s).enqueue { id := 0, src := 64, intents := [transitionRec Mode.standby Mode.service 1], purpose := .transition 1 } :=
  (show wakeNow s = (awake s).devCommit [transitionRec Mode.standby Mode.service 1] (.transition 1) from rfl).trans
    (devCommit_eq (awake_going s) _ _)

/-- What the record of the wake leaves of the mode and of the commits. -/
theorem enqueue_awake (c : Commit) (h : u.kpr = { s.kpr with mode := Mode.service, standby := 0, waking := false, running := true }) :
    (u.enqueue c).kpr.mode = Mode.service ∧ (u.enqueue c).kpr.running = true ∧ (u.enqueue c).kpr.standby = 0 ∧
      ∃ c' l, (u.enqueue c).tdl.waiting = l ++ [c'] ∧ c'.intents = c.intents :=
  ⟨congrArg Kpr.mode h, congrArg Kpr.running h, congrArg Kpr.standby h, _, u.tdl.waiting, rfl, rfl⟩

theorem workshopStays : WorkshopStays := by
  refine fun s => ⟨fun h => leaves_of_eq rfl ?_, fun n h hn => leaves_of_eq rfl ?_, fun hm => ⟨leaves_of_eq rfl ?_, leaves_of_eq rfl ?_⟩,
    fun hs ha => leaves_of_eq rfl ?_, fun hs hq => leaves_of_eq rfl ?_⟩
  · rw [h]
  · rw [h]
    exact if_neg fun h' => BitVec.not_lt.2 hn h'.2.2.1
  · cases s.kpr.notAfter with
    | none => rfl
    | some n => exact if_neg fun h' => hm h'.1
  · exact if_neg fun h' => hm h'.1
  · refine if_neg fun h' => ha ?_
    have h := h'.2
    simp only [deviceQuiet, Bool.and_eq_true, beq_iff_eq] at h
    exact h.1.2
  · exact if_neg fun h' => hq h'.2

theorem theWake : TheWake := by
  refine ⟨fun s hd hm => ?_, fun s k hd h => ?_⟩
  · have he : evaluate s .wake = St.ok := if_pos (beq_iff_eq.2 hm)
    have hrun := (decisionSecond_agree hd rfl rfl he).trans (wakeNow_eq _)
    exact ⟨_, leaves_of_eq rfl hrun, enqueue_awake _ (awake_kpr _)⟩
  · have hw : wakeSource s k.val = s := h.elim wakeSource_off fun h => wakeSource_awake h.1 h.2
    refine leaves_of_eq rfl ?_
    dsimp only
    rw [hw, hd]
    exact if_neg (by simp)

/-- Settles O41: Workshop and Standby. The wake as a decision with two evaluations is log entry 135 (DEDUCED), and the
keeper data area that reads zero and tagged RAW log entry 8 (DEDUCED). -/
theorem workshopAndStandby : Obligations.WorkshopAndStandby := by
  refine ⟨fun s => ⟨fun n hd hm hk => ?_, fun hm hd => ⟨leaves_of_eq rfl (if_pos ⟨hm, by rw [hd]; rfl⟩), fun n hn ht hlt => ?_⟩,
    fun hs hq ht => ?_, fun hs hq hw => ?_, ?_⟩, workshopStays, theWake⟩
  · have he : evaluate s (.service n) = St.ok := if_pos (beq_iff_eq.2 hm)
    have hw : (Decision.service n).waits s = false := by rw [Decision.waits, hk]; rfl
    have hrun := (decisionSecond_agree hd hw rfl he).trans (leaveWorkshop_eq _ n)
    refine ⟨_, leaves_of_eq rfl hrun, rfl, rfl, rfl, rfl, ?_, ?_, ?_, ?_, fun a h1 h2 => ?_, _, _, rfl, rfl, rfl, rfl⟩
    · exact congrArg Ctx.run (startKeeper_ctx _ _)
    · exact congrArg (·.r.level) (startKeeper_ctx _ _)
    · exact congrArg (·.r.mask) (startKeeper_ctx _ _)
    · exact congrArg (·.r.pc) (startKeeper_ctx _ _)
    · exact clearKeeperData_cell h1 h2 rfl rfl
  · refine leaves_of_eq rfl ?_
    rw [hn]
    exact if_pos ⟨hm, ht, hlt, by rw [hd]; rfl⟩
  · have hwait : s.tdl.waiting = [] := by
      simp only [deviceQuiet, Bool.and_eq_true, beq_iff_eq] at hq
      exact hq.1.1.2
    refine ⟨_, _, leaves_of_eq rfl ((if_pos ⟨hs, hq⟩).trans (devCommit_eq ht _ _)), rfl,
      congrArg (· ++ [_]) hwait, rfl, rfl, rfl⟩
  · exact ⟨_, leaves_of_eq rfl ((if_pos ⟨hs, hq⟩).trans (if_neg (by rw [modeEnd, hw]; decide))), rfl, rfl, rfl⟩
  · intro k u b hk hm hd w hf hb hr
    have hw : w = _ := wakeSource_standby hk hm hd
    have hwd : w.kpr.decision = some (.wake, none) := by rw [hw]
    have hreg : (w.reg Reg.KPR_WAKE_CAUSE).getLsbD k.val = true := by
      rw [hw]
      change ((s.setReg Reg.KPR_WAKE_CAUSE (s.reg Reg.KPR_WAKE_CAUSE ||| BitVec.ofNat 32 (2 ^ k.val))).reg
        Reg.KPR_WAKE_CAUSE).getLsbD k.val = true
      rw [State.reg_setReg_self, BitVec.getLsbD_or, BitVec.getLsbD_ofNat, Nat.testBit_two_pow_self,
        decide_eq_true (by omega), Bool.and_self, Bool.or_true]
    refine ⟨leaves_of_eq rfl ((if_pos hwd).trans ?_), hreg⟩
    exact (decisionDeferred_begins hwd hb).trans (decisionBegin_draws hf hb hr)

end Sys2Proof.Machine
end

section
/-! SUPPORT. Little-endian bytes (R5), and the words of memory after they are written. -/

namespace Sys2Proof.Machine

variable {s : State} {a c : Nat}

/-! ## Little-endian bytes -/

@[simp] theorem length_slice (l : List Byte) (o n : Nat) : (slice l o n).length = n := by
  rw [slice, List.length_map, List.length_range]

@[simp] theorem length_leBytes (n v : Nat) : (leBytes n v).length = n := by
  induction n generalizing v with
  | zero => rfl
  | succ n ih => rw [leBytes, List.length_cons, ih]

/-- Each byte of a number. -/
theorem leNat_byte (l : List Byte) (k : Nat) : leNat l / 256 ^ k % 256 = (l.getD k 0).toNat := by
  induction l generalizing k with
  | nil => rw [leNat, Nat.zero_div, Nat.zero_mod, List.getD_nil]; rfl
  | cons b l ih =>
    have hb := b.isLt
    cases k with
    | zero => rw [leNat, List.getD_cons_zero]; omega
    | succ k =>
      rw [leNat, List.getD_cons_succ, ← ih, Nat.pow_succ', ← Nat.div_div_eq_div_mul]
      congr 2
      omega

theorem leNat_lt (l : List Byte) : leNat l < 256 ^ l.length := by
  induction l with
  | nil => exact Nat.one_pos
  | cons b l ih =>
    have hb := b.isLt
    rw [leNat, List.length_cons, Nat.pow_succ]
    omega

theorem leNat_leBytes (n v : Nat) : leNat (leBytes n v) = v % 256 ^ n := by
  induction n generalizing v with
  | zero => rw [leBytes, leNat, Nat.pow_zero, Nat.mod_one]
  | succ n ih =>
    rw [leBytes, leNat, ih, Nat.pow_succ', Nat.mod_mul, BitVec.toNat_ofNat]

theorem getLe_lt (l : List Byte) (o n : Nat) : getLe l o n < 256 ^ n := by
  have h := leNat_lt (slice l o n)
  rwa [length_slice] at h

/-! ## Writes above the window of the boot blocks -/

theorem wrBytes_cons (s : State) (a : Nat) (b : Byte) (l : List Byte) :
    wrBytes s a (b :: l) = wrBytes (s.wrByte a b) (a + 1) l := rfl

theorem wrWords_cons (s : State) (a : Nat) (w : TWord) (l : List TWord) :
    wrWords s a (w :: l) = wrWords (s.wrWord a w) (a + 8) l := by
  rw [wrWords, foldAddr, wrWords]

@[simp] theorem wrBytes_tags (s : State) (a : Nat) (l : List Byte) : (wrBytes s a l).tags = s.tags := by
  induction l generalizing s a with
  | nil => rfl
  | cons b l ih => rw [wrBytes_cons, ih]; rfl

theorem rdBytes_succ (s : State) (a n : Nat) : s.rdBytes a (n + 1) = s.rdByte a :: s.rdBytes (a + 1) n := by
  rw [State.rdBytes, State.rdBytes, List.range_succ_eq_map, List.map_cons, List.map_map, Nat.add_zero]
  congr 2
  funext k
  exact congrArg s.rdByte (by rw [Nat.succ_eq_add_one]; omega)

theorem rdWords_succ (s : State) (a n : Nat) : s.rdWords a (n + 1) = s.rdWord a :: s.rdWords (a + 8) n := by
  rw [State.rdWords, State.rdWords, List.range_succ_eq_map, List.map_cons, List.map_map, Nat.mul_zero, Nat.add_zero]
  congr 2
  funext k
  exact congrArg s.rdWord (by rw [Nat.succ_eq_add_one]; omega)

section
variable (hc : 0x28200000 ≤ c)
include hc

theorem rdByte_wrBytes_before (h : c < a) (l : List Byte) : (wrBytes s a l).rdByte c = s.rdByte c := by
  induction l generalizing s a with
  | nil => rfl
  | cons b l ih =>
    rw [wrBytes_cons, ih (by omega)]
    refine State.rdByte_wrByte_ne _ b ?_
    rw [phys_outside _ (.inr hc), phys_outside _ (.inr (by omega))]
    omega

theorem rdBytes_wrBytes (l : List Byte) : (wrBytes s c l).rdBytes c l.length = l := by
  induction l generalizing s c with
  | nil => rfl
  | cons b l ih =>
    rw [wrBytes_cons, List.length_cons, rdBytes_succ, ih (by omega), rdByte_wrBytes_before hc (Nat.lt_succ_self c), State.rdByte_wrByte_self _ _ (by omega)]

theorem rdWord_wrWord (w : TWord) : (s.wrWord c w).rdWord c = w := by
  have hb : (s.wrWord c w).rdBytes c 8 = leBytes 8 w.data.toNat := by
    have h := rdBytes_wrBytes (s := s) hc (leBytes 8 w.data.toNat)
    rw [length_leBytes] at h
    exact h
  have ht : (s.wrWord c w).rdTag c = w.tag := State.rdTag_wrTag_self _ _ (by omega)
  rw [State.rdWord, hb, ht, leNat_leBytes, Nat.mod_eq_of_lt (Nat.lt_of_lt_of_le w.data.isLt (by decide)), BitVec.ofNat_toNat, BitVec.setWidth_eq]

theorem rdWord_wrWords_before (h8 : 8 ∣ c) (ha : 8 ∣ a) (h : c + 8 ≤ a) (l : List TWord) :
    (wrWords s a l).rdWord c = s.rdWord c := by
  induction l generalizing s a with
  | nil => rfl
  | cons w l ih =>
    rw [wrWords_cons, ih (Nat.dvd_add ha ⟨1, rfl⟩) (by omega)]
    have hb : (s.wrWord a w).rdBytes c 8 = s.rdBytes c 8 := by
      refine List.map_congr_left fun k hk => ?_
      exact rdByte_wrBytes_before (by omega) (by rw [List.mem_range] at hk; omega) _
    have ht : (s.wrWord a w).rdTag c = s.rdTag c := by
      rw [rdTag_outside (by omega) (.inr hc), rdTag_outside (by omega) (.inr hc), State.wrWord, State.wrTag, wrBytes_tags,
        phys_outside _ (.inr (by omega))]
      exact sget_sset_ne _ _ _ (by omega)
    rw [State.rdWord, hb, ht, State.rdWord]

theorem rdWords_wrWords (h8 : 8 ∣ c) (l : List TWord) : (wrWords s c l).rdWords c l.length = l := by
  induction l generalizing s c with
  | nil => rfl
  | cons w l ih =>
    have hn : 8 ∣ c + 8 := Nat.dvd_add h8 ⟨1, rfl⟩
    rw [wrWords_cons, List.length_cons, rdWords_succ, ih (by omega) hn, rdWord_wrWords_before hc h8 hn (Nat.le_refl _), rdWord_wrWord hc]

end

end Sys2Proof.Machine
end

section
/-! SUPPORT. The services of the ROM (R68, R382, R453-R455, R472, R487, R488). -/

open Sys2Proof.Say

namespace Sys2Proof.Machine

variable {s t u : State} {req : List Byte} {code : Byte} {r : FlopEnv}

/-! ## The request in the buffer -/

theorem getD_slice (l : List Byte) (o : Nat) {n j : Nat} (h : j < n) : (slice l o n).getD j 0 = l.getD (o + j) 0 := by
  rw [List.getD_eq_getElem _ _ (by rwa [length_slice])]
  simp only [slice, List.getElem_map, List.getElem_range]

/-- A table that is filled from its beginning. -/
theorem sget_filled {α : Type} [DecidableEq α] (d : Nat → α) (f : Nat → α) (n j : Nat) :
    sget d ((List.range n).foldl (fun m k => sset d m k (f k)) []) j = if j < n then f j else d j := by
  induction n with
  | zero => rfl
  | succ n ih =>
    rw [List.range_succ, List.foldl_append, List.foldl_cons, List.foldl_nil]
    by_cases hj : j = n
    · rw [hj, sget_sset_self, if_pos (Nat.lt_succ_self n)]
    · rw [sget_sset_ne d _ _ hj, ih]
      exact ite_congr (propext (by omega)) (fun _ => rfl) (fun _ => rfl)

theorem bufWords_byte (b : List Byte) {k : Nat} (h : k < b.length) :
    BitVec.ofNat 8 ((sget (fun _ => (0 : Word32)) (bufWords b) (k / 4)).toNat / 256 ^ (k % 4)) = b.getD k 0 := by
  rw [bufWords, sget_filled, if_pos (by omega), BitVec.toNat_ofNat,
    Nat.mod_eq_of_lt (Nat.lt_of_lt_of_le (getLe_lt _ _ _) (by decide))]
  refine BitVec.eq_of_toNat_eq ?_
  rw [BitVec.toNat_ofNat, getLe, leNat_byte, getD_slice _ _ (by omega)]
  exact congrArg (fun j => (b.getD j 0).toNat) (by omega)

theorem svcRequest_called (s : State) (req : List Byte) (code : Byte) : svcRequest (called s req code) = req := by
  refine List.ext_getElem ?_ fun k h1 h2 => ?_
  · rw [svcRequest, List.length_map, List.length_range]
    rfl
  · rw [← List.getD_eq_getElem _ 0 h2, ← bufWords_byte req h2]
    simp only [svcRequest, List.getElem_map, List.getElem_range]
    rfl

/-! ## Which service runs -/

theorem svcCmd_ignored (h : svcBusy s = true) (code : Byte) (r : FlopEnv) : svcCmd s code r = s := if_pos (.inr (.inr h))
theorem svcCall_ignored (h : svcBusy s = true) (code : Byte) (req : List Byte) (r : FlopEnv) : svcCall s code req r = s :=
  if_pos (.inr (.inr h))

section
variable (hp : s.pwr.up = true) (hm : s.mode ≠ Mode.starting) (hb : svcBusy s = false)
include hp hm hb

theorem svc_open : ¬ (¬ s.pwr.up = true ∨ s.mode = Mode.starting ∨ svcBusy s = true) := by
  rintro (h | h | h)
  · exact h hp
  · exact hm h
  · rw [hb] at h
    exact Bool.noConfusion h

/-- A code that the mode, or Terminated, does not admit ends before its service runs. -/
theorem svcCmd_ends {st : Word16} (h : (s.terminated = true ∧ code ≠ 0x11 ∧ st = St.terminated) ∨ (s.terminated = false ∧
    ((svcModes code.toNat = none ∧ st = St.argInvalid) ∨ ∃ ms, svcModes code.toNat = some ms ∧ s.mode ∉ ms ∧ st = St.modeRefused)))
    (r : FlopEnv) : svcCmd s code r = svcEnd { s with host := { s.host with svcCode := code } } code st := by
  refine (if_neg (svc_open hp hm hb)).trans ?_
  rcases h with ⟨ht, hc, rfl⟩ | ⟨ht, h⟩
  · exact if_pos ⟨ht, hc⟩
  · refine (if_neg fun h' => by rw [show s.terminated = true from h'.1] at ht; exact Bool.noConfusion ht).trans ?_
    rcases h with ⟨h, rfl⟩ | ⟨ms, h, hn, rfl⟩
    · rw [h]
    · rw [h]
      exact if_neg hn

theorem svcCall_eq (code : Byte) (req : List Byte) (r : FlopEnv) : svcCall s code req r =
    svcCmd { s with host := { s.host with svcBuf := bufWords req, svcLen := req.length } } code r :=
  if_neg (svc_open hp hm hb)

theorem svcCall_ends {st : Word16} (h : (s.terminated = true ∧ code ≠ 0x11 ∧ st = St.terminated) ∨ (s.terminated = false ∧
    ((svcModes code.toNat = none ∧ st = St.argInvalid) ∨ ∃ ms, svcModes code.toNat = some ms ∧ s.mode ∉ ms ∧ st = St.modeRefused)))
    (req : List Byte) (r : FlopEnv) : svcCall s code req r = svcEnd (called s req code) code st :=
  (svcCall_eq hp hm hb code req r).trans
    (svcCmd_ends (s := { s with host := { s.host with svcBuf := bufWords req, svcLen := req.length } }) hp hm hb h r)

theorem svcCall_runs {ms : List Word4} (ht : s.terminated = false) (h : svcModes code.toNat = some ms) (hin : s.mode ∈ ms)
    (req : List Byte) (r : FlopEnv) : svcCall s code req r = svcRun (called s req code) code req r := by
  rw [svcCall_eq hp hm hb]
  refine (if_neg (svc_open hp hm hb)).trans ((if_neg fun h' => ?_).trans ?_)
  · rw [show s.terminated = true from h'.1] at ht
    exact Bool.noConfusion ht
  · rw [h]
    refine (if_pos hin).trans ?_
    exact congrArg (fun q => svcRun (called s req code) code q r) (svcRequest_called s req code)

end

/-! ## The services that end at once -/

theorem getLe_one (l : List Byte) (o : Nat) : getLe l o 1 = (l.getD o 0).toNat := by
  simp only [getLe, slice, List.range_one, List.map_cons, List.map_nil, leNat, Nat.mul_zero, Nat.add_zero]

theorem reg64_setReg64 (s : State) {a v : Nat} (h : v < 2 ^ 64) : (s.setReg64 a v).reg64 a = v := by
  rw [State.reg64, State.setReg64, State.reg_setReg_self, State.reg_setReg_ne _ _ (show a ≠ a + 4 by omega), State.reg_setReg_self,
    BitVec.toNat_ofNat, BitVec.toNat_ofNat]
  omega

theorem svcTagid_sets (hl : req.length = 8) (ht : s.otp.tagged = false) : svcTagid s req =
    svcEnd { s.setReg64 Reg.AIR_TAGID_LO (getLe req 0 8) with otp := { s.otp with tagged := true } } 0x02 St.ok :=
  (if_neg (not_not.2 hl)).trans (if_neg (by rw [ht]; decide))

section
variable (h4 : 4 < req.length) (hz : slice req 1 3 = zeros 3) (hp : certPlace (getLe req 0 1) = true)
    (hd : (getLe req 0 1 = 0x50 → (req.drop 4).length = 60) ∧ (getLe req 0 1 ≠ 0x50 → Config.certParses (req.drop 4) = true))
include h4 hz hp hd

theorem svcCert_reads : svcCert s req = if s.otp.certs.any (·.1 == getLe req 0 1) then svcEnd s 0x04 St.notErased
    else svcEnd { s with otp := { s.otp with certs := sset (fun _ => []) s.otp.certs (getLe req 0 1) (req.drop 4) } } 0x04 St.ok := by
  refine if_neg ?_
  rintro (h | h | h | h | h)
  · omega
  · exact h hz
  · exact h hp
  · exact h.2 (hd.1 h.1)
  · exact h.2 (hd.2 h.1)

theorem svcCert_stores (hf : ∀ q ∈ s.otp.certs, q.1 ≠ getLe req 0 1) : svcCert s req =
    svcEnd { s with otp := { s.otp with certs := sset (fun _ => []) s.otp.certs (getLe req 0 1) (req.drop 4) } } 0x04 St.ok := by
  rw [svcCert_reads h4 hz hp hd]
  refine if_neg fun h => ?_
  obtain ⟨q, hq, he⟩ := List.any_eq_true.1 h
  exact hf q hq (beq_iff_eq.1 he)

theorem svcCert_full (hf : ∃ q ∈ s.otp.certs, q.1 = getLe req 0 1) : svcCert s req = svcEnd s 0x04 St.notErased := by
  rw [svcCert_reads h4 hz hp hd]
  obtain ⟨q, hq, he⟩ := hf
  exact if_pos (List.any_eq_true.2 ⟨q, hq, beq_iff_eq (a := q.1).2 he⟩)

end

/-! ## The roots of PERSO_KEYGEN -/

/-- A draw changes registers, counters and the expander alone, and has the length that was asked for. -/
theorem rngDraw_only (s : State) (n : Nat) : (∃ x y z, (rngDraw s n).2 = { s with regs := x, stat := y, rng := z }) ∧
    ∀ b, (rngDraw s n).1 = .ok b → b.length = n := by
  have hreseed : ∃ x y z, (if 2 ^ 16 ≤ s.rng.q ∧ s.rng.seedReady = true then reseed s else s) =
      { s with regs := x, stat := y, rng := z } := by
    split
    · exact ⟨_, _, _, rfl⟩
    · exact ⟨s.regs, s.stat, s.rng, rfl⟩
  unfold rngDraw
  split
  · exact ⟨⟨s.regs, s.stat, s.rng, rfl⟩, fun b hb => Draw.noConfusion hb⟩
  split
  · exact ⟨⟨s.regs, s.stat, s.rng, rfl⟩, fun b hb => Draw.noConfusion hb⟩
  obtain ⟨x, y, z, h⟩ := hreseed
  rw [h]
  dsimp only
  split
  · refine ⟨?_, fun b hb => Draw.noConfusion hb⟩
    split
    · exact ⟨x, y, z, rfl⟩
    · exact ⟨x, y, _, rfl⟩
  · refine ⟨?_, fun b hb => ?_⟩
    · split
      · exact ⟨_, _, _, rfl⟩
      · exact ⟨_, y, _, rfl⟩
    · rw [← Draw.ok.inj hb]
      exact length_slice _ _ _

/-- The draw of the device's own, with the place of the free values. -/
theorem rngBytes_only (s : State) (n : Nat) :
    (rngBytes s n).1.length = n ∧ ∃ x y z k, (rngBytes s n).2 = { s with regs := x, stat := y, rng := z, freeCtr := k } := by
  obtain ⟨⟨x, y, z, h⟩, hl⟩ := rngDraw_only s n
  unfold rngBytes
  split
  · rename_i b u hd
    rw [hd] at h
    exact ⟨hl b (congrArg Prod.fst hd), x, y, z, s.freeCtr, h⟩
  · rename_i u _ hd
    rw [hd] at h
    exact ⟨by rw [State.rand, genBytes, List.length_map, List.length_range], x, y, z, u.freeCtr + 1,
      congrArg (fun v : State => { v with freeCtr := u.freeCtr + 1 }) h⟩

/-- A root that is drawn has 32 bytes (R431). -/
theorem newRoot_leaves (s : State) (r : Nat) : ((newRoot s r).root r).bits.length = 32 ∧
    (∀ k, k ≠ r → (newRoot s r).root k = s.root k) ∧ (newRoot s r).otp = s.otp := by
  obtain ⟨hl, x, y, z, k, h⟩ := rngBytes_only s 32
  have hn : newRoot s r = setRoot (rngBytes s 32).2 r (rngBytes s 32).1 := rfl
  rw [hn, h]
  refine ⟨?_, fun j hj => sget_sset_ne _ _ _ hj, rfl⟩
  exact (congrArg (fun r : Root => r.bits.length) (sget_sset_self _ _ _ _)).trans hl

/-- The state with the three roots drawn, and the prefix of the vectors (R411, R431). -/
def keygenDone (s : State) : State :=
  let u := newRoot (newRoot (newRoot (eraseArea s) 1) 2) 3
  { (rngBytes u 4).2 with ivPrefix := BitVec.ofNat 32 (max 1 (leNat (rngBytes u 4).1)) }

theorem svcKeygen_eq (hf : s.rng.fatal = false) (hq : s.rng.q + 4 ≤ 2 ^ 24) :
    svcKeygen s = svcEnd (keygenDone s) 0x03 St.ok (keygenResponse (keygenDone s)) :=
  (if_neg (by rw [hf]; decide)).trans (if_neg fun h => absurd h.1 (by omega))

theorem keygenDone_leaves (s : State) : (∀ r, 1 ≤ r → r ≤ 3 → ((keygenDone s).root r).bits.length = 32) ∧
    (keygenDone s).otp.certs = [] := by
  obtain ⟨h1, -, ho1⟩ := newRoot_leaves (eraseArea s) 1
  obtain ⟨h2, hk2, ho2⟩ := newRoot_leaves (newRoot (eraseArea s) 1) 2
  obtain ⟨h3, hk3, ho3⟩ := newRoot_leaves (newRoot (newRoot (eraseArea s) 1) 2) 3
  obtain ⟨-, x, y, z, k, h⟩ := rngBytes_only (newRoot (newRoot (newRoot (eraseArea s) 1) 2) 3) 4
  unfold keygenDone
  dsimp only
  rw [h]
  refine ⟨fun r hr1 hr3 => ?_, ?_⟩
  · change ((newRoot (newRoot (newRoot (eraseArea s) 1) 2) 3).root r).bits.length = 32
    obtain rfl | rfl | rfl : r = 1 ∨ r = 2 ∨ r = 3 := by omega
    · rw [hk3 1 (by decide), hk2 1 (by decide), h1]
    · rw [hk3 2 (by decide), h2]
    · exact h3
  · exact congrArg Otp.certs (ho3.trans (ho2.trans ho1))

theorem keygenResponse_length (s : State) : (keygenResponse s).length = 16 + 6 * 2049 + 1184 := by
  simp only [keygenResponse, List.length_append, length_slice, List.length_flatten, List.map_cons, List.map_nil, List.sum_cons,
    List.sum_nil]
  omega

/-! ## A unit of a boot block -/

theorem segmentWords_length (o n : Nat) (d : List Byte) : (segmentWords o n d).length = d.length / 8 := by
  rw [segmentWords, List.length_map, List.length_range]

/-- The one unit of four words is the words themselves. -/
theorem unitWords_whole (l : List TWord) (h : l.length = 4) : unitWords l 0 = l := by
  refine List.ext_getElem (by rw [unitWords, List.length_map, List.length_range, h]) fun k h1 h2 => ?_
  simp only [unitWords, List.getElem_map, List.getElem_range, Nat.mul_zero, Nat.zero_add]
  exact List.getD_eq_getElem _ _ h2

@[simp] theorem wrBytes_cfl (s : State) (a : Nat) (l : List Byte) : (wrBytes s a l).cfl = s.cfl := by
  induction l generalizing s a with
  | nil => rfl
  | cons b l ih => rw [wrBytes_cons, ih]; rfl

@[simp] theorem wrWords_cfl (s : State) (a : Nat) (l : List TWord) : (wrWords s a l).cfl = s.cfl := by
  induction l generalizing s a with
  | nil => rfl
  | cons w l ih => rw [wrWords_cons, ih, State.wrWord]; exact wrBytes_cfl s a _

/-- The words above the window of the boot blocks are those of their cells. -/
theorem rdWords_congr {a : Nat} (ha : 0x28200000 ≤ a) (hm : t.mem = u.mem) (ht : t.tags = u.tags) (n : Nat) :
    t.rdWords a n = u.rdWords a n := by
  refine List.map_congr_left fun k _ => ?_
  have hb : t.rdBytes (a + 8 * k) 8 = u.rdBytes (a + 8 * k) 8 := by
    refine List.map_congr_left fun j _ => ?_
    rw [rdByte_outside (by omega) (.inr (by omega)), rdByte_outside (by omega) (.inr (by omega)), hm]
  rw [State.rdWord, State.rdWord, hb, rdTag_outside (by omega) (.inr (by omega)), rdTag_outside (by omega) (.inr (by omega)), ht]

theorem newCheck_cells (s : State) (a : Nat) :
    (s.newCheck a).mem = s.mem ∧ (s.newCheck a).tags = s.tags ∧ (s.newCheck a).cfl = s.cfl := by
  unfold State.newCheck State.claim
  split
  · exact ⟨rfl, rfl, rfl⟩
  · exact ⟨rfl, rfl, rfl⟩

/-- A unit as it is programmed (R476). -/
theorem progUnit_holds (s : State) {a : Nat} (ha : 0x28200000 ≤ a) (h8 : 8 ∣ a) (ws : List TWord) (n : Nat) :
    (progUnit s a ws n).written a = true ∧ (progUnit s a ws n).rdWords a ws.length = ws := by
  unfold progUnit
  dsimp only
  generalize s.setSector (sectorOf a) ((s.sector (sectorOf a)).pulsed (max 1 (min n 16))) = v
  generalize hk : (if v.written (otherHalf a) = true then 3 else 1) = k
  have hodd : k % 2 = 1 := by
    rw [← hk]
    split <;> rfl
  obtain ⟨hm, ht, hc⟩ := newCheck_cells (wrWords (v.setUnitFlags a k) a ws) a
  refine ⟨?_, (rdWords_congr ha hm ht _).trans (rdWords_wrWords ha h8 ws)⟩
  rw [State.written, State.unitFlags, hc, wrWords_cfl]
  refine beq_iff_eq.2 ((congrArg (· % 2) ?_).trans hodd)
  exact sget_sset_self _ _ _ _

/-- A program of one unit that takes its pulses. -/
theorem flopUnits_one (q : FlopRun) (hok : r.ok = true) (hs : s.isBad q.addr = false) :
    flopUnits q r 1 1 s = (St.ok, 32, progUnit s q.addr (unitWords q.src 0) (r.pulses.getD 0 1)) := by
  rw [flopUnits, flopUnits]
  dsimp only
  rw [Nat.sub_self, Nat.mul_zero, Nat.add_zero, hs, hok, if_neg (by simp), if_neg (by simp)]

section
variable {b : Bool} (h : WritesSegment s b req r)
include h

theorem svcImage_checked : svcImage s code b req r = if code = 0x12 ∧ s.cfl.swapped then svcEnd s code St.swapPending
    else svcEnd (progUnit s (bootBase b + getLe req 0 8)
      (segmentWords (getLe req 0 8) (getLe (s.rdBytes (bootBase b) 64) 8 4) (req.drop 8)) (r.pulses.getD 0 1)) code St.ok := by
  obtain ⟨hok, hlen, hpast, hal, hfit, ⟨hw1, hw2⟩, hfresh, hsound⟩ := h
  have hd : (req.drop 8).length = 32 := by rw [List.length_drop, hlen]
  have hoff : ¬ getLe req 0 8 = 0 := by omega
  have hform : ¬ (req.length ≤ 8 ∨ getLe req 0 8 % 32 ≠ 0 ∨ (req.drop 8).length % 32 ≠ 0 ∨
      0x100000 < getLe req 0 8 + (req.drop 8).length ∨ 0x40 ≤ getLe req 0 8 ∧ ¬ (s.written (bootBase b) && s.written (bootBase b + 32)) = true) := by
    rw [hlen, hal, hd, hw1, hw2]
    simp only [Bool.and_self, not_true_eq_false, and_false, or_false]
    omega
  refine (if_neg hform).trans (ite_congr rfl (fun _ => rfl) fun _ => (if_neg fun h' => hoff h'.1).trans ?_)
  have hunits : segmentWords (getLe req 0 8) (getLe (s.rdBytes (bootBase b) 64) 8 4) (req.drop 8) = unitWords
      (segmentWords (getLe req 0 8) (getLe (s.rdBytes (bootBase b) 64) 8 4) (req.drop 8)) 0 :=
    (unitWords_whole _ (by rw [segmentWords_length, hd])).symm
  dsimp only
  rw [if_neg hoff, hd]
  refine (if_neg ?_).trans ?_
  · rw [show 32 / 32 = 1 from rfl, List.range_one, List.any_cons, List.any_nil, Nat.mul_zero, Nat.add_zero, hfresh]
    decide
  · rw [if_neg hoff, show 32 / 32 = 1 from rfl, flopUnits_one _ hok (by exact hsound)]
    dsimp only
    rw [← hunits]

end

end Sys2Proof.Machine
end

section
/-! SUPPORT. The services of the ROM in the modes that offer them (R68, R71, R382). -/

open Sys2Proof.Say

namespace Sys2Proof.Machine

variable {s : State} {req : List Byte} {code : Byte} {r : FlopEnv}

/-- A service in a mode that offers it leaves what its run leaves. -/
theorem service_leaves {c : Instr} {m : Word4} {v : State} (hp : s.pwr.up = true) (hb : svcBusy s = false) (hm : s.mode = m)
    (hi : exec c s = done s (svcCall s code req r))
    (h : m ∈ (svcModes code.toNat).getD [] ∧ m ≠ Mode.starting ∧ m ≠ Mode.terminated)
    (hv : svcRun (called s req code) code req r = v) : Leaves c s v := by
  obtain ⟨hin, hs, ht⟩ := h
  refine leaves_of_eq hi (Eq.trans ?_ hv)
  cases hms : svcModes code.toNat with
  | none =>
    rw [hms] at hin
    exact absurd hin List.not_mem_nil
  | some ms =>
    rw [hms] at hin
    exact svcCall_runs hp (hm ▸ hs) hb (beq_eq_false_iff_ne.2 fun h' => ht (hm.symm.trans h')) hms (hm ▸ hin) req r

/-- The services, with their codes and the modes that offer them (R68). -/
def serviceCalls (req : List Byte) (r : FlopEnv) : List (Instr × Byte × List Word4) :=
  [(.persoBegin req, 0x01, [Mode.blank]), (.persoTagid req, 0x02, [Mode.personalise]),
    (.persoKeygen req, 0x03, [Mode.personalise]), (.persoCert req, 0x04, [Mode.personalise]),
    (.persoImage req r, 0x05, [Mode.personalise]), (.persoClose req, 0x06, [Mode.personalise]),
    (.readEvidence req, 0x10, [Mode.recovery]), (.attest req, 0x11, [Mode.recovery, Mode.terminated]),
    (.imageWrite req r, 0x12, [Mode.recovery]), (.imageSwap req, 0x13, [Mode.recovery]),
    (.recoveryExit req, 0x14, [Mode.recovery]), (.nonce req, 0x15, [Mode.recovery])]

/-- Each of them is a call of its code. -/
theorem serviceCalls_call (s : State) (req : List Byte) (r : FlopEnv) : ∀ p ∈ serviceCalls req r, ∃ e : FlopEnv,
    exec p.1 s = done s (svcCall s p.2.1 req e) ∧ svcModes p.2.1.toNat = some p.2.2 := by
  simp only [serviceCalls, List.forall_mem_cons]
  exact ⟨⟨{}, rfl, rfl⟩, ⟨{}, rfl, rfl⟩, ⟨{}, rfl, rfl⟩, ⟨{}, rfl, rfl⟩, ⟨r, rfl, rfl⟩, ⟨{}, rfl, rfl⟩, ⟨{}, rfl, rfl⟩,
    ⟨{}, rfl, rfl⟩, ⟨r, rfl, rfl⟩, ⟨{}, rfl, rfl⟩, ⟨{}, rfl, rfl⟩, ⟨{}, rfl, rfl⟩, fun _ h => absurd h List.not_mem_nil⟩

theorem servicesAreRefused : ServicesAreRefused := by
  intro s code req r hp hm calls
  refine ⟨fun hb => ⟨fun p hc => ?_, leaves_of_eq rfl (svcCmd_ignored hb code {})⟩, fun hb => ⟨fun ht p hc hn => ?_, fun ht p hc h11 => ?_⟩⟩
  · obtain ⟨e, hi, -⟩ := serviceCalls_call s req r p hc
    exact leaves_of_eq hi (svcCall_ignored hb _ _ _)
  · obtain ⟨e, hi, hmodes⟩ := serviceCalls_call s req r p hc
    exact ⟨_, leaves_of_eq hi (svcCall_ends hp hm hb (.inr ⟨ht, .inr ⟨_, hmodes, hn, rfl⟩⟩) req e), rfl, rfl, rfl, rfl, rfl, rfl⟩
  · obtain ⟨e, hi, -⟩ := serviceCalls_call s req r p hc
    exact ⟨_, leaves_of_eq hi (svcCall_ends hp hm hb (.inl ⟨ht, h11, rfl⟩) req e), rfl⟩

/-! ## What a service answers where it cannot be done -/

theorem svcImage_short (h : req.length ≤ 8) (b : Bool) : svcImage s code b req r = svcEnd s code St.argInvalid := if_pos (.inl h)

theorem servicesEndOtherwise : ServicesEndOtherwise := by
  intro s req hp hb ends held
  refine ⟨fun hm => ⟨fun ht hl => ?_, fun hl => ?_, fun hf => ?_, fun hf hq hs => ?_, ?_⟩, fun hm => ?_⟩
  · exact ⟨_, service_leaves hp hb hm rfl (by decide) ((if_neg (not_not.2 hl)).trans (if_pos ht)), rfl, rfl, rfl⟩
  · exact ⟨_, service_leaves hp hb hm rfl (by decide) (if_pos hl), rfl, rfl, rfl⟩
  · exact ⟨_, service_leaves hp hb hm rfl (by decide) (if_pos hf), rfl, rfl, rfl⟩
  · refine service_leaves hp hb hm rfl (by decide) ?_
    refine (if_neg ?_).trans (if_pos ⟨hq, ?_⟩)
    · exact fun h' => Bool.noConfusion (hf.symm.trans h')
    · exact fun h' => Bool.noConfusion (hs.symm.trans h')
  · intro p h4 hz hpl h50 hder
    refine ⟨fun hf => ⟨_, service_leaves hp hb hm rfl (by decide)
        (svcCert_stores h4 hz hpl ⟨fun h => absurd h h50, fun _ => hder⟩ hf), rfl, sget_sset_self _ _ _ _⟩,
      fun hf => ⟨_, service_leaves hp hb hm rfl (by decide)
        (svcCert_full h4 hz hpl ⟨fun h => absurd h h50, fun _ => hder⟩ hf), rfl, rfl, rfl⟩⟩
  · refine ⟨fun h => ?_, fun h => ?_, fun h => ?_, fun h => ?_, fun hr hl h1 h5 hv => ?_, fun r => ⟨fun h => ?_, fun h hs => ?_⟩⟩
    · exact ⟨_, service_leaves hp hb hm rfl (by decide) (if_pos h), rfl, rfl, rfl⟩
    · exact ⟨_, service_leaves hp hb hm rfl (by decide) (if_pos h), rfl, rfl, rfl⟩
    · exact ⟨_, service_leaves hp hb hm rfl (by decide) (if_pos h), rfl, rfl, rfl⟩
    · exact ⟨_, service_leaves hp hb hm rfl (by decide) (if_pos (.inl h)), rfl, rfl, rfl⟩
    · refine service_leaves hp hb hm rfl (by decide) ?_
      refine (if_neg ?_).trans (if_pos ?_)
      · omega
      · exact fun h' => Bool.noConfusion (hr.symm.trans h')
    · exact ⟨_, service_leaves hp hb hm rfl (by decide) (svcImage_short h _),
        rfl, rfl, rfl⟩
    · have hrun : svcImage (called s req 0x12) 0x12 (!s.kpr.bootsel) req r = svcEnd (called s req 0x12) 0x12 St.swapPending :=
        (svcImage_checked (s := called s req 0x12) ⟨h.1, h.2, h.3, h.4, h.5, h.6, h.7, h.8⟩).trans (if_pos ⟨rfl, hs⟩)
      exact ⟨_, service_leaves hp hb hm rfl (by decide) hrun, rfl, rfl, rfl⟩

/-! ## What a service does -/

theorem segmentWritten_svcEnd {b : Bool} {u : State} (st : Word16) (hw : u.written (bootBase b + getLe req 0 8) = true)
    (hr : u.rdWords (bootBase b + getLe req 0 8) 4 =
      segmentWords (getLe req 0 8) (getLe (s.rdBytes (bootBase b) 64) 8 4) (req.drop 8)) :
    SegmentWritten s (svcEnd u code st) b req := ⟨hw, hr⟩

theorem svcImage_programs {b : Bool} (h : WritesSegment s b req r) (hc : ¬ (code = 0x12 ∧ s.cfl.swapped = true)) :
    ∃ t, svcImage s code b req r = t ∧ t.host.svcStat = St.ok ∧ SegmentWritten s t b req := by
  refine ⟨_, (svcImage_checked h).trans (if_neg hc), rfl, ?_⟩
  have ha : 0x28200000 ≤ bootBase b + getLe req 0 8 := by
    unfold bootBase
    omega
  have h8 : 8 ∣ bootBase b + getLe req 0 8 := by
    have hal := h.aligned
    unfold bootBase
    split <;> omega
  have hl : (segmentWords (getLe req 0 8) (getLe (s.rdBytes (bootBase b) 64) 8 4) (req.drop 8)).length = 4 := by
    rw [segmentWords_length, List.length_drop, h.length]
  obtain ⟨hw, hr⟩ := progUnit_holds s ha h8
    (segmentWords (getLe req 0 8) (getLe (s.rdBytes (bootBase b) 64) 8 4) (req.drop 8)) (r.pulses.getD 0 1)
  rw [hl] at hr
  exact segmentWritten_svcEnd _ hw hr

/-- Settles O42: the services. That READ_EVIDENCE waits for the replay and PERSO_KEYGEN for the expander, and that a response
takes 16,383 bytes at most, is log entry 84 (DEDUCED). -/
theorem romServices : Obligations.RomServices := by
  refine ⟨fun s req hp hb => ?_, servicesAreRefused, servicesEndOtherwise⟩
  intro decides ends
  refine ⟨fun hm => service_leaves hp hb hm rfl (by decide) rfl, fun hm => ⟨service_leaves hp hb hm rfl (by decide) rfl,
    fun ht hl => ?_, fun r hw => ?_, fun hf hq => ?_, fun hl hh hz hc => ?_⟩,
    fun hm => ⟨fun h => ?_, fun h => ?_, service_leaves hp hb hm rfl (by decide) rfl, fun hl st u hst => ?_,
      fun hr hl h1 h5 hv => ?_, fun r hw hs => ?_⟩, fun code hm ht hc => ?_⟩
  · refine ⟨_, service_leaves hp hb hm rfl (by decide) (svcTagid_sets hl ht), rfl, rfl, ?_⟩
    exact reg64_setReg64 s (getLe_lt req 0 8)
  · have hw' : WritesSegment (called s req 0x05) false req r := ⟨hw.1, hw.2, hw.3, hw.4, hw.5, hw.6, hw.7, hw.8⟩
    obtain ⟨t, hrun, hst, hseg⟩ := svcImage_programs (code := 0x05) hw' (fun h => absurd h.1 (by decide))
    exact ⟨t, service_leaves hp hb hm rfl (by decide) hrun, hst, hseg⟩
  · refine ⟨_, service_leaves hp hb hm rfl (by decide) (svcKeygen_eq hf hq), rfl, keygenResponse_length _, ?_⟩
    exact keygenDone_leaves (called s req 0x03)
  · have h50 : getLe req 0 1 = 0x50 := by
      obtain ⟨l, hl'⟩ := List.head?_eq_some_iff.1 hh
      rw [getLe_one, hl']
      rfl
    have hlen : (req.drop 4).length = 60 := by rw [List.length_drop, hl]
    have hrun := svcCert_stores (s := called s req 0x04) (req := req) (by omega) hz (by rw [h50]; decide)
      ⟨fun _ => hlen, fun h => absurd h50 h⟩ (by rw [h50]; exact hc)
    rw [h50] at hrun
    exact ⟨_, service_leaves hp hb hm rfl (by decide) hrun, rfl, sget_sset_self _ _ _ _⟩
  · exact service_leaves hp hb hm rfl (by decide) (if_neg (Nat.not_le.2 h))
  · exact service_leaves hp hb hm rfl (by decide) (if_neg (Nat.not_le.2 h))
  · refine service_leaves hp hb hm rfl (by decide) ((if_neg (not_not.2 hl)).trans ((if_neg ?_).trans ?_))
    · rw [show (called s req 0x11).terminated = (s.mode == Mode.terminated) from rfl, hm]
      decide
    · rw [hst]
  · refine ⟨_, service_leaves hp hb hm rfl (by decide) ((if_neg ?_).trans (if_neg ?_)), rfl, rfl⟩
    · omega
    · exact not_not.2 hr
  · have hw' : WritesSegment (called s req 0x12) (!s.kpr.bootsel) req r := ⟨hw.1, hw.2, hw.3, hw.4, hw.5, hw.6, hw.7, hw.8⟩
    obtain ⟨t, hrun, hst, hseg⟩ := svcImage_programs (code := 0x12) hw' (fun h => Bool.noConfusion (hs.symm.trans h.2))
    exact ⟨t, service_leaves hp hb hm rfl (by decide) hrun, hst, hseg⟩
  · exact ⟨_, leaves_of_eq rfl (svcCmd_ends hp hm hb (.inr ⟨ht, .inl ⟨hc, rfl⟩⟩) {}), rfl, rfl⟩

end Sys2Proof.Machine
end

section
/-! SUPPORT. What a tag does with a frame (R172, R175-R177), and its replies (R170, R185, R188). -/

open Sys2Proof.Say

namespace Sys2Proof.Machine

variable {s t u v : State} {f : AirFrame} {c : Instr} {code : Byte} {act : State → State}

/-! ## The counters of the air link -/

/-- Counters of the air link have counted; no other register changes, nor anything else. -/
def Counted (s t : State) : Prop := ∃ x, t = { s with regs := x } ∧ ∀ b, b < 0x800200 → t.reg b = s.reg b

theorem Counted.refl (s : State) : Counted s s := ⟨s.regs, rfl, fun _ _ => rfl⟩

theorem Counted.trans (h : Counted s t) (h' : Counted t u) : Counted s u := by
  obtain ⟨x, rfl, hx⟩ := h
  obtain ⟨y, rfl, hy⟩ := h'
  exact ⟨y, rfl, fun b hb => (hy b hb).trans (hx b hb)⟩

theorem counted_incReg (s : State) {a : Nat} (n : Nat) (h : 0x800200 ≤ a) : Counted s (s.incReg a n) :=
  ⟨_, rfl, fun _ hb => State.reg_setReg_ne _ _ (by omega)⟩

theorem counted_if (s : State) (p : Prop) [Decidable p] {a : Nat} (h : 0x800200 ≤ a) :
    Counted s (if p then s.incReg a else s) := by
  split
  · exact counted_incReg s 1 h
  · exact Counted.refl s

theorem Counted.tagId (h : Counted s t) : tagId t = tagId s := by
  obtain ⟨x, rfl, hx⟩ := h
  rw [Machine.tagId, Machine.tagId, State.reg64, State.reg64, hx _ (by decide), hx _ (by decide)]

theorem Counted.idRev (h : Counted s t) : t.reg Reg.KPR_ID_REV = s.reg Reg.KPR_ID_REV := h.elim fun _ h => h.2 _ (by decide)

theorem counted_rx (s : State) : Counted s (rx s) := counted_incReg s 1 (by decide)

/-! ## Frames -/

theorem airRx_deaf (h : airEnabled s = false ∨ readerRole s = true ∨ s.pwr.flush ≠ 0 ∨ f.cmd ≠ code) :
    airRx s f code act = s := by
  refine if_pos ?_
  rcases h with h | h | h | h
  · exact .inl (by rw [h]; decide)
  · exact .inr (.inl h)
  · exact .inr (.inr (.inl h))
  · exact .inr (.inr (.inr h))

theorem airRx_heard (h : Hears s f) (hc : f.cmd = code) : airRx s f code act =
    if ¬ f.fcsOk ∨ 256 < f.payload.length ∨ (f.dest ≠ tagId s ∧ f.dest ≠ broadcast) then s.incReg Reg.AIR_FCSERR
    else act (rx s) := by
  refine if_neg ?_
  rintro (h' | h' | h' | h')
  · exact h' h.on
  · exact Bool.noConfusion (h.tag.symm.trans h')
  · exact h' h.held
  · exact h' hc

theorem airRx_bad (h : Hears s f) (hc : f.cmd = code)
    (hb : f.fcsOk = false ∨ 256 < f.payload.length ∨ (f.dest ≠ tagId s ∧ f.dest ≠ broadcast)) :
    airRx s f code act = s.incReg Reg.AIR_FCSERR := by
  rw [airRx_heard h hc]
  exact if_pos (hb.imp_left fun h' => by rw [h']; decide)

theorem airRx_good (h : Good s f) (hc : f.cmd = code) : airRx s f code act = act (rx s) := by
  rw [airRx_heard h.hears hc]
  refine if_neg ?_
  rintro (h' | h' | h')
  · exact h' h.fcs
  · exact absurd h.short (Nat.not_le.2 h')
  · exact h.dest.elim h'.1 h'.2

/-- A good frame leaves what its command leaves. -/
theorem frame_leaves (h : Good s f) (hi : exec c s = done s (airRx s f code act)) (hc : f.cmd = code) (hv : act (rx s) = v) :
    Leaves c s v := leaves_of_eq hi ((airRx_good h hc).trans hv)

theorem toMe_rx (h : ForMe s f) : toMe (rx s) f = true :=
  Bool.and_eq_true_iff.2 ⟨beq_iff_eq.2 (h.named.trans (counted_rx s).tagId.symm), beq_iff_eq.2 h.channel⟩

/-- A frame of the device's own in a state that it acts in. -/
theorem served_leaves {states : List Nat} (h : ForMe s f) (hi : exec c s = done s (airServed s f code states)) (hc : f.cmd = code)
    (hs : s.air.tstate ∈ states) (hv : airService (sameSeq (rx s) f.seq) { f := f } = v) : Leaves c s v :=
  frame_leaves h.good hi hc ((if_pos ⟨hs, toMe_rx h⟩).trans hv)

/-! ## Replies -/

/-- A reply changes the counters, the form last used and the outbox alone. -/
theorem airPut_eq (s : State) (q : Byte) (st : Word16) (p : List Byte) (bs : Bool) : ∃ t b, Counted s t ∧
    airPut s q st p bs = { t with
      air := { s.air with bsLast := b }
      outbox := s.outbox ++ [.uplink { src := tagId s, seq := q, status := st, payload := p } b s.air.channel] } := by
  have h1 := counted_incReg s 1 (show 0x800200 ≤ Reg.AIR_TXFRAMES by decide)
  have h2 := h1.trans (counted_if _ (backscatter s bs = true) (show 0x800200 ≤ Reg.AIR_BSREPLIES by decide))
  have h3 := h2.trans (counted_if _ (st = St.dwellShort) (show 0x800200 ≤ Reg.AIR_DWELLSHORT by decide))
  have h4 := h3.trans (counted_if _ (st = St.pwWrong ∨ st = St.pwLocked) (show 0x800200 ≤ Reg.AIR_PWFAIL by decide))
  refine ⟨_, backscatter s bs, h4, ?_⟩
  unfold airPut
  dsimp only
  rw [h4.tagId]
  obtain ⟨x, hx, -⟩ := h4
  rw [hx]

/-- What a reply is made from: nothing has left the device, the tag and its channel are the same, and memory and the durable
state as before. -/
structure Fresh (s u : State) : Prop where
  outbox : u.outbox = s.outbox
  tag : tagId u = tagId s
  channel : u.air.channel = s.air.channel
  mem : u.mem = s.mem
  dur : u.dur = s.dur

theorem fresh_rx (s : State) : Fresh s (rx s) := ⟨rfl, (counted_rx s).tagId, rfl, rfl, rfl⟩
theorem fresh_rxSeq (s : State) (q : Byte) : Fresh s (sameSeq (rx s) q) := ⟨rfl, (counted_rx s).tagId, rfl, rfl, rfl⟩

theorem replied_airPut (h : Fresh s u) (q : Byte) (st : Word16) (p : List Byte) (bs : Bool) :
    Replied s (airPut u q st p bs) q st p := by
  obtain ⟨t, b, -, ht⟩ := airPut_eq u q st p bs
  refine ⟨b, ?_⟩
  rw [ht]
  dsimp only
  rw [h.outbox, h.tag, h.channel]

theorem airPut_leaves (h : Fresh s u) (q : Byte) (st : Word16) (p : List Byte) (bs : Bool) :
    (airPut u q st p bs).mem = s.mem ∧ (airPut u q st p bs).dur = s.dur ∧
      ∃ b, (airPut u q st p bs).air = { u.air with bsLast := b } := by
  obtain ⟨t, b, ⟨x, rfl, -⟩, ht⟩ := airPut_eq u q st p bs
  rw [ht]
  exact ⟨h.mem, h.dur, b, rfl⟩

/-- A command that ends with a reply in clear. -/
theorem answers_of_put {st : Word16} {p : List Byte} {bs : Bool} {more : State → Prop} (h : Fresh s u)
    (hl : Leaves c s (airPut u f.seq st p bs)) (hm : ∀ b, (airPut u f.seq st p bs).air = { u.air with bsLast := b } →
      more (airPut u f.seq st p bs)) : Answers c s f st p more := by
  obtain ⟨hmem, hdur, b, ha⟩ := airPut_leaves h f.seq st p bs
  exact ⟨_, hl, replied_airPut h _ _ _ _, hmem, hdur, hm b ha⟩

/-! ## The frames of the link -/

/-- A frame in clear for the device itself is served with its payload. -/
theorem airService_clear (hf : f.flags.getLsbD 0 = false) (hs : ¬ ((f.cmd = 0x10 ∨ f.cmd = 0x12) ∧ ¬ u.kpr.replayDone = true)) :
    airService u { f := f } =
      if f.cmd.toNat < 0x10 then airLinkCmd u f f.payload none else airServe u { f := f } f.payload none := by
  have ho : airOpen u f = (some (some (f.payload, none)), u) := if_pos (by rw [hf]; decide)
  refine (if_neg hs).trans ?_
  dsimp only
  rw [ho]

theorem link_cmd {k : Byte} (hc : f.cmd = k) (h : k ≠ 0x10 ∧ k ≠ 0x12) (p : Prop) : ¬ ((f.cmd = 0x10 ∨ f.cmd = 0x12) ∧ p) := by
  rintro ⟨h' | h', -⟩
  · exact h.1 (hc.symm.trans h')
  · exact h.2 (hc.symm.trans h')

/-- DESELECT, HALT, GET_RESULT and PING in clear. -/
theorem airService_link {k : Byte} (hf : f.flags.getLsbD 0 = false) (hc : f.cmd = k) (h : k.toNat < 0x10) :
    airService u { f := f } = airLinkCmd u f f.payload none := by
  refine (airService_clear hf (link_cmd hc ?_ _)).trans (if_pos (hc ▸ h))
  constructor
  · rintro rfl
    exact absurd h (by decide)
  · rintro rfl
    exact absurd h (by decide)

/-- Each frame is taken by its code (R177). -/
theorem frameRows_rx (f : AirFrame) : ∀ p ∈ frameRows f, ∃ act, (∀ s, exec p.1 s = done s (airRx s f p.2 act)) ∧
    ∀ s, p.2 ≠ 1 → s.air.tstate = 0 ∨ s.air.tstate = 3 ∨ f.channel.val ≠ s.air.channel → act s = s := by
  have hon : ∀ s : State, f.channel.val ≠ s.air.channel → onChannel s f = false := fun s h => beq_eq_false_iff_ne.2 h
  have hme : ∀ s : State, f.channel.val ≠ s.air.channel → toMe s f = false := fun s h => by rw [toMe, hon s h, Bool.and_false]
  have hnot : ∀ (s : State) (l : List Nat), 0 ∉ l → 3 ∉ l →
      s.air.tstate = 0 ∨ s.air.tstate = 3 ∨ f.channel.val ≠ s.air.channel → ¬ (s.air.tstate ∈ l ∧ toMe s f = true) := by
    rintro s l h0 h3 (h | h | h) ⟨hl, hm⟩
    · exact h0 (h ▸ hl)
    · exact h3 (h ▸ hl)
    · rw [hme s h] at hm
      exact Bool.noConfusion hm
  have hserved : ∀ (s : State) (l : List Nat), 0 ∉ l → 3 ∉ l →
      s.air.tstate = 0 ∨ s.air.tstate = 3 ∨ f.channel.val ≠ s.air.channel →
      (if s.air.tstate ∈ l ∧ toMe s f = true then airService (sameSeq s f.seq) { f := f } else s) = s :=
    fun s l h0 h3 h => if_neg (hnot s l h0 h3 h)
  have hone : ∀ s : State, s.air.tstate = 0 ∨ s.air.tstate = 3 ∨ f.channel.val ≠ s.air.channel →
      ∀ n, n = 1 ∨ n = 2 → ¬ (s.air.tstate = n ∧ toMe s f = true) := fun s h n hn h' =>
    hnot s [1, 2] (by decide) (by decide) h ⟨by rw [h'.1]; simpa using hn, h'.2⟩
  simp only [frameRows, List.forall_mem_cons]
  refine ⟨⟨_, fun _ => rfl, fun s h => absurd rfl h⟩, ⟨_, fun _ => rfl, fun s _ h => if_neg fun h' => ?_⟩,
    ⟨_, fun _ => rfl, fun s _ h => if_neg (hone s h 1 (.inl rfl))⟩,
    ⟨_, fun _ => rfl, fun s _ => hserved s [2] (by decide) (by decide)⟩,
    ⟨_, fun _ => rfl, fun s _ => hserved s [1, 2] (by decide) (by decide)⟩,
    ⟨_, fun _ => rfl, fun s _ h => if_neg (hone s h 2 (.inr rfl))⟩,
    ⟨_, fun _ => rfl, fun s _ => hserved s [1, 2] (by decide) (by decide)⟩,
    ⟨_, fun _ => rfl, fun s _ => hserved s [2] (by decide) (by decide)⟩,
    ⟨_, fun _ => rfl, fun s _ => hserved s [2] (by decide) (by decide)⟩,
    ⟨_, fun _ => rfl, fun s _ => hserved s [2] (by decide) (by decide)⟩,
    ⟨_, fun _ => rfl, fun s _ h => if_neg (hone s h 2 (.inr rfl))⟩, fun _ h => absurd h List.not_mem_nil⟩
  rcases h with h | h | h
  · exact absurd (h.symm.trans h'.1) (by decide)
  · exact absurd (h.symm.trans h'.1) (by decide)
  · rw [hon s h] at h'
    exact Bool.noConfusion h'.2.1

theorem framesAreFiltered : FramesAreFiltered := by
  intro s f p hp
  obtain ⟨act, hi, hstay⟩ := frameRows_rx f p hp
  exact ⟨fun h => leaves_of_eq (hi s) (airRx_deaf h), fun hh hc hb => leaves_of_eq (hi s) (airRx_bad hh hc hb),
    fun hg hc h1 h => frame_leaves hg (hi s) hc (hstay _ h1 h)⟩

/-! ## WAKE and IDENT -/

theorem airWake_form (hd : f.dest = broadcast) (hl : f.payload.length = 8) :
    ¬ (f.dest ≠ broadcast ∨ f.payload.length ≠ 8) := fun h => h.elim (· hd) (· hl)

section
variable (hg : Good s f) (hc : f.cmd = 0x01)
include hg hc

theorem airWake_latches (hd : f.dest = broadcast) (hl : f.payload.length = 8)
    (h : s.air.tstate = 0 ∨ ((s.air.tstate = 1 ∨ s.air.tstate = 3) ∧ BitVec.ofNat 64 (getLe f.payload 0 8) ≠ s.air.reader)) :
    Leaves (.airWake f) s { rx s with
      air := { s.air with tstate := 1, reader := BitVec.ofNat 64 (getLe f.payload 0 8), channel := f.channel.val } } := by
  refine frame_leaves hg rfl hc ((if_neg (airWake_form hd hl)).trans ?_)
  rcases h with h | ⟨h | h, hid⟩
  · rw [show (rx s).air.tstate = 0 from h]
    rfl
  · rw [show (rx s).air.tstate = 1 from h]
    exact if_pos hid
  · rw [show (rx s).air.tstate = 3 from h]
    exact if_pos hid

theorem airWake_returns (hd : f.dest = broadcast) (hl : f.payload.length = 8) (h : s.air.tstate = 3)
    (hid : BitVec.ofNat 64 (getLe f.payload 0 8) = s.air.reader) (hf : f.flags.getLsbD 2 = true) :
    Leaves (.airWake f) s { rx s with air := { s.air with tstate := 1 } } := by
  refine frame_leaves hg rfl hc ((if_neg (airWake_form hd hl)).trans ?_)
  rw [show (rx s).air.tstate = 3 from h]
  exact (if_neg (not_not.2 hid)).trans (if_pos hf)

theorem airWake_stays (h : f.dest ≠ broadcast ∨ f.payload.length ≠ 8 ∨ s.air.tstate = 2 ∨
    (s.air.tstate = 1 ∧ BitVec.ofNat 64 (getLe f.payload 0 8) = s.air.reader) ∨
    (s.air.tstate = 3 ∧ BitVec.ofNat 64 (getLe f.payload 0 8) = s.air.reader ∧ f.flags.getLsbD 2 = false)) :
    Leaves (.airWake f) s (rx s) := by
  by_cases hd : f.dest ≠ broadcast ∨ f.payload.length ≠ 8
  · exact frame_leaves hg rfl hc (if_pos hd)
  · have hd' := not_or.1 hd
    refine frame_leaves hg rfl hc ((if_neg hd).trans ?_)
    rcases h with h | h | h | ⟨h, hid⟩ | ⟨h, hid, hfl⟩
    · exact absurd h hd'.1
    · exact absurd h hd'.2
    · rw [show (rx s).air.tstate = 2 from h]
      rfl
    · rw [show (rx s).air.tstate = 1 from h]
      exact if_neg (not_not.2 hid)
    · rw [show (rx s).air.tstate = 3 from h]
      exact (if_neg (not_not.2 hid)).trans (if_neg (by rw [hfl]; decide))

end

section
variable (hg : Good s f) (hc : f.cmd = 0x02)
include hg hc

theorem airIdent_answers (h1 : s.air.tstate = 1) (hch : f.channel.val = s.air.channel) (hd : f.dest = broadcast)
    (hl : f.payload.length = 9) (h64 : getLe f.payload 0 1 ≤ 64)
    (hp : getLe f.payload 1 8 = (tagId s).toNat % 2 ^ getLe f.payload 0 1) : ∃ t b, Leaves (.airIdent f) s t ∧
      t.outbox = s.outbox ++ [.identResponse (tagId s) (s.reg Reg.KPR_ID_REV) b s.air.channel] ∧
      t.air = { s.air with bsLast := b } := by
  have hcount := (counted_rx s).trans ((counted_incReg _ 1 (show 0x800200 ≤ Reg.AIR_TXFRAMES by decide)).trans
    (counted_if _ (backscatter (rx s) (f.flags.getLsbD 1) = true) (show 0x800200 ≤ Reg.AIR_BSREPLIES by decide)))
  have hid := hcount.tagId
  have hrev := hcount.idRev
  obtain ⟨x, hx, -⟩ := hcount
  have hpre : fld (tagId (rx s)).toNat 0 (getLe f.payload 0 1) = getLe f.payload 1 8 := by
    rw [hp, (counted_rx s).tagId, fld, Nat.pow_zero, Nat.div_one]
  refine ⟨_, backscatter (rx s) (f.flags.getLsbD 1),
    frame_leaves hg rfl hc (if_pos ⟨h1, beq_iff_eq.2 hch, hd, hl, h64, hpre⟩), ?_, ?_⟩
  · dsimp only
    rw [hid, hrev, hx]
  · dsimp only
    rw [hx]

theorem airIdent_stays
    (h : getLe f.payload 1 8 ≠ (tagId s).toNat % 2 ^ getLe f.payload 0 1 ∨ s.air.tstate = 2) :
    Leaves (.airIdent f) s (rx s) := by
  refine frame_leaves hg rfl hc (if_neg fun h' => ?_)
  obtain ⟨h1, -, -, -, -, hn⟩ := h'
  rcases h with h | h
  · refine h ?_
    rw [← hn, (counted_rx s).tagId, fld, Nat.pow_zero, Nat.div_one]
  · exact absurd (h.symm.trans h1) (by decide)

end

/-! ## SELECT, DESELECT and HALT in clear -/

theorem airSelect_answers (hf : Clear s f) (hc : f.cmd = 0x03) (h1 : s.air.tstate = 1) : ∃ q, Answers (.airSelect f) s f St.ok
    (leBytes 4 (s.reg Reg.KPR_ID_REV).toNat ++ [q]) fun t => t.air.tstate = 2 := by
  refine ⟨BitVec.ofNat 8 (b2n (backscatter (rx s) (f.flags.getLsbD 1))), answers_of_put (u := setTstate (rx s) 2)
    (bs := f.flags.getLsbD 1) ⟨rfl, (counted_rx s).tagId, rfl, rfl, rfl⟩ ?_ fun b hb => ?_⟩
  · refine frame_leaves hf.mine.good rfl hc ((if_pos ⟨h1, toMe_rx hf.mine⟩).trans ((if_neg ?_).trans ?_))
    · rw [hf.unsealed]
      decide
    · dsimp only
      rw [(counted_rx s).idRev]
      rfl
  · rw [hb]
    rfl

/-- An answer after which the link ends in a state. -/
theorem answers_dropped {n : Nat} {st : Word16} {bs : Bool} (h : Fresh s u)
    (hl : Leaves c s (setTstate (dropLink (airPut u f.seq st [] bs)) n)) :
    Answers c s f st [] fun t => t.air.tstate = n ∧ t.air.bound = [] ∧ t.air.unlocked = [] := by
  obtain ⟨hmem, hdur, -⟩ := airPut_leaves h f.seq st [] bs
  have hr := replied_airPut h f.seq st [] bs
  generalize airPut u f.seq st [] bs = x at *
  exact ⟨_, hl, hr, hmem, hdur, rfl, rfl, rfl⟩

theorem airDeselect_answers (hf : Clear s f) (hc : f.cmd = 0x04) (h2 : s.air.tstate = 2) :
    Answers (.airDeselect f) s f St.ok [] fun t => t.air.tstate = 1 ∧ t.air.bound = [] ∧ t.air.unlocked = [] := by
  refine answers_dropped (u := sameSeq (rx s) f.seq) (bs := f.flags.getLsbD 1) (fresh_rxSeq s f.seq)
    (served_leaves hf.mine rfl hc (by rw [h2]; decide) ?_)
  exact (airService_link hf.unsealed hc (by decide)).trans (if_pos hc)

theorem airHalt_answers (hf : Clear s f) (hc : f.cmd = 0x05) (h : s.air.tstate = 1 ∨ s.air.tstate = 2) :
    Answers (.airHalt f) s f St.ok [] fun t => t.air.tstate = 3 ∧ t.air.bound = [] ∧ t.air.unlocked = [] := by
  refine answers_dropped (u := sameSeq (rx s) f.seq) (bs := f.flags.getLsbD 1) (fresh_rxSeq s f.seq)
    (served_leaves hf.mine rfl hc (by simpa using h) ?_)
  exact (airService_link hf.unsealed hc (by decide)).trans ((if_neg (by rw [hc]; decide)).trans (if_pos hc))

/-! ## The end of the field -/

theorem fieldLoss_leaves (s : State) : Leaves .fieldLoss s
    { (if s.air.tstate ≠ 0 then airIdle s else s) with
      air := { (if s.air.tstate ≠ 0 then airIdle s else s).air with field := false } } := leaves_of_eq rfl rfl

theorem fieldLoss_idle (h : s.air.tstate = 0) : Leaves .fieldLoss s { s with air := { s.air with field := false } } := by
  have hl := fieldLoss_leaves s
  rwa [if_neg (not_not.2 h)] at hl

theorem fieldLoss_drops (h : s.air.tstate ≠ 0) : ∃ t, Leaves .fieldLoss s t ∧
    (t.air.tstate = 0 ∧ t.air.bound = [] ∧ t.air.unlocked = []) ∧ t.air.field = false ∧ ∀ o ∈ t.air.ops, o.live = false := by
  have hl := fieldLoss_leaves s
  rw [if_pos h] at hl
  refine ⟨_, hl, ⟨rfl, rfl, rfl⟩, rfl, fun o ho => ?_⟩
  obtain ⟨q, -, rfl⟩ := List.mem_map.1 ho
  rfl

theorem statesThatStay : StatesThatStay := by
  intro s f
  refine ⟨?_, fun hg hc h => airIdent_stays hg hc h, fun h => leaves_of_eq rfl (if_neg h), fieldLoss_idle⟩
  intro hg hc id h
  exact airWake_stays hg hc h

/-- Settles O43: the frames that a tag takes. That the channel is latched for SELECT and what follows, and that an
identification response counts as a frame sent, is log entry 60 (DEDUCED). -/
theorem tagFrames : Obligations.TagFrames := by
  refine ⟨fun s f => ?_, framesAreFiltered, statesThatStay⟩
  intro u off
  refine ⟨?_, fun hg hc h1 hch hd hl n hn h64 hp => ?_, airSelect_answers, airDeselect_answers, airHalt_answers,
    fun h2 => ⟨_, leaves_of_eq rfl (if_pos h2), ⟨rfl, rfl, rfl⟩, rfl⟩, fieldLoss_drops⟩
  · intro hg hc hd hl id
    exact ⟨airWake_latches hg hc hd hl, airWake_returns hg hc hd hl⟩
  · subst hn
    exact airIdent_answers hg hc h1 hch hd hl h64 hp

end Sys2Proof.Machine
end

section
/-! SUPPORT. The services that an Active tag gives (R171, R176-R179, R181, R195-R198). -/

open Sys2Proof.Say

namespace Sys2Proof.Machine

variable {s t u v : State} {f : AirFrame} {c : Instr} {code : Byte}

/-! ## What waits behind a frame in clear -/

/-- READ, WRITE and PWD in clear of an Active tag. -/
theorem serve_leaves (hf : Clear s f) (hi : exec c s = done s (airServed s f code [2])) (hc : f.cmd = code) (h2 : s.air.tstate = 2)
    (h10 : ¬ code.toNat < 0x10) (hr : code = 0x11 ∨ s.kpr.replayDone = true)
    (hv : airServe (sameSeq (rx s) f.seq) { f := f } f.payload none = v) : Leaves c s v := by
  refine served_leaves hf.mine hi hc (by rw [h2]; decide) ((airService_clear hf.unsealed ?_).trans ((if_neg (hc ▸ h10)).trans hv))
  rintro ⟨h, hn⟩
  rcases hr with hr | hr
  · rw [hc, hr] at h
    exact absurd h (by decide)
  · exact hn hr

/-- READ and PWD before the replay (R198). -/
theorem serve_starting (hf : Clear s f) (hi : exec c s = done s (airServed s f code [2])) (hc : f.cmd = code) (h2 : s.air.tstate = 2)
    (h10 : code = 0x10 ∨ code = 0x12) (hr : s.kpr.replayDone = false) : Answers c s f St.starting [] fun _ => True := by
  refine answers_of_put (fresh_rxSeq s f.seq) (served_leaves hf.mine hi hc (by rw [h2]; decide)
    (if_pos ⟨hc ▸ h10, ?_⟩)) fun _ _ => trivial
  intro h
  exact Bool.noConfusion (hr.symm.trans h)

theorem airResult_clear (u : State) (q : Byte) (st : Word16) (p : List Byte) (bs : Bool) :
    airResult u false true false ⟨q, st, p, none, bs⟩ = airPut u q st p bs := rfl

/-! ## READ (R195, R196) -/

theorem accessMet_clear (s : State) (k a : Nat) : accessMet s k a false = true ↔ k = 0 ∨ (k = 1 ∧ a ∈ s.air.unlocked) := by
  match k with
  | 0 => simp [accessMet]
  | 1 => simp [accessMet]
  | 2 => simp [accessMet]
  | 3 => simp [accessMet]
  | k + 4 => simp [accessMet]

section
variable {p : List Byte}

theorem airReadNow_absent (h : 63 < getLe p 0 1 ∨ (s.area (getLe p 0 1)).size = 0) : airReadNow s false p = (St.areaAbsent, []) :=
  if_pos h

variable (ha : getLe p 0 1 ≤ 63) (hs : (s.area (getLe p 0 1)).size ≠ 0)
include ha hs

theorem airReadNow_there : ¬ (63 < getLe p 0 1 ∨ (s.area (getLe p 0 1)).size = 0) := fun h => h.elim (by omega) hs

theorem airReadNow_denied (h : ¬ accessMet s (s.area (getLe p 0 1)).read (getLe p 0 1) false = true) :
    airReadNow s false p = (St.accessDenied, []) := (if_neg (airReadNow_there ha hs)).trans (if_pos h)

variable (hm : accessMet s (s.area (getLe p 0 1)).read (getLe p 0 1) false = true)
include hm

theorem airReadNow_range (h : (s.area (getLe p 0 1)).size < getLe p 1 2 + getLe p 3 2 ∨ 248 < getLe p 3 2) :
    airReadNow s false p = (St.areaRange, []) :=
  (if_neg (airReadNow_there ha hs)).trans ((if_neg (not_not.2 hm)).trans (if_pos h))

theorem airReadNow_ok (h1 : getLe p 1 2 + getLe p 3 2 ≤ (s.area (getLe p 0 1)).size) (h2 : getLe p 3 2 ≤ 248) :
    airReadNow s false p = (St.ok, leBytes 8 (s.area (getLe p 0 1)).newest.1 ++
      slice (wordsBytes (s.area (getLe p 0 1)).newest.2) (getLe p 1 2) (getLe p 3 2)) := by
  refine (if_neg (airReadNow_there ha hs)).trans ((if_neg (not_not.2 hm)).trans (if_neg ?_))
  change ¬ ((s.area (getLe p 0 1)).size < getLe p 1 2 + getLe p 3 2 ∨ 248 < getLe p 3 2)
  omega

end

section
variable (hc : f.cmd = 0x10) {p : List Byte}
include hc

theorem airServe_readFails {st : Word16} {d : List Byte} (h : airReadNow u false p = (st, d)) (hst : st ≠ St.ok) :
    airServe u { f := f } p none = airPut u f.seq st d (f.flags.getLsbD 1) := by
  unfold airServe
  dsimp only
  rw [if_pos hc, Option.isSome_none, h]
  exact if_pos hst

theorem airServe_reads {d : List Byte} {w : State} (h : airReadNow u false p = (St.ok, d))
    (he : egress u 0x33 (some (u.area (getLe p 0 1)).owner) = (true, w)) :
    airServe u { f := f } p none = airPut w f.seq St.ok d (f.flags.getLsbD 1) := by
  unfold airServe
  dsimp only
  rw [if_pos hc, Option.isSome_none, h]
  refine (if_neg (not_not.2 rfl)).trans ?_
  rw [he]
  rfl

end

section
variable (hf : Clear s f) (hc : f.cmd = 0x10) (h2 : s.air.tstate = 2) (hr : s.kpr.replayDone = true)
include hf hc h2 hr

theorem airRead_fails {st : Word16} (h : airReadNow (sameSeq (rx s) f.seq) false f.payload = (st, [])) (hst : st ≠ St.ok) :
    Answers (.airRead f) s f st [] fun _ => True :=
  answers_of_put (fresh_rxSeq s f.seq) (serve_leaves hf rfl hc h2 (by decide) (.inr hr) (airServe_readFails hc h hst))
    fun _ _ => trivial

/-- A READ that may be answered: its data passes the check on its way out, or not. -/
theorem airRead_reads {d : List Byte} (h : airReadNow (sameSeq (rx s) f.seq) false f.payload = (St.ok, d)) :
    ∃ t, Leaves (.airRead f) s t ∧ (Passes s → t.dur = s.dur ∧ t.mem = s.mem ∧ Replied s t f.seq St.ok d) := by
  by_cases hp : Passes s
  · have he : egress (sameSeq (rx s) f.seq) 0x33 (some ((sameSeq (rx s) f.seq).area (getLe f.payload 0 1)).owner) =
        (true, { sameSeq (rx s) f.seq with freeCtr := s.freeCtr + 1 }) := if_pos hp
    have hu : Fresh s { sameSeq (rx s) f.seq with freeCtr := s.freeCtr + 1 } := ⟨rfl, (counted_rx s).tagId, rfl, rfl, rfl⟩
    obtain ⟨hmem, hdur, -⟩ := airPut_leaves hu f.seq St.ok d (f.flags.getLsbD 1)
    exact ⟨_, serve_leaves hf rfl hc h2 (by decide) (.inr hr) (airServe_reads hc h he), fun _ => ⟨hdur, hmem, replied_airPut hu _ _ _ _⟩⟩
  · exact ⟨_, serve_leaves hf rfl hc h2 (by decide) (.inr hr) rfl, fun h => absurd h hp⟩

end

/-! ## PING, GET_RESULT and codes of no command -/

theorem airPing_answers (hf : Clear s f) (hc : f.cmd = 0x07) (h : s.air.tstate = 1 ∨ s.air.tstate = 2)
    (hl : f.payload.length ≤ 32) : Answers (.airPing f) s f St.ok
      (f.payload ++ leBytes 2 (BitVec.ofInt 16 f.rssi).toNat) fun _ => True := by
  refine answers_of_put (bs := f.flags.getLsbD 1) (fresh_rxSeq s f.seq)
    (served_leaves hf.mine rfl hc (by simpa using h) ((airService_link hf.unsealed hc (by decide)).trans ?_)) fun _ _ => trivial
  unfold airLinkCmd
  dsimp only
  rw [hc, if_neg (by decide), if_neg (by decide), if_neg (by decide), if_pos hl]
  rfl

section
variable (hf : Clear s f) (hc : f.cmd = 0x06) (h2 : s.air.tstate = 2) (hp : f.payload = [f.seq])
include hf hc h2 hp

/-- A GET_RESULT whose SEQ is that of the command it asks for. -/
theorem getResult_leaves (hv : airLinkCmd (rx s) f f.payload none = v) : Leaves (.getResult f) s v := by
  refine frame_leaves hf.mine.good rfl hc ((if_pos ⟨h2, toMe_rx hf.mine⟩).trans ?_)
  rw [if_pos (by rw [hp]; rfl)]
  exact (airService_link hf.unsealed hc (by decide)).trans hv

theorem getResult_none (h : s.air.kept.find? (·.seq == f.seq) = none) : Answers (.getResult f) s f
    (if airBusy s f.seq = true then St.pending else St.cmdUnknown) [] fun _ => True := by
  refine answers_of_put (bs := f.flags.getLsbD 1) (fresh_rx s) (getResult_leaves hf hc h2 hp ?_) fun _ _ => trivial
  unfold airLinkCmd
  dsimp only
  rw [hc, if_neg (by decide), if_neg (by decide), if_pos rfl, hp, List.getD_cons_zero,
    show (rx s).air.kept.find? (·.seq == f.seq) = none from h]
  rfl

theorem getResult_kept {r : AirResult} (h : s.air.kept.find? (·.seq == f.seq) = some r) (hr : r.ref = none) :
    Answers (.getResult f) s f r.status r.payload fun t => ∀ q ∈ t.air.kept, q.seq ≠ f.seq := by
  refine answers_of_put (bs := f.flags.getLsbD 1)
    (u := { rx s with air := { s.air with kept := s.air.kept.filter (·.seq ≠ f.seq) } })
    ⟨rfl, (counted_rx s).tagId, rfl, rfl, rfl⟩ (getResult_leaves hf hc h2 hp ?_) fun b hb q hq => ?_
  · unfold airLinkCmd
    dsimp only
    rw [hc, if_neg (by decide), if_neg (by decide), if_pos rfl, hp, List.getD_cons_zero,
      show (rx s).air.kept.find? (·.seq == f.seq) = some r from h]
    dsimp only
    rw [hr]
    rfl
  · rw [hb] at hq
    have h' := (List.mem_filter.1 hq).2
    exact of_decide_eq_true h'

end

/-- A code of no command. -/
theorem unknownCommand_counts (hg : Good s f) (hc : f.cmd ∉ ([1, 2, 3, 4, 5, 6, 7, 0x10, 0x11, 0x12, 0x20] : List Byte))
    (hv : (if s.air.tstate ≠ 0 ∧ toMe (rx s) f = true then airReplyTo (rx s) f St.cmdUnknown [] else rx s) = v) :
    Leaves (.unknownCommand f) s v :=
  leaves_of_eq rfl ((if_neg hc).trans ((airRx_good hg rfl).trans hv))

/-! ## Entries for a ring of the device -/

/-- The state but for what an entry on a ring of the device changes. -/
def State.butRing (s : State) : State :=
  { s with mem := [], tags := [], checks := [], eras := [], ctxs := [], rings := [], stat := [], insts := [] }

theorem wrBytes_butRing (s : State) (a : Nat) (l : List Byte) : (wrBytes s a l).butRing = s.butRing := by
  induction l generalizing s a with
  | nil => rfl
  | cons b l ih => rw [wrBytes_cons, ih]; rfl

theorem wrWords_butRing (s : State) (a : Nat) (l : List TWord) : (wrWords s a l).butRing = s.butRing := by
  induction l generalizing s a with
  | nil => rfl
  | cons w l ih => rw [wrWords_cons, ih, State.wrWord]; exact wrBytes_butRing s a _

theorem breakResv_butRing (s : State) (a n : Nat) : (s.breakResv a n).butRing = s.butRing := by
  unfold State.breakResv
  split
  · rfl
  · refine foldl_leaves State.butRing (fun u p => ?_) _ _
    dsimp only
    split <;> rfl

theorem newCheck_butRing (s : State) (a : Nat) : (s.newCheck a).butRing = s.butRing := by
  unfold State.newCheck State.claim
  split <;> rfl

theorem ringIrq_butRing (s : State) (r : Nat) : (ringIrq s r).butRing = s.butRing := by
  unfold ringIrq
  dsimp only
  split <;> rfl

/-- The slots of an entry, as they are written. -/
theorem ringSlots_butRing (g : Nat → Nat) (w : Nat → List TWord) (l : List Nat) (s : State) :
    (l.foldl (fun s k => ((wrWords s (g k) (w k)).breakResv (g k) 64).newCheck (g k)) s).butRing = s.butRing :=
  foldl_leaves (f := fun s k => ((wrWords s (g k) (w k)).breakResv (g k) 64).newCheck (g k)) State.butRing
    (fun u k => by rw [newCheck_butRing, breakResv_butRing, wrWords_butRing]) l s

theorem ringPut_butRing {r : Nat} (hh : (s.ring r).inHost = false) (ho : (s.ring r).outbound = false) (p : Payload) (n : Nat) :
    (ringPut s r p n).butRing = s.butRing := by
  have hslots := ringSlots_butRing (fun k => (s.ring r).slotAddr ((s.ring r).tail + BitVec.ofNat 32 k))
    (fun k => (p.words.drop (8 * k)).take 8) (List.range n) s
  unfold ringPut
  simp only [hh, ho, Bool.false_eq_true, if_false]
  split
  · rw [ringIrq_butRing]
    exact hslots
  · exact hslots

/-- An entry for a ring of the device reaches the ring, memory and the waiting contexts alone. -/
theorem postRing_butRing (s : State) (r : Nat) (p : Payload) : (postRing s r p).2.butRing = s.butRing := by
  unfold postRing
  dsimp only
  split
  · rfl
  rename_i h
  simp only [not_or] at h
  obtain ⟨-, -, ho, hh, -⟩ := h
  split
  · rfl
  · exact ringPut_butRing (Bool.eq_false_iff.2 hh) (Bool.eq_false_iff.2 ho) p _

theorem airPost_butRing (s : State) (n : Nat) (p : Payload) : (airPost s n p).butRing = s.butRing := by
  unfold airPost
  split
  · exact postRing_butRing s _ p
  · rfl

theorem airPost_air (s : State) (n : Nat) (p : Payload) : (airPost s n p).air = s.air := by
  have h := congrArg State.air (airPost_butRing s n p)
  exact h

theorem airPost_outbox (s : State) (n : Nat) (p : Payload) : (airPost s n p).outbox = s.outbox := by
  have h := congrArg State.outbox (airPost_butRing s n p)
  exact h

/-! ## APP (R181) -/

theorem airBinding_rx {n : Nat} (h : n ≤ 15) (s : State) (q : Byte) : airBinding (sameSeq (rx s) q) n = airBinding s n := by
  obtain ⟨x, hx, hreg⟩ := counted_rx s
  have hr : (sameSeq (rx s) q).reg (Reg.AIR_BIND + 4 * n) = s.reg (Reg.AIR_BIND + 4 * n) := by
    refine hreg _ ?_
    simp only [Reg.AIR_BIND]
    omega
  rw [airBinding, airBinding, hr]

section
variable (hf : Clear s f) (hc : f.cmd = 0x20) (h2 : s.air.tstate = 2)
include hf hc h2

theorem airApp_denied (h : 15 < getLe f.payload 0 1 ∨ airBinding s (getLe f.payload 0 1) = none) :
    Answers (.airApp f) s f St.accessDenied [] fun _ => True := by
  refine answers_of_put (bs := f.flags.getLsbD 1) (fresh_rxSeq s f.seq)
    (frame_leaves hf.mine.good rfl hc ((if_pos ⟨h2, toMe_rx hf.mine⟩).trans ?_)) fun _ _ => trivial
  dsimp only
  rw [hf.unsealed, if_neg (show ¬ false = true by decide)]
  refine if_pos ?_
  by_cases h15 : 15 < getLe f.payload 0 1
  · exact .inl h15
  · refine .inr ?_
    rw [airBinding_rx (Nat.not_lt.1 h15), h.resolve_left h15]
    rfl

theorem airApp_posts {b : Nat × Nat × Nat} (h15 : getLe f.payload 0 1 ≤ 15) (hb : airBinding s (getLe f.payload 0 1) = some b) :
    ∃ t, Leaves (.airApp f) s t ∧
      { b := getLe f.payload 0 1, seq := f.seq, bs := f.flags.getLsbD 1 } ∈ t.air.apps ∧ t.outbox = s.outbox := by
  let u : State := { sameSeq (rx s) f.seq with air := { (sameSeq (rx s) f.seq).air with
    apps := (sameSeq (rx s) f.seq).air.apps ++ [{ b := getLe f.payload 0 1, seq := f.seq, bs := f.flags.getLsbD 1 }] } }
  let p := airEntry u u.air.reader f.cmd f.flags f.seq 0 f.rssi f.payload
  refine ⟨airPost u (getLe f.payload 0 1) p, frame_leaves hf.mine.good rfl hc ((if_pos ⟨h2, toMe_rx hf.mine⟩).trans ?_), ?_, airPost_outbox _ _ _⟩
  · dsimp only
    rw [hf.unsealed, if_neg (show ¬ false = true by decide)]
    refine if_neg ?_
    rintro (h | h)
    · omega
    · rw [airBinding_rx h15, hb] at h
      exact Bool.noConfusion h
  · rw [airPost_air]
    exact List.mem_append_right _ (List.mem_singleton.2 rfl)

end

theorem answersOtherwise : AnswersOtherwise := by
  intro s f a x off n ans
  refine ⟨fun hf h2 => ⟨fun hc => ⟨fun hr => serve_starting hf rfl hc h2 (.inl rfl) hr, fun hr => ⟨fun h => ?_, fun ha hs => ⟨fun h => ?_, fun h h' => ?_⟩⟩⟩,
    fun hc h => airApp_denied hf hc h2 h, fun hc hp h => getResult_none hf hc h2 hp h⟩, fun hg hc h0 => ?_, fun hc => leaves_of_eq rfl (if_pos hc)⟩
  · exact airRead_fails hf hc h2 hr (airReadNow_absent h) (by decide)
  · refine airRead_fails hf hc h2 hr (airReadNow_denied ha hs fun hm => ?_) (by decide)
    rcases (accessMet_clear _ _ _).1 hm with h0 | ⟨h1, hu⟩
    · rcases h with ⟨h, -⟩ | h
      · exact absurd (h.symm.trans h0) (by decide)
      · exact absurd h (by rw [show x.read = 0 from h0]; decide)
    · rcases h with ⟨-, hn⟩ | h
      · exact hn hu
      · exact absurd h (by rw [show x.read = 1 from h1]; decide)
  · exact airRead_fails hf hc h2 hr (airReadNow_range ha hs ((accessMet_clear _ _ _).2 h) h') (by decide)
  · exact unknownCommand_counts hg hc (if_neg fun h => h.1 h0)

/-! ## Sealed frames (R171, R176, R184) -/

section
variable (hs : f.flags.getLsbD 0 = true)
include hs

theorem airOpen_unbound (hk : boundKey u u.air.reader = none) : airOpen u f = (some none, u) := by
  unfold airOpen
  rw [if_neg (not_not.2 hs), hk]

theorem airOpen_bound {k : KeyRef} {key : List Byte} {n : Nat} {e : Bool} (hk : boundKey u u.air.reader = some (k, key))
    (hn : airCounter u k = (some n, e, v)) :
    airOpen u f = (some ((airUnseal key (downHeader f f.payload.length) f.payload).map fun p => (p, some k)), v) := by
  unfold airOpen
  rw [if_neg (not_not.2 hs), hk]
  dsimp only
  rw [hn]

end

/-- A frame that does not open. -/
theorem airService_denied (hr : u.kpr.replayDone = true) (ho : airOpen u f = (some none, v)) :
    airService u { f := f } = airResult v false true false ⟨f.seq, St.accessDenied, [], none, f.flags.getLsbD 1⟩ := by
  unfold airService
  dsimp only
  rw [if_neg fun h => h.2 hr, ho]

/-- A frame that opens. -/
theorem airService_opened {p : List Byte} {ref : Option KeyRef} (hr : u.kpr.replayDone = true)
    (ho : airOpen u f = (some (some (p, ref)), v)) :
    airService u { f := f } = if f.cmd.toNat < 0x10 then airLinkCmd v f p ref else airServe v { f := f } p ref := by
  unfold airService
  dsimp only
  rw [if_neg fun h => h.2 hr, ho]

/-- The rows that an Active tag serves for itself. -/
theorem servedRows (f : AirFrame) : ∀ p ∈ ([(.airDeselect f, 0x04), (.airHalt f, 0x05), (.airPing f, 0x07), (.airRead f, 0x10),
    (.airWrite f, 0x11), (.airPwd f, 0x12)] : List (Instr × Byte)),
    ∃ l, 2 ∈ l ∧ ∀ s, exec p.1 s = done s (airServed s f p.2 l) := by
  simp only [List.forall_mem_cons]
  exact ⟨⟨[2], by decide, fun _ => rfl⟩, ⟨[1, 2], by decide, fun _ => rfl⟩, ⟨[1, 2], by decide, fun _ => rfl⟩,
    ⟨[2], by decide, fun _ => rfl⟩, ⟨[2], by decide, fun _ => rfl⟩, ⟨[2], by decide, fun _ => rfl⟩,
    fun _ h => absurd h List.not_mem_nil⟩

theorem sealedFrames : SealedFrames := by
  intro s f hf hs
  refine ⟨fun hc h1 => ?_, ?_⟩
  · exact answers_of_put (bs := f.flags.getLsbD 1) (fresh_rx s)
      (frame_leaves hf.good rfl hc ((if_pos ⟨h1, toMe_rx hf⟩).trans (if_pos hs))) fun _ _ => trivial
  · intro h2 p hp hc hr v
    obtain ⟨l, hl, hi⟩ := servedRows f p hp
    have hrun : ∀ w, airService v { f := f } = w → Leaves p.1 s w := fun w hw =>
      served_leaves hf (hi s) hc (by rw [h2]; exact hl) hw
    refine ⟨fun hk => ?_, fun k key n e u hk hn => ⟨fun d hd => ?_, fun hd => ?_⟩⟩
    · exact answers_of_put (bs := f.flags.getLsbD 1) (fresh_rxSeq s f.seq)
        (hrun _ (airService_denied hr (airOpen_unbound hs hk))) fun _ _ => trivial
    · have ho := airOpen_bound hs hk hn
      rw [hd] at ho
      exact hrun _ (airService_opened hr ho)
    · have ho := airOpen_bound hs hk hn
      rw [hd] at ho
      exact hrun _ (airService_denied hr ho)

/-- Settles O44: what an Active tag answers. That a sealed SELECT is answered ACCESS_DENIED, and the order of the answers, is
log entry 60 (DEDUCED); which frames the device itself opens is log entry 120 (DEDUCED). -/
theorem airAnswers : Obligations.AirAnswers := by
  refine ⟨fun s f hf => ?_, answersOtherwise, sealedFrames⟩
  intro a x off n
  refine ⟨airPing_answers hf, fun h2 => ⟨fun hc hr ha hs hm h1 h248 => ?_, fun hc ha b hb => airApp_posts hf hc h2 ha hb,
    fun hc hp r hr href => getResult_kept hf hc h2 hp hr href⟩, fun hc h0 => ?_⟩
  · exact airRead_reads hf hc h2 hr (airReadNow_ok ha hs ((accessMet_clear _ _ _).2 hm) h1 h248)
  · exact answers_of_put (bs := f.flags.getLsbD 1) (fresh_rx s)
      (unknownCommand_counts hf.mine.good hc (if_pos ⟨h0, toMe_rx hf.mine⟩)) fun _ _ => trivial

end Sys2Proof.Machine
end

section
/-! SUPPORT. The writes of the field (R195, R197, R201-R209, R211). -/

open Sys2Proof.Say

namespace Sys2Proof.Machine

variable {s t u v : State} {f : AirFrame} {c : Instr} {code : Byte} {o : FieldOp} {a : Nat}

/-! ## Tables by key -/

theorem find_sput_self {α : Type} (k : Nat) (x : α) (m : List (Nat × α)) : (sput k x m).find? (·.1 == k) = some (k, x) := by
  induction m with
  | nil => rw [sput, List.find?_cons, beq_self_eq_true]
  | cons p m ih =>
    obtain ⟨j, w⟩ := p
    rw [sput]
    split
    · rename_i h
      rw [List.find?_cons, beq_eq_false_iff_ne.2 (Nat.ne_of_lt h)]
      exact ih
    · split
      · rw [List.find?_cons, beq_self_eq_true]
      · rw [List.find?_cons, beq_self_eq_true]

theorem find_sdel_self {α : Type} (k : Nat) (m : List (Nat × α)) : (sdel k m).find? (·.1 == k) = none := by
  induction m with
  | nil => rfl
  | cons p m ih =>
    obtain ⟨j, w⟩ := p
    rw [sdel]
    split
    · exact ih
    · rename_i h
      rw [List.find?_cons, beq_eq_false_iff_ne.2 h]
      exact ih

theorem lockOf_takeLock (s : State) (a : Nat) (h : LockHolder) : lockOf (takeLock s a h) a = some h :=
  congrArg (·.map fun q : Nat × LockHolder => q.2) (find_sput_self a h s.air.locks)

theorem lockOf_dropLock (s : State) (a : Nat) : lockOf (dropLock s a) a = none :=
  congrArg (·.map fun q : Nat × LockHolder => q.2) (find_sdel_self a s.air.locks)

/-! ## Dwell (R199-R201) -/

/-- The gate of R201 knows of the link the samples and the form of the transmitter alone. -/
theorem dwellShort_air {x : Air} (hs : x.samples = s.air.samples) (ht : x.txfail = s.air.txfail) (b : Bool) (n : Nat) (m : Bool) :
    dwellShort { s with air := x } b n m = dwellShort s b n m := by
  have hd : dwellUs { s with air := x } = dwellUs s := by
    unfold dwellUs
    dsimp only
    rw [hs]
    rfl
  have hb : backscatter { s with air := x } b = backscatter s b := by
    unfold backscatter
    dsimp only
    rw [ht]
    rfl
  unfold dwellShort replyTime
  rw [hd, hb]
  rfl

/-! ## A command of the field as it begins -/

/-- The command with its dwell known and its turn at the area begun. -/
def opBegun (s : State) (o : FieldOp) : State := setOp { s with air := { s.air with dwell := dwellUs s } } { o with stage := 1 }

/-- The command, as it joins those of the field. -/
def opJoined (s : State) (o : FieldOp) : State :=
  { s with air := { s.air with ops := s.air.ops ++ [{ o with id := s.air.nextOp }], nextOp := s.air.nextOp + 1 } }

theorem opStart_waits (h : fieldMay s o.area = false) : opStart s o = opJoined s o :=
  if_neg fun h' => Bool.noConfusion (h.symm.trans h')

theorem opStart_goes (h : fieldMay s o.area = true) :
    opStart s o = opGo (takeLock (opJoined s o) o.area .field) { o with id := s.air.nextOp } := if_pos h

/-- Data of a reply in clear to a command, in bytes. -/
def opLen (o : FieldOp) : Nat := (if o.pwd then 1 else 8) + if o.ref.isSome then 28 else 0

theorem opGo_eq (s : State) (o : FieldOp) : opGo s o =
    if dwellShort (opBegun s o) o.bs (opLen o) (!o.pwd && shadowMode s) then opEnd (opBegun s o) o St.dwellShort []
    else if o.pwd ∧ (s.area o.area).limit ≤ (s.area o.area).attempts then opEnd (opBegun s o) o St.pwLocked [0]
    else if o.pwd then
      (opBegun s o).behalfCommit (s.area o.area).owner [.pwAttempt (BitVec.ofNat 64 o.area) 0] (.pwIncr o.area)
    else if o.expected ≠ 0 ∧ o.expected ≠ (s.area o.area).newest.1 then opEnd (opBegun s o) o St.versionConflict []
    else if !o.pwd && shadowMode s then
      (setOp (opBegun s o) { o with stage := 3 }).setArea o.area ((s.area o.area).putShadow fun h => { h with valid := false })
    else
      (opBegun s o).behalfCommit (s.area o.area).owner
        [.area (BitVec.ofNat 64 o.area) (BitVec.ofNat 64 (s.area o.area).newest.1)
          ⟨(s.area o.area).size, overlay (s.area o.area).newest.2 o.offset o.data⟩] (.areaWrite o.area) := rfl

theorem opBegun_dwell (s : State) (o : FieldOp) (b : Bool) (n : Nat) (m : Bool) :
    dwellShort (opBegun s o) b n m = dwellShort s b n m := dwellShort_air rfl rfl b n m

theorem opGo_short (h : dwellShort s o.bs (opLen o) (!o.pwd && shadowMode s) = true) :
    opGo s o = opEnd (opBegun s o) o St.dwellShort [] := by
  rw [opGo_eq, opBegun_dwell, h]
  rfl

theorem opGo_pwd (hp : o.pwd = true) (hd : dwellShort s o.bs (opLen o) false = false)
    (hl : (s.area o.area).attempts < (s.area o.area).limit) : opGo s o =
      (opBegun s o).behalfCommit (s.area o.area).owner [.pwAttempt (BitVec.ofNat 64 o.area) 0] (.pwIncr o.area) := by
  rw [opGo_eq, opBegun_dwell, hp, Bool.not_true, Bool.false_and, hd, if_neg (by decide), if_neg fun h => absurd h.2 (Nat.not_le.2 hl),
    if_pos rfl]

section
variable (hp : o.pwd = false) (hd : dwellShort s o.bs (opLen o) (shadowMode s) = false)
include hp hd

theorem opGo_conflict (h0 : o.expected ≠ 0) (hv : o.expected ≠ (s.area o.area).newest.1) :
    opGo s o = opEnd (opBegun s o) o St.versionConflict [] := by
  rw [opGo_eq, opBegun_dwell, hp, Bool.not_false, Bool.true_and, hd, if_neg (by decide), if_neg fun h => Bool.noConfusion h.1,
    if_neg (by decide), if_pos ⟨h0, hv⟩]

variable (hv : o.expected = 0 ∨ o.expected = (s.area o.area).newest.1)
include hv

theorem opGo_shadow (hs : shadowMode s = true) : opGo s o = (setOp (opBegun s o) { o with stage := 3 }).setArea o.area
    ((s.area o.area).putShadow fun h => { h with valid := false }) := by
  rw [opGo_eq, opBegun_dwell, hp, Bool.not_false, Bool.true_and, hd, if_neg (by decide), if_neg fun h => Bool.noConfusion h.1,
    if_neg (by decide), if_neg fun h => hv.elim h.1 h.2, if_pos hs]

theorem opGo_commit (hs : shadowMode s = false) : opGo s o = (opBegun s o).behalfCommit (s.area o.area).owner
    [.area (BitVec.ofNat 64 o.area) (BitVec.ofNat 64 (s.area o.area).newest.1)
      ⟨(s.area o.area).size, overlay (s.area o.area).newest.2 o.offset o.data⟩] (.areaWrite o.area) := by
  rw [opGo_eq, opBegun_dwell, hp, Bool.not_false, Bool.true_and, hd, if_neg (by decide), if_neg fun h => Bool.noConfusion h.1,
    if_neg (by decide), if_neg fun h => hv.elim h.1 h.2, if_neg (by rw [hs]; decide)]

end

/-! ## Shadows (R196, R203) -/

/-- The newest valid shadow stands in the slot that is not written next. -/
theorem putShadow_slot (x : Area) (g : ShadowSlot → ShadowSlot) :
    (x.newestShadow = some (x.sh0, false) ∧ x.sh0.valid = true ∧ x.putShadow g = { x with sh1 := g x.sh1 }) ∨
      (x.newestShadow = some (x.sh1, true) ∧ x.sh1.valid = true ∧ x.putShadow g = { x with sh0 := g x.sh0 }) ∨
      (x.newestShadow = none ∧ x.sh1.valid = false ∧ x.putShadow g = { x with sh0 := g x.sh0 }) := by
  have h : x.newestShadow = some (x.sh0, false) ∧ x.sh0.valid = true ∨ x.newestShadow = some (x.sh1, true) ∧ x.sh1.valid = true ∨
      x.newestShadow = none ∧ x.sh1.valid = false := by
    unfold Area.newestShadow
    by_cases h0 : x.sh0.valid = true
    · by_cases h1 : x.sh1.valid = true
      · rw [if_pos ⟨h0, h1⟩]
        split
        · exact .inr (.inl ⟨rfl, h1⟩)
        · exact .inl ⟨rfl, h0⟩
      · rw [if_neg fun h => h1 h.2, if_pos h0]
        exact .inl ⟨rfl, h0⟩
    · rw [if_neg fun h => h0 h.1, if_neg h0]
      by_cases h1 : x.sh1.valid = true
      · exact .inr (.inl ⟨if_pos h1, h1⟩)
      · exact .inr (.inr ⟨if_neg h1, Bool.eq_false_iff.2 h1⟩)
  unfold Area.putShadow
  rcases h with ⟨h, hv⟩ | ⟨h, hv⟩ | ⟨h, hv⟩
  · exact .inl ⟨h, hv, by rw [h]⟩
  · exact .inr (.inl ⟨h, hv, by rw [h]⟩)
  · exact .inr (.inr ⟨h, hv, by rw [h]⟩)

theorem newest_some {x : Area} {h : ShadowSlot} {b : Bool} (hn : x.newestShadow = some (h, b)) :
    x.newest = if x.version < h.version then (h.version, h.content) else (x.version, x.content) := by
  unfold Area.newest Area.shadow
  rw [hn]
  dsimp only
  by_cases hv : x.version < h.version
  · rw [if_pos hv, if_pos hv]
  · rw [if_neg hv, if_neg hv]

theorem newest_none {x : Area} (hn : x.newestShadow = none) : x.newest = (x.version, x.content) := by
  unfold Area.newest Area.shadow
  rw [hn]

/-- The version that is visible is that of the area at least, and that of its newest shadow. -/
theorem newest_least (x : Area) : x.version ≤ x.newest.1 ∧ ∀ h b, x.newestShadow = some (h, b) → h.version ≤ x.newest.1 := by
  cases hn : x.newestShadow with
  | none =>
    rw [newest_none hn]
    exact ⟨Nat.le_refl _, fun _ _ h => nomatch h⟩
  | some p =>
    obtain ⟨h, b⟩ := p
    rw [newest_some hn]
    refine ⟨?_, fun h' b' he => ?_⟩
    · split
      · exact Nat.le_of_lt ‹_›
      · exact Nat.le_refl _
    · obtain ⟨rfl, rfl⟩ := Prod.mk.inj (Option.some.inj he)
      split
      · exact Nat.le_refl _
      · exact Nat.not_lt.1 ‹_›

/-- A shadow that is begun, with its slot no longer valid, does not change what is visible (R203 step 1). -/
theorem newest_invalidated (x : Area) : (x.putShadow fun h => { h with valid := false }).newest = x.newest := by
  rcases putShadow_slot x fun h => { h with valid := false } with ⟨hn, hv, hp⟩ | ⟨hn, hv, hp⟩ | ⟨hn, hv, hp⟩
  · rw [hp, newest_some hn]
    refine newest_some (b := false) ?_
    unfold Area.newestShadow
    rw [if_neg (by simp), if_pos hv]
  · rw [hp, newest_some hn]
    refine newest_some (b := true) ?_
    unfold Area.newestShadow
    rw [if_neg (by simp), if_neg (by simp), if_pos hv]
  · rw [hp, newest_none hn]
    refine newest_none ?_
    unfold Area.newestShadow
    rw [if_neg (by simp), if_neg (by simp), if_neg (by rw [hv]; decide)]

/-- A shadow that is written, with a version above all, is what is visible (R203 step 5). -/
theorem newest_written (x : Area) {k : Nat} (hk : x.newest.1 < k) (l : List TWord) :
    (x.putShadow fun _ => ⟨true, k, l⟩).newest = (k, l) := by
  obtain ⟨hver, hsh⟩ := newest_least x
  have hnew : ∀ y : Area, y.version = x.version → (∃ b, y.newestShadow = some (⟨true, k, l⟩, b)) → y.newest = (k, l) := by
    rintro y hy ⟨b, hb⟩
    rw [newest_some hb]
    exact if_pos (by rw [hy]; exact Nat.lt_of_le_of_lt hver hk)
  rcases putShadow_slot x fun _ => ⟨true, k, l⟩ with ⟨hn, hv, hp⟩ | ⟨hn, hv, hp⟩ | ⟨hn, hv, hp⟩
  · rw [hp]
    refine hnew _ rfl ⟨true, ?_⟩
    unfold Area.newestShadow
    rw [if_pos ⟨hv, rfl⟩, if_pos (Nat.lt_of_le_of_lt (hsh _ _ hn) hk)]
  · rw [hp]
    refine hnew _ rfl ⟨false, ?_⟩
    unfold Area.newestShadow
    rw [if_pos ⟨rfl, hv⟩, if_neg (Nat.not_lt.2 (Nat.le_of_lt (Nat.lt_of_le_of_lt (hsh _ _ hn) hk)))]
  · rw [hp]
    refine hnew _ rfl ⟨false, ?_⟩
    unfold Area.newestShadow
    rw [if_neg fun h => Bool.noConfusion (hv.symm.trans h.2), if_pos rfl]

end Sys2Proof.Machine
end

section
/-! SUPPORT. WRITE and PWD of the field (R195-R211), and what ends them. -/

open Sys2Proof.Say

namespace Sys2Proof.Machine

variable {s t u v : State} {f : AirFrame} {c : Instr} {code : Byte} {o : FieldOp} {a : Nat}

/-! ## The commands of the field -/

/-- The command that a WRITE in clear asks for. -/
def writeOp (f : AirFrame) : FieldOp :=
  { seq := f.seq, pwd := false, ref := none, area := getLe f.payload 0 1, offset := getLe f.payload 1 2
    expected := getLe f.payload 3 8, data := f.payload.drop 11, bs := f.flags.getLsbD 1 }

/-- The command that a PWD in clear asks for. -/
def pwdOp (f : AirFrame) : FieldOp :=
  { seq := f.seq, pwd := true, ref := none, area := getLe f.payload 0 1, offset := 0, expected := 0
    data := slice f.payload 1 8, bs := f.flags.getLsbD 1 }

theorem airServe_write (hc : f.cmd = 0x11) : airServe u { f := f } f.payload none =
    if 63 < getLe f.payload 0 1 ∨ (u.area (getLe f.payload 0 1)).size = 0 then airPut u f.seq St.areaAbsent [] (f.flags.getLsbD 1)
    else if ¬ accessMet u (u.area (getLe f.payload 0 1)).write (getLe f.payload 0 1) false then
      airPut u f.seq St.accessDenied [] (f.flags.getLsbD 1)
    else if (u.area (getLe f.payload 0 1)).size < getLe f.payload 1 2 + (f.payload.drop 11).length then
      airPut u f.seq St.areaRange [] (f.flags.getLsbD 1)
    else opStart u (writeOp f) := by
  unfold airServe
  dsimp only
  rw [hc, if_neg (by decide), if_pos rfl]
  rfl

theorem airServe_pwd (hc : f.cmd = 0x12) : airServe u { f := f } f.payload none =
    if 63 < getLe f.payload 0 1 ∨ (u.area (getLe f.payload 0 1)).size = 0 then airPut u f.seq St.areaAbsent [] (f.flags.getLsbD 1)
    else if (u.area (getLe f.payload 0 1)).password = 0 then airPut u f.seq St.accessDenied [] (f.flags.getLsbD 1)
    else if (u.area (getLe f.payload 0 1)).limit ≤ (u.area (getLe f.payload 0 1)).attempts then
      airPut u f.seq St.pwLocked [0] (f.flags.getLsbD 1)
    else if ¬ (u.area (getLe f.payload 0 1)).openClear then airPut u f.seq St.pwClearRefused [] (f.flags.getLsbD 1)
    else opStart u (pwdOp f) := by
  unfold airServe
  dsimp only
  rw [hc, if_neg (by decide), if_neg (by decide), Option.isSome_none]
  simp only [Bool.false_eq_true, not_false_eq_true, true_and]
  rfl

/-! ## How a command begins and ends -/

theorem behalfCommit_eq (h : s.terminated = false) (n : Nat) (l : List Intent) (p : Purpose) :
    s.behalfCommit n l p = s.enqueue { id := 0, src := n, intents := l, purpose := p } := if_neg (by rw [h]; decide)

/-- The device once a command that ends is taken out, and its area's lock is free. -/
def opOut (s : State) (o : FieldOp) : State :=
  dropLock { s with air := { s.air with ops := s.air.ops.filter (·.id ≠ o.id) } } o.area

theorem opEnd_clear (hl : o.live = true) (hd : o.deferred = false) (hr : o.ref = none) (st : Word16) (p : List Byte) :
    opEnd s o st p = airPut (opOut s o) o.seq st p o.bs := by
  unfold opEnd airResult airSend
  rw [hl, hd, hr]
  rfl

theorem setOp_last {q : FieldOp} (h : s.air.ops.getLast? = some q) (hq : q.id = o.id) : (setOp s o).air.ops.getLast? = some o := by
  change (s.air.ops.map fun q => if q.id = o.id then o else q).getLast? = some o
  rw [List.getLast?_map, h]
  exact congrArg some (if_pos hq)

/-- The state in which a command of the field that may take its area's lock begins. -/
def opReady (s : State) (f : AirFrame) (o : FieldOp) : State :=
  takeLock (opJoined (sameSeq (rx s) f.seq) o) o.area .field

@[simp] theorem opReady_dur (s : State) (f : AirFrame) (o : FieldOp) : (opReady s f o).dur = s.dur := rfl
@[simp] theorem opReady_tdl (s : State) (f : AirFrame) (o : FieldOp) : (opReady s f o).tdl = s.tdl := rfl
@[simp] theorem opReady_kpr (s : State) (f : AirFrame) (o : FieldOp) : (opReady s f o).kpr = s.kpr := rfl
theorem opReady_ops (s : State) (f : AirFrame) (o : FieldOp) :
    (opReady s f o).air.ops.getLast? = some { o with id := s.air.nextOp } := List.getLast?_concat

theorem area_congr (h : u.dur = s.dur) (a : Nat) : u.area a = s.area a := by rw [State.area, State.area, h]

theorem dwellShort_sameSeq (s : State) (q : Byte) (b : Bool) (n : Nat) (m : Bool) :
    dwellShort (sameSeq s q) b n m = dwellShort s b n m := dwellShort_air rfl rfl b n m

theorem dwellShort_opJoined (s : State) (o : FieldOp) (b : Bool) (n : Nat) (m : Bool) :
    dwellShort (opJoined s o) b n m = dwellShort s b n m := dwellShort_air rfl rfl b n m

theorem dwellShort_takeLock (s : State) (a : Nat) (h : LockHolder) (b : Bool) (n : Nat) (m : Bool) :
    dwellShort (takeLock s a h) b n m = dwellShort s b n m := dwellShort_air rfl rfl b n m

theorem opReady_dwell (s : State) (f : AirFrame) (o : FieldOp) (b : Bool) (n : Nat) (m : Bool) :
    dwellShort (opReady s f o) b n m = dwellShort (rx s) b n m := by
  rw [opReady, dwellShort_takeLock, dwellShort_opJoined, dwellShort_sameSeq]

theorem fresh_opBegun (h : Fresh s u) (o : FieldOp) : Fresh s (opBegun u o) := ⟨h.1, h.2, h.3, h.4, h.5⟩
theorem fresh_opOut (h : Fresh s u) (o : FieldOp) : Fresh s (opOut u o) := ⟨h.1, h.2, h.3, h.4, h.5⟩
theorem fresh_takeJoined (h : Fresh s u) (o : FieldOp) (x : LockHolder) : Fresh s (takeLock (opJoined u o) o.area x) :=
  ⟨h.1, h.2, h.3, h.4, h.5⟩
theorem fresh_opReady (s : State) (f : AirFrame) (o : FieldOp) : Fresh s (opReady s f o) :=
  fresh_takeJoined (fresh_rxSeq s f.seq) o .field

theorem lockOf_opReady (s : State) (f : AirFrame) (o : FieldOp) : lockOf (opReady s f o) o.area = some .field :=
  lockOf_takeLock _ _ _

/-- A command that cannot go on once it has the lock. -/
theorem answers_ended {st : Word16} {p : List Byte} (hl : o.live = true) (hd : o.deferred = false) (hr : o.ref = none)
    (hu : Fresh s u) (hleaves : Leaves c s (opEnd u o st p)) (hq : o.seq = f.seq) : Answers c s f st p fun _ => True := by
  rw [opEnd_clear hl hd hr, hq] at hleaves
  exact answers_of_put (fresh_opOut hu o) hleaves fun _ _ => trivial

/-- A command that waits for its commit holds its area's lock. -/
theorem op_commits {n : Nat} {i : Intent} {p : Purpose} (ht : u.terminated = false) (hw : u.tdl.waiting = s.tdl.waiting)
    (hd : u.dur = s.dur) (hk : lockOf u a = some .field) (hl : Leaves c s ((opBegun u o).behalfCommit n [i] p)) :
    ∃ t q, Leaves c s t ∧ lockOf t a = some .field ∧ t.dur = s.dur ∧
      t.tdl.waiting = s.tdl.waiting ++ [q] ∧ q.src = n ∧ q.purpose = p ∧ q.intents = [i] := by
  rw [behalfCommit_eq (s := opBegun u o) ht] at hl
  exact ⟨_, _, hl, hk, hd, congrArg (· ++ [_]) hw, rfl, rfl, rfl⟩

/-! ## WRITE -/

section
variable (hf : Clear s f) (hc : f.cmd = 0x11) (h2 : s.air.tstate = 2)
include hf hc h2

theorem airWrite_leaves (hv : airServe (sameSeq (rx s) f.seq) { f := f } f.payload none = v) : Leaves (.airWrite f) s v :=
  serve_leaves hf rfl hc h2 (by decide) (.inl rfl) hv

theorem airWrite_answers {st : Word16}
    (hv : airServe (sameSeq (rx s) f.seq) { f := f } f.payload none = airPut (sameSeq (rx s) f.seq) f.seq st [] (f.flags.getLsbD 1)) :
    Answers (.airWrite f) s f st [] fun _ => True :=
  answers_of_put (fresh_rxSeq s f.seq) (airWrite_leaves hf hc h2 hv) fun _ _ => trivial

theorem airWrite_absent (h : 63 < getLe f.payload 0 1 ∨ (s.area (getLe f.payload 0 1)).size = 0) :
    Answers (.airWrite f) s f St.areaAbsent [] fun _ => True :=
  airWrite_answers hf hc h2 ((airServe_write hc).trans (if_pos h))

variable (ha : getLe f.payload 0 1 ≤ 63) (hs : (s.area (getLe f.payload 0 1)).size ≠ 0)
include ha hs

theorem airWrite_denied (h : 1 < (s.area (getLe f.payload 0 1)).write ∨
    ((s.area (getLe f.payload 0 1)).write = 1 ∧ getLe f.payload 0 1 ∉ s.air.unlocked)) :
    Answers (.airWrite f) s f St.accessDenied [] fun _ => True := by
  refine airWrite_answers hf hc h2 ((airServe_write hc).trans ((if_neg (airReadNow_there ha hs)).trans (if_pos fun hm => ?_)))
  rcases (accessMet_clear _ _ _).1 hm with h0 | ⟨h1, hu⟩
  · have h0' : (s.area (getLe f.payload 0 1)).write = 0 := h0
    omega
  · have h1' : (s.area (getLe f.payload 0 1)).write = 1 := h1
    rcases h with h | h
    · omega
    · exact h.2 hu

variable (hm : (s.area (getLe f.payload 0 1)).write = 0 ∨
  ((s.area (getLe f.payload 0 1)).write = 1 ∧ getLe f.payload 0 1 ∈ s.air.unlocked))
include hm

theorem airWrite_range (h : (s.area (getLe f.payload 0 1)).size < getLe f.payload 1 2 + (f.payload.drop 11).length) :
    Answers (.airWrite f) s f St.areaRange [] fun _ => True :=
  airWrite_answers hf hc h2 ((airServe_write hc).trans ((if_neg (airReadNow_there ha hs)).trans
    ((if_neg (not_not.2 ((accessMet_clear _ _ _).2 hm))).trans (if_pos h))))

variable (hr : getLe f.payload 1 2 + (f.payload.drop 11).length ≤ (s.area (getLe f.payload 0 1)).size)
include hr

theorem airWrite_starts (hv : opStart (sameSeq (rx s) f.seq) (writeOp f) = v) : Leaves (.airWrite f) s v :=
  airWrite_leaves hf hc h2 ((airServe_write hc).trans ((if_neg (airReadNow_there ha hs)).trans
    ((if_neg (not_not.2 ((accessMet_clear _ _ _).2 hm))).trans ((if_neg (Nat.not_lt.2 hr)).trans hv))))

theorem airWrite_waits (hk : fieldMay s (getLe f.payload 0 1) = false) : ∃ t o, Leaves (.airWrite f) s t ∧
    t.air.ops.getLast? = some o ∧ o.area = getLe f.payload 0 1 ∧ o.stage = 0 ∧ o.pwd = false ∧
      t.tdl = s.tdl ∧ t.dur = s.dur ∧ t.outbox = s.outbox :=
  ⟨_, _, airWrite_starts hf hc h2 ha hs hm hr (opStart_waits hk), List.getLast?_concat, rfl, rfl, rfl, rfl, rfl, rfl⟩

variable (hk : fieldMay s (getLe f.payload 0 1) = true)
include hk

theorem airWrite_goes (hv : opGo (opReady s f (writeOp f)) { writeOp f with id := s.air.nextOp } = v) : Leaves (.airWrite f) s v :=
  airWrite_starts hf hc h2 ha hs hm hr ((opStart_goes hk).trans hv)

theorem airWrite_short (hd : dwellShort (rx s) (f.flags.getLsbD 1) 8 (shadowMode s) = true) :
    Answers (.airWrite f) s f St.dwellShort [] fun _ => True := by
  have hgo := airWrite_goes hf hc h2 ha hs hm hr hk (opGo_short ((opReady_dwell s f (writeOp f) _ _ _).trans hd))
  exact answers_ended rfl rfl rfl (fresh_opBegun (fresh_opReady s f _) _) hgo rfl

variable (hd : dwellShort (rx s) (f.flags.getLsbD 1) 8 (shadowMode s) = false)
include hd

theorem airWrite_conflict (h0 : getLe f.payload 3 8 ≠ 0) (hv : getLe f.payload 3 8 ≠ (s.area (getLe f.payload 0 1)).newest.1) :
    Answers (.airWrite f) s f St.versionConflict [] fun _ => True := by
  have hgo := airWrite_goes hf hc h2 ha hs hm hr hk (opGo_conflict rfl ((opReady_dwell s f (writeOp f) _ _ _).trans hd) h0 hv)
  exact answers_ended rfl rfl rfl (fresh_opBegun (fresh_opReady s f _) _) hgo rfl

variable (hv : getLe f.payload 3 8 = 0 ∨ getLe f.payload 3 8 = (s.area (getLe f.payload 0 1)).newest.1)
include hv

theorem airWrite_commits (ht : s.terminated = false) (hsh : shadowMode s = false) :
    ∃ t q, Leaves (.airWrite f) s t ∧ lockOf t (getLe f.payload 0 1) = some .field ∧ t.dur = s.dur ∧
      t.tdl.waiting = s.tdl.waiting ++ [q] ∧ q.src = (s.area (getLe f.payload 0 1)).owner ∧
      q.purpose = .areaWrite (getLe f.payload 0 1) ∧ q.intents = [.area (BitVec.ofNat 64 (getLe f.payload 0 1))
        (BitVec.ofNat 64 (s.area (getLe f.payload 0 1)).newest.1) ⟨(s.area (getLe f.payload 0 1)).size,
          overlay (s.area (getLe f.payload 0 1)).newest.2 (getLe f.payload 1 2) (f.payload.drop 11)⟩] := by
  have hgo := opGo_commit (s := opReady s f (writeOp f)) (o := { writeOp f with id := s.air.nextOp }) rfl
    ((opReady_dwell s f (writeOp f) _ _ _).trans hd) hv hsh
  have hrun := airWrite_goes hf hc h2 ha hs hm hr hk hgo
  rw [area_congr (opReady_dur s f (writeOp f))] at hrun
  exact op_commits (by rw [State.terminated, opReady_kpr]; exact ht) (by rw [opReady_tdl]) (opReady_dur _ _ _)
    (lockOf_opReady s f (writeOp f)) hrun

theorem airWrite_shadows (hsh : shadowMode s = true) : ∃ t o, Leaves (.airWrite f) s t ∧
    lockOf t (getLe f.payload 0 1) = some .field ∧ t.tdl = s.tdl ∧ t.air.ops.getLast? = some o ∧
      o.area = getLe f.payload 0 1 ∧ o.stage = 3 ∧ o.offset = getLe f.payload 1 2 ∧ o.data = f.payload.drop 11 ∧
      (t.area (getLe f.payload 0 1)).newest = (s.area (getLe f.payload 0 1)).newest := by
  have hgo := opGo_shadow (s := opReady s f (writeOp f)) (o := { writeOp f with id := s.air.nextOp }) rfl
    ((opReady_dwell s f (writeOp f) _ _ _).trans hd) hv hsh
  have hrun := airWrite_goes hf hc h2 ha hs hm hr hk hgo
  clear hgo
  have hlast := opReady_ops s f (writeOp f)
  have hlock := lockOf_opReady s f (writeOp f)
  have htdl := opReady_tdl s f (writeOp f)
  have harea := area_congr (opReady_dur s f (writeOp f)) (getLe f.payload 0 1)
  generalize opReady s f (writeOp f) = w at *
  refine ⟨_, { writeOp f with id := s.air.nextOp, stage := 3 }, hrun, hlock, htdl, ?_, rfl, rfl, rfl, rfl, ?_⟩
  · exact setOp_last (s := opBegun w _) (setOp_last (o := { writeOp f with id := s.air.nextOp, stage := 1 }) hlast rfl) rfl
  · rw [← harea, ← newest_invalidated (w.area _)]
    exact congrArg Area.newest (sget_sset_self _ _ _ _)

end

/-! ## PWD -/

section
variable (hf : Clear s f) (hc : f.cmd = 0x12) (h2 : s.air.tstate = 2) (hr : s.kpr.replayDone = true)
include hf hc h2 hr

theorem airPwd_leaves (hv : airServe (sameSeq (rx s) f.seq) { f := f } f.payload none = v) : Leaves (.airPwd f) s v :=
  serve_leaves hf rfl hc h2 (by decide) (.inr hr) hv

theorem airPwd_answers {st : Word16} {p : List Byte}
    (hv : airServe (sameSeq (rx s) f.seq) { f := f } f.payload none = airPut (sameSeq (rx s) f.seq) f.seq st p (f.flags.getLsbD 1)) :
    Answers (.airPwd f) s f st p fun _ => True :=
  answers_of_put (fresh_rxSeq s f.seq) (airPwd_leaves hf hc h2 hr hv) fun _ _ => trivial

theorem airPwd_absent (h : 63 < getLe f.payload 0 1 ∨ (s.area (getLe f.payload 0 1)).size = 0) :
    Answers (.airPwd f) s f St.areaAbsent [] fun _ => True :=
  airPwd_answers hf hc h2 hr ((airServe_pwd hc).trans (if_pos h))

variable (ha : getLe f.payload 0 1 ≤ 63) (hs : (s.area (getLe f.payload 0 1)).size ≠ 0)
include ha hs

theorem airPwd_unset (h : (s.area (getLe f.payload 0 1)).password = 0) :
    Answers (.airPwd f) s f St.accessDenied [] fun _ => True :=
  airPwd_answers hf hc h2 hr ((airServe_pwd hc).trans ((if_neg (airReadNow_there ha hs)).trans (if_pos h)))

variable (hp : (s.area (getLe f.payload 0 1)).password ≠ 0)
include hp

theorem airPwd_locked (h : (s.area (getLe f.payload 0 1)).limit ≤ (s.area (getLe f.payload 0 1)).attempts) :
    Answers (.airPwd f) s f St.pwLocked [0] fun _ => True :=
  airPwd_answers hf hc h2 hr ((airServe_pwd hc).trans ((if_neg (airReadNow_there ha hs)).trans ((if_neg hp).trans (if_pos h))))

variable (hl : (s.area (getLe f.payload 0 1)).attempts < (s.area (getLe f.payload 0 1)).limit)
include hl

theorem airPwd_refused (h : (s.area (getLe f.payload 0 1)).openClear = false) :
    Answers (.airPwd f) s f St.pwClearRefused [] fun _ => True := by
  refine airPwd_answers hf hc h2 hr ((airServe_pwd hc).trans ((if_neg (airReadNow_there ha hs)).trans ((if_neg hp).trans
    ((if_neg (Nat.not_le.2 hl)).trans (if_pos fun h' => ?_)))))
  exact Bool.noConfusion (h.symm.trans h')

theorem airPwd_commits (h : (s.area (getLe f.payload 0 1)).openClear = true) (hk : fieldMay s (getLe f.payload 0 1) = true)
    (hd : dwellShort (rx s) (f.flags.getLsbD 1) 1 false = false) (ht : s.terminated = false) :
    ∃ t q, Leaves (.airPwd f) s t ∧ lockOf t (getLe f.payload 0 1) = some .field ∧ t.dur = s.dur ∧
      t.tdl.waiting = s.tdl.waiting ++ [q] ∧ q.src = (s.area (getLe f.payload 0 1)).owner ∧
      q.purpose = .pwIncr (getLe f.payload 0 1) ∧ q.intents = [.pwAttempt (BitVec.ofNat 64 (getLe f.payload 0 1)) 0] := by
  have hstart : Leaves (.airPwd f) s (opStart (sameSeq (rx s) f.seq) (pwdOp f)) :=
    airPwd_leaves hf hc h2 hr ((airServe_pwd hc).trans ((if_neg (airReadNow_there ha hs)).trans ((if_neg hp).trans
      ((if_neg (Nat.not_le.2 hl)).trans (if_neg (not_not.2 h))))))
  rw [opStart_goes (s := sameSeq (rx s) f.seq) (o := pwdOp f) hk] at hstart
  have hgo := opGo_pwd (s := opReady s f (pwdOp f)) (o := { pwdOp f with id := s.air.nextOp }) rfl
    ((opReady_dwell s f (pwdOp f) _ _ _).trans hd) (by rw [area_congr (opReady_dur s f (pwdOp f))]; exact hl)
  rw [area_congr (opReady_dur s f (pwdOp f))] at hgo
  exact op_commits (by rw [State.terminated, opReady_kpr]; exact ht) (by rw [opReady_tdl]) (opReady_dur _ _ _)
    (lockOf_opReady s f (pwdOp f)) (hgo ▸ hstart)

end

theorem airWritesRefused : AirWritesRefused := by
  intro s f hf h2 ht a x off ver d
  refine ⟨?_, ?_⟩
  · intro hc ans
    refine ⟨fun h => airWrite_absent hf hc h2 h, fun ha hs => ⟨fun h => airWrite_denied hf hc h2 ha hs h, fun hm =>
      ⟨fun hr => airWrite_range hf hc h2 ha hs hm hr, fun hr => ⟨fun hk => airWrite_waits hf hc h2 ha hs hm hr hk, fun hk => ?_⟩⟩⟩⟩
    exact ⟨fun hd => airWrite_short hf hc h2 ha hs hm hr hk hd,
      fun hd h0 hv => airWrite_conflict hf hc h2 ha hs hm hr hk hd h0 hv⟩
  · intro hc ans
    exact ⟨fun hr => serve_starting hf rfl hc h2 (.inr rfl) hr, fun hr => ⟨fun h => airPwd_absent hf hc h2 hr h,
      fun ha hs => ⟨fun h => airPwd_unset hf hc h2 hr ha hs h, fun hp => ⟨fun h => airPwd_locked hf hc h2 hr ha hs hp h,
        fun hl h => airPwd_refused hf hc h2 hr ha hs hp hl h⟩⟩⟩⟩

end Sys2Proof.Machine
end

section
/-! SUPPORT. What ends the commands of the field and of the applications (R179, R183, R203-R207, R211). -/

open Sys2Proof.Say

namespace Sys2Proof.Machine

variable {s t u v : State} {c : Instr} {o : FieldOp}

/-! ## One command of the field -/

section
variable (h : s.air.ops = [o]) (hl : o.live = true) (hd : o.deferred = false) (hr : o.ref = none)
include h hl hd hr

/-- The response window of the one command of the field ends (R179). -/
theorem windowExpiry_one (h2 : s.air.tstate = 2) : ∃ t, Leaves (.resultWindowExpiry o.seq) s t ∧
    Replied s t o.seq St.pending [] ∧ t.air.ops = [{ o with deferred := true }] := by
  have hfind : s.air.ops.find? (fun q => q.live && q.seq == o.seq && !q.deferred) = some o := by
    rw [h, List.find?_cons_of_pos]
    rw [hl, hd, beq_self_eq_true]
    rfl
  have hset : (setOp s { o with deferred := true }).air.ops = [{ o with deferred := true }] := by
    change s.air.ops.map (fun q => if q.id = o.id then { o with deferred := true } else q) = _
    rw [h, List.map_cons, List.map_nil, if_pos rfl]
  have hu : Fresh s (setOp s { o with deferred := true }) := ⟨rfl, rfl, rfl, rfl, rfl⟩
  generalize hw : setOp s { o with deferred := true } = w at *
  have hrun : windowExpiry s o.seq = airPut w o.seq St.pending [] o.bs := by
    unfold windowExpiry
    rw [hfind]
    dsimp only
    rw [hw, hr]
    rfl
  obtain ⟨-, -, b, hair⟩ := airPut_leaves hu o.seq St.pending [] o.bs
  refine ⟨_, leaves_of_eq rfl ((if_neg (not_not.2 h2)).trans hrun), replied_airPut hu _ _ _ _, ?_⟩
  rw [hair]
  exact hset

/-- The shadow of the one command of the field is written (R203). -/
theorem shadowDone_one (a : Fin 64) (ha : o.area = a.val) (h3 : o.stage = 3) : ∃ t, Leaves (.shadowWriteComplete a true) s t ∧
    Replied s t o.seq St.ok (leBytes 8 ((s.area a.val).newest.1 + 1)) ∧
      (t.area a.val).newest = ((s.area a.val).newest.1 + 1, overlay (s.area a.val).newest.2 o.offset o.data) ∧
      lockOf t a.val = none := by
  have hfind : s.air.ops.find? (fun q => q.area == a.val && q.stage == 3) = some o := by
    rw [h, List.find?_cons_of_pos]
    rw [ha, h3, beq_self_eq_true]
    rfl
  generalize hw : s.setArea a.val ((s.area a.val).putShadow fun _ =>
    ⟨true, (s.area a.val).newest.1 + 1, overlay (s.area a.val).newest.2 o.offset o.data⟩) = w
  have hrun : shadowDone s a.val true = airPut (opOut w o) o.seq St.ok (leBytes 8 ((s.area a.val).newest.1 + 1)) o.bs := by
    rw [← opEnd_clear hl hd hr, ← hw]
    unfold shadowDone
    rw [hfind]
    dsimp only
    rw [if_pos rfl, linkLost, if_pos hl]
  have harea : w.area a.val = (s.area a.val).putShadow fun _ =>
      ⟨true, (s.area a.val).newest.1 + 1, overlay (s.area a.val).newest.2 o.offset o.data⟩ := by
    rw [← hw]
    exact sget_sset_self _ _ _ _
  have hu : Fresh w (opOut w o) := ⟨rfl, rfl, rfl, rfl, rfl⟩
  have hlock : lockOf (opOut w o) o.area = none := lockOf_dropLock _ _
  have hbase : w.outbox = s.outbox ∧ tagId w = tagId s ∧ w.air = s.air := by
    rw [← hw]
    exact ⟨rfl, rfl, rfl⟩
  obtain ⟨-, hdur, b, hair⟩ := airPut_leaves hu o.seq St.ok (leBytes 8 ((s.area a.val).newest.1 + 1)) o.bs
  refine ⟨_, leaves_of_eq rfl hrun, ?_, ?_, ?_⟩
  · obtain ⟨b', hb⟩ := replied_airPut hu o.seq St.ok (leBytes 8 ((s.area a.val).newest.1 + 1)) o.bs
    obtain ⟨ho, ht, ha'⟩ := hbase
    exact ⟨b', by rw [hb, ho, ht, ha']⟩
  · rw [area_congr hdur, harea]
    exact newest_written _ (Nat.lt_succ_self _) _
  · rw [lockOf, hair, ← ha]
    exact hlock

end

/-- The one waiting PWD takes its area's lock (R211). -/
theorem areaLockGrant_one (h : s.air.ops = [o]) (hr : o.ref = none) (a : Fin 64) (ha : o.area = a.val) (h0 : o.stage = 0)
    (hp : o.pwd = true) (hk : fieldMay s a.val = true) (ht : s.terminated = false)
    (hlim : (s.area a.val).attempts < (s.area a.val).limit) (hd : dwellShort s o.bs 1 false = false) :
    ∃ t c, Leaves (.areaLockGrant a) s t ∧ lockOf t a.val = some .field ∧ t.tdl.waiting = s.tdl.waiting ++ [c] ∧
      c.purpose = .pwIncr a.val := by
  have hfind : s.air.ops.find? (fun q => q.area == a.val && q.stage == 0) = some o := by
    rw [h, List.find?_cons_of_pos]
    rw [ha, h0, beq_self_eq_true]
    rfl
  have hlen : opLen o = 1 := by rw [opLen, hp, hr]; rfl
  have hdw : dwellShort (takeLock s a.val .field) o.bs 1 false = false := (dwellShort_air rfl rfl _ _ _).trans hd
  have hlock := lockOf_takeLock s a.val .field
  have htdl : (takeLock s a.val .field).tdl = s.tdl := rfl
  have htm : (takeLock s a.val .field).terminated = false := ht
  have harea : (takeLock s a.val .field).area o.area = s.area a.val := by rw [ha, area_congr]; rfl
  have hrun : areaLockGrant s a.val = opGo (takeLock s a.val .field) o := by
    unfold areaLockGrant
    rw [hfind]
    exact if_pos hk
  generalize takeLock s a.val .field = w at *
  have hgo := opGo_pwd (s := w) hp (hlen ▸ hdw) (by rw [harea]; exact hlim)
  rw [behalfCommit_eq (s := opBegun w o) htm] at hgo
  refine ⟨_, _, leaves_of_eq rfl (hrun.trans hgo), hlock, congrArg (fun x : Tdl => x.waiting ++ [_]) htdl, ?_⟩
  exact congrArg Purpose.pwIncr ha

/-! ## Folds (R205) -/

theorem foldShadows_one {a : Nat} {x : Area} {h : ShadowSlot} (hm : s.mode = Mode.service) (hadm : s.admits = true)
    (ha : s.dur.areas = [(a, x)]) (hs : x.shadow = some h) (hf : a ∉ s.air.folds) (hk : lockOf s a = none) :
    ∃ t c, Leaves .foldShadows s t ∧ t.tdl.waiting = s.tdl.waiting ++ [c] ∧ c.src = x.owner ∧ c.purpose = .fold a ∧
      c.intents = [.fold a h.version h.content] ∧ lockOf t a = some .fold := by
  generalize hw : takeLock { s with air := { s.air with folds := s.air.folds ++ [a] } } a .fold = w
  have hlock : lockOf w a = some .fold := hw ▸ lockOf_takeLock _ _ _
  have htdl : w.tdl = s.tdl := by rw [← hw]; rfl
  have htm : w.terminated = false := by
    rw [← hw]
    exact terminated_service hm
  have hrun : foldShadows s = w.behalfCommit x.owner [.fold a h.version h.content] (.fold a) := by
    refine (if_neg ?_).trans ?_
    · rintro (h' | h')
      · exact h' hm
      · exact h' hadm
    · rw [ha, List.foldl_cons, List.foldl_nil]
      dsimp only
      rw [hs, ← hw]
      refine if_neg ?_
      rintro (h' | h')
      · exact hf h'
      · rw [hk] at h'
        exact Bool.noConfusion h'
  refine ⟨_, _, leaves_of_eq rfl (hrun.trans (behalfCommit_eq htm _ _ _)), congrArg (fun x : Tdl => x.waiting ++ [_]) htdl,
    rfl, rfl, rfl, hlock⟩

/-! ## The replies of an application (R183) -/

section
variable {b : Fin 16} {i r r' : Nat} (hb : airBinding s b.val = some (i, r, r')) (hr : readerRole s = false)
include hb hr

theorem appReply_empty (h : takeRing s r' = (none, u)) : appReply s b.val = u := by
  unfold appReply
  rw [hb]
  dsimp only
  rw [hr, if_neg (by decide), h]

theorem appReply_unknown {p : Payload} (h : takeRing s r' = (some p, u))
    (hn : u.air.apps.find? (fun a => a.b == b.val && a.seq == p.bytes.getD 0x0A 0) = none) :
    appReply s b.val = u.incReg Reg.AIR_DROPPED := by
  unfold appReply
  rw [hb]
  dsimp only
  rw [hr, if_neg (by decide), h]
  dsimp only
  rw [hn]

theorem appReply_answers {p : Payload} {a : AppCmd} (h : takeRing s r' = (some p, u)) (hp : p.poisoned = false)
    (hen : airEnabled u = true) (h2 : u.air.tstate = 2) (ha : u.air.apps = [a]) (hab : a.b = b.val)
    (hseq : a.seq = p.bytes.getD 0x0A 0) (hd : a.deferred = false) (hrd : getLe p.bytes 0 8 = u.air.reader.toNat) :
    ∃ t, Leaves (.appReply b) s t ∧ (Passes u → t.air.apps = [] ∧ Replied u t a.seq
      (BitVec.ofNat 16 (getLe p.bytes 0x0C 2)) (slice p.bytes 0x20 (min 256 (getLe p.bytes 0x0E 2)))) := by
  by_cases hpass : Passes u
  · generalize hw : ({ u with air := { u.air with apps := u.air.apps.filter (· ≠ a) }, freeCtr := u.freeCtr + 1 } : State) = w
    have hempty : w.air.apps = [] := by
      rw [← hw]
      change u.air.apps.filter (· ≠ a) = []
      rw [ha, List.filter_cons_of_neg (by simp), List.filter_nil]
    have hfresh : Fresh u w := by
      rw [← hw]
      exact ⟨rfl, rfl, rfl, rfl, rfl⟩
    have hfind : u.air.apps.find? (fun q => q.b == b.val && q.seq == p.bytes.getD 0x0A 0) = some a := by
      rw [ha, List.find?_cons_of_pos]
      rw [hab, hseq, beq_self_eq_true, beq_self_eq_true]
      rfl
    have he : egress { u with air := { u.air with apps := u.air.apps.filter (· ≠ a) } } 0x33 none = (true, w) := by
      rw [← hw]
      exact if_pos hpass
    have hrun : appReply s b.val = airPut w a.seq (BitVec.ofNat 16 (getLe p.bytes 0x0C 2))
        (slice p.bytes 0x20 (min 256 (getLe p.bytes 0x0E 2))) a.bs := by
      unfold appReply
      rw [hb]
      dsimp only
      rw [hr, if_neg (by decide), h]
      dsimp only
      rw [hfind]
      dsimp only
      rw [if_pos ⟨hen, h2, hrd⟩, hp, if_neg (by decide), he]
      dsimp only
      rw [hd, ← hseq]
      rfl
    obtain ⟨-, -, bs, hair⟩ := airPut_leaves hfresh a.seq (BitVec.ofNat 16 (getLe p.bytes 0x0C 2))
      (slice p.bytes 0x20 (min 256 (getLe p.bytes 0x0E 2))) a.bs
    refine ⟨_, leaves_of_eq rfl hrun, fun _ => ⟨?_, replied_airPut hfresh _ _ _ _⟩⟩
    rw [hair]
    exact hempty
  · exact ⟨_, leaves_of_eq rfl rfl, fun h' => absurd h' hpass⟩

end

theorem commandsWait : CommandsWait := by
  refine fun s => ⟨fun q h => leaves_of_eq rfl (if_pos h), fun a => ⟨fun b h => leaves_of_eq rfl ?_, fun h => leaves_of_eq rfl ?_⟩,
    fun h => leaves_of_eq rfl (if_pos ?_), fun b => ⟨fun h => leaves_of_eq rfl ?_, fun i r r' u hb hr =>
      ⟨fun h => leaves_of_eq rfl (appReply_empty hb hr h), fun p h hn => leaves_of_eq rfl (appReply_unknown hb hr h hn)⟩⟩⟩
  · rw [shadowDone, h]
  · unfold areaLockGrant
    split
    · rename_i o ho
      rcases h with h | h
      · rw [h] at ho
        exact nomatch ho
      · exact if_neg (by rw [h]; decide)
    · rfl
  · exact h.imp_right fun h' => by rw [h']; decide
  · unfold appReply
    split
    · rfl
    · rename_i q r hb
      rcases h with h | h
      · rw [h] at hb
        exact nomatch hb
      · exact if_pos h

/-- Settles O45: the writes of the field. That dwell is judged before the version, ACCESS_DENIED before PW_LOCKED, and that a
fold takes its area's lock, is log entry 60 (DEDUCED). -/
theorem airOperations : Obligations.AirOperations := by
  refine ⟨fun s f hf h2 ht => ?_, fun s o h hl hd hr => ⟨windowExpiry_one h hl hd hr, fun a ha => ⟨fun h3 => ?_,
    fun h0 hp hk ht hlim hdw => areaLockGrant_one h hr a ha h0 hp hk ht hlim hdw⟩⟩,
    fun s a x h hm hadm ha hs hf hk => foldShadows_one hm hadm ha hs hf hk,
    fun s u b i r r' p c hb hr hen h hp h2 ha hab hseq hd hrd => appReply_answers hb hr h hp hen h2 ha hab hseq hd hrd,
    airWritesRefused, commandsWait⟩
  · intro a x off ver d ha hs hk commits
    refine ⟨fun hc hm hr hd hv => ⟨fun hsh => airWrite_commits hf hc h2 ha hs hm hr hk hd hv ht hsh,
      fun hsh => airWrite_shadows hf hc h2 ha hs hm hr hk hd hv hsh⟩, fun hc hr hp hl ho hd => ?_⟩
    exact airPwd_commits hf hc h2 hr ha hs hp hl ho hk hd ht
  · exact shadowDone_one h hl hd hr a ha h3

end Sys2Proof.Machine
end

section
/-! SUPPORT. The control of the link, its signal, and the reader role (R163, R164, R181, R187, R191-R193, R199). -/

open Sys2Proof.Say

namespace Sys2Proof.Machine

variable {s t u v : State} {c : Instr}

/-! ## ENABLE -/

theorem airEnable_runs (hm : s.mode = Mode.workshop ∨ s.mode = Mode.service) (ok : Bool) :
    airEnable s ok = { s.setReg Reg.AIR_CTRL (s.reg Reg.AIR_CTRL ||| 1) with
      air := { s.air with roleLocked := true, txfail := if readerRole s then s.air.txfail else !ok } } := by
  have hrole : readerRole (s.setReg Reg.AIR_CTRL (s.reg Reg.AIR_CTRL ||| 1)) = readerRole s := by
    rw [readerRole, State.regBit, State.reg_setReg_self, BitVec.getLsbD_or]
    exact Bool.or_false _
  refine (if_neg fun h => hm.elim h.1 h.2).trans ?_
  rw [hrole]
  rfl

theorem airEnable_bit (hw : s.mode ≠ Mode.workshop) (hs : s.mode ≠ Mode.service) (ok : Bool) :
    airEnable s ok = s.setReg Reg.AIR_CTRL (s.reg Reg.AIR_CTRL ||| 1) := if_pos ⟨hw, hs⟩

theorem airDisable_off (s : State) :
    airEnabled (airDisable s) = false ∧ (airDisable s).air.tstate = 0 ∧ (airDisable s).air.bound = [] := by
  refine ⟨?_, rfl, rfl⟩
  have hbit : (airDisable s).regBit Reg.AIR_CTRL 0 = false := by
    change ((s.setReg Reg.AIR_CTRL (s.reg Reg.AIR_CTRL &&& ~~~1)).reg Reg.AIR_CTRL).getLsbD 0 = false
    rw [State.reg_setReg_self, BitVec.getLsbD_and]
    exact Bool.and_false _
  rw [airEnabled, hbit, Bool.false_and]

/-! ## The signal (R199) -/

/-- The last samples with one more. -/
def sampled (l : List Int) (x : Int) : List Int := (l ++ [x]).drop ((l ++ [x]).length - 16)

theorem sampled_length (l : List Int) (x : Int) : (sampled l x).length ≤ 16 := by
  rw [sampled, List.length_drop]
  omega

theorem sampled_last (l : List Int) (x : Int) : (sampled l x).getLast? = some x := by
  rw [sampled, List.getLast?_drop, if_neg, List.getLast?_concat]
  rw [List.length_append, List.length_singleton]
  omega

theorem sampled_few {l : List Int} (h : l.length < 15) (x : Int) : (sampled l x).length < 16 := by
  rw [sampled, List.length_drop, List.length_append, List.length_singleton]
  omega

theorem dwellUs_congr (h : u.air.samples = s.air.samples) (hf : u.reg Reg.AIR_FLOOR = s.reg Reg.AIR_FLOOR)
    (hc : u.reg Reg.AIR_DWELL_CAP = s.reg Reg.AIR_DWELL_CAP) : dwellUs u = dwellUs s := by
  unfold dwellUs floorCdb State.regFld
  rw [h, hf, hc]

theorem dwellUs_rssi (s : State) (v : Word32) : dwellUs (s.setReg Reg.AIR_RSSI v) = dwellUs s :=
  dwellUs_congr (s := s) rfl (State.reg_setReg_ne s v (show Reg.AIR_FLOOR ≠ Reg.AIR_RSSI by decide))
    (State.reg_setReg_ne s v (show Reg.AIR_DWELL_CAP ≠ Reg.AIR_RSSI by decide))

/-- The state once a sample is kept in Service, but for the register of the signal. -/
def heardSample (s : State) (x : Int) : State :=
  let u : State := { s with air := { s.air with field := decide (floorCdb s < x), samples := sampled s.air.samples x } }
  { u with air := { u.air with dwell := dwellUs u } }

theorem readerSignalSample_service (h : airEnabled s = true) (hr : readerRole s = false) (hm : s.mode = Mode.service) (x : Int) :
    ∃ t, Leaves (.readerSignalSample x) s t ∧ t.air.samples.length ≤ 16 ∧ t.air.samples.getLast? = some x ∧
      t.air.field = decide (floorCdb s < x) ∧ t.air.dwell = dwellUs t ∧ (s.air.samples.length < 15 → t.regs = s.regs) := by
  have hon : ¬ (¬ airEnabled s = true ∨ readerRole s = true) := fun h' => h'.elim (· h) fun h' => Bool.noConfusion (hr.symm.trans h')
  have hrun : ∃ v, Leaves (.readerSignalSample x) s (if (sampled s.air.samples x).length < 16 then heardSample s x
      else (heardSample s x).setReg Reg.AIR_RSSI v) := ⟨_, leaves_of_eq rfl ((if_neg hon).trans (if_neg (not_not.2 hm)))⟩
  obtain ⟨v, hl⟩ := hrun
  refine ⟨_, hl, ?_⟩
  by_cases h16 : (sampled s.air.samples x).length < 16
  · rw [if_pos h16]
    exact ⟨sampled_length _ _, sampled_last _ _, rfl, rfl, fun _ => rfl⟩
  · rw [if_neg h16]
    refine ⟨sampled_length _ _, sampled_last _ _, rfl, ?_, fun h15 => absurd (sampled_few h15 x) h16⟩
    exact (dwellUs_rssi (heardSample s x) v).symm

theorem linkStays : LinkStays := by
  refine fun s => ⟨fun ok => ⟨fun hk => ?_, fun hk hw hs => ?_⟩, fun hk => ?_, fun x => ⟨fun h => leaves_of_eq rfl (if_pos ?_),
    fun h hr hm => ?_⟩⟩
  · exact leaves_of_eq rfl (if_neg (by rw [hk]; decide))
  · exact leaves_of_eq rfl ((if_pos hk).trans (airEnable_bit hw hs ok))
  · exact leaves_of_eq rfl (if_neg (by rw [hk]; decide))
  · exact h.imp_left fun h' => by rw [h']; decide
  · refine leaves_of_eq rfl ((if_neg ?_).trans (if_pos hm))
    exact fun h' => h'.elim (· h) fun h' => Bool.noConfusion (hr.symm.trans h')

/-! ## The frames of a reader (R181) -/

theorem readerCommandSend_stays {b : Nat} (h : airBinding s b = none ∨ readerRole s = false ∨ airEnabled s = false ∨
    s.pwr.flush ≠ 0 ∨ (s.air.sent.any fun q => q.1 == b) = true) : readerCommandSend s b = s := by
  unfold readerCommandSend
  split
  · rfl
  · rename_i q r hb
    refine if_pos ?_
    rcases h with h | h | h | h | h
    · rw [h] at hb
      exact nomatch hb
    · exact .inl (by rw [h]; decide)
    · exact .inr (.inl (by rw [h]; decide))
    · exact .inr (.inr (.inl h))
    · exact .inr (.inr (.inr h))

/-- The frame that an entry in clear asks for. -/
def entryFrame (u : State) (p : Payload) : AirFrame :=
  { channel := readerChannel u, cmd := p.bytes.getD 8 0, flags := p.bytes.getD 9 0, dest := BitVec.ofNat 64 (getLe p.bytes 0 8)
    seq := p.bytes.getD 0x0A 0, payload := slice p.bytes 0x20 (min 256 (getLe p.bytes 0x0E 2)) }

theorem readerSend_clear {b r : Nat} {p : Payload} (hf : (s.rdByte ((s.ring r).slotAddr (s.ring r).head + 9)).getLsbD 0 = false)
    (ht : takeRing s r = (some p, u)) (hp : p.poisoned = false) (hpass : Passes u) :
    readerSend s b r = airCommand { u with freeCtr := u.freeCtr + 1 } b (entryFrame u p) none := by
  have he : egress u 0x33 none = (true, { u with freeCtr := u.freeCtr + 1 }) := if_pos hpass
  unfold readerSend
  dsimp only
  rw [hf, Bool.false_and, Bool.false_and, Bool.false_and, if_neg (by decide)]
  dsimp only
  rw [ht]
  dsimp only
  rw [hp, if_neg (by decide), he]
  rfl

theorem readerCommandSend_sends {b : Fin 16} {i : Nat} {r : Nat × Nat} {p : Payload} (hb : airBinding s b.val = some (i, r))
    (hr : readerRole s = true) (hen : airEnabled s = true) (hfl : s.pwr.flush = 0)
    (hs : (s.air.sent.any fun q => q.1 == b.val) = false) (ht : takeRing s r.2 = (some p, u)) (hp : p.poisoned = false)
    (hf : s.rdByte ((s.ring r.2).slotAddr (s.ring r.2).head + 9) &&& 1 = 0) :
    ∃ t f, Leaves (.readerCommandSend b) s t ∧ (Passes u → t.outbox = u.outbox ++ [.downlink f] ∧
      f.dest = BitVec.ofNat 64 (getLe p.bytes 0 8) ∧ f.cmd = p.bytes.getD 8 0 ∧ f.seq = p.bytes.getD 0x0A 0 ∧
      (b.val, { peer := f.dest, cmd := f.cmd, seq := f.seq }) ∈ t.air.sent ∧ t.mem = u.mem) := by
  have hbit : (s.rdByte ((s.ring r.2).slotAddr (s.ring r.2).head + 9)).getLsbD 0 = false := by
    have h0 := congrArg (fun x : Byte => x.getLsbD 0) hf
    rw [BitVec.getLsbD_and] at h0
    simpa using h0
  have hsend : readerCommandSend s b.val = readerSend s b.val r.2 := by
    unfold readerCommandSend
    rw [hb]
    refine if_neg ?_
    rintro (h | h | h | h)
    · exact h hr
    · exact h hen
    · exact h hfl
    · exact Bool.noConfusion (hs.symm.trans h)
  by_cases hpass : Passes u
  · refine ⟨_, entryFrame u p, leaves_of_eq rfl (hsend.trans (readerSend_clear hbit ht hp hpass)), fun _ =>
      ⟨rfl, rfl, rfl, rfl, mem_sput_self _ _ _, rfl⟩⟩
  · exact ⟨_, entryFrame u p, leaves_of_eq rfl rfl, fun h => absurd h hpass⟩

/-! ## Replies to a reader -/

theorem heard_leaves (s : State) (f : UplinkFrame) (k : Byte) (b : Bool) :
    (heard s f k b).air.sent = s.air.sent ∧ (heard s f k b).outbox = s.outbox := ⟨rfl, rfl⟩

/-- The reply that was awaited frees its binding. -/
theorem replyReceived_frees {b : Nat} {x : SentCmd} {f : UplinkFrame} (h : s.air.sent.find? (·.1 == b) = some (b, x))
    (hs : f.src = x.peer) (hq : f.seq = x.seq) :
    (replyReceived s b f).air.sent = sdel b s.air.sent ∧ (replyReceived s b f).outbox = s.outbox := by
  have hpost : ∀ (w : State) (p : Payload), w.air.sent = sdel b s.air.sent → w.outbox = s.outbox →
      (airPost w b p).air.sent = sdel b s.air.sent ∧ (airPost w b p).outbox = s.outbox := fun w p ha ho =>
    ⟨(congrArg Air.sent (airPost_air w b p)).trans ha, (airPost_outbox w b p).trans ho⟩
  unfold replyReceived
  rw [h]
  dsimp only
  rw [if_neg (by rw [hs, hq]; exact fun h => h.elim (· rfl) (· rfl))]
  split
  · split
    · exact hpost _ _ rfl rfl
    · exact hpost _ _ rfl rfl
  · exact hpost _ _ rfl rfl

theorem replyReceived_other {b : Nat} {x : SentCmd} {f : UplinkFrame} (h : s.air.sent.find? (·.1 == b) = some (b, x))
    (hf : f.src ≠ x.peer ∨ f.seq ≠ x.seq) : replyReceived s b f = s := by
  unfold replyReceived
  rw [h]
  exact if_pos hf

/-! ## The inventory (R187) -/

theorem inventoryRound_off (h : airEnabled s = false ∨ readerRole s = false ∨ s.air.waiting = true ∨
    s.regBit Reg.AIR_INV 16 = false) (r : IdentReply) (l : List UplinkFrame) : inventoryRound s r l = s := by
  refine if_pos ?_
  rcases h with h | h | h | h
  · exact .inl (by rw [h]; decide)
  · exact .inr (.inl (by rw [h]; decide))
  · exact .inr (.inr (.inl h))
  · exact .inr (.inr (.inr (by rw [h]; decide)))

section
variable (hen : airEnabled s = true) (hr : readerRole s = true) (hw : s.air.waiting = false) (hi : s.regBit Reg.AIR_INV 16 = true)
  {plen : Nat} {pre : Word64} {rest : List (Nat × Word64)} (hst : s.air.invStack = (plen, pre) :: rest) {r : IdentReply}
include hen hr hw hi

theorem inventory_on : ¬ (¬ airEnabled s = true ∨ ¬ readerRole s = true ∨ s.air.waiting = true ∨ ¬ s.regBit Reg.AIR_INV 16 = true) := by
  rintro (h | h | h | h)
  · exact h hen
  · exact h hr
  · exact Bool.noConfusion (hw.symm.trans h)
  · exact h hi

include hst

theorem inventoryRound_silent (hs : r.silent = true) (l : List UplinkFrame) :
    ∃ t f, Leaves (.inventoryRound r l) s t ∧ t.air.invStack = rest ∧ t.outbox = s.outbox ++ [.downlink f] ∧ f.cmd = 2 ∧
      f.payload = BitVec.ofNat 8 plen :: leBytes 8 pre.toNat := by
  have hrun : inventoryRound s r l = { airDown s { channel := readerChannel s, cmd := 0x02, flags := 0, dest := broadcast, seq := 0
                                                   payload := BitVec.ofNat 8 plen :: leBytes 8 pre.toNat } with
      air := { s.air with invStack := rest, retries := 0 } } := by
    unfold inventoryRound
    rw [if_neg (inventory_on hen hr hw hi), hst]
    dsimp only
    rw [if_neg (List.cons_ne_nil _ _)]
    exact if_pos hs
  exact ⟨_, _, leaves_of_eq rfl hrun, rfl, rfl, rfl, rfl⟩

theorem inventoryRound_splits (hs : r.silent = false) (l : List UplinkFrame) {c0 c1 : Fin 64} (hc : r.collided = [c0, c1]) :
    ∃ t, Leaves (.inventoryRound r l) s t ∧ t.air.invStack =
      (min c0.val c1.val + 1, r.id &&& ((1#64 <<< min c0.val c1.val) - 1)) ::
        (min c0.val c1.val + 1, (r.id &&& ((1#64 <<< min c0.val c1.val) - 1)) ||| (1#64 <<< min c0.val c1.val)) :: rest := by
  have hmin : (if c1.val < c0.val then c1 else c0).val = min c0.val c1.val := by
    split <;> omega
  have hrun : ∃ w : State, inventoryRound s r l = { w with air := { w.air with
      invStack := ((if c1.val < c0.val then c1 else c0).val + 1, r.id &&& ((1#64 <<< (if c1.val < c0.val then c1 else c0).val) - 1)) ::
        ((if c1.val < c0.val then c1 else c0).val + 1, (r.id &&& ((1#64 <<< (if c1.val < c0.val then c1 else c0).val) - 1)) |||
          (1#64 <<< (if c1.val < c0.val then c1 else c0).val)) :: rest
      retries := 0 } } := by
    unfold inventoryRound
    rw [if_neg (inventory_on hen hr hw hi), hst]
    dsimp only
    rw [if_neg (List.cons_ne_nil _ _)]
    dsimp only
    rw [hs, if_neg (by decide), hc]
    exact ⟨_, rfl⟩
  obtain ⟨w, hw'⟩ := hrun
  refine ⟨_, leaves_of_eq rfl hw', ?_⟩
  rw [← hmin]

end

/-! ## Wait mode (R192, R193) -/

theorem waitRuns_on (h : airEnabled s = true) : waitRuns s = true := by rw [waitRuns, h, Bool.true_or]

theorem waitProbe_first (hw : s.air.waiting = true) (hen : airEnabled s = true) (hr : readerRole s = true)
    (hp : s.air.probes = []) (x : Nat) : Leaves (.waitProbe x false) s
      (({ s with outbox := s.outbox ++ [.probe (s.regFld Reg.AIR_CTRL 8 2)]
                 air := { s.air with probes := [x] } } : State).setReg Reg.AIR_WAITBASE (BitVec.ofNat 32 (x % 65536))) := by
  have hon : ¬ (¬ s.air.waiting = true ∨ ¬ waitRuns s = true ∨ ¬ readerRole s = true) := by
    rintro (h | h | h)
    · exact h hw
    · exact h (waitRuns_on hen)
    · exact h hr
  refine leaves_of_eq rfl ((if_neg hon).trans ((if_neg (by decide)).trans ((if_neg ?_).trans ?_)))
  · dsimp only
    rw [hp]
    exact fun h => nomatch h
  · dsimp only
    rw [hp]
    change State.setReg _ _ (BitVec.ofNat 32 ((x + 0) / 1 % 65536)) = _
    rw [Nat.add_zero, Nat.div_one]
    rfl

theorem readerWaits : ReaderWaits := by
  intro s b
  refine ⟨fun h => leaves_of_eq rfl (readerCommandSend_stays h), fun h => ⟨fun f => leaves_of_eq rfl ?_, leaves_of_eq rfl ?_⟩,
    fun c h f hf => leaves_of_eq rfl (replyReceived_other h hf), fun r l h => leaves_of_eq rfl (inventoryRound_off h r l),
    fun r l plen pre rest hen hr hw hi hst hs c0 c1 hc => inventoryRound_splits hen hr hw hi hst hs l hc,
    fun h => leaves_of_eq rfl (if_neg ?_), fun x => ⟨fun o h => leaves_of_eq rfl (if_pos (.inl (by rw [h]; decide))),
      fun hw hen hr hp => waitProbe_first hw hen hr hp x⟩⟩
  · rw [replyReceived, h]
  · rw [h]
  · rintro ⟨h1, -, h3⟩
    rcases h with h | h
    · exact Bool.noConfusion (h.symm.trans h1)
    · exact Bool.noConfusion (h.symm.trans h3)

/-- Settles O46: the control of the link, its signal, and the reader role. -/
theorem linkAndReader : Obligations.LinkAndReader := by
  refine ⟨fun s hk => ⟨fun ok hm => leaves_of_eq rfl ((if_pos hk).trans (airEnable_runs hm ok)),
      ⟨_, leaves_of_eq rfl (if_pos hk), airDisable_off s⟩⟩,
    fun s x h hr hm => readerSignalSample_service h hr hm x,
    fun s u b hen hr => ⟨fun i r p hb hfl hs ht hp hf => readerCommandSend_sends hb hr hen hfl hs ht hp hf, fun c hc => ?_,
      fun r l plen pre rest hw hi hst hs => inventoryRound_silent hen hr hw hi hst hs l, fun h4 => ?_, fun hw x => ?_⟩,
    linkStays, readerWaits⟩
  · intro freed
    refine ⟨fun f hs hq => ⟨_, leaves_of_eq rfl rfl, replyReceived_frees hc hs hq⟩, _, leaves_of_eq rfl rfl, ?_⟩
    rw [hc]
    exact ⟨congrArg Air.sent (airPost_air _ _ _), airPost_outbox _ _ _⟩
  · exact leaves_of_eq rfl (if_pos ⟨hr, waitRuns_on hen, h4⟩)
  · refine leaves_of_eq rfl ((if_neg ?_).trans (if_pos rfl))
    rintro (h | h | h)
    · exact h hw
    · exact h (waitRuns_on hen)
    · exact h hr

end Sys2Proof.Machine
end

section
/-! SUPPORT. How a bundle is fetched (R226-R230, R332), and what comes before a syllable's own work (R229-R233, R255). -/

open Sys2Proof.Say

namespace Sys2Proof.Machine

variable {s : State} {i : Nat} {acc : Bool} {level : Fin 3} {pc : Nat}

/-! ## The first fetch of a bundle -/

theorem decodeAt_fails {e : Exc} (h : fetchOk s i level pc .none = .error e) : decodeAt s i acc level .none pc = .error (e, 0, 0) := by
  rw [decodeAt, bundleCode, ite_self, h]
  rfl

/-- The first syllable of a bundle may be fetched, but stands in none. -/
theorem decodeAt_refused (h : fetchOk s i level pc .none = .ok ()) (ht : Dec.take acc level {} 0 (sylAt s pc) = none) :
    decodeAt s i acc level .none pc = .error ({ cls := Cls.illegal, faddr := pc }, 0, BitVec.ofNat 64 (sylAt s pc)) := by
  rw [decodeAt, bundleCode, ite_self, h]
  dsimp only
  rw [show Dec.take acc level {} ([] : List Nat).length (sylAt s pc) = none from ht]
  rfl

/-- The first syllable of a bundle is its last. -/
theorem decodeAt_stops {d : Dec} (h : fetchOk s i level pc .none = .ok ()) (ht : Dec.take acc level {} 0 (sylAt s pc) = some d)
    (hs : sylStop (sylAt s pc) = true) : decodeAt s i acc level .none pc = .ok [sylAt s pc] := by
  rw [decodeAt, bundleCode, ite_self, h]
  dsimp only
  rw [show Dec.take acc level {} ([] : List Nat).length (sylAt s pc) = some d from ht]
  exact if_pos hs

theorem decodeAt_illegal (h : fetchOk s i level pc .none = .ok ()) (hl : opLegal (sylUnit (sylAt s pc)) (sylOp (sylAt s pc)) acc level false = false) :
    decodeAt s i acc level .none pc = .error ({ cls := Cls.illegal, faddr := pc }, 0, BitVec.ofNat 64 (sylAt s pc)) := by
  have ht : Dec.take acc level {} 0 (sylAt s pc) = none := by
    unfold Dec.take
    dsimp only
    split
    · rfl
    split
    · exact if_neg fun h => Bool.noConfusion h.1
    · exact if_pos (.inr (.inr (.inl (by rw [hl]; decide))))
  exact decodeAt_refused h ht

theorem decodeAt_one (h : fetchOk s i level pc .none = .ok ()) (hl : opLegal (sylUnit (sylAt s pc)) (sylOp (sylAt s pc)) acc level false = true)
    (hs : sylStop (sylAt s pc) = true) : decodeAt s i acc level .none pc = .ok [sylAt s pc] := by
  have hu : ∀ n, opInfo n (sylOp (sylAt s pc)) = none → sylUnit (sylAt s pc) ≠ n := by
    intro n hn he
    rw [opLegal, he, hn] at hl
    exact Bool.noConfusion hl
  have ht : ∃ d, Dec.take acc level {} 0 (sylAt s pc) = some d := by
    refine ⟨_, (if_neg (hu 7 rfl)).trans ((if_neg (hu 6 rfl)).trans (if_neg ?_))⟩
    rintro (h | h | h | h)
    · exact Bool.noConfusion h
    · exact absurd h (Nat.not_lt_zero _)
    · exact h hl
    · exact h.2 rfl
  obtain ⟨d, hd⟩ := ht
  exact decodeAt_stops h hd hs

section
variable (h40 : pc < 2 ^ 40) (hr : rangeOf pc ≠ some 5)
include h40 hr

theorem fetchOk_misaligned (h4 : pc % 4 ≠ 0) : fetchOk s i level pc .none = .error { cls := Cls.mpu, detail := 2, faddr := pc } :=
  (if_neg (Nat.not_le.2 h40)).trans ((if_neg hr).trans (if_pos h4))

variable (h4 : pc % 4 = 0)
include h4

theorem fetchOk_denied {d : Nat} (hd : byteDenied s i level pc .x = some d) :
    fetchOk s i level pc .none = .error { cls := Cls.mpu, detail := d, faddr := pc } := by
  refine (if_neg (Nat.not_le.2 h40)).trans ((if_neg hr).trans ((if_neg (not_not.2 h4)).trans ?_))
  rw [hd]

variable (hd : byteDenied s i level pc .x = none)
include hd

theorem fetchOk_busy {q : TWord} (hb : busyWord s pc = some q) :
    fetchOk s i level pc .none = .error { cls := Cls.fetchBusy, faddr := pc } := by
  refine (if_neg (Nat.not_le.2 h40)).trans ((if_neg hr).trans ((if_neg (not_not.2 h4)).trans ?_))
  rw [hd]
  dsimp only
  rw [hb]

variable (hb : busyWord s pc = none) (hg : s.isBad pc = false)
include hb hg

/-- The tag of the word decides, where nothing else refuses the fetch. -/
theorem fetchOk_tag : fetchOk s i level pc .none =
    if s.rdTag (pc / 8 * 8) = Tag.code then .ok ()
    else if s.rdTag (pc / 8 * 8) = Tag.poison then .error { cls := Cls.poison, faddr := pc / 8 * 8 }
    else .error { cls := Cls.tagCheck, faddr := pc / 8 * 8 } := by
  have hu : unitFault s pc .none = none := if_neg (by rw [hg]; decide)
  refine (if_neg (Nat.not_le.2 h40)).trans ((if_neg hr).trans ((if_neg (not_not.2 h4)).trans ?_))
  rw [hd]
  dsimp only
  rw [hb]
  dsimp only
  rw [hu]

end

theorem aBundleIsFetched : ABundleIsFetched := by
  intro s i acc level pc fails mpu
  refine ⟨fun h => decodeAt_fails (if_pos h), fun h hr => decodeAt_fails ((if_neg (Nat.not_le.2 h)).trans (if_pos hr)),
    fun h hr => ⟨fun h4 => decodeAt_fails (fetchOk_misaligned h hr h4), fun h4 => ⟨fun d hd =>
      decodeAt_fails (fetchOk_denied h hr h4 hd), fun hd => ⟨fun q hb => decodeAt_fails (fetchOk_busy h hr h4 hd hb), ?_⟩⟩⟩⟩
  intro hb hg t w
  have htag := fetchOk_tag (level := level) (i := i) h hr h4 hd hb hg
  refine ⟨fun ht => decodeAt_fails (htag.trans ((if_neg fun hc => ?_).trans (if_pos ht))),
    fun hc hp => decodeAt_fails (htag.trans ((if_neg hc).trans (if_neg hp))),
    fun hc => ⟨fun hl => decodeAt_illegal (htag.trans (if_pos hc)) hl, fun hl hs => decodeAt_one (htag.trans (if_pos hc)) hl hs⟩⟩
  exact absurd (hc.symm.trans ht) (by decide)

/-! ## The next syllable -/

section
variable {k unit op : Nat} {x : Syl} {mem : Bool} {c : Ctx} {b : Bundle}

theorem bundleAt_open (h : (s.ctx k).bundle = some b) (up : Upset) : bundleAt s k up = .ok (s.ctx k, b) := by
  unfold bundleAt
  dsimp only
  rw [h]

theorem bundleAt_fails {up : Upset} {e : Fault3} (h : (s.ctx k).bundle = none)
    (hd : decodeAt s (k / 64) (s.ctx k).acc (s.ctx k).r.level up (s.ctx k).r.pc = .error e) : bundleAt s k up = .error e := by
  unfold bundleAt
  dsimp only
  rw [h]
  dsimp only
  rw [hd]

theorem bundleAt_fetched {up : Upset} {ws : List Nat} (h : (s.ctx k).bundle = none) (hl : (s.ctx k).r.loops = [])
    (hd : decodeAt s (k / 64) (s.ctx k).acc (s.ctx k).r.level up (s.ctx k).r.pc = .ok ws) : bundleAt s k up =
      .ok ({ s.ctx k with since := if k / 64 = 0 then none else (s.ctx k).since.or (some s.kpr.devtime) },
        { regs0 := (s.ctx k).r, shadow0 := (s.ctx k).shadow, code := ws, sets := [(0, s.mpuSet 0), (k / 64, s.mpuSet (k / 64))] }) := by
  have hp : beginPass s (s.ctx k).acc (s.ctx k).r = .ok (s.ctx k).r := by
    unfold beginPass inner
    rw [hl]
    rfl
  unfold bundleAt
  dsimp only
  rw [h]
  dsimp only
  rw [hd]
  dsimp only
  rw [hp]

section
variable (h : bundleAt s k (if mem then .none else x.upset) = .ok (c, b))
include h

theorem sylReady_other (hn : b.next ≠ some (sylCode x unit op)) : sylReady s k unit op x mem = .ok none := by
  unfold sylReady
  rw [h]
  exact if_pos hn

variable (hn : b.next = some (sylCode x unit op))
include hn

theorem sylReady_counts (hl : c.r.loops = []) : sylReady s k unit op x mem =
    .ok (some ({ c with bundle := some { b with count := b.count + (if x.ext.isSome then 2 else 1) } },
      { b with count := b.count + (if x.ext.isSome then 2 else 1) })) := by
  have hi : (if unit = 3 then (inner c.r).filter (·.last == c.r.pc) else none) = none := by
    unfold inner
    rw [hl]
    exact ite_self _
  unfold sylReady
  rw [h]
  dsimp only
  rw [if_neg (not_not.2 hn), hi]

theorem sylReady_form {l : LoopCtx} (hu : unit = 3) (hi : inner c.r = some l) (hl : l.last = c.r.pc) :
    sylReady s k unit op x mem = .error ({ cls := Cls.loopForm, faddr := l.start }, b.count, sylWord x unit op) := by
  have hi' : (if unit = 3 then (inner c.r).filter (·.last == c.r.pc) else none) = some l := by
    rw [if_pos hu, hi, Option.filter_some, if_pos (beq_iff_eq.2 hl)]
  unfold sylReady
  rw [h]
  dsimp only
  rw [if_neg (not_not.2 hn), hi']

end

theorem theNextSyllable : TheNextSyllable := by
  intro s k unit op x mem c go code counts
  have hcounts : ∀ (c : Ctx) (b : Bundle), c.r.loops = [] → bundleAt s k (if mem then .none else x.upset) = .ok (c, b) → counts c b :=
    fun c b hl h => ⟨fun hn => sylReady_other h hn, fun hn => sylReady_counts h hn hl⟩
  refine ⟨fun e hb he => ?_, fun hl => ⟨fun ws hb hw => hcounts _ _ hl (bundleAt_fetched hb hl hw),
    fun b hb => hcounts _ _ hl (bundleAt_open hb _)⟩, fun b l hu hb hn hi hl => sylReady_form (bundleAt_open hb _) hn hu hi hl⟩
  change sylReady s k unit op x mem = .error e
  unfold sylReady
  rw [bundleAt_fails hb he]

end

/-- Settles O47: how a bundle is fetched, and the checks before a syllable's work. A syllable that is not the next code word
changes nothing by log entry 11, the bundle's form is decided first by log entry 12, and the innermost loop alone is checked
by log entry 27: all the model's choices. -/
theorem syllablesAreChecked : Obligations.SyllablesAreChecked := ⟨aBundleIsFetched, theNextSyllable⟩

end Sys2Proof.Machine
end

section
/-! SUPPORT. The words of memory at the addresses of a core, the window of the boot blocks among them. -/

namespace Sys2Proof.Machine

variable {s t : State} {a c : Nat}

/-! ## Cells of core addresses (R26) -/

theorem phys_window (s : State) {a : Nat} (h : 0x28000000 ≤ a) (h' : a < 0x28200000) :
    phys s a = 0x10000000000 + (if s.kpr.bootsel != decide (0x28100000 ≤ a) then 0x100000 else 0) + a % 0x100000 :=
  if_pos ⟨h, h'⟩

theorem phys_inj (s : State) {a c : Nat} (ha : a < 2 ^ 40) (hc : c < 2 ^ 40) (h : phys s a = phys s c) : a = c := by
  by_cases hwa : 0x28000000 ≤ a ∧ a < 0x28200000
  · by_cases hwc : 0x28000000 ≤ c ∧ c < 0x28200000
    · rw [phys_window s hwa.1 hwa.2, phys_window s hwc.1 hwc.2] at h
      cases hb : s.kpr.bootsel <;> by_cases h1 : 0x28100000 ≤ a <;> by_cases h2 : 0x28100000 ≤ c <;>
        simp only [hb, h1, h2, decide_true, decide_false, bne_self_eq_false, Bool.false_eq_true, if_false, if_true,
          Bool.true_bne, Bool.false_bne, Bool.not_false] at h <;> omega
    · rw [phys_window s hwa.1 hwa.2, phys_outside s (by omega)] at h
      omega
  · by_cases hwc : 0x28000000 ≤ c ∧ c < 0x28200000
    · rw [phys_window s hwc.1 hwc.2, phys_outside s (by omega)] at h
      omega
    · rwa [phys_outside s (by omega), phys_outside s (by omega)] at h

theorem phys_mod (s : State) (a : Nat) : phys s a % 8 = a % 8 := by
  unfold phys
  split
  · dsimp only
    split <;> omega
  · rfl

theorem wrBytes_kpr (s : State) (a : Nat) (l : List Byte) : (wrBytes s a l).kpr = s.kpr := by
  have h := congrArg State.kpr (wrBytes_butRing s a l)
  exact h

theorem phys_congr (h : t.kpr = s.kpr) (a : Nat) : phys t a = phys s a := by unfold phys; rw [h]

/-! ## Words that are read after they are written -/

theorem coreByte_before (h : c < a) (l : List Byte) (hhi : a + l.length ≤ 2 ^ 40) : (wrBytes s a l).rdByte c = s.rdByte c := by
  induction l generalizing s a with
  | nil => rfl
  | cons b l ih =>
    rw [List.length_cons] at hhi
    rw [wrBytes_cons, ih (by omega) (by omega)]
    refine State.rdByte_wrByte_ne _ b fun he => ?_
    exact absurd (phys_inj s (by omega) (by omega) he) (Nat.ne_of_lt h)

section
variable (hlo : 0x40000 ≤ c)
include hlo

theorem coreBytes_wrBytes (l : List Byte) (hhi : c + l.length ≤ 2 ^ 40) : (wrBytes s c l).rdBytes c l.length = l := by
  induction l generalizing s c with
  | nil => rfl
  | cons b l ih =>
    rw [List.length_cons] at hhi
    rw [wrBytes_cons, List.length_cons, rdBytes_succ, ih (by omega) (by omega),
      coreByte_before (Nat.lt_succ_self c) l (by omega), State.rdByte_wrByte_self _ _ hlo]

theorem coreWord_wrWord (w : TWord) (hhi : c + 8 ≤ 2 ^ 40) : (s.wrWord c w).rdWord c = w := by
  have hb : (s.wrWord c w).rdBytes c 8 = leBytes 8 w.data.toNat := by
    have h := coreBytes_wrBytes (s := s) hlo (leBytes 8 w.data.toNat) (by rw [length_leBytes]; exact hhi)
    rw [length_leBytes] at h
    exact h
  have ht : (s.wrWord c w).rdTag c = w.tag := State.rdTag_wrTag_self _ _ hlo
  rw [State.rdWord, hb, ht, leNat_leBytes, Nat.mod_eq_of_lt (Nat.lt_of_lt_of_le w.data.isLt (by decide)),
    BitVec.ofNat_toNat, BitVec.setWidth_eq]

theorem coreTag_before (h8 : 8 ∣ c) (ha : 8 ∣ a) (h : c < a) (hhi : a < 2 ^ 40) (w : TWord) : (s.wrWord a w).rdTag c = s.rdTag c := by
  have hp : ∀ x, phys (wrBytes s a (leBytes 8 w.data.toNat)) x = phys s x := phys_congr (wrBytes_kpr _ _ _)
  have hpc : phys (s.wrWord a w) c = phys s c := hp c
  have hne : phys s c / 8 ≠ phys s a / 8 := by
    intro he
    have h1 := phys_mod s c
    have h2 := phys_mod s a
    exact absurd (phys_inj s (by omega) hhi (by omega)) (Nat.ne_of_lt h)
  rw [State.rdTag, State.rdTag, if_neg (by omega), if_neg (by omega), hpc, State.wrWord, State.wrTag, wrBytes_tags, hp]
  exact sget_sset_ne _ _ _ hne

theorem coreWord_before (h8 : 8 ∣ c) (ha : 8 ∣ a) (h : c + 8 ≤ a) (l : List TWord) (hhi : a + 8 * l.length ≤ 2 ^ 40) :
    (wrWords s a l).rdWord c = s.rdWord c := by
  induction l generalizing s a with
  | nil => rfl
  | cons w l ih =>
    rw [List.length_cons] at hhi
    rw [wrWords_cons, ih (Nat.dvd_add ha ⟨1, rfl⟩) (by omega) (by omega)]
    have hb : (s.wrWord a w).rdBytes c 8 = s.rdBytes c 8 := by
      refine List.map_congr_left fun k hk => ?_
      rw [List.mem_range] at hk
      have hk' : c + k < a := Nat.lt_of_lt_of_le (Nat.add_lt_add_left hk c) h
      have hl : a + (leBytes 8 w.data.toNat).length ≤ 2 ^ 40 := by
        rw [length_leBytes]
        exact Nat.le_trans (by omega) hhi
      exact coreByte_before hk' _ hl
    have ht : (s.wrWord a w).rdTag c = s.rdTag c := coreTag_before hlo h8 ha (by omega) (by omega) w
    unfold State.rdWord
    rw [hb, ht]

theorem coreWords_wrWords (h8 : 8 ∣ c) (l : List TWord) (hhi : c + 8 * l.length ≤ 2 ^ 40) :
    (wrWords s c l).rdWords c l.length = l := by
  induction l generalizing s c with
  | nil => rfl
  | cons w l ih =>
    have hn : 8 ∣ c + 8 := Nat.dvd_add h8 ⟨1, rfl⟩
    rw [List.length_cons] at hhi
    rw [wrWords_cons, List.length_cons, rdWords_succ, ih (by omega) hn (by omega),
      coreWord_before hlo h8 hn (Nat.le_refl _) l (by omega), coreWord_wrWord hlo w (by omega)]

end

end Sys2Proof.Machine
end

section
/-! SUPPORT. The delivery of an exception to its handler, and its escalation. -/

open Sys2Proof.Say

namespace Sys2Proof.Machine

variable {s t u : State}

/-! ## A handler is entered (R322, R324-R326) -/

section
variable {tbl k core : Nat} {c : Ctx} {fr : List TWord} {el : Nat} {esc : Bool} {up : Upset} {g : GateDesc}

/-- The area of a frame: the handler's own where the context ran at level U. -/
def frameArea (g : GateDesc) (tbl k core : Nat) (c : Ctx) : Stk :=
  if c.r.level = 0 then g.dsArea (stackIndex tbl (k % 64) core) else c.r.ds

/-- The pointer to a frame that stands below the entries of an area. -/
def framePtr (area : Stk) : TWord := ptrW (BitVec.ofNat 64 (area.pos - 128))

/-- The registers of a handler as it begins. -/
def handlerRegs (g : GateDesc) (tbl k core : Nat) (c : Ctx) (el : Nat) (saved : CpuRegs) : CpuRegs :=
  let area := frameArea g tbl k core c
  { saved with
    level := if tbl = 0 then 2 else 1, mask := BitVec.ofNat 3 el, loops := [], resv := none, pc := g.entry
    ds := { top := area.pos - 128, size := area.size - 8 * area.items.length - 128, atop := area.atop
            items := if c.acc then [] else [framePtr area] }
    rs := if c.r.level = 0 then g.rsArea (stackIndex tbl (k % 64) core) else saved.rs
    x0 := if c.acc then framePtr area else c.r.x0 }

/-- The context that has entered a handler. -/
def handlerCtx (g : GateDesc) (tbl k core : Nat) (c : Ctx) (el : Nat) (esc : Bool) (saved : CpuRegs) : Ctx :=
  { c with
    r := handlerRegs g tbl k core c el saved
    bundle := none
    shadow := .exc c.r.pc c.r.level ((frameArea g tbl k core c).pos - 128) saved esc :: c.shadow }

/-- The device with a handler entered. -/
def handlerState (s : State) (g : GateDesc) (tbl k core : Nat) (c : Ctx) (fr : List TWord) (el : Nat) (esc : Bool)
    (ps : List Pend) (saved : CpuRegs) : State :=
  let fa := (frameArea g tbl k core c).pos - 128
  ((wrWords (spillAll s ps) fa fr).breakResv fa 128).setCtx k (handlerCtx g tbl k core c el esc saved)

theorem deliveryFails_mode {p : Nat × Nat} (h : deliveryFails s k p = .ok t) : t.mode ≠ s.mode := by
  rw [deliveryFails] at h
  split at h
  · exact nomatch h
  · next hm => exact (Except.ok.inj h) ▸ hm

/-- A delivery that does not reset the device reads its descriptor, saves the stack entries and writes the frame. -/
theorem enterHandler_ok (h : enterHandler s tbl k core c fr el esc up = .ok t) (hm : t.mode = s.mode)
    (hg : readGate s tbl 256 = some g) :
    ∃ ps saved, moveStacks s (k / 64) 0 0 c.acc up c.r = .ok (ps, saved) ∧ t = handlerState s g tbl k core c fr el esc ps saved := by
  obtain ⟨A, hA⟩ : ∃ A, frameArea g tbl k core c = A := ⟨_, rfl⟩
  have hA' : (if c.r.level = 0 then g.dsArea (stackIndex tbl (k % 64) core) else c.r.ds) = A := hA
  unfold enterHandler at h
  cases hf : gateFault s tbl 256 up with
  | some p =>
    rw [hf] at h
    exact absurd hm (deliveryFails_mode h)
  | none =>
    rw [hf, hg] at h
    dsimp only at h
    obtain ⟨lv, hlv⟩ : ∃ lv : Fin 3, (if tbl = 0 then 2 else 1) = lv := ⟨_, rfl⟩
    rw [hA', hlv] at h
    split at h
    · exact nomatch h
    · split at h
      · split at h
        · exact absurd hm (deliveryFails_mode h)
        · exact nomatch h
      · exact absurd hm (deliveryFails_mode h)
      · next ps saved hmv _ =>
        refine ⟨ps, saved, hmv, ?_⟩
        rw [handlerState, handlerCtx, handlerRegs, hA, hlv]
        exact (Except.ok.inj h).symm

theorem enterHandler_noGate (hf : gateFault s tbl 256 up = none) (hg : readGate s tbl 256 = none) :
    enterHandler s tbl k core c fr el esc up = .error s := by
  unfold enterHandler
  rw [hf, hg]

/-! ## Stacks without entries (R240) -/

theorem moveStk_empty {i : Nat} {level : Fin 3} {data : Bool} {q : Stk} (hi : q.items = []) (hm : q.mem = 0) :
    moveStk s i level up 0 data q = .ok ([], q) := by
  have h1 : moveIn s i level up 0 data q = .ok q := by
    unfold moveIn
    dsimp only
    rw [hm]
    exact if_pos (Nat.zero_sub _)
  have h2 : moveOut s i level up 0 q = .ok ([], q) := by
    unfold moveOut
    dsimp only
    rw [hi]
    exact if_pos (Nat.zero_sub _)
  rw [moveStk, h1]
  exact h2

theorem moveStacks_empty {i : Nat} {acc : Bool} {r : CpuRegs} (hd : r.ds.items = []) (hr : r.rs.items = [])
    (hdm : r.ds.mem = 0) (hrm : r.rs.mem = 0) : moveStacks s i 0 0 acc up r = .ok ([], r) := by
  have h1 : moveStk s i r.level up 0 true r.ds = .ok ([], r.ds) := moveStk_empty hd hdm
  have h2 : moveStk s i r.level up 0 false r.rs = .ok ([], r.rs) := moveStk_empty hr hrm
  cases acc
  · simp only [moveStacks, Bool.false_eq_true, if_false, h1, h2, bind, Except.bind, List.append_nil]
  · simp only [moveStacks, if_true, h2, bind, Except.bind, List.append_nil]

/-! ## What a delivery leaves -/

/-- The cells of the tagged memory and the keeper's state. -/
def State.cells (s : State) : List (Nat × Byte) × List (Nat × Word4) × Kpr := (s.mem, s.tags, s.kpr)

theorem breakResv_cells (s : State) (a n : Nat) : (s.breakResv a n).cells = s.cells := by
  unfold State.breakResv
  split
  · rfl
  · refine foldl_leaves State.cells (fun u p => ?_) _ _
    dsimp only
    split <;> rfl

theorem setCtx_cells (s : State) (k : Nat) (c : Ctx) : (s.setCtx k c).cells = s.cells := rfl

theorem rdWords_cells (h : t.cells = u.cells) (a n : Nat) : t.rdWords a n = u.rdWords a n := by
  obtain ⟨hm, ht, hk⟩ : t.mem = u.mem ∧ t.tags = u.tags ∧ t.kpr = u.kpr := by
    simpa only [State.cells, Prod.mk.injEq] using h
  have hp : ∀ x, phys t x = phys u x := phys_congr hk
  refine List.map_congr_left fun j _ => ?_
  have hb : t.rdBytes (a + 8 * j) 8 = u.rdBytes (a + 8 * j) 8 := by
    refine List.map_congr_left fun q _ => ?_
    rw [State.rdByte, State.rdByte, hp, hm]
  have htag : t.rdTag (a + 8 * j) = u.rdTag (a + 8 * j) := by rw [State.rdTag, State.rdTag, hp, ht]
  rw [State.rdWord, State.rdWord, hb, htag]

theorem length_loopWords (l : Option LoopCtx) : (loopWords l).length = 2 := by cases l <;> rfl

theorem length_frameWords (i cn : Nat) (cause : Word64) (faddr : Nat) (syl : Word64) :
    (frameWords i cn core c cause faddr syl).length = 16 := by
  simp only [frameWords, List.length_append, length_loopWords, List.length_cons, List.length_nil]

/-- The frame of a handler reads as it was written. -/
theorem handlerState_frame {saved : CpuRegs} (hl : fr.length = 16) (fa : Nat) (hfa : fa = (frameArea g tbl k core c).pos - 128)
    (h1 : 0x10000000 ≤ fa) (h2 : fa < 0x1CE000000 - 128) (h8 : fa % 8 = 0) :
    (handlerState s g tbl k core c fr el esc [] saved).rdWords fa 16 = fr := by
  have hw : (wrWords s fa fr).rdWords fa fr.length = fr :=
    coreWords_wrWords (Nat.le_trans (by decide) h1) (Nat.dvd_of_mod_eq_zero h8) fr
      (by rw [hl]; exact Nat.le_trans (Nat.add_le_add_right (Nat.le_of_lt h2) _) (by decide))
  rw [hl] at hw
  have hc : (handlerState s g tbl k core c fr el esc [] saved).cells = (wrWords s fa fr).cells := by
    rw [handlerState, ← hfa]
    exact (setCtx_cells _ _ _).trans (breakResv_cells _ _ _)
  exact (rdWords_cells hc fa 16).trans hw

theorem entered_of_handler {saved : CpuRegs} {cause syl : Word64} {faddr : Nat} (hs : saved = c.r)
    (hfr : fr = frameWords (k / 64) (k % 64) core c cause faddr syl) :
    Entered s (handlerState s g tbl k core c fr el false [] saved) tbl k core c g cause faddr syl el := by
  have hctx : (handlerState s g tbl k core c fr el false [] saved).ctx k = handlerCtx g tbl k core c el false saved :=
    State.ctx_setCtx_self _ _ _
  have hlen : fr.length = 16 := by rw [hfr]; exact length_frameWords _ _ _ _ _
  refine ⟨fun fa hfa => ?_, ?_, ?_, ?_, ?_, ?_⟩
  · rw [hctx]
    subst hs
    refine ⟨hfa.symm, fun ha => ?_, fun ha => ?_, fun h1 h2 h8 => ?_, ?_⟩
    · rw [hfa]
      exact if_neg (Bool.eq_false_iff.1 ha)
    · rw [hfa]
      exact ⟨if_pos ha, if_pos ha⟩
    · rw [handlerState_frame hlen fa hfa h1 h2 h8, hfr]
    · rw [hfa]
      rfl
  all_goals rw [hctx]; rfl

/-! ## A synchronous exception (R322, R328) -/

theorem delivered_ok {e : Exc} {slot : Nat} {syl : Word64} (h : t.mode = s.mode) :
    delivered s k core e slot syl (.ok t) = t.statInc (instStat (k / 64) 0x30) := if_pos h

theorem undone_bundle (c : Ctx) : c.undone.bundle = none := by
  unfold Ctx.undone
  split
  · rfl
  · assumption

theorem undone_waiting (c : Ctx) : c.undone.waiting = none := by
  unfold Ctx.undone
  split <;> rfl

/-- A context between bundles that waits for nothing has nothing to undo. -/
theorem undone_idle {c : Ctx} (hb : c.bundle = none) (hw : c.waiting = none) : c.undone = c := by
  obtain ⟨run, acc, r, shadow, bundle, staging, waiting, yielded, since, dbase⟩ := c
  subst hb hw
  rfl

theorem undone_undone (c : Ctx) : c.undone.undone = c.undone := undone_idle (undone_bundle c) (undone_waiting c)

end

end Sys2Proof.Machine
end

section
/-! SUPPORT. Exceptions enter their handlers, escalate, or are fatal. -/

open Sys2Proof.Say

namespace Sys2Proof.Machine

variable {s t : State}

/-! ## A synchronous exception of a context (R322-R326) -/

section
variable {k core slot : Nat} {e : Exc} {syl : Word64} {up : Upset}

/-- The device as an exception of a context is decided: the context's bundle is undone. -/
def excState (s : State) (k : Nat) : State := { s with freeCtr := s.freeCtr + 1 }.setCtx k (s.ctx k).undone

theorem excState_ctx (s : State) (k : Nat) : (excState s k).ctx k = (s.ctx k).undone := State.ctx_setCtx_self _ _ _

theorem excState_ctx_ne {j : Nat} (h : j ≠ k) : (excState s k).ctx j = s.ctx j := State.ctx_setCtx_ne _ _ h

section
variable (hu : e.unitHit = none) (hf : e.freeAddr = false) (hs : e.cls ≠ Cls.shadow)
include hu hf hs

/-- What decides an exception that records no fault of its own. -/
theorem takeException_eq : takeException s k core e slot syl up =
    (let c := (s.ctx k).undone
     if k = keeperKey ∧ c.r.mask = 7 then fatalEscalation (excState s k) e.cls e.detail c.r.pc
     else if clsLevel e.cls ≤ c.r.mask.toNat then escalate (excState s k) k core e slot syl
     else
      let tbl := if c.r.level = 2 then 0 else k / 64
      let cause := causeWord 0 0 e.detail slot c.r.level.val (clsLevel e.cls) e.cls
      delivered (excState s k) k core e slot syl
        (enterHandler (excState s k) tbl k core c (frameWords (k / 64) (k % 64) core c cause e.faddr syl) (clsLevel e.cls) false up)) := by
  unfold takeException
  rw [hu]
  dsimp only
  rw [if_neg hs, if_neg (not_not.2 rfl), hf]
  rfl

section
variable (hk : k = keeperKey → (s.ctx k).undone.r.mask ≠ 7)
include hk

theorem takeException_masked (hl : clsLevel e.cls ≤ (s.ctx k).undone.r.mask.toNat) :
    takeException s k core e slot syl up = escalate (excState s k) k core e slot syl := by
  rw [takeException_eq hu hf hs]
  exact (if_neg fun h => hk h.1 h.2).trans (if_pos hl)

theorem takeException_delivers (hl : (s.ctx k).undone.r.mask.toNat < clsLevel e.cls) :
    takeException s k core e slot syl up =
    (let c := (s.ctx k).undone
     let tbl := if c.r.level = 2 then 0 else k / 64
     let cause := causeWord 0 0 e.detail slot c.r.level.val (clsLevel e.cls) e.cls
     delivered (excState s k) k core e slot syl
      (enterHandler (excState s k) tbl k core c (frameWords (k / 64) (k % 64) core c cause e.faddr syl) (clsLevel e.cls) false up)) := by
  rw [takeException_eq hu hf hs]
  exact (if_neg fun h => hk h.1 h.2).trans (if_neg (Nat.not_le.2 hl))

end

theorem takeException_fatal (hk : k = keeperKey) (hm : (s.ctx k).undone.r.mask = 7) :
    takeException s k core e slot syl up = fatalEscalation (excState s k) e.cls e.detail (s.ctx k).undone.r.pc := by
  rw [takeException_eq hu hf hs]
  exact if_pos ⟨hk, hm⟩

end

theorem handlersAreEntered : HandlersAreEntered := by
  intro s t k core e slot syl up c tbl cause u hu hf hs hl hk ht hm
  refine ⟨(takeException_delivers hu hf hs hk hl).trans ?_, fun g hg hd hr hdm hrm => ?_⟩
  · exact (congrArg (delivered (excState s k) k core e slot syl) ht).trans (delivered_ok hm)
  · obtain ⟨ps, saved, hmv, rfl⟩ := enterHandler_ok ht hm hg
    rw [moveStacks_empty hd hr hdm hrm] at hmv
    obtain ⟨rfl, rfl⟩ := Prod.mk.inj (Except.ok.inj hmv)
    have h : Entered u (handlerState u g tbl k core c _ (clsLevel e.cls) false [] c.r) tbl k core c g cause e.faddr syl _ :=
      entered_of_handler rfl rfl
    exact ⟨h.frame, h.level, h.mask, h.pc, h.loops, h.resv⟩

/-! ## Escalation (R323, R328) -/

/-- An escalation in the queue of the keeper core. -/
def escOf (k core : Nat) (e : Exc) (slot : Nat) (syl : Word64) : EscEvent :=
  { ctx := k, cls := e.cls, detail := e.detail, faddr := e.faddr, slot := slot, syl := syl, core := core }

theorem takeEscalation_masked (h : (s.ctx keeperKey).undone.r.mask = 7) : takeEscalation s = s := by
  unfold takeEscalation
  split
  · rfl
  · exact if_pos (.inl h)

theorem chargeCore_run (s : State) (k : Nat) : ((chargeCore s k).ctx k).run = (s.ctx k).run := by
  unfold chargeCore
  split
  · rfl
  · dsimp only
    rw [State.ctx_setCtx_self]
    rfl

theorem chargeCore_ctx_ne {j : Nat} (h : j ≠ k) : (chargeCore s k).ctx j = s.ctx j := by
  unfold chargeCore
  split
  · rfl
  · dsimp only
    rw [State.ctx_setCtx_ne _ _ h]
    rfl

@[simp] theorem chargeCore_mem (s : State) (k : Nat) : (chargeCore s k).mem = s.mem := by
  unfold chargeCore
  split <;> rfl

@[simp] theorem chargeCore_escQ (s : State) (k : Nat) : (chargeCore s k).escQ = s.escQ := by
  unfold chargeCore
  split <;> rfl

/-- A context held at its bundle. -/
def heldAt (s : State) (k : Nat) : State :=
  let s := (s.statInc 0x84).statInc (instStat (k / 64) 0x34)
  chargeCore (s.setCtx k { (s.ctx k).undone with run := .held }) k

/-- The device with one more escalation in the queue. -/
def escQueued (s : State) (e : EscEvent) : State := { s with escQ := s.escQ ++ [e] }

theorem escalate_other (hk : k ≠ keeperKey) :
    escalate s k core e slot syl = takeEscalation (escQueued (heldAt s k) (escOf k core e slot syl)) := by
  unfold escalate
  dsimp only
  rw [if_neg hk]
  rfl

theorem escalate_held (hk : k ≠ keeperKey) (h7 : (s.ctx keeperKey).undone.r.mask = 7) :
    escalate s k core e slot syl = escQueued (heldAt s k) (escOf k core e slot syl) := by
  have hc : (heldAt s k).ctx keeperKey = s.ctx keeperKey :=
    (chargeCore_ctx_ne hk.symm).trans ((State.ctx_setCtx_ne _ _ hk.symm).trans rfl)
  refine (escalate_other hk).trans (takeEscalation_masked ?_)
  change ((heldAt s k).ctx keeperKey).undone.r.mask = 7
  rw [hc]
  exact h7

theorem heldAt_run (s : State) (k : Nat) : ((heldAt s k).ctx k).run = .held := by
  rw [heldAt, chargeCore_run, State.ctx_setCtx_self]

theorem heldAt_mem (s : State) (k : Nat) : (heldAt s k).mem = s.mem := by
  rw [heldAt, chargeCore_mem]
  rfl

theorem heldAt_escQ (s : State) (k : Nat) : (heldAt s k).escQ = s.escQ := by
  rw [heldAt, chargeCore_escQ]
  rfl

theorem gateFault_excState (s : State) (k tbl n : Nat) (up : Upset) : gateFault (excState s k) tbl n up = gateFault s tbl n up := rfl

theorem readGate_excState (s : State) (k tbl n : Nat) : readGate (excState s k) tbl n = readGate s tbl n := rfl

theorem exceptionsEscalate : ExceptionsEscalate := by
  intro s k core e slot syl up c tbl u t hu hf hs
  refine ⟨fun hk hm => takeException_fatal hu hf hs hk hm, fun hk => ⟨fun h => ?_, fun hne hl h7 hq => ?_⟩⟩
  · by_cases hl : clsLevel e.cls ≤ c.r.mask.toNat
    · exact takeException_masked hu hf hs hk hl
    · obtain ⟨hgf, hrg⟩ := h.resolve_left hl
      refine (takeException_delivers hu hf hs hk (Nat.lt_of_not_le hl)).trans ?_
      exact congrArg (delivered (excState s k) k core e slot syl) (enterHandler_noGate
        ((gateFault_excState s k tbl 256 up).trans hgf) ((readGate_excState s k tbl 256).trans hrg))
  · have h7' : ((excState s k).ctx keeperKey).undone.r.mask = 7 := by
      rw [excState_ctx_ne hne.symm]
      exact h7
    have ht : t = escQueued (heldAt (excState s k) k) (escOf k core e slot syl) :=
      (takeException_masked hu hf hs hk hl).trans (escalate_held hne h7')
    rw [ht]
    refine ⟨heldAt_run _ k, (heldAt_mem _ k).trans rfl, ?_⟩
    have hq' : (heldAt (excState s k) k).escQ = [] := (heldAt_escQ (excState s k) k).trans hq
    exact congrArg (· ++ [escOf k core e slot syl]) hq'

end

/-- Settles O49: a delivery that does not reset the device leaves the frame and the handler's context; every other outcome
escalates, and the keeper at MASK 7 is fatal. -/
theorem exceptionsAreTaken : Obligations.ExceptionsAreTaken := ⟨handlersAreEntered, exceptionsEscalate⟩

end Sys2Proof.Machine
end

section
/-! SUPPORT. Interrupts, the end of time slices, and held contexts. -/

open Sys2Proof.Say

namespace Sys2Proof.Machine

variable {s t : State}

/-! ## The source that is taken (R321) -/

theorem irqLevel_le (s : State) (i src : Nat) : irqLevel s i src ≤ 6 := by
  have cut : ∀ n, (if 6 < n then 0 else n) ≤ 6 := fun n => by split <;> omega
  unfold irqLevel
  split
  · exact Nat.le_refl 6
  · split
    · exact cut _
    · dsimp only
      have hd : ∀ n, fld n 0 3 < 8 := fun n => Nat.mod_lt _ (by decide)
      split
      · exact cut _
      · next h =>
        have := hd (s.ring ((ringRange s i).1 + (src - 16))).irq.toNat
        omega

theorem foldl_max_le {b : Nat} (l : List Nat) (h : ∀ x ∈ l, x ≤ b) (a : Nat) (ha : a ≤ b) : l.foldl max a ≤ b := by
  induction l generalizing a with
  | nil => exact ha
  | cons x l ih =>
    exact ih (fun y hy => h y (List.mem_cons_of_mem _ hy)) _ (Nat.max_le.2 ⟨ha, h x List.mem_cons_self⟩)

theorem irqNext_level {i : Nat} {p : Nat × Nat} (h : irqNext s i = some p) : p.2 ≤ 6 := by
  have htop : ((s.inst i).irq.map (irqLevel s i)).foldl max 0 ≤ 6 :=
    foldl_max_le _ (fun x hx => by
      obtain ⟨n, -, rfl⟩ := List.mem_map.1 hx
      exact irqLevel_le s i n) 0 (Nat.zero_le _)
  unfold irqNext at h
  dsimp only at h
  split at h
  · exact nomatch h
  · obtain ⟨n, -, rfl⟩ := Option.map_eq_some_iff.1 h
    exact htop

theorem irqNext_nothing {i : Nat} (h : (s.inst i).irq = []) : irqNext s i = none := by
  unfold irqNext
  dsimp only
  rw [h]
  rfl

/-! ## The context that takes it (R17, R306) -/

theorem takesIrq_masked {k level : Nat} (hl : level ≤ 6) (h : (s.ctx k).r.mask = 7) : takesIrq s k level = false := by
  have h' : decide ((s.ctx k).r.mask.toNat < level) = false := by
    rw [h]
    exact decide_eq_false (Nat.not_lt.2 (Nat.le_trans hl (by decide)))
  unfold takesIrq
  dsimp only
  rw [h', Bool.and_false, Bool.false_and]

theorem takesIrq_flush {k level : Nat} (h : s.pwr.flush ≠ 0) : takesIrq s k level = false := by
  unfold takesIrq
  dsimp only
  rw [beq_false_of_ne h, Bool.false_and, Bool.false_and, Bool.false_and, Bool.false_and]

theorem find_only {α : Type} {p : α → Bool} {l : List α} {x : α} (hx : x ∈ l) (hp : p x = true)
    (h : ∀ y ∈ l, y ≠ x → p y = false) : l.find? p = some x := by
  cases hf : l.find? p with
  | none => exact absurd hp (List.find?_eq_none.1 hf x hx)
  | some y =>
    by_cases hy : y = x
    · rw [hy]
    · exact Bool.noConfusion ((h y (List.mem_of_find?_eq_some hf) hy).symm.trans (List.find?_some hf))

section
variable {i c core : Nat}

theorem interruptTaken_nothing (h : irqNext s i = none) : interruptTaken s i c core = s := by
  unfold interruptTaken
  rw [h]

theorem interruptTaken_refused {p : Nat × Nat} (h : irqNext s i = some p) (ht : takesIrq s (ctxKey i c) p.2 = false) :
    interruptTaken s i c core = s := by
  unfold interruptTaken
  rw [h]
  refine if_pos fun hf => ?_
  have hp : takesIrq s (ctxKey i c) p.2 = true := List.find?_some (p := fun n => takesIrq s (ctxKey i n) p.2) hf
  exact Bool.noConfusion (ht.symm.trans hp)

/-- The context with the next number that takes the source. -/
theorem find_taker {f : Nat → Bool} (p : Nat) (hc : c < 64) (ht : f c = true) (h : ∀ n : Fin 64, n.val ≠ c → f n.val = false) :
    ((List.range 64).map fun n => (p + n) % 64).find? f = some c := by
  refine find_only (List.mem_map.2 ⟨(c + 64 - p % 64) % 64, ?_, ?_⟩) ht fun y hy hne => ?_
  · exact List.mem_range.2 (Nat.mod_lt _ (by decide))
  · omega
  · obtain ⟨n, -, rfl⟩ := List.mem_map.1 hy
    exact h ⟨_, Nat.mod_lt _ (by decide)⟩ hne

theorem ctxKey_div (hc : c < 64) : ctxKey i c / 64 = i := by unfold ctxKey; omega

/-- The table entry with a source taken. -/
def irqTaken (s : State) (i c src : Nat) : State :=
  s.setInst i { s.inst i with irq := (s.inst i).irq.filter (· ≠ src), irqPtr := src + 1, ctxPtr := (c + 1) % 64 }

/-- The context of an application core takes a source below level K. -/
theorem interruptTaken_delivers {src level : Nat} (hn : irqNext s i = some (src, level)) (hi : i ≠ 0) (hc : c < 64)
    (ht : takesIrq s (ctxKey i c) level = true) (hlv : (s.ctx (ctxKey i c)).undone.r.level ≠ 2)
    (h : ∀ n : Fin 64, n.val ≠ c → takesIrq s (ctxKey i n.val) level = false) :
    interruptTaken s i c core =
      (let y := (s.ctx (ctxKey i c)).undone
       delivered (irqTaken s i c src) (ctxKey i c) core { cls := Cls.interrupt } 0 0
        (enterHandler (irqTaken s i c src) i (ctxKey i c) core y
          (frameWords i c core y (causeWord src 0 0 0 y.r.level.val level Cls.interrupt) 0 0) level false .none)) := by
  have hk : ctxKey i c ≠ keeperKey := by unfold ctxKey keeperKey; omega
  unfold interruptTaken
  rw [hn]
  dsimp only
  rw [if_neg (not_not.2 (find_taker (f := fun n => takesIrq s (ctxKey i n) level) _ hc ht h)), if_neg hk, if_neg hlv]
  rfl

end

/-! ## What a delivery leaves of the tables -/

theorem wrBytes_insts (s : State) (a : Nat) (l : List Byte) : (wrBytes s a l).insts = s.insts := by
  induction l generalizing s a with
  | nil => rfl
  | cons b l ih => rw [wrBytes_cons, ih]; rfl

theorem wrWord_insts (s : State) (a : Nat) (w : TWord) : (s.wrWord a w).insts = s.insts := wrBytes_insts s a _

theorem wrWords_insts (s : State) (a : Nat) (l : List TWord) : (wrWords s a l).insts = s.insts := by
  induction l generalizing s a with
  | nil => rfl
  | cons w l ih => rw [wrWords_cons, ih, wrWord_insts]

theorem breakResv_insts (s : State) (a n : Nat) : (s.breakResv a n).insts = s.insts := by
  unfold State.breakResv
  split
  · rfl
  · refine foldl_leaves State.insts (fun u p => ?_) _ _
    dsimp only
    split <;> rfl

theorem spillAll_insts (ps : List Pend) (s : State) : (spillAll s ps).insts = s.insts := by
  refine foldl_leaves State.insts (fun u p => ?_) _ _
  split
  · exact (wrWord_insts _ _ _).trans (breakResv_insts _ _ _)
  · rfl

theorem handlerState_insts {g : GateDesc} {tbl k core el : Nat} {c : Ctx} {fr : List TWord} {esc : Bool} {ps : List Pend}
    {saved : CpuRegs} : (handlerState s g tbl k core c fr el esc ps saved).insts = s.insts := by
  rw [handlerState]
  exact (breakResv_insts _ _ _).trans ((wrWords_insts _ _ _).trans (spillAll_insts _ _))

/-! ## Interrupts (R321) -/

section
variable {i c : Fin 64} {core : Fin 13}

theorem interrupt_enters {src level : Nat} (hn : irqNext s i.val = some (src, level)) (hi : i ≠ 0)
    (ht : takesIrq s (ctxKey i.val c.val) level = true) (hlv : (s.ctx (ctxKey i.val c.val)).undone.r.level ≠ 2)
    (h : ∀ n : Fin 64, n ≠ c → takesIrq s (ctxKey i.val n.val) level = false) {g : GateDesc}
    (hg : readGate s i.val 256 = some g) {fr : List TWord}
    (hfr : fr = frameWords i.val c.val core.val (s.ctx (ctxKey i.val c.val)).undone
      (causeWord src 0 0 0 (s.ctx (ctxKey i.val c.val)).undone.r.level.val level Cls.interrupt) 0 0)
    (he : enterHandler (irqTaken s i.val c.val src) i.val (ctxKey i.val c.val) core.val (s.ctx (ctxKey i.val c.val)).undone
      fr level false .none = .ok t) (hm : t.mode = s.mode) :
    Leaves (.interruptTaken i c core) s (t.statInc (instStat i.val 0x30)) ∧ src ∉ (t.inst i.val).irq ∧
      (t.ctx (ctxKey i.val c.val)).r.level = 1 ∧ (t.ctx (ctxKey i.val c.val)).r.mask = BitVec.ofNat 3 level ∧
      (t.ctx (ctxKey i.val c.val)).r.pc = g.entry := by
  have hi' : i.val ≠ 0 := fun h0 => hi (Fin.ext h0)
  have hdiv : ctxKey i.val c.val / 64 = i.val := ctxKey_div c.isLt
  have hleaves : interruptTaken s i.val c.val core.val = t.statInc (instStat i.val 0x30) := by
    rw [interruptTaken_delivers hn hi' c.isLt ht hlv fun n hne => h n fun h0 => hne (congrArg Fin.val h0)]
    subst hfr
    dsimp only
    rw [he, delivered_ok (s := irqTaken s i.val c.val src) hm, hdiv]
  refine ⟨leaves_of_eq rfl hleaves, ?_⟩
  obtain ⟨ps, saved, -, rfl⟩ := enterHandler_ok he hm hg
  have hctx : (handlerState (irqTaken s i.val c.val src) g i.val (ctxKey i.val c.val) core.val
      (s.ctx (ctxKey i.val c.val)).undone fr level false ps saved).ctx (ctxKey i.val c.val) = handlerCtx g i.val _ _ _ _ _ _ :=
    State.ctx_setCtx_self _ _ _
  refine ⟨?_, ?_, ?_, ?_⟩
  · have hx : (irqTaken s i.val c.val src).inst i.val = { s.inst i.val with
        irq := (s.inst i.val).irq.filter (· ≠ src), irqPtr := src + 1, ctxPtr := (c.val + 1) % 64 } :=
      State.inst_setInst_self _ _ _
    rw [State.inst, handlerState_insts, ← State.inst, hx]
    exact fun hmem => absurd (List.mem_filter.1 hmem).2 (by simp)
  · rw [hctx]
    exact if_neg hi'
  all_goals rw [hctx]; rfl

theorem noInterrupt : NoInterrupt := by
  intro s i c core h
  refine leaves_of_eq rfl ?_
  cases hn : irqNext s i.val with
  | none => exact interruptTaken_nothing hn
  | some p =>
    have hne : (s.inst i.val).irq ≠ [] := fun h0 => nomatch (irqNext_nothing h0).symm.trans hn
    refine interruptTaken_refused hn ?_
    obtain h0 | h0 | h0 | h0 := h
    · exact nomatch h0.symm.trans hn
    · exact absurd h0 hne
    · exact takesIrq_masked (irqNext_level hn) h0
    · exact takesIrq_flush h0

/-! ## Time slices (R277, R349) -/

theorem timeSlice_stays (h : i = 0 ∨ (s.ctx (ctxKey i.val c.val)).run ≠ .running ∨ (s.ctx (ctxKey i.val c.val)).waiting ≠ none) :
    Leaves (.timeSliceEnd i c) s s := by
  refine leaves_of_eq rfl (if_neg ?_)
  rintro ⟨hi, hr, hw⟩
  obtain h | h | h := h
  · exact hi h
  · exact h hr
  · exact h (Option.isNone_iff_eq_none.1 hw)

theorem timeSlice_ends (hi : i ≠ 0) (hr : (s.ctx (ctxKey i.val c.val)).run = .running)
    (hw : (s.ctx (ctxKey i.val c.val)).waiting = none) :
    ∃ t, Leaves (.timeSliceEnd i c) s t ∧ t.mem = s.mem ∧ t.ctx (ctxKey i.val c.val) =
      { (if (s.ctx (ctxKey i.val c.val)).r.level = 2 then s.ctx (ctxKey i.val c.val) else (s.ctx (ctxKey i.val c.val)).noResv)
        with since := none } :=
  ⟨_, leaves_of_eq rfl (if_pos ⟨hi, hr, Option.isNone_iff_eq_none.2 hw⟩), rfl, State.ctx_setCtx_self _ _ _⟩

/-! ## ESC_CTRL (R328) -/

theorem escCtrl_other {action : Nat} (h : i = 0 ∨ (s.ctx (ctxKey i.val c.val)).run ≠ .held) :
    escCtrl s action i.val c.val = s :=
  if_pos (h.imp_left (congrArg Fin.val))

theorem escCtrl_held {action : Nat} (hi : i ≠ 0) (h : (s.ctx (ctxKey i.val c.val)).run = .held) :
    escCtrl s action i.val c.val = if action = 1 then s.setCtx (ctxKey i.val c.val) { s.ctx (ctxKey i.val c.val) with run := .running }
      else if action = 2 then haltInst s i.val else s :=
  if_neg fun h0 => h0.elim (fun hz => hi (Fin.ext hz)) fun hn => hn h

theorem haltInst_idle {n : Nat} (h2 : (s.inst n).state ≠ 2) (h3 : (s.inst n).state ≠ 3) : haltInst s n = s := by
  unfold haltInst
  dsimp only
  rw [if_neg h2, if_neg (show ¬((s.inst n).state = 3 ∧ (s.inst n).drain = true) from fun h => h3 h.1), ite_self]

theorem haltInst_running {n : Nat} (hn : n ≠ 0) (h2 : (s.inst n).state = 2) :
    haltInst s n = (s.modInst n fun x => { x with zeroDrain := true }).devCommit (stateIntents n 2 3) (.instCmd n 4 3) := by
  unfold haltInst
  dsimp only
  rw [if_neg hn, if_pos h2]

theorem escHalt_halts (hk : s.kpr.running = true) (hi : i ≠ 0) (h : (s.ctx (ctxKey i.val c.val)).run = .held)
    (h2 : (s.inst i.val).state = 2) (ht : s.terminated = false) :
    ∃ t q, Leaves (.escHalt i c) s t ∧ (t.inst i.val).zeroDrain = true ∧ t.tdl.waiting = s.tdl.waiting ++ [q] ∧
      q.intents = stateIntents i.val 2 3 := by
  have hi' : i.val ≠ 0 := fun h0 => hi (Fin.ext h0)
  have hleaves := (byKeeper_running hk fun s => escCtrl s 2 i.val c.val).trans
    ((escCtrl_held hi h).trans (haltInst_running hi' h2))
  rw [devCommit_eq (show (s.modInst i.val _).terminated = false from ht)] at hleaves
  refine ⟨_, _, leaves_of_eq rfl hleaves, ?_, rfl, rfl⟩
  exact congrArg Inst.zeroDrain (State.inst_modInst_self s i.val fun x => { x with zeroDrain := true })

end

theorem slicesThatStay : SlicesThatStay := by
  intro s i c k x
  refine ⟨timeSlice_stays, fun hi hr hw hl => ?_, fun h => ?_, fun h2 h3 => ?_⟩
  · obtain ⟨t, hleaves, hmem, hctx⟩ := timeSlice_ends hi hr hw
    rw [if_pos hl] at hctx
    exact ⟨t, hleaves, hctx, hmem⟩
  · have hsame : ∀ action, (s.byKeeper fun s => escCtrl s action i.val c.val) = s := fun action => by
      cases hk : s.kpr.running with
      | false => exact byKeeper_stopped hk _
      | true => exact (byKeeper_running hk _).trans (escCtrl_other (h.resolve_left fun h0 => Bool.noConfusion (hk.symm.trans h0)))
    exact ⟨leaves_of_eq rfl (hsame 1), leaves_of_eq rfl (hsame 2)⟩
  · refine leaves_of_eq rfl ?_
    cases hk : s.kpr.running with
    | false => exact byKeeper_stopped hk _
    | true =>
      refine (byKeeper_running hk _).trans ?_
      by_cases h : i = 0 ∨ (s.ctx (ctxKey i.val c.val)).run ≠ .held
      · exact escCtrl_other h
      · obtain ⟨hi, hh⟩ := not_or.1 h
        exact (escCtrl_held hi (not_not.1 hh)).trans (haltInst_idle h2 h3)

/-- Settles O50: the one context that takes the source enters its handler, and a slice takes the reservation below level K.
The end of a slice takes the reservation by log entry 34, an interrupt counts as an exception delivered by log entry 41,
and a halted context stays held by log entry 48. -/
theorem interruptsAndSlices : Obligations.InterruptsAndSlices := by
  refine ⟨?_, noInterrupt, slicesThatStay⟩
  intro s i c core k x
  refine ⟨?_, fun hi hr hw => ?_, fun hk hi hh => ⟨?_, fun h2 hterm => escHalt_halts hk hi hh h2 hterm⟩⟩
  · intro src level hn hi ht hl h g hg y z u cause t he hm
    exact interrupt_enters hn hi ht hl h hg rfl he hm
  · obtain ⟨t, hleaves, hmem, hctx⟩ := timeSlice_ends hi hr hw
    refine ⟨t, hleaves, hmem, ?_, fun hl => ?_⟩
    · rw [hctx]
      split <;> rfl
    · rw [hctx, if_neg hl]
      rfl
  · exact leaves_of_eq rfl ((byKeeper_running hk _).trans (escCtrl_held hi hh))

end Sys2Proof.Machine
end

section
/-! SUPPORT. The ends of the operations of the code-flash arrays, and the retention stress. -/

open Sys2Proof.Say

namespace Sys2Proof.Machine

variable {s t u : State}

/-! ## The end of an operation (R482, R493) -/

section
variable {k : Nat} {r : FlopRun} {e : FlopEnv} {st : Word16} {v l : Nat}

/-- The device with an array that is free again. -/
def flopFreed (s : State) (k n : Nat) : State :=
  let s := { s with cfl := { s.cfl with busy := s.cfl.busy.filter (·.1 ≠ k) } }
  s.setReg Reg.CFL_CORR (s.reg Reg.CFL_CORR + BitVec.ofNat 32 n)

/-- The array is free, and the tickets are as they were. -/
structure FlopFree (s u : State) (k : Nat) : Prop where
  tickets : u.tickets = s.tickets
  free : ∀ q ∈ u.cfl.busy, q.1 ≠ k

theorem flopFreed_free (s : State) (k n : Nat) : FlopFree s (flopFreed s k n) k :=
  ⟨rfl, fun _ hq => of_decide_eq_true (List.mem_filter.1 hq).2⟩

/-- The end of an operation with its greatest pulse count. -/
def flopFin (u : State) (r : FlopRun) (e : FlopEnv) (st : Word16) (v l : Nat) : State :=
  flopEnd u r.inst r.ticket r.sel (e.pulses.foldl max 0) v st l

@[simp] theorem flopFin_cells (u : State) (r : FlopRun) (e : FlopEnv) (st : Word16) (v l : Nat) :
    (flopFin u r e st v l).cells = u.cells := by
  unfold flopFin flopEnd
  rw [tkDone_tickets]
  rfl

@[simp] theorem flopFin_cfl (u : State) (r : FlopRun) (e : FlopEnv) (st : Word16) (v l : Nat) :
    (flopFin u r e st v l).cfl = u.cfl := by
  unfold flopFin flopEnd
  rw [tkDone_tickets]
  rfl

@[simp] theorem flopFin_otp (u : State) (r : FlopRun) (e : FlopEnv) (st : Word16) (v l : Nat) :
    (flopFin u r e st v l).otp = u.otp := by
  unfold flopFin flopEnd
  rw [tkDone_tickets]
  rfl

theorem flopFin_mem (u : State) (r : FlopRun) (e : FlopEnv) (st : Word16) (v l : Nat) :
    (flopFin u r e st v l).mem = u.mem := congrArg Prod.fst (flopFin_cells u r e st v l)

theorem flopFin_reg {a : Nat} (h : a ≠ Reg.CFL_LAST) (u : State) (r : FlopRun) (e : FlopEnv) (st : Word16) (v l : Nat) :
    (flopFin u r e st v l).reg a = u.reg a := by
  unfold flopFin flopEnd
  rw [tkDone_tickets]
  exact State.reg_setReg_ne u _ h

theorem rdByte_cells (h : t.cells = u.cells) (a : Nat) : t.rdByte a = u.rdByte a := by
  obtain ⟨hm, ht, hk⟩ : t.mem = u.mem ∧ t.tags = u.tags ∧ t.kpr = u.kpr := by
    simpa only [State.cells, Prod.mk.injEq] using h
  rw [State.rdByte, State.rdByte, phys_congr hk, hm]

theorem rdTag_cells (h : t.cells = u.cells) (a : Nat) : t.rdTag a = u.rdTag a := by
  obtain ⟨hm, ht, hk⟩ : t.mem = u.mem ∧ t.tags = u.tags ∧ t.kpr = u.kpr := by
    simpa only [State.cells, Prod.mk.injEq] using h
  rw [State.rdTag, State.rdTag, phys_congr hk, ht]

/-- Whether a unit is written is a flag of the array. -/
theorem written_congr (h : t.cfl = u.cfl) (a : Nat) : t.written a = u.written a := by
  rw [State.written, State.written, State.unitFlags, State.unitFlags, h]

theorem flopFin_ended (h : FlopFree s u k) (hw : Waits s r.inst r.ticket) : FlopEnded (flopFin u r e st v l) k r e st := by
  obtain ⟨-, -, hu, hd⟩ := hw
  have htk : u.tk r.inst r.ticket = s.tk r.inst r.ticket := by rw [State.tk, State.tk, h.tickets]
  have hu' : ((u.setReg Reg.CFL_LAST
    (BitVec.ofNat 32 (65536 * st.toNat + 256 * e.pulses.foldl max 0 + r.sel % 8))).tk r.inst r.ticket).used = true := by
    rw [← hu, ← htk]; rfl
  have hd' : ((u.setReg Reg.CFL_LAST
    (BitVec.ofNat 32 (65536 * st.toNat + 256 * e.pulses.foldl max 0 + r.sel % 8))).tk r.inst r.ticket).done = false := by
    rw [← hd, ← htk]; rfl
  unfold flopFin flopEnd
  rw [tkDone_waiting hu' hd']
  refine ⟨?_, ?_, h.free, State.reg_setReg_self _ _ _⟩
  · rw [State.tk_setTk_self]
  · rw [State.tk_setTk_self]

/-- The end of a program, which Standby entry may have stopped. -/
def flopProgEnd (u : State) (r : FlopRun) (e : FlopEnv) (stopped : Bool) : State :=
  let m := if stopped then e.pulses.length else r.len / 32
  let p := flopUnits r e m m u
  flopFin p.2.2 r e (if stopped ∧ p.1 = St.ok then St.flopStopped else p.1) p.2.1 (if p.1 = St.carryFault then 0x14 else 0)

/-- A program of one unit. -/
theorem flopProgEnd_one (hl : r.len = 32) (hok : e.ok = true) (hgood : u.isBad r.addr = false) :
    flopProgEnd u r e false = flopFin (progUnit u r.addr (unitWords r.src 0) (e.pulses.getD 0 1)) r e St.ok 32 0 := by
  have hn : (if false = true then e.pulses.length else r.len / 32) = 1 := by rw [hl]; rfl
  rw [flopProgEnd, hn, flopUnits_one r hok hgood]
  rfl

/-- A sector that is margin-read to its end. -/
def marginRead (u : State) (j : Nat) (e : FlopEnv) : State :=
  let u := u.setReg Reg.CFL_MARGIN (BitVec.ofNat 32 (65536 * (e.weak % 65536) + e.topped % 65536))
  u.setSector j { u.sector j with mstamp := u.cfl.stress / (3600 * 2 ^ 32), topped := e.topped }

theorem flopComplete_none (h : s.cfl.busy.find? (·.1 == k) = none) : flopComplete s k e = s := by
  unfold flopComplete
  rw [h]

section
variable (hb : s.cfl.busy.find? (·.1 == k) = some (k, r))
include hb

theorem flopComplete_units (hs : r.sel = 1 ∨ r.sel = 2) : flopComplete s k e =
    flopProgEnd (flopFreed s k e.corrected) r e (decide (s.kpr.standby ≠ 0 ∧ e.pulses.length < r.len / 32 ∧ e.ok = true)) := by
  unfold flopComplete
  rw [hb]
  dsimp only
  obtain h | h := hs
  · rw [flopProgEnd, flopFin, h]
    rfl
  · rw [flopProgEnd, flopFin, h]
    rfl

theorem flopComplete_erase (hs : r.sel = 3) (hok : e.ok = true) :
    flopComplete s k e = flopFin (eraseSector (flopFreed s k e.corrected) r.addr (e.pulses.foldl max 0) true) r e St.ok 65536 0 := by
  unfold flopComplete
  rw [hb]
  dsimp only
  rw [hs, hok]
  rw [flopFin, hs]
  rfl

theorem flopComplete_eraseFails (hs : r.sel = 3) (hok : e.ok = false) :
    flopComplete s k e =
      flopFin (flopBlame (eraseSector (flopFreed s k e.corrected) r.addr (e.pulses.foldl max 0) false) r.addr) r e St.eraseFail 0 0 := by
  unfold flopComplete
  rw [hb]
  dsimp only
  rw [hs, hok, flopFin, hs]
  rw [if_neg Bool.false_ne_true]
  rfl

theorem flopComplete_margin (hs : r.sel = 4) (hsb : s.kpr.standby = 0) (hok : e.ok = true) :
    flopComplete s k e = flopFin (marginRead (flopFreed s k e.corrected) (sectorOf r.addr) e) r e St.ok 65536 0 := by
  unfold flopComplete
  rw [hb]
  dsimp only
  rw [hs, hok, flopFin, hs]
  refine if_neg ?_
  rw [decide_eq_true_eq]
  exact fun h => h.1 hsb

/-- Both evaluations of a swap agree. -/
theorem flopComplete_swap (hs : r.sel = 5) (h2 : e.second = true) (hv : r.first = imageOk s (!s.kpr.bootsel)) :
    flopComplete s k e = if r.first = true then
      flopFin { flopFreed s k e.corrected with
        otp := { s.otp with swapCtr := min 64 (s.otp.swapCtr + 1) }
        cfl := { (flopFreed s k e.corrected).cfl with swapped := true } } r e St.ok 0 0
      else flopFin (flopFreed s k e.corrected) r e St.imageInvalid 0 0 := by
  have himg : imageOk (flopFreed s k e.corrected) (!(flopFreed s k e.corrected).kpr.bootsel) = r.first := hv.symm
  have hsame : secondVerdict e.second (imageOk (flopFreed s k e.corrected) (!(flopFreed s k e.corrected).kpr.bootsel)) = r.first := by
    rw [himg, h2]
    cases r.first <;> rfl
  unfold flopComplete
  rw [hb]
  dsimp only
  rw [hs]
  refine (if_neg (not_not.2 hsame.symm)).trans ?_
  refine (ite_congr (congrArg (¬ · = true) hsame) (fun _ => rfl) fun _ => rfl).trans ?_
  rw [ite_not, flopFin, flopFin, hs]
  rfl

end

/-! ## What an operation leaves -/

theorem FlopFree.trans {w : State} (h : FlopFree s u k) (ht : w.tickets = u.tickets) (hc : w.cfl.busy = u.cfl.busy) : FlopFree s w k :=
  ⟨ht.trans h.tickets, fun q hq => h.free q (hc ▸ hq)⟩

end

/-- The tickets and the operations under way. -/
def State.flops (s : State) : List (Nat × Ticket) × List (Nat × FlopRun) := (s.tickets, s.cfl.busy)

theorem FlopFree.of_flops {w : State} {k : Nat} (h : FlopFree s u k) (hf : w.flops = u.flops) : FlopFree s w k :=
  h.trans (congrArg Prod.fst hf) (congrArg Prod.snd hf)

theorem wrWords_flops (s : State) (a : Nat) (l : List TWord) : (wrWords s a l).flops = s.flops := by
  have ht : (wrWords s a l).tickets = s.tickets := by
    have h := congrArg State.tickets (wrWords_butRing s a l)
    exact h
  rw [State.flops, ht, wrWords_cfl, State.flops]

theorem newCheck_flops (s : State) (a : Nat) : (s.newCheck a).flops = s.flops := by
  unfold State.newCheck State.claim
  split <;> rfl

theorem newCheck_store (s : State) (a : Nat) : (s.newCheck a).cells = s.cells := by
  unfold State.newCheck State.claim
  split <;> rfl

theorem progUnit_flops (s : State) (a : Nat) (l : List TWord) (n : Nat) : (progUnit s a l n).flops = s.flops := by
  rw [progUnit]
  exact (newCheck_flops _ _).trans (wrWords_flops _ _ _)

theorem flopBlame_flops (s : State) (a : Nat) : (flopBlame s a).flops = s.flops := rfl

theorem flopBlame_cfl (s : State) (a : Nat) : (flopBlame s a).cfl = s.cfl := rfl

theorem freeFill_flops (s : State) (a n : Nat) : (freeFill s a n).flops = s.flops := by
  have h : (freeFill s a n).flops = (wrWords s a (freeWords s.freeCtr n)).flops := rfl
  exact h.trans (wrWords_flops _ _ _)

theorem freeCell_flops (s : State) (a : Nat) : (freeCell s a).flops = s.flops := by
  have h : (freeCell s a).flops = (freeFill s a 4).flops := rfl
  exact h.trans (freeFill_flops _ _ _)

theorem freeUnit_flops (s : State) (a : Nat) : (freeUnit s a).flops = s.flops := by
  unfold freeUnit
  split
  · rfl
  · exact (freeCell_flops _ _).trans rfl

theorem freeUnits_flops (a : Nat) (l : List Nat) (s : State) :
    (l.foldl (fun s k => freeUnit s (a + 32 * k)) s).flops = s.flops :=
  foldl_leaves (f := fun s k => freeUnit s (a + 32 * k)) State.flops (fun u _ => freeUnit_flops u _) l s

theorem freeSector_flops (s : State) (a : Nat) : (freeSector s a).flops = s.flops := by
  rw [freeSector]
  exact freeUnits_flops a _ s

theorem setSector_flops (s : State) (j : Nat) (x : Sector) : (s.setSector j x).flops = s.flops := rfl

theorem sector_setSector_self (s : State) (j : Nat) (x : Sector) : (s.setSector j x).sector j = x := sget_sset_self _ _ _ _

theorem eraseSector_flops (s : State) (a n : Nat) (ok : Bool) : (eraseSector s a n ok).flops = s.flops := by
  unfold eraseSector
  dsimp only
  split
  · rfl
  · rw [setSector_flops, freeSector_flops]

theorem eraseSector_efail (s : State) (a n : Nat) : ((eraseSector s a n false).sector (sectorOf a)).efail = true := by
  unfold eraseSector
  dsimp only
  rw [if_neg Bool.false_ne_true, sector_setSector_self]

/-! ## Programmed and erased cells (R476, R483) -/

theorem progUnit_written (s : State) (a : Nat) (l : List TWord) (n : Nat) : (progUnit s a l n).written a = true := by
  unfold progUnit
  dsimp only
  generalize s.setSector (sectorOf a) ((s.sector (sectorOf a)).pulsed (max 1 (min n 16))) = v
  generalize hk : (if v.written (otherHalf a) = true then 3 else 1) = k
  have hodd : k % 2 = 1 := by
    rw [← hk]
    split <;> rfl
  obtain ⟨-, -, hc⟩ := newCheck_cells (wrWords (v.setUnitFlags a k) a l) a
  rw [State.written, State.unitFlags, hc, wrWords_cfl]
  refine beq_iff_eq.2 ((congrArg (· % 2) ?_).trans hodd)
  exact sget_sset_self _ _ _ _

/-- A unit whose cells are named by its own address reads as it was programmed. -/
theorem progUnit_reads {a : Nat} (h32 : a % 32 = 0) (hlo : 0x40000 ≤ a) (hp : a = phys s a) {l : List TWord} (hl : l.length = 4) (n : Nat) :
    (progUnit s a l n).rdWords a 4 = l := by
  have h8 : 8 ∣ a := Nat.dvd_of_mod_eq_zero (by omega)
  have hout : a < 0x28000000 ∨ 0x28200000 ≤ a := by
    by_contra hc
    have := phys_window s (a := a) (by omega) (by omega)
    omega
  obtain hlow | hhigh := hout
  · have hw : ∀ v : State, (wrWords v a l).rdWords a l.length = l := fun v =>
      coreWords_wrWords hlo h8 l (by rw [hl]; exact Nat.le_trans (Nat.add_le_add_right (Nat.le_of_lt hlow) _) (by decide))
    rw [hl] at hw
    rw [progUnit]
    exact (rdWords_cells (newCheck_store _ _) a 4).trans (hw _)
  · have h := (progUnit_holds s hhigh h8 l n).2
    rw [hl] at h
    exact h

theorem eraseSector_blank (s : State) {a c : Nat} (n : Nat) (h : a % 65536 = 0) (hlo : 0x20000000 ≤ a) (hhi : a < 0x22000000)
    (hc : a ≤ c) (hc' : c < a + 65536) :
    (eraseSector s a n true).rdByte c = 0 ∧ (eraseSector s a n true).rdTag c = Tag.raw ∧ (eraseSector s a n true).written c = false := by
  have hp : phys s c = c := phys_outside s (by omega)
  have hp' : phys (eraseSector s a n true) c = c := phys_outside _ (by omega)
  have hrom : ¬ c < 0x40000 := by omega
  refine ⟨?_, ?_, ?_⟩
  · rw [State.rdByte, if_neg hrom, hp']
    refine (sget_filter (fun _ => (0 : Byte)) (fun p => !decide (a ≤ p ∧ p < a + 65536)) s.mem c).trans (if_neg ?_)
    simp [hc, hc']
  · rw [State.rdTag, if_neg hrom, hp']
    refine (sget_filter (fun _ => (0 : Word4)) (fun p => !decide (a ≤ 8 * p ∧ 8 * p < a + 65536)) s.tags (c / 8)).trans (if_neg ?_)
    simp
    omega
  · have hu : (eraseSector s a n true).unitFlags c = 0 := by
      refine (sget_filter (fun _ => 0) (fun p => !decide (a ≤ 32 * p ∧ 32 * p < a + 65536)) s.cfl.units (c / 32)).trans (if_neg ?_)
      simp
      omega
    rw [State.written, hu]
    rfl

/-! ## The operations of the arrays, and the stress (R482-R493) -/

section
variable {k : Fin 4} {r : FlopRun} {e : FlopEnv}

/-- An operation that leaves its array as `u` ends with a status. -/
theorem flop_ends {st : Word16} {v l : Nat} {more : State → Prop} (h : flopComplete s k.val e = flopFin u r e st v l)
    (hf : FlopFree s u k.val) (hw : Waits s r.inst r.ticket) (hm : more (flopFin u r e st v l)) :
    ∃ t, Leaves (.flopComplete k e) s t ∧ FlopEnded t k.val r e st ∧ more t :=
  ⟨_, leaves_of_eq rfl h, flopFin_ended hf hw, hm⟩

section
variable (hb : s.cfl.busy.find? (·.1 == k.val) = some (k.val, r)) (hw : Waits s r.inst r.ticket)
include hb hw

theorem program_ends (hok : e.ok = true) (hs : r.sel = 1 ∨ r.sel = 2) (hsb : s.kpr.standby = 0) (hl : r.len = 32)
    (h32 : r.addr % 32 = 0) (hgood : s.isBad r.addr = false) :
    ∃ t, Leaves (.flopComplete k e) s t ∧ FlopEnded t k.val r e St.ok ∧ t.written r.addr = true ∧
      (r.addr = phys s r.addr → 0x40000 ≤ r.addr → t.rdWords r.addr 4 = unitWords r.src 0) := by
  have hstop : decide (s.kpr.standby ≠ 0 ∧ e.pulses.length < r.len / 32 ∧ e.ok = true) = false :=
    decide_eq_false fun h => h.1 hsb
  have hgood' : (flopFreed s k.val e.corrected).isBad r.addr = false := hgood
  have heq := flopComplete_units (e := e) hb hs
  rw [hstop, flopProgEnd_one hl hok hgood'] at heq
  refine flop_ends heq ((flopFreed_free s k.val e.corrected).of_flops (progUnit_flops _ _ _ _)) hw ⟨?_, fun hp hlo => ?_⟩
  · exact (written_congr (flopFin_cfl _ _ _ _ _ _) _).trans (progUnit_written _ _ _ _)
  · have hp' : r.addr = phys (flopFreed s k.val e.corrected) r.addr := hp
    refine (rdWords_cells (flopFin_cells _ _ _ _ _ _) _ _).trans (progUnit_reads h32 hlo hp' ?_ _)
    rw [unitWords, List.length_map, List.length_range]

theorem erase_ends (hok : e.ok = true) (hs : r.sel = 3) (h : r.addr % 65536 = 0) (hlo : 0x20000000 ≤ r.addr) (hhi : r.addr < 0x22000000) :
    ∃ t, Leaves (.flopComplete k e) s t ∧ FlopEnded t k.val r e St.ok ∧
      ∀ a, r.addr ≤ a → a < r.addr + 65536 → t.rdByte a = 0 ∧ t.rdTag a = Tag.raw ∧ t.written a = false := by
  refine flop_ends (flopComplete_erase hb hs hok)
    ((flopFreed_free s k.val e.corrected).of_flops (eraseSector_flops _ _ _ _)) hw fun a ha ha' => ?_
  have hcells := flopFin_cells (eraseSector (flopFreed s k.val e.corrected) r.addr (e.pulses.foldl max 0) true) r e St.ok 65536 0
  obtain ⟨hbyte, htag, hwr⟩ := eraseSector_blank (flopFreed s k.val e.corrected) (e.pulses.foldl max 0) h hlo hhi ha ha'
  exact ⟨(rdByte_cells hcells a).trans hbyte, (rdTag_cells hcells a).trans htag,
    (written_congr (flopFin_cfl _ _ _ _ _ _) a).trans hwr⟩

theorem erase_fails (hok : e.ok = false) (hs : r.sel = 3) :
    ∃ t, Leaves (.flopComplete k e) s t ∧ FlopEnded t k.val r e St.eraseFail ∧ (t.sector (sectorOf r.addr)).efail = true := by
  have hfree := ((flopFreed_free s k.val e.corrected).of_flops (eraseSector_flops _ r.addr (e.pulses.foldl max 0) false)).of_flops
    (flopBlame_flops _ r.addr)
  refine flop_ends (flopComplete_eraseFails hb hs hok) hfree hw ?_
  rw [State.sector, flopFin_cfl, flopBlame_cfl, ← State.sector]
  exact eraseSector_efail (flopFreed s k.val e.corrected) r.addr _

theorem margin_ends (hok : e.ok = true) (hs : r.sel = 4) (hsb : s.kpr.standby = 0) :
    ∃ t, Leaves (.flopComplete k e) s t ∧ FlopEnded t k.val r e St.ok ∧
      t.reg Reg.CFL_MARGIN = BitVec.ofNat 32 (65536 * (e.weak % 65536) + e.topped % 65536) ∧ t.mem = s.mem := by
  refine flop_ends (flopComplete_margin hb hs hsb hok) ((flopFreed_free s k.val e.corrected).of_flops rfl) hw ⟨?_, flopFin_mem _ _ _ _ _ _⟩
  exact (flopFin_reg (by decide) _ _ _ _ _ _).trans (State.reg_setReg_self _ _ _)

theorem swap_ends (hs : r.sel = 5) (h1 : r.first = true) (hv : imageOk s (!s.kpr.bootsel) = true) (h2 : e.second = true) :
    ∃ t, Leaves (.flopComplete k e) s t ∧ FlopEnded t k.val r e St.ok ∧
      t.otp.swapCtr = min 64 (s.otp.swapCtr + 1) ∧ t.cfl.swapped = true ∧ t.mem = s.mem := by
  refine flop_ends ((flopComplete_swap hb hs h2 (h1.trans hv.symm)).trans (if_pos h1))
    ((flopFreed_free s k.val e.corrected).of_flops rfl) hw ⟨?_, ?_, flopFin_mem _ _ _ _ _ _⟩
  · rw [flopFin_otp]
  · rw [flopFin_cfl]

theorem swap_fails (hs : r.sel = 5) (h1 : r.first = false) (hv : imageOk s (!s.kpr.bootsel) = false) (h2 : e.second = true) :
    ∃ t, Leaves (.flopComplete k e) s t ∧ FlopEnded t k.val r e St.imageInvalid ∧ t.otp = s.otp ∧
      t.cfl.swapped = s.cfl.swapped := by
  refine flop_ends ((flopComplete_swap hb hs h2 (h1.trans hv.symm)).trans (if_neg (Bool.eq_false_iff.1 h1)))
    (flopFreed_free s k.val e.corrected) hw ⟨flopFin_otp _ _ _ _ _ _, ?_⟩
  rw [flopFin_cfl]
  rfl

end

/-- At 105 °C each second counts as one. -/
theorem stressRate_zero : stressRate 0 = 2 ^ 32 := by decide +kernel

theorem stressUpdate_idle (h : s.pwr.up = false ∨ s.pwr.flush ≠ 0) : stressUpdate s = s :=
  if_pos (h.imp_left fun hu => by rw [hu]; exact Bool.false_ne_true)

theorem stressUpdate_reference (hu : s.pwr.up = true) (hf : s.pwr.flush = 0) (ht : ∀ n, n < 4 → dieTemp s n = 1050) :
    stressUpdate s = { s with cfl := { s.cfl with stress := s.cfl.stress + 2 ^ 32 } } := by
  have hgo : ¬ (¬ s.pwr.up = true ∨ s.pwr.flush ≠ 0) := by
    rw [hu, hf]
    simp
  unfold stressUpdate
  rw [if_neg hgo, ht 0 (by decide), ht 1 (by decide), ht 2 (by decide), ht 3 (by decide)]
  dsimp only
  rw [show max (max (1050 : Int) 1050) (max 1050 1050) - 1050 = 0 from rfl, stressRate_zero]

theorem flashEndsOtherwise : FlashEndsOtherwise := by
  refine ⟨fun s k e hb => leaves_of_eq rfl (flopComplete_none hb), fun s k r e hb hw => ⟨fun hs hok => erase_fails hb hw hok hs,
    fun hs h1 hv h2 => swap_fails hb hw hs h1 hv h2⟩, fun s => ⟨fun h => leaves_of_eq rfl (stressUpdate_idle h), fun h n => ?_⟩⟩
  exact leaves_of_eq rfl (byKeeper_stopped h _)

end

/-- Settles O52: each operation ends with its status in CFL.LAST, its ticket and a free array, and with the cells as it
leaves them. -/
theorem codeFlash : Obligations.CodeFlash := by
  refine ⟨?_, fun s => ⟨fun hu hf ht => leaves_of_eq rfl (stressUpdate_reference hu hf ht), fun hk h => ?_⟩, flashEndsOtherwise⟩
  · intro s k r e hb hw hok ends
    exact ⟨fun hs hsb hl h32 hgood => program_ends hb hw hok hs hsb hl h32 hgood, fun hs h hlo hhi => erase_ends hb hw hok hs h hlo hhi,
      fun hs hsb => margin_ends hb hw hok hs hsb, fun hs h1 hv h2 => swap_ends hb hw hs h1 hv h2⟩
  · refine leaves_of_eq rfl ((byKeeper_running hk _).trans ?_)
    rw [rsadd, Nat.mul_assoc]

end Sys2Proof.Machine
end

section
/-! SUPPORT. The care of the evidence flash. -/

open Sys2Proof.Say

namespace Sys2Proof.Machine

variable {s t : State} {b n : Nat}

/-! ## Blocks (R496) -/

@[simp] theorem blk_setBlk_self (s : State) (b : Nat) (x : Blk) : (s.setBlk b x).blk b = x := sget_sset_self _ _ _ _

theorem blk_setBlk_ne (s : State) {j : Nat} (x : Blk) (h : j ≠ b) : (s.setBlk b x).blk j = s.blk j := sget_sset_ne _ _ _ h

theorem blk_congr (h : t.evf.blocks = s.evf.blocks) (j : Nat) : t.blk j = s.blk j := by rw [State.blk, State.blk, h]

theorem findUse_use {use start : Nat} (h : findUse s use start = some n) : (s.blk n).use = use := by
  rw [findUse] at h
  exact beq_iff_eq.1 (List.find?_some (p := fun b => (s.blk b).use == use) h)

/-- A block of the pool holds no evidence. -/
theorem pool_ne (hx : (s.blk b).holds = true) {start : Nat} (h : findUse s 0 start = some n) : n ≠ b := by
  rintro rfl
  have h0 := findUse_use h
  rw [Blk.holds, h0] at hx
  exact absurd hx (by decide)

/-- The device with a block of its pool taken. -/
def poolDrawn (s : State) : State := { s with freeCtr := s.freeCtr + 1, evf := { s.evf with spare := s.evf.spare - 1 } }

/-- The device with the content of a block moved to another. -/
def relocated (s : State) (b n : Nat) : State :=
  (poolDrawn s).setBlk n { s.blk n with use := (s.blk b).use, maxcb := 0, seen := s.kpr.devtime }

theorem relocated_blk_self (s : State) (b n : Nat) : ((relocated s b n).blk n).use = (s.blk b).use := by
  rw [relocated, blk_setBlk_self]

theorem relocated_blk_ne (h : b ≠ n) : (relocated s b n).blk b = s.blk b := by
  rw [relocated, blk_setBlk_ne _ _ h]
  rfl

theorem relocate_some (h : findUse s 0 (Config.pick s.freeCtr % 43520) = some n) : relocate s b = some (relocated s b n) := by
  unfold relocate
  rw [h]
  rfl

theorem relocate_none (h : findUse s 0 (Config.pick s.freeCtr % 43520) = none) : relocate s b = none := by
  unfold relocate
  rw [h]

theorem refillPool_empty (h : s.evf.margin = 0) : refillPool s = s := by
  refine if_neg fun h' => ?_
  rw [h] at h'
  exact absurd h'.2 (Nat.lt_irrefl 0)

theorem sealDecide_plenty (h : 217 < s.evf.spare) : sealDecide s = s := if_pos (.inr (.inr h))

/-- No store is sealed while the pool has blocks and the margin reserve none. -/
theorem pool_settled (hm : s.evf.margin = 0) (h : 217 < s.evf.spare) : sealDecide (refillPool s) = s := by
  rw [refillPool_empty hm, sealDecide_plenty h]

/-! ## Refresh and retirement (R502, R503) -/

/-- The device with a refresh counted. -/
def refreshed (s : State) (b n : Nat) : State := ((relocated s b n).incReg Reg.EVF_REFRESHES).statInc (dieStat b 24)

theorem refreshed_blk (s : State) (b n j : Nat) : (refreshed s b n).blk j = (relocated s b n).blk j := rfl

theorem refreshed_retireAt (s : State) (b n : Nat) : retireAt (refreshed s b n) = retireAt s := by
  have h : (refreshed s b n).reg Reg.EVF_THRESH = s.reg Reg.EVF_THRESH := State.reg_setReg_ne _ _ (by decide)
  rw [retireAt, retireAt, State.regFld, State.regFld, h]

/-- A block that is erased and goes back to the pool. -/
def pooled (s : State) (b ecount : Nat) : State :=
  let s := (s.setBlk b { use := 0, ecount := ecount }).statInc (dieStat b 8)
  { s with evf := { s.evf with spare := s.evf.spare + 1 } }

section
variable (hx : (s.blk b).holds = true) (hr : s.kpr.replayDone = true) (hf : s.pwr.flush = 0) (hc : refreshAt s ≤ (s.blk b).maxcb)
include hx hr hf hc

theorem refreshSwitch_noPool (h : findUse s 0 (Config.pick s.freeCtr % 43520) = none) (ok : Bool) :
    refreshSwitch s b ok = { s with evf := { s.evf with noRefresh := true } } := by
  have hgo : ¬ (¬ (s.blk b).holds = true ∨ ¬ s.kpr.replayDone = true ∨ s.pwr.flush ≠ 0 ∨ (s.blk b).maxcb < refreshAt s) := by
    rw [hx, hr, hf]
    simp [Nat.not_lt.2 hc]
  unfold refreshSwitch
  dsimp only
  rw [if_neg hgo, relocate_none h]

theorem refreshSwitch_moves (h : findUse s 0 (Config.pick s.freeCtr % 43520) = some n) (ok : Bool) :
    refreshSwitch s b ok = sealDecide (refillPool (if retireAt s ≤ (s.blk b).maxcb ∨ ¬ ok = true then retireBlk (refreshed s b n) b
      else pooled (refreshed s b n) b (min ((s.blk b).ecount + 1) 65535))) := by
  have hgo : ¬ (¬ (s.blk b).holds = true ∨ ¬ s.kpr.replayDone = true ∨ s.pwr.flush ≠ 0 ∨ (s.blk b).maxcb < refreshAt s) := by
    rw [hx, hr, hf]
    simp [Nat.not_lt.2 hc]
  have hat := refreshed_retireAt s b n
  unfold refreshed at hat
  unfold refreshSwitch
  dsimp only
  rw [if_neg hgo, relocate_some h]
  dsimp only
  rw [hat]
  rfl

end

/-! ## What a block's move leaves -/

theorem retireBlk_blk_self (s : State) (b : Nat) : ((retireBlk s b).blk b).use = 7 := by
  have h : (retireBlk s b).blk b = (s.setBlk b { s.blk b with use := 7 }).blk b := rfl
  rw [h, blk_setBlk_self]

theorem retireBlk_blk_ne {j : Nat} (h : j ≠ b) : (retireBlk s b).blk j = s.blk j := by
  have h' : (retireBlk s b).blk j = (s.setBlk b { s.blk b with use := 7 }).blk j := rfl
  rw [h', blk_setBlk_ne _ _ h]

theorem pooled_blk_self (s : State) (b c : Nat) : (pooled s b c).blk b = { use := 0, ecount := c } := by
  have h : (pooled s b c).blk b = (s.setBlk b { use := 0, ecount := c }).blk b := rfl
  rw [h, blk_setBlk_self]

theorem pooled_blk_ne {c j : Nat} (h : j ≠ b) : (pooled s b c).blk j = s.blk j := by
  have h' : (pooled s b c).blk j = (s.setBlk b { use := 0, ecount := c }).blk j := rfl
  rw [h', blk_setBlk_ne _ _ h]

@[simp] theorem retireBlk_spare (s : State) (b : Nat) : (retireBlk s b).evf.spare = s.evf.spare := rfl
@[simp] theorem retireBlk_retired (s : State) (b : Nat) : (retireBlk s b).evf.retired = s.evf.retired + 1 := rfl
@[simp] theorem retireBlk_dur (s : State) (b : Nat) : (retireBlk s b).dur = s.dur := rfl
@[simp] theorem pooled_spare (s : State) (b c : Nat) : (pooled s b c).evf.spare = s.evf.spare + 1 := rfl
@[simp] theorem pooled_dur (s : State) (b c : Nat) : (pooled s b c).dur = s.dur := rfl
@[simp] theorem relocated_spare (s : State) (b n : Nat) : (relocated s b n).evf.spare = s.evf.spare - 1 := rfl
@[simp] theorem relocated_retired (s : State) (b n : Nat) : (relocated s b n).evf.retired = s.evf.retired := rfl
@[simp] theorem relocated_dur (s : State) (b n : Nat) : (relocated s b n).dur = s.dur := rfl
@[simp] theorem refreshed_spare (s : State) (b n : Nat) : (refreshed s b n).evf.spare = s.evf.spare - 1 := rfl
@[simp] theorem refreshed_retired (s : State) (b n : Nat) : (refreshed s b n).evf.retired = s.evf.retired := rfl
@[simp] theorem refreshed_dur (s : State) (b n : Nat) : (refreshed s b n).dur = s.dur := rfl

section
variable (hx : (s.blk b).holds = true) (h : findUse s 0 (Config.pick s.freeCtr % 43520) = some n)
  (hs : 217 < s.evf.spare - 1) (hm : s.evf.margin = 0)
include hx h hs hm

section
variable (hr : s.kpr.replayDone = true) (hf : s.pwr.flush = 0) (hc : refreshAt s ≤ (s.blk b).maxcb)
include hr hf hc

theorem refreshSwitch_retires (hre : retireAt s ≤ (s.blk b).maxcb) (ok : Bool) :
    refreshSwitch s b ok = retireBlk (refreshed s b n) b := by
  rw [refreshSwitch_moves hx hr hf hc h, if_pos (.inl hre)]
  exact pool_settled hm hs

theorem refreshSwitch_pools (hre : (s.blk b).maxcb < retireAt s) :
    refreshSwitch s b true = pooled (refreshed s b n) b (min ((s.blk b).ecount + 1) 65535) := by
  have hno : ¬ (retireAt s ≤ (s.blk b).maxcb ∨ ¬ true = true) := by simp [Nat.not_le.2 hre]
  rw [refreshSwitch_moves hx hr hf hc h, if_neg hno]
  exact pool_settled hm (Nat.lt_succ_of_lt hs)

end

theorem nandFail_retires (hu : s.pwr.up = true) : nandFail s b = retireBlk (relocated s b n) b := by
  have hgo : ¬ (¬ (s.blk b).holds = true ∨ ¬ s.pwr.up = true) := by simp [hx, hu]
  unfold nandFail
  rw [if_neg hgo, relocate_some h]
  exact pool_settled hm hs

end

theorem nandFail_stays (h : (s.blk b).holds = false ∨ s.pwr.up = false ∨ findUse s 0 (Config.pick s.freeCtr % 43520) = none) :
    nandFail s b = s := by
  unfold nandFail
  split
  · rfl
  · next hgo =>
    obtain ⟨hx, hu⟩ := not_or.1 hgo
    have hn := (h.resolve_left fun h0 => hx (Bool.eq_false_iff.1 h0)).resolve_left fun h0 => hu (Bool.eq_false_iff.1 h0)
    rw [relocate_none hn]

theorem refreshSwitch_below (h : (s.blk b).maxcb < refreshAt s) (ok : Bool) : refreshSwitch s b ok = s := by
  unfold refreshSwitch
  exact if_pos (.inr (.inr (.inr h)))

theorem empty_or_early (h : (s.blk b).holds = false ∨ s.kpr.replayDone = false) :
    ¬ (s.blk b).holds = true ∨ ¬ s.kpr.replayDone = true :=
  h.imp (fun h0 => Bool.eq_false_iff.1 h0) fun h0 => Bool.eq_false_iff.1 h0

theorem refreshSwitch_stays (h : (s.blk b).holds = false ∨ s.kpr.replayDone = false) (ok : Bool) : refreshSwitch s b ok = s := by
  unfold refreshSwitch
  obtain h | h := empty_or_early h
  · exact if_pos (.inl h)
  · exact if_pos (.inr (.inl h))

/-! ## Patrol (R500, R501) -/

theorem patrolRead_stays (h : (s.blk b).holds = false ∨ s.kpr.replayDone = false) (m : Nat) (u : Bool) : patrolRead s b m u = s := by
  obtain h | h := empty_or_early h
  · exact if_pos (.inr (.inl h))
  · exact if_pos (.inl h)

/-- A read that may have needed a retry. -/
def patrolRetried (s : State) (again : Bool) : State :=
  if again then { s with freeCtr := s.freeCtr + 1 }.incReg Reg.EVF_RETRIES else s

/-- A read whose worst codeword asks for a refresh that the pool may not give. -/
def patrolNoted (s : State) (m : Nat) : State :=
  if refreshAt s ≤ m ∧ s.evf.spare = 0 then { s with evf := { s.evf with noRefresh := true } } else s

/-- A block counted in its round. -/
def patrolVisited (s : State) (b : Nat) : State :=
  let v := if b ∈ s.evf.visited then s.evf.visited else s.evf.visited ++ [b]
  let full := decide (33498 ≤ v.length)
  let s := { s with evf := { s.evf with visited := if full then [] else v, catchup := s.evf.catchup && !full } }
  s.setReg Reg.EVF_PATROL ((s.reg Reg.EVF_PATROL &&& 0xFFFF0000) ||| BitVec.ofNat 32 (if full then 0 else 10000 * v.length / 33498))

/-- The blocks, and what a patrol leaves alone. -/
def State.patrolled (s : State) : List (Nat × Blk) × List (Nat × Byte) × Durable := (s.evf.blocks, s.mem, s.dur)

theorem patrolRetried_patrolled (s : State) (again : Bool) : (patrolRetried s again).patrolled = s.patrolled := by
  unfold patrolRetried
  split <;> rfl

theorem patrolNoted_patrolled (s : State) (m : Nat) : (patrolNoted s m).patrolled = s.patrolled := by
  unfold patrolNoted
  split <;> rfl

theorem patrolVisited_patrolled (s : State) (b : Nat) : (patrolVisited s b).patrolled = s.patrolled := rfl

/-- A block read with its worst codeword. -/
def patrolSeen (s : State) (b m : Nat) : State :=
  ((s.setBlk b { s.blk b with maxcb := m, seen := s.kpr.devtime }).statInc (dieStat b 0) 256).statMax (dieStat b 12) m

theorem statInc_patrolled (s : State) (o n : Nat) : (s.statInc o n).patrolled = s.patrolled := rfl

theorem statMax_patrolled (s : State) (o n : Nat) : (s.statMax o n).patrolled = s.patrolled := rfl

theorem patrolSeen_patrolled (s : State) (b m : Nat) : (patrolSeen s b m).patrolled =
    (s.setBlk b { s.blk b with maxcb := m, seen := s.kpr.devtime }).patrolled := by
  rw [patrolSeen, statMax_patrolled, statInc_patrolled]

section
variable (hx : (s.blk b).holds = true) (hr : s.kpr.replayDone = true) (hf : s.pwr.flush = 0) (m : Nat)
include hx hr hf

theorem patrolRead_corrected : patrolRead s b m false =
    patrolVisited (patrolNoted (patrolRetried (patrolSeen s b m)
      (false || decide (120 < m ∧ Config.pick (patrolSeen s b m).freeCtr % 2 = 1))) m) b := by
  have hgo : ¬ (¬ s.kpr.replayDone = true ∨ ¬ (s.blk b).holds = true ∨ s.pwr.flush ≠ 0) := by simp [hx, hr, hf]
  exact if_neg hgo

/-- What a patrol read that corrects the block leaves beside the counts. -/
theorem patrolRead_reads : (patrolRead s b m false).blk b = { s.blk b with maxcb := m, seen := s.kpr.devtime } ∧
    (patrolRead s b m false).mem = s.mem ∧ (patrolRead s b m false).dur = s.dur := by
  have hv : (patrolRead s b m false).patrolled = (s.setBlk b { s.blk b with maxcb := m, seen := s.kpr.devtime }).patrolled := by
    rw [patrolRead_corrected hx hr hf, patrolVisited_patrolled, patrolNoted_patrolled, patrolRetried_patrolled, patrolSeen_patrolled]
  refine ⟨(blk_congr (congrArg Prod.fst hv) b).trans (blk_setBlk_self _ _ _), ?_, ?_⟩
  · exact congrArg (fun x : List (Nat × Blk) × List (Nat × Byte) × Durable => x.2.1) hv
  · exact congrArg (fun x : List (Nat × Blk) × List (Nat × Byte) × Durable => x.2.2) hv

end

/-! ## The seal of the store (R505) -/

/-- The seal of the store as a commit of the device. -/
def sealCommit (s : State) : Commit :=
  { id := 0, src := 64, intents := [.devRec 0 0x000B (leBytes 4 (s.evf.spare * 10000 / 43520))], purpose := .sealRec, reserve := true }

theorem storeSealRecord_seals (hs : s.tdl.sealing = true) (hw : s.tdl.waiting = []) (ha : s.tdl.admitted = [])
    (hq : signQueue s = 0) (ht : s.terminated = false) : Leaves .storeSealRecord s (s.enqueue (sealCommit s)) := by
  have hasked : ¬ ((s.tdl.waiting ++ s.tdl.admitted).any fun c => c.purpose == .sealRec) = true := by
    rw [hw, ha]
    exact Bool.false_ne_true
  refine leaves_of_eq rfl ((if_pos ⟨hs, hasked, ha, hq⟩).trans (if_neg ?_))
  rw [ht]
  exact Bool.false_ne_true

theorem patrolLate_stays {b : Fin 43520} (h : (s.blk b.val).holds = false ∨ s.kpr.replayDone = false) : Leaves (.patrolLate b) s s := by
  refine leaves_of_eq rfl (if_neg fun hgo => ?_)
  exact (empty_or_early h).elim (fun h0 => h0 hgo.2) fun h0 => h0 hgo.1

theorem blocksThatStay : BlocksThatStay := by
  refine ⟨?_, fun s h => leaves_of_eq rfl (if_neg fun hgo => Bool.noConfusion (h.symm.trans hgo.1))⟩
  intro s b x pool
  refine ⟨fun h => ⟨fun m u => leaves_of_eq rfl (patrolRead_stays h _ u), patrolLate_stays h,
      fun ok => leaves_of_eq rfl (refreshSwitch_stays h ok)⟩,
    fun h ok => leaves_of_eq rfl (refreshSwitch_below h ok), fun hx hr hf hc => ⟨fun hp ok => ?_, fun n hp hs hm hre ok => ?_⟩,
    fun h => leaves_of_eq rfl (nandFail_stays h)⟩
  · exact leaves_of_eq rfl (refreshSwitch_noPool hx hr hf hc hp ok)
  · have hne := pool_ne hx hp
    refine ⟨_, leaves_of_eq rfl (refreshSwitch_retires hx hp hs hm hr hf hc hre ok), retireBlk_blk_self _ _, ?_, ?_, ?_, ?_⟩
    · rw [retireBlk_blk_ne hne, refreshed_blk, relocated_blk_self]
    · rw [retireBlk_spare, refreshed_spare]
    · rw [retireBlk_retired, refreshed_retired]
    · rw [retireBlk_dur, refreshed_dur]

/-- Settles O53: a block's content moves to a block of the pool, which is another block, and the block is erased into the
pool or retired; while the pool has blocks and the margin reserve none, no seal is decided. -/
theorem evidenceFlashCare : Obligations.EvidenceFlashCare := by
  refine ⟨?_, fun s hs hw ha hq ht => ?_, blocksThatStay⟩
  · intro s b x hx hr
    refine ⟨leaves_of_eq rfl (if_pos ⟨hr, hx⟩), fun hf => ⟨fun m => ?_, fun n hp hs hm => ⟨fun hc hre => ?_, fun hu => ?_⟩⟩⟩
    · obtain ⟨hblk, hmem, hdur⟩ := patrolRead_reads hx hr hf m.toNat
      refine ⟨_, leaves_of_eq rfl rfl, ?_, ?_, ?_, hmem, hdur⟩
      all_goals rw [hblk]
    · have hne := pool_ne hx hp
      refine ⟨_, leaves_of_eq rfl (refreshSwitch_pools hx hp hs hm hr hf hc hre), ?_, ?_, ?_, ?_, ?_⟩
      · rw [pooled_blk_self]
      · rw [pooled_blk_self]
      · rw [pooled_blk_ne hne, refreshed_blk, relocated_blk_self]
      · rw [pooled_spare, refreshed_spare]
        omega
      · rw [pooled_dur, refreshed_dur]
    · have hne := pool_ne hx hp
      refine ⟨_, leaves_of_eq rfl (nandFail_retires hx hp hs hm hu), retireBlk_blk_self _ _, ?_, ?_, ?_⟩
      · rw [retireBlk_blk_ne hne, relocated_blk_self]
      · rw [retireBlk_spare, relocated_spare]
      · rw [retireBlk_dur, relocated_dur]
  · refine ⟨_, { sealCommit s with id := s.tdl.nextId, issued := s.kpr.devtime }, storeSealRecord_seals hs hw ha hq ht, ?_, rfl, rfl, rfl⟩
    exact congrArg (· ++ [_]) hw

end Sys2Proof.Machine
end

section
/-! SUPPORT. The commands of INS.CMD. -/

open Sys2Proof.Say

namespace Sys2Proof.Machine

variable {s t u v : State}

/-! ## A command that is written (R336, R374) -/

theorem insRow_leaves {p : Instr × Nat} (hp : p ∈ insRows) (h : (s.byKeeper fun s => insCmd s p.2) = v) : Leaves p.1 s v := by
  have hall : ∀ p ∈ insRows, (s.byKeeper fun s => insCmd s p.2) = v → Leaves p.1 s v := by
    simp only [insRows, List.forall_mem_cons]
    refine ⟨?_, ?_, ?_, ?_, ?_, ?_, ?_, ?_, ?_, ?_, ?_, ?_, fun _ h => absurd h List.not_mem_nil⟩
    all_goals exact fun h => leaves_of_eq rfl h
  exact hall p hp h

theorem insRow_code {p : Instr × Nat} (hp : p ∈ insRows) : p.2 ≠ 0 ∧ p.2 < 13 := by
  have hall : ∀ p ∈ insRows, p.2 ≠ 0 ∧ p.2 < 13 := by
    simp only [insRows, List.forall_mem_cons]
    refine ⟨?_, ?_, ?_, ?_, ?_, ?_, ?_, ?_, ?_, ?_, ?_, ?_, fun _ h => absurd h List.not_mem_nil⟩
    all_goals exact ⟨by decide, by decide⟩
  exact hall p hp

section
variable {op : Nat} {img : MigImage}

theorem insCmd_busy (h : s.ins.busy ≠ none) : insCmd s op img = s :=
  if_pos (.inl (Option.isSome_iff_ne_none.2 h))

section
variable (hb : s.ins.busy = none) (h0 : op ≠ 0) (h13 : op ≤ 13)
include hb h0 h13

theorem insCmd_free : ¬ (s.ins.busy.isSome = true ∨ op = 0 ∨ 13 < op) := by
  rw [hb]
  simp [h0, h13]

theorem insCmd_refused (h : (isel s = 0 ∧ op ≠ 8) ∨ (isel s ≠ 0 ∧ insFrom op (s.inst (isel s)).state = false)) :
    insCmd s op img = cmdEnded s op St.instanceState := by
  refine (if_neg (insCmd_free hb h0 h13)).trans (if_pos (h.imp_right fun hf hor => ?_))
  exact hor.elim hf.1 fun ht => Bool.noConfusion (hf.2.symm.trans ht)

end

theorem insCmd_permitted (hi : isel s ≠ 0) (hf : insFrom op (s.inst (isel s)).state = true) :
    ¬ ((isel s = 0 ∧ op ≠ 8) ∨ ¬ (isel s = 0 ∨ insFrom op (s.inst (isel s)).state = true)) := by
  rintro (h | h)
  · exact hi h.1
  · exact h (.inr hf)

end

section
variable (hb : s.ins.busy = none) (hi : isel s ≠ 0)
include hb hi

theorem insCmd_save (hf : insFrom 11 (s.inst (isel s)).state = true) : insCmd s 11 = insSave (cmdBegun s 11) (isel s) :=
  (if_neg (insCmd_free hb (by decide) (by decide))).trans (if_neg (insCmd_permitted hi hf))

theorem insCmd_offer (hf : insFrom 12 (s.inst (isel s)).state = true) : insCmd s 12 = insOffer (cmdBegun s 12) (isel s) :=
  (if_neg (insCmd_free hb (by decide) (by decide))).trans (if_neg (insCmd_permitted hi hf))

theorem insCmd_restore {img : MigImage} (hf : insFrom 13 (s.inst (isel s)).state = true) :
    insCmd s 13 img = insRestore (cmdBegun s 13) (isel s) img :=
  (if_neg (insCmd_free hb (by decide) (by decide))).trans (if_neg (insCmd_permitted hi hf))

theorem insCmd_local {op : Nat} (h0 : op ≠ 0) (h11 : op < 11) (hf : insFrom op (s.inst (isel s)).state = true) :
    insCmd s op = insLocal (cmdBegun s op) (isel s) op := by
  refine (if_neg (insCmd_free hb h0 (by omega))).trans ((if_neg (insCmd_permitted hi hf)).trans ?_)
  split
  · omega
  · omega
  · omega
  · rfl

end

/-! ## A command's commit (R337) -/

/-- What the commit of a command finds: no state of a table entry, no durable state and no memory has changed since the command
was written. -/
structure CmdKept (s u : State) (op : Nat) : Prop where
  busy : u.ins.busy = some (isel s, op)
  tdl : u.tdl = s.tdl
  dur : u.dur = s.dur
  mem : u.mem = s.mem
  mode : u.mode = s.mode
  state : ∀ i, (u.inst i).state = (s.inst i).state

theorem cmdBegun_kept (s : State) (op : Nat) : CmdKept s (cmdBegun s op) op := ⟨rfl, rfl, rfl, rfl, rfl, fun _ => rfl⟩

theorem CmdKept.modInst {op i : Nat} (h : CmdKept s u op) {f : Inst → Inst} (hf : ∀ x, (f x).state = x.state) :
    CmdKept s (u.modInst i f) op := by
  refine ⟨h.busy, h.tdl, h.dur, h.mem, h.mode, fun j => (?_ : _ = (u.inst j).state).trans (h.state j)⟩
  by_cases hj : j = i
  · rw [hj, State.inst_modInst_self, hf]
  · rw [State.inst_modInst_ne _ _ hj]

theorem insCommit_waits {c : Instr} {op new : Nat} {more : List Eff} {recs : List Intent} (h : CmdKept s u op)
    (ht : s.terminated = false) (hl : Leaves c s (insCommit u (isel s) op new more recs)) : CmdWaits c s op new more recs := by
  have hterm : u.terminated = false := (congrArg (· == Mode.terminated) h.mode).trans ht
  rw [insCommit, devCommit_eq hterm] at hl
  refine ⟨_, _, hl, h.busy, congrArg (fun q : Tdl => q.waiting ++ [_]) h.tdl, rfl, rfl, ?_, h.dur, h.mem, h.state⟩
  rw [← h.state]
  rfl

/-! ## The commands of the row (R343, R347, R348, R354, R355) -/

section
variable (hk : s.kpr.running = true) (hb : s.ins.busy = none) (hi : isel s ≠ 0)
include hk hb hi

/-- A permitted command that is not of migration. -/
theorem command_leaves {c : Instr} (op : Nat) (hrow : ∀ v, (s.byKeeper fun s => insCmd s op) = v → Leaves c s v) (h0 : op ≠ 0)
    (h11 : op < 11) (hf : insFrom op (s.inst (isel s)).state = true) (h : insLocal (cmdBegun s op) (isel s) op = v) : Leaves c s v :=
  hrow v ((byKeeper_running hk _).trans ((insCmd_local hb hi h0 h11 hf).trans h))

section
variable (ht : s.terminated = false)
include ht

theorem createInst_waits {d : List Byte} (h0 : (s.inst (isel s)).state = 0)
    (hd : readDesc (cmdBegun s 1) (isel s) true = (.ok d, cmdBegun s 1)) :
    CmdWaits .createInst s 1 1 (.desc (isel s) d :: (volumeIntents s (isel s) d).1) (volumeIntents s (isel s) d).2 := by
  have hvol : volumeIntents (cmdBegun s 1) (isel s) d = volumeIntents s (isel s) d := rfl
  refine insCommit_waits (u := (cmdBegun s 1).modInst (isel s) fun x => { x with desc := d })
    ((cmdBegun_kept s 1).modInst fun _ => rfl) ht
    (command_leaves hk hb hi 1 (fun _ h => leaves_of_eq rfl h) (by decide) (by decide) (by rw [h0]; rfl) ?_)
  simp only [insLocal, hd, hvol]

theorem startInst_waits {ws : List TWord} (h1 : (s.inst (isel s)).state = 1) (hin : (s.inst (isel s)).installed = true)
    (hm : s.mode = Mode.service) (he : etab (cmdBegun s 3) (s.inst (isel s)).desc = (.ok ws, cmdBegun s 3)) :
    CmdWaits .startInst s 3 2 [] [] := by
  refine insCommit_waits (u := (cmdBegun s 3).modInst (isel s) fun x => { x with entries := ws })
    ((cmdBegun_kept s 3).modInst fun _ => rfl) ht
    (command_leaves hk hb hi 3 (fun _ h => leaves_of_eq rfl h) (by decide) (by decide) (by rw [h1]; rfl) ?_)
  have hin' : ((cmdBegun s 3).inst (isel s)).installed = true := hin
  have hm' : (cmdBegun s 3).mode = Mode.service := hm
  have he' : etab (cmdBegun s 3) ((cmdBegun s 3).inst (isel s)).desc = (.ok ws, cmdBegun s 3) := he
  simp only [insLocal, hin', hm', he', not_true_eq_false, if_false, ne_eq]

theorem quiesce_waits (h2 : (s.inst (isel s)).state = 2) : CmdWaits .quiesce s 4 3 [] [] :=
  insCommit_waits (cmdBegun_kept s 4) ht
    (command_leaves hk hb hi 4 (fun _ h => leaves_of_eq rfl h) (by decide) (by decide) (by rw [h2]; rfl) rfl)

theorem resumeInst_waits (h : (s.inst (isel s)).state = 4 ∨ (s.inst (isel s)).state = 5) (hm : s.mode = Mode.service) :
    CmdWaits .resumeInst s 5 2 [] [] :=
  insCommit_waits (cmdBegun_kept s 5) ht
    (command_leaves hk hb hi 5 (fun _ h => leaves_of_eq rfl h) (by decide) (by decide) (by obtain h | h := h <;> rw [h] <;> rfl)
      (if_neg (not_not.2 hm)))

theorem resetInst_waits (h4 : (s.inst (isel s)).state = 4) : CmdWaits .resetInst s 6 1 [] [] :=
  insCommit_waits (cmdBegun_kept s 6) ht
    (command_leaves hk hb hi 6 (fun _ h => leaves_of_eq rfl h) (by decide) (by decide) (by rw [h4]; rfl) rfl)

theorem removeInst_waits (h : (s.inst (isel s)).state = 1 ∨ (s.inst (isel s)).state = 4 ∨ (s.inst (isel s)).state = 6) :
    CmdWaits .removeInst s 7 0 (.retain (isel s) ((s.inst (isel s)).state == 6) :: .desc (isel s) [] :: giveUp s (isel s)) [] :=
  insCommit_waits (cmdBegun_kept s 7) ht
    (command_leaves hk hb hi 7 (fun _ h => leaves_of_eq rfl h) (by decide) (by decide)
      (by obtain h | h | h := h <;> rw [h] <;> rfl) rfl)

theorem freeze_waits (h4 : (s.inst (isel s)).state = 4) (hr : ringsEmpty s (isel s) = true)
    (hst : (s.inst (isel s)).staged = none) (hh : ∀ p ∈ instCtxs s (isel s), p.2.run ≠ .held) : CmdWaits .freeze s 10 5 [] [] := by
  refine insCommit_waits (cmdBegun_kept s 10) ht
    (command_leaves hk hb hi 10 (fun _ h => leaves_of_eq rfl h) (by decide) (by decide) (by rw [h4]; rfl) ?_)
  refine (if_neg (not_not.2 hr)).trans (if_neg ?_)
  rintro (h | h)
  · have h' : (s.inst (isel s)).staged.isSome = true := h
    rw [hst] at h'
    exact Bool.false_ne_true h'
  · obtain ⟨p, hp, hrun⟩ := List.any_eq_true.1 h
    exact hh p hp (by simpa using hrun)

end

/-! ## Staged descriptors (R343) -/

theorem stage_ends {d : List Byte} (h1 : 1 ≤ (s.inst (isel s)).state) (h4 : (s.inst (isel s)).state ≤ 4)
    (hd : readDesc (cmdBegun s 8) (isel s) false = (.ok d, cmdBegun s 8)) :
    Leaves .stage s ((cmdEnded s 8 St.ok).setInst (isel s) { s.inst (isel s) with staged := some d }) := by
  refine command_leaves hk hb hi 8 (fun _ h => leaves_of_eq rfl h) (by decide) (by decide) (decide_eq_true ⟨h1, h4⟩) ?_
  have hend : insLocal (cmdBegun s 8) (isel s) 8 =
      insEnd ((cmdBegun s 8).modInst (isel s) fun x => { x with staged := some d }) St.ok := by
    simp only [insLocal, hd]
  exact hend

theorem unstage_ends (h1 : 1 ≤ (s.inst (isel s)).state) (h4 : (s.inst (isel s)).state ≤ 4) :
    Leaves .unstage s ((cmdEnded s 9 St.ok).setInst (isel s) { s.inst (isel s) with staged := none }) :=
  command_leaves hk hb hi 9 (fun _ h => leaves_of_eq rfl h) (by decide) (by decide) (decide_eq_true ⟨h1, h4⟩) rfl

end

/-! ## INSTALL (R347) -/

section
variable {i a n k : Nat} {p : Payload}

/-- The words of a range, tagged CODE. -/
def codeWords (s : State) (a n : Nat) : State :=
  (List.range (n / 8)).foldl (fun s k => s.wrTag (a + 8 * k) Tag.code) (s.breakResv a n)

/-- The device with an image installed. -/
def imageInstalled (s : State) (i a n : Nat) (h : List Byte) : State :=
  (newChecks (codeWords s a n) a n).modInst i fun x => { x with
    installed := true, measImage := h, measDesc := genBytes 48 (Config.hashByte 2 (s.inst i).desc) }

theorem insInstall_ok (hr : engRead s (s.descF i .imgBase) (s.descF i .imgLen) 0x28 none false = (.ok p, s))
    (hh : genBytes 48 (Config.hashByte 2 p.bytes) = slice (s.inst i).desc 0x60 48) :
    insInstall s i = insEnd (imageInstalled s i (s.descF i .imgBase) (s.descF i .imgLen) (genBytes 48 (Config.hashByte 2 p.bytes))) St.ok := by
  unfold insInstall
  dsimp only
  rw [hr]
  exact if_neg (not_not.2 hh)

theorem insInstall_mismatch (hr : engRead s (s.descF i .imgBase) (s.descF i .imgLen) 0x28 none false = (.ok p, s))
    (hh : genBytes 48 (Config.hashByte 2 p.bytes) ≠ slice (s.inst i).desc 0x60 48) : insInstall s i = insEnd s St.imageMismatch := by
  unfold insInstall
  dsimp only
  rw [hr]
  exact if_pos hh

theorem newChecks_cells (s : State) (a n : Nat) : (newChecks s a n).cells = s.cells :=
  foldl_leaves State.cells newCheck_store _ s

theorem codeTags_mem (f : Nat → Nat) (l : List Nat) (s : State) : (l.foldl (fun s k => s.wrTag (f k) Tag.code) s).mem = s.mem :=
  foldl_leaves (f := fun s k => s.wrTag (f k) Tag.code) State.mem (fun _ _ => rfl) l s

theorem codeWords_mem (s : State) (a n : Nat) : (codeWords s a n).mem = s.mem :=
  (codeTags_mem _ _ _).trans (congrArg Prod.fst (breakResv_cells s a n))

theorem rdTag_wrTag_ne {c : Nat} (w : Word4) (h : phys s c / 8 ≠ phys s a / 8) : (s.wrTag a w).rdTag c = s.rdTag c := by
  rw [State.rdTag, State.rdTag]
  exact ite_congr rfl (fun _ => rfl) fun _ => sget_sset_ne _ _ _ h

theorem codeTags_tag (ha : 0x100000000 ≤ a) (h8 : a % 8 = 0) (m : Nat) (hk : k < m) (s : State) :
    ((List.range m).foldl (fun s k => s.wrTag (a + 8 * k) Tag.code) s).rdTag (a + 8 * k) = Tag.code := by
  induction m with
  | zero => exact absurd hk (Nat.not_lt_zero k)
  | succ m ih =>
    rw [List.range_succ, List.foldl_append, List.foldl_cons, List.foldl_nil]
    by_cases h : k = m
    · subst h
      exact State.rdTag_wrTag_self _ _ (by omega)
    · refine (rdTag_wrTag_ne _ ?_).trans (ih (by omega))
      rw [phys_outside _ (by omega), phys_outside _ (by omega)]
      omega

theorem imageInstalled_inst (s : State) (i a n : Nat) (h : List Byte) :
    ((imageInstalled s i a n h).inst i).installed = true ∧ ((imageInstalled s i a n h).inst i).measImage = h := by
  rw [imageInstalled, State.inst_modInst_self]
  exact ⟨rfl, rfl⟩

theorem imageInstalled_cells (s : State) (i a n : Nat) (h : List Byte) : (imageInstalled s i a n h).cells = (codeWords s a n).cells :=
  newChecks_cells _ _ _

/-- What a device holds once an image is installed. -/
structure Installed (s t : State) (i a n : Nat) (h : List Byte) : Prop where
  busy : t.ins.busy = none
  stat : t.ins.stat = St.ok
  set : (t.inst i).installed = true
  meas : (t.inst i).measImage = h
  mem : t.mem = s.mem
  tags : 0x100000000 ≤ a → n % 8 = 0 → ∀ k, 8 * k < n → t.rdTag (a + 8 * k) = Tag.code

theorem installed_insEnd (s : State) (i n : Nat) (h : List Byte) (h8 : a % 8 = 0) :
    Installed s (insEnd (imageInstalled s i a n h) St.ok) i a n h := by
  obtain ⟨hin, hm⟩ := imageInstalled_inst s i a n h
  have hc := imageInstalled_cells s i a n h
  refine ⟨rfl, rfl, hin, hm, (congrArg Prod.fst hc).trans (codeWords_mem _ _ _), fun hlo hn k hk => ?_⟩
  exact (rdTag_cells hc _).trans (codeTags_tag hlo h8 _ (by omega) _)

end

section
variable (hk : s.kpr.running = true) (hb : s.ins.busy = none) (hi : isel s ≠ 0) (h1 : (s.inst (isel s)).state = 1) {p : Payload}
  (hr : engRead (cmdBegun s 2) (s.descF (isel s) .imgBase) (s.descF (isel s) .imgLen) 0x28 none false = (.ok p, cmdBegun s 2))
include hk hb hi h1 hr

theorem installImage_installs (ha : s.descF (isel s) .imgBase % 64 = 0)
    (hh : genBytes 48 (Config.hashByte 2 p.bytes) = slice (s.inst (isel s)).desc 0x60 48) :
    ∃ t, Leaves .installImage s t ∧ t.ins.busy = none ∧ t.ins.stat = St.ok ∧ (t.inst (isel s)).installed = true ∧
      (t.inst (isel s)).measImage = genBytes 48 (Config.hashByte 2 p.bytes) ∧ t.mem = s.mem ∧
      (0x100000000 ≤ s.descF (isel s) .imgBase → s.descF (isel s) .imgLen % 8 = 0 → ∀ k, 8 * k < s.descF (isel s) .imgLen →
        t.rdTag (s.descF (isel s) .imgBase + 8 * k) = Tag.code) := by
  have hl := command_leaves (c := .installImage) hk hb hi 2 (fun _ h => leaves_of_eq rfl h) (by decide) (by decide) (by rw [h1]; rfl)
    (insInstall_ok (s := cmdBegun s 2) hr hh)
  obtain ⟨hbusy, hstat, hset, hmeas, hmem, htags⟩ := installed_insEnd (cmdBegun s 2) (isel s) (s.descF (isel s) .imgLen)
    (genBytes 48 (Config.hashByte 2 p.bytes)) (show s.descF (isel s) .imgBase % 8 = 0 by omega)
  exact ⟨_, hl, hbusy, hstat, hset, hmeas, hmem, htags⟩

theorem installImage_fails (hh : genBytes 48 (Config.hashByte 2 p.bytes) ≠ slice (s.inst (isel s)).desc 0x60 48) :
    Leaves .installImage s (cmdEnded s 2 St.imageMismatch) :=
  command_leaves hk hb hi 2 (fun _ h => leaves_of_eq rfl h) (by decide) (by decide) (by rw [h1]; rfl)
    (insInstall_mismatch (s := cmdBegun s 2) hr hh)

end

/-! ## Commands that are refused (R337) -/

theorem insRow_stays {p : Instr × Nat} {m : MigImage} (hp : p ∈ insRows) (h : s.kpr.running = false ∨ s.ins.busy ≠ none) :
    Leaves p.1 s s ∧ Leaves (.restore m) s s := by
  have hsame : ∀ op img, (s.byKeeper fun s => insCmd s op img) = s := fun op img => by
    cases hk : s.kpr.running with
    | false => exact byKeeper_stopped hk _
    | true => exact (byKeeper_running hk _).trans (insCmd_busy (h.resolve_left fun h0 => Bool.noConfusion (hk.symm.trans h0)))
  exact ⟨insRow_leaves hp (hsame _ _), leaves_of_eq rfl (hsame _ _)⟩

section
variable (hk : s.kpr.running = true) (hb : s.ins.busy = none)
include hk hb

theorem insRow_refused {p : Instr × Nat} (hp : p ∈ insRows)
    (h : (isel s = 0 ∧ p.2 ≠ 8) ∨ (isel s ≠ 0 ∧ insFrom p.2 (s.inst (isel s)).state = false)) :
    Leaves p.1 s (cmdEnded s p.2 St.instanceState) := by
  obtain ⟨h0, h13⟩ := insRow_code hp
  exact insRow_leaves hp ((byKeeper_running hk _).trans (insCmd_refused hb h0 (Nat.le_of_lt h13) h))

theorem restore_refused {m : MigImage}
    (h : isel s = 0 ∨ (s.inst (isel s)).state ≠ 0 ∨ sget (fun _ => none) s.dur.offers (isel s) = none) :
    Leaves (.restore m) s (cmdEnded s 13 St.instanceState) := by
  refine leaves_of_eq rfl ((byKeeper_running hk _).trans ?_)
  by_cases hi : isel s = 0
  · exact insCmd_refused hb (by decide) (by decide) (.inl ⟨hi, by decide⟩)
  · by_cases h0 : (s.inst (isel s)).state = 0
    · have hn : sget (fun _ => none) s.dur.offers (isel s) = none := (h.resolve_left hi).resolve_left fun hne => hne h0
      refine (insCmd_restore hb hi (by rw [h0]; rfl)).trans (if_pos ?_)
      exact Option.isNone_iff_eq_none.2 hn
    · exact insCmd_refused hb (by decide) (by decide) (.inr ⟨hi, beq_eq_false_iff_ne.2 h0⟩)

end

theorem commandsRefused : CommandsRefused :=
  fun _ _ _ hp => ⟨insRow_stays hp,
    fun hk hb hi => ⟨fun hf => insRow_refused hk hb hp (.inr ⟨hi, hf⟩), fun h => restore_refused hk hb (.inr h)⟩,
    fun hk hb hi => ⟨restore_refused hk hb (.inl hi), fun h8 => insRow_refused hk hb hp (.inl ⟨hi, h8⟩)⟩⟩

/-! ## Commands whose checks fail (R337, R341, R348) -/

section
variable (hk : s.kpr.running = true) (hb : s.ins.busy = none) (hi : isel s ≠ 0)
include hk hb hi

theorem createInst_fails {st : Word16} (h0 : (s.inst (isel s)).state = 0)
    (hd : readDesc (cmdBegun s 1) (isel s) true = (.error st, u)) : Leaves .createInst s (insEnd u st) := by
  refine command_leaves hk hb hi 1 (fun _ h => leaves_of_eq rfl h) (by decide) (by decide) (by rw [h0]; rfl) ?_
  simp only [insLocal, hd]

section
variable (h1 : (s.inst (isel s)).state = 1)
include h1

theorem startInst_empty (hin : (s.inst (isel s)).installed = false) : Leaves .startInst s (cmdEnded s 3 St.instanceState) :=
  command_leaves hk hb hi 3 (fun _ h => leaves_of_eq rfl h) (by decide) (by decide) (by rw [h1]; rfl)
    (if_pos (Bool.eq_false_iff.1 hin))

section
variable (hin : (s.inst (isel s)).installed = true)
include hin

theorem startInst_mode (hm : s.mode ≠ Mode.service) : Leaves .startInst s (cmdEnded s 3 St.modeRefused) :=
  command_leaves hk hb hi 3 (fun _ h => leaves_of_eq rfl h) (by decide) (by decide) (by rw [h1]; rfl)
    ((if_neg (not_not.2 hin)).trans (if_pos hm))

theorem startInst_table (hm : s.mode = Mode.service) {st : Word16}
    (he : etab (cmdBegun s 3) (s.inst (isel s)).desc = (.error st, cmdBegun s 3)) : Leaves .startInst s (cmdEnded s 3 st) := by
  have hin' : ((cmdBegun s 3).inst (isel s)).installed = true := hin
  have hm' : (cmdBegun s 3).mode = Mode.service := hm
  have he' : etab (cmdBegun s 3) ((cmdBegun s 3).inst (isel s)).desc = (.error st, cmdBegun s 3) := he
  have hend : insLocal (cmdBegun s 3) (isel s) 3 = insEnd (cmdBegun s 3) st := by
    simp only [insLocal, hin', hm', he', not_true_eq_false, if_false, ne_eq]
  exact command_leaves hk hb hi 3 (fun _ h => leaves_of_eq rfl h) (by decide) (by decide) (by rw [h1]; rfl) hend

end
end

theorem resumeInst_mode (h : (s.inst (isel s)).state = 4 ∨ (s.inst (isel s)).state = 5) (hm : s.mode ≠ Mode.service) :
    Leaves .resumeInst s (cmdEnded s 5 St.modeRefused) :=
  command_leaves hk hb hi 5 (fun _ h => leaves_of_eq rfl h) (by decide) (by decide)
    (by obtain h | h := h <;> rw [h] <;> rfl) (if_pos hm)

theorem freeze_full (h4 : (s.inst (isel s)).state = 4) (hr : ringsEmpty s (isel s) = false) :
    Leaves .freeze s (cmdEnded s 10 St.ringsNotEmpty) :=
  command_leaves hk hb hi 10 (fun _ h => leaves_of_eq rfl h) (by decide) (by decide) (by rw [h4]; rfl)
    (if_pos (Bool.eq_false_iff.1 hr))

end

theorem commandsFail : CommandsFail := by
  intro s u hk hb hi i x
  exact ⟨fun _ h0 hd => createInst_fails hk hb hi h0 hd, fun h1 _ hr hh => installImage_fails hk hb hi h1 hr hh,
    fun h1 => ⟨startInst_empty hk hb hi h1, startInst_mode hk hb hi h1, fun _ hin hm he => startInst_table hk hb hi h1 hin hm he⟩,
    resumeInst_mode hk hb hi, freeze_full hk hb hi⟩

/-- Settles O54: each permitted command acts once its checks pass, ends with the status of the check that fails, and ends
INSTANCE_STATE or MODE_REFUSED outside its states and modes, as log entry 75 has it. -/
theorem instanceCommands : Obligations.InstanceCommands := by
  refine ⟨?_, commandsRefused, commandsFail⟩
  intro s d hk hb hi ht i x
  exact ⟨fun h0 hd => createInst_waits hk hb hi ht h0 hd, fun h1 ha _ hr => installImage_installs hk hb hi h1 hr ha,
    fun h1 hin hm _ he => startInst_waits hk hb hi ht h1 hin hm he, quiesce_waits hk hb hi ht, resumeInst_waits hk hb hi ht,
    resetInst_waits hk hb hi ht, removeInst_waits hk hb hi ht,
    fun h1 h4 => ⟨fun hd => stage_ends hk hb hi h1 h4 hd, unstage_ends hk hb hi h1 h4⟩,
    fun h4 hr hst hh => freeze_waits hk hb hi ht h4 hr hst hh⟩

end Sys2Proof.Machine
end

section
/-! SUPPORT. The steps of a quiesce. -/

open Sys2Proof.Say

namespace Sys2Proof.Machine

variable {s t : State}

/-! ## Issue closes (R351, R353) -/

/-- How issue stands for an owner, and what its closing does not touch. -/
def State.issue (s : State) (i : Nat) : (Bool × Bool × Bool) × List (Nat × Byte) × Durable :=
  (((s.inst i).closed, (s.inst i).drain, (s.inst i).stopping), s.mem, s.dur)

theorem tkDone_issue (s : State) (i j t : Nat) (st : Word16) : (s.tkDone j t st).issue i = s.issue i := by
  rw [tkDone_tickets]
  rfl

theorem endWaits_issue (s : State) (i j : Nat) : (endWaits s j).issue i = s.issue i := by
  unfold endWaits
  refine (foldl_leaves (State.issue · i) (fun u p => ?_) _ _).trans rfl
  split
  · exact tkDone_issue u i _ _ _
  · rfl

theorem setCtx_issue (s : State) (i k : Nat) (c : Ctx) : (s.setCtx k c).issue i = s.issue i := rfl

theorem statInc64_issue (s : State) (i o n : Nat) : (s.statInc64 o n).issue i = s.issue i := rfl

theorem modInst_issue {f : Inst → Inst} (hf : ∀ x, ((f x).closed, (f x).drain, (f x).stopping) = (x.closed, x.drain, x.stopping))
    (s : State) (i j : Nat) : (s.modInst j f).issue i = s.issue i := by
  by_cases h : i = j
  · rw [State.issue, h, State.inst_modInst_self, hf]
    rfl
  · rw [State.issue, State.inst_modInst_ne _ _ h]
    rfl

theorem chargeCore_issue (s : State) (i k : Nat) : (chargeCore s k).issue i = s.issue i := by
  unfold chargeCore
  split
  · rfl
  · dsimp only
    rw [setCtx_issue, statInc64_issue]
    refine modInst_issue ?_ s i _
    exact fun _ => rfl

theorem closeIssue_issue (s : State) (i : Nat) : (closeIssue s i true).issue i = ((true, false, true), s.mem, s.dur) := by
  unfold closeIssue
  dsimp only
  rw [if_pos rfl]
  refine (foldl_leaves (State.issue · i) (fun u p => ?_) _ _).trans ((foldl_leaves (State.issue · i) (fun u p => ?_) _ _).trans
    ((endWaits_issue _ _ _).trans ?_))
  · split <;> rfl
  · exact chargeCore_issue u i _
  · rw [State.issue, State.inst_modInst_self]
    rfl

/-! ## The steps (R351-R353) -/

theorem drainWindow_ends {i : Fin 64} (h3 : (s.inst i.val).state = 3) (hd : (s.inst i.val).drain = true) (hm : s.mode ≠ Mode.standby) :
    ∃ t, Leaves (.drainWindowEnd i) s t ∧ (t.inst i.val).closed = true ∧ (t.inst i.val).drain = false ∧
      (t.inst i.val).stopping = true ∧ t.mem = s.mem ∧ t.dur = s.dur := by
  have h := closeIssue_issue s i.val
  simp only [State.issue, Prod.mk.injEq] at h
  obtain ⟨⟨hc, hdr, hst⟩, hmem, hdur⟩ := h
  exact ⟨_, leaves_of_eq rfl (if_pos ⟨h3, hd, hm⟩), hc, hdr, hst, hmem, hdur⟩

theorem boundExpiry_nothing {f : Nat → Bool} (h : ∀ c ∈ s.tdl.waiting, f c.src = false) : boundExpiry s f = s := by
  have hnil : (s.tdl.waiting.filter fun c => f c.src && c.src != 64) = [] :=
    List.filter_eq_nil_iff.2 fun c hc => by rw [h c hc]; exact Bool.false_ne_true
  unfold boundExpiry
  rw [hnil]
  rfl

theorem closeReason_butDur (s : State) (v n : Nat) : (closeReason s v n).butDur = s.butDur := by
  unfold closeReason
  dsimp only
  split
  · exact (settleVol_butDur _ _).trans rfl
  · rfl

/-- The device with the strips of an owner's volume closed and its inbound entries counted. -/
def quiesced (s : State) (i : Nat) : State :=
  let s := closeReason s i 4
  s.modInst i fun x => { x with left := ((inbound s i).map (·.entries)).sum }

theorem quiesced_keeps (s : State) (i : Nat) : (quiesced s i).tdl = s.tdl ∧ (quiesced s i).kpr = s.kpr ∧ (quiesced s i).mem = s.mem ∧
    ((quiesced s i).inst i).state = (s.inst i).state := by
  have h := closeReason_butDur s i 4
  have htdl := congrArg State.tdl h
  have hkpr := congrArg State.kpr h
  have hmem := congrArg State.mem h
  have hinsts : (closeReason s i 4).insts = s.insts := by
    have h' := congrArg State.insts h
    exact h'
  refine ⟨htdl, hkpr, hmem, ?_⟩
  have hx : (closeReason s i 4).inst i = s.inst i := by rw [State.inst, State.inst, hinsts]
  rw [quiesced, State.inst_modInst_self, hx]

theorem quiesceComplete_waits {i : Fin 64} (hi : i ≠ 0) (h3 : (s.inst i.val).state = 3) (hd : (s.inst i.val).drain = false)
    (hq : instQuiet s i.val = true) (ht : s.terminated = false) :
    ∃ t c, Leaves (.quiesceComplete i) s t ∧ t.tdl.waiting = s.tdl.waiting ++ [c] ∧ c.purpose = .instCmd i.val 4 4 ∧
      c.intents = stateIntents i.val 3 4 ∧ (t.inst i.val).state = 3 ∧ t.mem = s.mem := by
  obtain ⟨htdl, hkpr, hmem, hstate⟩ := quiesced_keeps s i.val
  have hterm : (quiesced s i.val).terminated = false := (congrArg (fun k : Kpr => k.mode == Mode.terminated) hkpr).trans ht
  have hgo : ¬ (i.val = 0 ∨ (s.inst i.val).state ≠ 3 ∨ (s.inst i.val).drain = true ∨ ¬ instQuiet s i.val = true) := by
    rw [h3, hd, hq]
    simp [Fin.val_eq_zero_iff, hi]
  have hl : quiesceComplete s i.val = (quiesced s i.val).devCommit (stateIntents i.val 3 4) (.instCmd i.val 4 4) := if_neg hgo
  rw [devCommit_eq hterm] at hl
  exact ⟨_, _, leaves_of_eq rfl hl, congrArg (fun q : Tdl => q.waiting ++ [_]) htdl, rfl, rfl, hstate.trans h3, hmem⟩

theorem quiesceWaits : QuiesceWaits := by
  intro s i x
  refine ⟨fun h => leaves_of_eq rfl (if_neg ?_), fun h => leaves_of_eq rfl ?_, fun h => leaves_of_eq rfl (if_neg h),
    fun h => leaves_of_eq rfl (if_pos ?_)⟩
  · rintro ⟨h3, hd, hm⟩
    obtain h | h | h := h
    · exact h h3
    · exact Bool.noConfusion (h.symm.trans hd)
    · exact hm h
  · obtain h | h | h := h
    · exact if_neg fun hgo => h hgo.1
    · exact if_neg fun hgo => hgo.2 h
    · refine (ite_congr rfl (fun _ => boundExpiry_nothing fun c hc => ?_) fun _ => rfl).trans (ite_self s)
      exact beq_eq_false_iff_ne.2 (h c hc)
  · obtain h | h | h | h := h
    · exact .inl (congrArg Fin.val h)
    · exact .inr (.inl h)
    · exact .inr (.inr (.inl h))
    · exact .inr (.inr (.inr (Bool.eq_false_iff.1 h)))

/-- Settles O55: the end of the drain window closes the issue, the bound ends the waiting commits, and a quiet owner asks for
the commit of Quiesced. -/
theorem quiesceSteps : Obligations.QuiesceSteps := by
  refine ⟨?_, quiesceWaits⟩
  intro s i x h3
  exact ⟨fun hd hm => drainWindow_ends h3 hd hm,
    fun hd => leaves_of_eq rfl (if_pos ⟨h3, Bool.eq_false_iff.1 hd⟩), fun hi hd hq ht => quiesceComplete_waits hi h3 hd hq ht⟩

end Sys2Proof.Machine
end

section
/-! SUPPORT. Migration: OFFER, SAVE, the stream of the image, and RESTORE. -/

open Sys2Proof.Say

namespace Sys2Proof.Machine

variable {s t u v : State}

/-! ## The migration ring (R366) -/

theorem sendMsix_ins (s : State) (i k : Nat) : (sendMsix s i k).ins = s.ins := by
  unfold sendMsix
  repeat' split
  all_goals rfl

theorem hostNotify_ins (s : State) (r : Nat) : (hostNotify s r).ins = s.ins := by
  unfold hostNotify
  dsimp only
  split
  · rfl
  · split
    · rfl
    · exact sendMsix_ins _ _ _

theorem ringPutStat_ins (s : State) (r : Nat) : (ringPutStat s r).ins = s.ins := rfl

theorem ringIrq_ins (s : State) (r : Nat) : (ringIrq s r).ins = s.ins := by
  have h := congrArg State.ins (ringIrq_butRing s r)
  exact h

theorem slotWrite_ins (s : State) (a : Nat) (l : List TWord) : (((wrWords s a l).breakResv a 64).newCheck a).ins = s.ins := by
  have h := congrArg State.ins ((newCheck_butRing ((wrWords s a l).breakResv a 64) a).trans
    ((breakResv_butRing (wrWords s a l) a 64).trans (wrWords_butRing s a l)))
  exact h

theorem ite_ins {c : Prop} [Decidable c] (h1 : t.ins = s.ins) (h2 : u.ins = s.ins) : (if c then t else u).ins = s.ins := by
  split
  · exact h1
  · exact h2

/-- An entry on a ring leaves the command registers alone. -/
theorem ringPut_ins (s : State) (r : Nat) (p : Payload) (n : Nat) : (ringPut s r p n).ins = s.ins := by
  unfold ringPut
  dsimp only
  refine (ite_ins (hostNotify_ins _ _) rfl).trans ((ite_ins (ringIrq_ins _ _) rfl).trans ((ringPutStat_ins _ _).trans ?_))
  refine foldl_leaves State.ins (fun u k => ?_) (List.range n) s
  exact ite_ins rfl (slotWrite_ins _ _ _)

theorem migPut_ins (s : State) (b : List Byte) : (migPut s b).2.ins = s.ins := by
  unfold migPut
  dsimp only
  split
  · rfl
  · exact ringPut_ins _ _ _ _

/-! ## The stream of a saved image (R366, R367) -/

theorem saveStream_idle (h : s.ins.busy = none ∨ s.ins.image = [] ∨ s.ins.held ≠ 0) : saveStream s = s := by
  unfold saveStream
  split
  · next hb =>
    exact if_pos (.inr (h.resolve_left fun h0 => nomatch h0.symm.trans hb))
  · rfl

/-- The stream of the image stands at a place, with so many chunks gone out. -/
def streamAt (s : State) (n c : Nat) : State := { s with ins := { s.ins with sent := n, chunks := c } }

theorem streamAt_image (s : State) (n c : Nat) : (streamAt s n c).ins.image = s.ins.image := rfl
theorem streamAt_sent (s : State) (n c : Nat) : (streamAt s n c).ins.sent = n := rfl

/-- The stream of the image is at its end. -/
def streamEnd (s : State) (c : Nat) : State := insEnd { s with ins := { s.ins with image := [], sent := 0, chunks := c } } St.ok

theorem streamEnd_ended (s : State) (c : Nat) :
    (streamEnd s c).ins.busy = none ∧ (streamEnd s c).ins.stat = St.ok ∧ (streamEnd s c).ins.image = [] := ⟨rfl, rfl, rfl⟩

/-- An entry of the image has gone onto the ring. -/
def saveStep (s : State) : State :=
  let u := streamAt s (s.ins.sent + 1024) ((s.ins.sent + 1024 - 4656) / 65556)
  if u.ins.image.length ≤ s.ins.sent + 1024 then streamEnd u (getLe u.ins.image 0x2C 4) else u

theorem saveStep_more (h : ¬ s.ins.image.length ≤ s.ins.sent + 1024) :
    (saveStep s).ins.sent = s.ins.sent + 1024 ∧ (saveStep s).rings = s.rings ∧ (saveStep s).mem = s.mem := by
  have hmore : ∀ n c, (streamAt s n c).rings = s.rings ∧ (streamAt s n c).mem = s.mem := fun _ _ => ⟨rfl, rfl⟩
  rw [saveStep, streamAt_image, if_neg h]
  exact ⟨streamAt_sent _ _ _, hmore _ _⟩

theorem saveStep_last (h : s.ins.image.length ≤ s.ins.sent + 1024) :
    (saveStep s).ins.busy = none ∧ (saveStep s).ins.stat = St.ok ∧ (saveStep s).ins.image = [] := by
  rw [saveStep, streamAt_image, if_pos h]
  exact streamEnd_ended _ _

section
variable {j : Nat} (hb : s.ins.busy = some (j, 11)) (h6 : (s.inst j).state = 6) (hi : s.ins.image ≠ []) (h0 : s.ins.held = 0)
include hb h6 hi h0

theorem saveStream_waits (hp : migPut s (s.ins.image.drop s.ins.sent) = (false, u)) : saveStream s = u := by
  have hgo : ¬ ((s.inst j).state ≠ 6 ∨ s.ins.image = [] ∨ s.ins.held ≠ 0) := by simp [h6, hi, h0]
  unfold saveStream
  rw [hb]
  refine (if_neg hgo).trans ?_
  rw [hp]

theorem saveStream_goes (hp : migPut s (s.ins.image.drop s.ins.sent) = (true, u)) : saveStream s = saveStep u ∧ u.ins = s.ins := by
  have hgo : ¬ ((s.inst j).state ≠ 6 ∨ s.ins.image = [] ∨ s.ins.held ≠ 0) := by simp [h6, hi, h0]
  have hins := migPut_ins s (s.ins.image.drop s.ins.sent)
  rw [hp] at hins
  refine ⟨?_, hins⟩
  unfold saveStream
  rw [hb]
  refine (if_neg hgo).trans ?_
  rw [hp]
  rfl

end

theorem imageStreams : ImageStreams := by
  intro s u
  refine ⟨fun h => leaves_of_eq rfl (saveStream_idle h), fun j hb h6 hi h0 => ⟨fun hp => ?_, fun hp hl => ?_⟩⟩
  · exact leaves_of_eq rfl (saveStream_waits hb h6 hi h0 hp)
  · obtain ⟨hgoes, hins⟩ := saveStream_goes hb h6 hi h0 hp
    rw [← hins] at hl
    exact ⟨_, leaves_of_eq rfl hgoes, saveStep_last hl⟩

theorem imageStream_goes {j : Nat} (hb : s.ins.busy = some (j, 11)) (h6 : (s.inst j).state = 6) (hi : s.ins.image ≠ [])
    (h0 : s.ins.held = 0) (hp : migPut s (s.ins.image.drop s.ins.sent) = (true, u)) (hl : s.ins.sent + 1024 < s.ins.image.length) :
    ∃ t, Leaves .saveImageStream s t ∧ t.ins.sent = s.ins.sent + 1024 ∧ t.rings = u.rings ∧ t.mem = u.mem := by
  obtain ⟨hgoes, hins⟩ := saveStream_goes hb h6 hi h0 hp
  rw [← hins] at hl ⊢
  exact ⟨_, leaves_of_eq rfl hgoes, saveStep_more (Nat.not_le.2 hl)⟩

/-! ## OFFER, SAVE and RESTORE (R364, R366, R369) -/

section
variable (hk : s.kpr.running = true) (hb : s.ins.busy = none) (hi : isel s ≠ 0)
include hk hb hi

theorem offer_leaves (h0 : (s.inst (isel s)).state = 0) (h : insOffer (cmdBegun s 12) (isel s) = v) : Leaves .offer s v :=
  leaves_of_eq rfl ((byKeeper_running hk _).trans ((insCmd_offer hb hi (by rw [h0]; rfl)).trans h))

theorem save_leaves (h5 : (s.inst (isel s)).state = 5) (h : insSave (cmdBegun s 11) (isel s) = v) : Leaves .save s v :=
  leaves_of_eq rfl ((byKeeper_running hk _).trans ((insCmd_save hb hi (by rw [h5]; rfl)).trans h))

theorem restore_leaves {m : MigImage} (h0 : (s.inst (isel s)).state = 0) (h : insRestore (cmdBegun s 13) (isel s) m = v) :
    Leaves (.restore m) s v :=
  leaves_of_eq rfl ((byKeeper_running hk _).trans ((insCmd_restore hb hi (by rw [h0]; rfl)).trans h))

theorem offer_waits {n : List Byte} (h0 : (s.inst (isel s)).state = 0) (hd : rngDraw (cmdBegun s 12) 32 = (.ok n, u))
    (htdl : u.tdl = s.tdl) (ht : u.terminated = false) :
    ∃ t c, Leaves .offer s t ∧ t.ins.busy = u.ins.busy ∧ t.tdl.waiting = s.tdl.waiting ++ [c] ∧
      c.purpose = .instCmd (isel s) 12 0 ∧ c.intents = [.effects [.offer (isel s) (some n)]] := by
  have hl : insOffer (cmdBegun s 12) (isel s) =
      (insHold u 0).devCommit [.effects [.offer (isel s) (some n)]] (.instCmd (isel s) 12 0) := by
    simp only [insOffer, hd]
  rw [devCommit_eq (show (insHold u 0).terminated = false from ht)] at hl
  exact ⟨_, _, offer_leaves hk hb hi h0 hl, rfl, congrArg (fun q : Tdl => q.waiting ++ [_]) htdl, rfl, rfl⟩

theorem offer_fatal (h0 : (s.inst (isel s)).state = 0) (hd : rngDraw (cmdBegun s 12) 32 = (.fatal, u)) :
    Leaves .offer s (insEnd u St.rngFatal) :=
  offer_leaves hk hb hi h0 (by simp only [insOffer, hd])

section
variable (h5 : (s.inst (isel s)).state = 5) {b : List Byte} (hm : migBuffer (cmdBegun s 11) = (some b, cmdBegun s 11))
include h5 hm

omit hk hb hi in
/-- What decides a SAVE of a frozen owner. -/
theorem save_eq : insSave (cmdBegun s 11) (isel s) =
    if offerOk (cmdBegun s 11) b = false then cmdEnded s 11 St.migOfferInvalid
    else if getLe b 0x19 1 < fld (s.reg Reg.KPR_ID_REV).toNat 8 8 then cmdEnded s 11 St.imageNewer
    else if (s.inst (isel s)).snap = none then cmdEnded s 11 St.migImageInvalid
    else insCommit { cmdBegun s 11 with ins := { (cmdBegun s 11).ins with image := offerOf b } } (isel s) 11 6
      (.migctr (s.dur.migctr + 1) :: .retain (isel s) true :: giveUp s (isel s)) := by
  have h5' : ¬ ((cmdBegun s 11).inst (isel s)).state = 6 := by
    have h : ((cmdBegun s 11).inst (isel s)).state = 5 := h5
    rw [h]
    decide
  have hoffer : (¬ offerOk (cmdBegun s 11) b = true ∨ ((cmdBegun s 11).inst (isel s)).state = 6 ∧
      offerOf b ≠ ((cmdBegun s 11).inst (isel s)).saved) = (offerOk (cmdBegun s 11) b = false) :=
    propext ⟨fun h => h.elim Bool.eq_false_iff.2 fun h' => absurd h'.1 h5', fun h => .inl (Bool.eq_false_iff.1 h)⟩
  have hsnap : ((((cmdBegun s 11).inst (isel s)).snap.isNone = true) = ((s.inst (isel s)).snap = none)) :=
    propext Option.isNone_iff_eq_none
  unfold insSave
  rw [hm]
  dsimp only
  refine ite_congr hoffer (fun _ => rfl) fun _ => ite_congr rfl (fun _ => rfl) fun _ => ite_congr hsnap (fun _ => rfl) fun _ => ?_
  exact if_neg h5'

theorem save_offer (ho : offerOk (cmdBegun s 11) b = false) : Leaves .save s (cmdEnded s 11 St.migOfferInvalid) :=
  save_leaves hk hb hi h5 ((save_eq h5 hm).trans (if_pos ho))

section
variable (ho : offerOk (cmdBegun s 11) b = true)
include ho

theorem save_newer (hr : getLe b 0x19 1 < fld (s.reg Reg.KPR_ID_REV).toNat 8 8) : Leaves .save s (cmdEnded s 11 St.imageNewer) :=
  save_leaves hk hb hi h5 ((save_eq h5 hm).trans ((if_neg (by rw [ho]; decide)).trans (if_pos hr)))

variable (hr : fld (s.reg Reg.KPR_ID_REV).toNat 8 8 ≤ getLe b 0x19 1)
include hr

theorem save_unfrozen (hs : (s.inst (isel s)).snap = none) : Leaves .save s (cmdEnded s 11 St.migImageInvalid) :=
  save_leaves hk hb hi h5 ((save_eq h5 hm).trans
    ((if_neg (by rw [ho]; decide)).trans ((if_neg (Nat.not_lt.2 hr)).trans (if_pos hs))))

theorem save_waits (ht : s.terminated = false) (hs : (s.inst (isel s)).snap ≠ none) :
    CmdWaits .save s 11 6 (.migctr (s.dur.migctr + 1) :: .retain (isel s) true :: giveUp s (isel s)) [] := by
  refine insCommit_waits (u := { cmdBegun s 11 with ins := { (cmdBegun s 11).ins with image := offerOf b } })
    ⟨rfl, rfl, rfl, rfl, rfl, fun _ => rfl⟩ ht (save_leaves hk hb hi h5 ?_)
  exact (save_eq h5 hm).trans ((if_neg (by rw [ho]; decide)).trans ((if_neg (Nat.not_lt.2 hr)).trans (if_neg hs)))

end
end

/-! ### RESTORE -/

/-- The device with the descriptor and the sections of an image taken. -/
def restoring (s : State) (i n : Nat) (d : List Byte) (q : Snapshot) : State :=
  { s with ins := { s.ins with chunks := n } }.modInst i fun x => { x with desc := d, snap := some q }

omit hk hb hi in
theorem restoring_keeps (s : State) (i n : Nat) (d : List Byte) (q : Snapshot) :
    (restoring s i n d q).ins.busy = s.ins.busy ∧ (restoring s i n d q).tdl = s.tdl ∧ (restoring s i n d q).kpr = s.kpr ∧
      ((restoring s i n d q).inst i).desc = d ∧ (restoring s i n d q).mem = s.mem := by
  have hx : (restoring s i n d q).inst i = { s.inst i with desc := d, snap := some q } := State.inst_modInst_self _ _ _
  refine ⟨rfl, rfl, rfl, ?_, rfl⟩
  rw [hx]

omit hk hb hi in
theorem insCommit_enqueues (ht : u.terminated = false) (i op new : Nat) (effs : List Eff) (recs : List Intent) :
    ∃ c, insCommit u i op new effs recs = u.enqueue c ∧ c.purpose = .instCmd i op new :=
  ⟨_, devCommit_eq ht _ _, rfl⟩

section
variable {m : MigImage} (h0 : (s.inst (isel s)).state = 0) (ho : sget (fun _ => none) s.dur.offers (isel s) ≠ none) {d b : List Byte}
  (hd : readDesc (cmdBegun s 13) (isel s) true = (.ok d, cmdBegun s 13))
  (hm : migBuffer (cmdBegun s 13) = (some b, cmdBegun s 13))
include ho hd hm

omit hk hb hi in
theorem insRestore_fails {st : Word16} (hc : imageCheck (cmdBegun s 13) (isel s) b m = .error st) :
    insRestore (cmdBegun s 13) (isel s) m = cmdEnded s 13 st := by
  have ho' : ¬ (sget (fun _ => none) (cmdBegun s 13).dur.offers (isel s)).isNone = true := fun h => ho (Option.isNone_iff_eq_none.1 h)
  unfold insRestore
  refine (if_neg ho').trans ?_
  simp only [hd, hm, hc]
  rfl

omit hk hb hi in
/-- An image without session contexts takes none of the free list. -/
theorem insRestore_commits {q : Snapshot} (hc : imageCheck (cmdBegun s 13) (isel s) b m = .ok q) (hf : restoreFits d q = true)
    (hq : q.shg = []) : ∃ q' effs recs, insRestore (cmdBegun s 13) (isel s) m =
      insCommit (restoring (cmdBegun s 13) (isel s) m.chunks.length d q') (isel s) 13 4 effs recs := by
  have ho' : ¬ (sget (fun _ => none) (cmdBegun s 13).dur.offers (isel s)).isNone = true := fun h => ho (Option.isNone_iff_eq_none.1 h)
  have hlen : ¬ descGet d .sQuota < q.shg.length := by
    rw [hq]
    exact Nat.not_lt_zero _
  have htake : takeMany q.shg (cmdBegun s 13).dur = some ([], (cmdBegun s 13).dur) := by
    rw [hq]
    rfl
  unfold insRestore
  rw [if_neg ho', hd]
  dsimp only
  rw [hm]
  dsimp only
  rw [hc]
  dsimp only
  rw [if_neg (not_not.2 hf), if_neg hlen, htake]
  exact ⟨_, _, _, rfl⟩

include h0

theorem restore_fails {st : Word16} (hc : imageCheck (cmdBegun s 13) (isel s) b m = .error st) :
    Leaves (.restore m) s (cmdEnded s 13 st) :=
  restore_leaves hk hb hi h0 (insRestore_fails ho hd hm hc)

theorem restore_waits {q : Snapshot} (ht : s.terminated = false) (hc : imageCheck (cmdBegun s 13) (isel s) b m = .ok q)
    (hf : restoreFits d q = true) (hq : q.shg = []) :
    ∃ t c, Leaves (.restore m) s t ∧ t.ins.busy = some (isel s, 13) ∧ t.tdl.waiting = s.tdl.waiting ++ [c] ∧
      c.purpose = .instCmd (isel s) 13 4 ∧ (t.inst (isel s)).desc = d ∧ t.mem = s.mem := by
  obtain ⟨q', effs, recs, heq⟩ := insRestore_commits ho hd hm hc hf hq
  obtain ⟨hbusy, htdl, hkpr, hdesc, hmem⟩ := restoring_keeps (cmdBegun s 13) (isel s) m.chunks.length d q'
  have hterm : (restoring (cmdBegun s 13) (isel s) m.chunks.length d q').terminated = false :=
    (congrArg (fun k : Kpr => k.mode == Mode.terminated) hkpr).trans ht
  obtain ⟨c, hcommit, hp⟩ := insCommit_enqueues hterm (isel s) 13 4 effs recs
  exact ⟨_, _, restore_leaves hk hb hi h0 (heq.trans hcommit), hbusy, congrArg (fun q : Tdl => q.waiting ++ [_]) htdl, hp, hdesc, hmem⟩

end

end

theorem migrationRefused : MigrationRefused := by
  intro s u hk hb hi i x rev
  exact ⟨fun h0 hd => offer_fatal hk hb hi h0 hd,
    fun h5 b hm => ⟨save_offer hk hb hi h5 hm, fun ho => ⟨save_newer hk hb hi h5 hm ho, save_unfrozen hk hb hi h5 hm ho⟩⟩,
    fun m d b st h0 ho hd hm hc => restore_fails hk hb hi h0 ho hd hm hc⟩

/-- Settles O56: OFFER, SAVE and RESTORE ask for their commits once their checks pass, and the stream sends out the next
entry. RESTORE checks the image before it fits the descriptor by log entry 77, and SAVE after a main loss is log entry 78:
both the model's choices. -/
theorem migration : Obligations.Migration := by
  refine ⟨?_, migrationRefused, imageStreams⟩
  intro s u i x
  refine ⟨fun hk hb hi ht => ⟨?_, ?_, ?_⟩, fun j hb h6 hi h0 hp hl => imageStream_goes hb h6 hi h0 hp hl⟩
  · exact fun n h0 hd htdl hterm => offer_waits hk hb hi h0 hd htdl hterm
  · exact fun b h5 hm ho hr hs => save_waits hk hb hi h5 hm ho hr ht hs
  · intro m d b q n h0 hn hd hm hc hf hq
    have ho : sget (fun _ => none) s.dur.offers (isel s) ≠ none := fun h => nomatch h.symm.trans hn
    exact restore_waits hk hb hi h0 ho hd hm ht hc hf hq

end Sys2Proof.Machine
end

section
/-! SUPPORT. The entries that the ports post. -/

open Sys2Proof.Say

namespace Sys2Proof.Machine

variable {s t u : State}

/-! ## Buffers of the ports (R515) -/

@[simp] theorem pbuf_setPbuf_self (s : State) (k : Nat) (x : PortBuf) : (s.setPbuf k x).pbuf k = x := sget_sset_self _ _ _ _

theorem pbuf_congr (h : t.ports = s.ports) (k : Nat) : t.pbuf k = s.pbuf k := by rw [State.pbuf, State.pbuf, h]

theorem bufRoom_congr (h : t.ports = s.ports) (k : Nat) : bufRoom t k = bufRoom s k := by
  have hp : ∀ b, t.pbuf b = s.pbuf b := pbuf_congr h
  unfold bufRoom
  rw [hp k]
  simp only [hp]

theorem postRing_ports (s : State) (r : Nat) (e : Payload) : (postRing s r e).2.ports = s.ports := by
  have h := congrArg State.ports (postRing_butRing s r e)
  exact h

theorem postRing_regs (s : State) (r : Nat) (e : Payload) : (postRing s r e).2.regs = s.regs := by
  have h := congrArg State.regs (postRing_butRing s r e)
  exact h

/-! ## Posting (R512-R515) -/

section
variable {k i r r' : Nat} {e : Payload}

theorem postEntry_unbound (h : portBinding s k = none) : postEntry s k e = s := by
  unfold postEntry
  rw [h]
  exact if_pos rfl

section
variable (hb : portBinding s k = some (i, r, r')) (hd : (s.pbuf k).dropped = 0)
include hb hd

theorem postNow_taken (h : postRing s r e = (true, u)) : postNow s k e = (true, u.setPbuf k (s.pbuf k)) := by
  have hports : u.ports = s.ports := by
    have := postRing_ports s r e
    rwa [h] at this
  have hsame : ({ s.pbuf k with dropped := 0 } : PortBuf) = s.pbuf k := by rw [← hd]
  unfold postNow
  rw [hb]
  dsimp only
  rw [if_pos hd, h]
  dsimp only
  rw [pbuf_congr hports, hsame]

theorem postNow_refused (h : postRing s r e = (false, u)) : postNow s k e = (false, u) := by
  unfold postNow
  rw [hb]
  dsimp only
  rw [if_pos hd, h]

section
variable (hh : (s.pbuf k).held = [])
include hh

theorem postEntry_taken (h : postRing s r e = (true, u)) : postEntry s k e = u.setPbuf k (s.pbuf k) := by
  unfold postEntry
  rw [hb]
  dsimp only
  rw [if_neg (show ¬(some (i, r, r')).isNone = true from Bool.false_ne_true), if_pos hh, postNow_taken hb hd h]

section
variable (h : postRing s r e = (false, u))
include h

theorem postEntry_held (hr : bufRoom s k = true) : (postEntry s k e).pbuf k = { s.pbuf k with held := [e] } := by
  have hports : u.ports = s.ports := by
    have := postRing_ports s r e
    rwa [h] at this
  unfold postEntry
  rw [hb]
  dsimp only
  rw [if_neg (show ¬(some (i, r, r')).isNone = true from Bool.false_ne_true), if_pos hh, postNow_refused hb hd h]
  dsimp only
  rw [bufRoom_congr hports, if_pos hr, pbuf_setPbuf_self, pbuf_congr hports, hh, List.nil_append]

theorem postEntry_dropped (hr : bufRoom s k = false) :
    ((postEntry s k e).pbuf k).dropped = 1 ∧ ((postEntry s k e).pbuf k).held = [] := by
  have hports : u.ports = s.ports := by
    have := postRing_ports s r e
    rwa [h] at this
  have hbuf : (postEntry s k e).pbuf k = { s.pbuf k with dropped := (s.pbuf k).dropped + 1 } := by
    unfold postEntry
    rw [hb]
    dsimp only
    rw [if_neg (show ¬(some (i, r, r')).isNone = true from Bool.false_ne_true), if_pos hh, postNow_refused hb hd h]
    dsimp only
    rw [bufRoom_congr hports, hr, if_neg Bool.false_ne_true, pbuf_congr hports]
    split <;> exact pbuf_setPbuf_self _ _ _
  rw [hbuf]
  exact ⟨by rw [hd], hh⟩

end
end
end

/-- A buffer that holds one entry. -/
theorem drainBuf_one (hh : (s.pbuf k).held = [e]) : drainBuf k (s.pbuf k).held.length s =
    if (postNow s k e).1 = true then (postNow s k e).2.setPbuf k { (postNow s k e).2.pbuf k with held := [] } else s := by
  have hlen : (s.pbuf k).held.length = 1 := by rw [hh]; rfl
  rw [hlen, drainBuf, hh]
  dsimp only
  split
  · next v hv =>
    rw [hv]
    rfl
  · next v hv =>
    rw [hv]
    rfl

end

theorem portsPostEntries : PortsPostEntries := by
  intro s u k e p
  refine ⟨postEntry_unbound, fun i r r' hb hh hd => ⟨postEntry_taken hb hd hh, postEntry_held hb hd hh, postEntry_dropped hb hd hh⟩,
    fun hh => leaves_of_eq rfl ?_, fun i r r' hb hh hd h => leaves_of_eq rfl ?_⟩
  · rw [hh]
    rfl
  · rw [drainBuf_one hh, postNow_refused hb hd h]
    exact if_neg Bool.false_ne_true

theorem portBuffer_drains {p : Port} {e : Payload} {i r r' : Nat} (hb : portBinding s (portNumber p) = some (i, r, r'))
    (hh : (s.pbuf (portNumber p)).held = [e]) (hd : (s.pbuf (portNumber p)).dropped = 0) (h : postRing s r e = (true, u)) :
    ∃ t, Leaves (.portBufferDrain p) s t ∧ (t.pbuf (portNumber p)).held = [] ∧ t.rings = u.rings ∧ t.mem = u.mem := by
  have hl := drainBuf_one hh
  rw [postNow_taken hb hd h] at hl
  refine ⟨_, leaves_of_eq rfl (hl.trans (if_pos rfl)), ?_, rfl, rfl⟩
  rw [pbuf_setPbuf_self]

/-! ## What a post leaves -/

/-- The state but for what an entry of a port changes. -/
def State.butPost (s : State) : State := { s.butRing with ports := { s.ports with bufs := [] }, regs := [] }

theorem butPost_of_butRing (h : t.butRing = s.butRing) : t.butPost = s.butPost := by
  have hp : t.ports = s.ports := by
    have h' := congrArg State.ports h
    exact h'
  rw [State.butPost, State.butPost, h, hp]

theorem setPbuf_butPost (s : State) (k : Nat) (x : PortBuf) : (s.setPbuf k x).butPost = s.butPost := rfl

theorem postNow_butPost (s : State) (k : Nat) (e : Payload) : (postNow s k e).2.butPost = s.butPost := by
  have hring : ∀ r p, (postRing s r p).2.butPost = s.butPost := fun r p => butPost_of_butRing (postRing_butRing s r p)
  unfold postNow
  split
  · rfl
  · dsimp only
    split
    · next hv => exact (congrArg (fun x : Bool × State => x.2.butPost) hv).symm.trans (hring _ _)
    · next hv => exact (congrArg (fun x : Bool × State => x.2.butPost) hv).symm.trans (hring _ _)

theorem postEntry_butPost (s : State) (k : Nat) (e : Payload) : (postEntry s k e).butPost = s.butPost := by
  have hnow := postNow_butPost s k e
  unfold postEntry
  split
  · rfl
  · by_cases hh : (s.pbuf k).held = []
    · rw [if_pos hh]
      dsimp only
      split
      · next hv =>
        rw [hv] at hnow
        exact hnow
      · next hv =>
        rw [hv] at hnow
        rw [← hnow]
        split
        · rfl
        · split <;> rfl
    · rw [if_neg hh]
      dsimp only
      split
      · rfl
      · split <;> rfl

theorem complete_butPost (s : State) (q : PortReq) (st : Word16) (arg : Word32) (arg2 : Word64) (data : List Byte) :
    (complete s q st arg arg2 data).butPost = s.butPost := postEntry_butPost s _ _

theorem event_butPost (s : State) (k : Nat) (st : Word16) (op unit : Nat) (arg : Word32) (time arg2 : Word64) (data : List Byte) :
    (event s k st op unit arg time arg2 data).butPost = s.butPost := by
  unfold event
  split
  · exact postEntry_butPost s _ _
  · rfl

theorem postNow_regs (s : State) (k : Nat) (e : Payload) : (postNow s k e).2.regs = s.regs := by
  unfold postNow
  split
  · rfl
  · dsimp only
    split
    · next v hv => exact (congrArg (fun x : Bool × State => x.2.regs) hv).symm.trans (postRing_regs s _ _)
    · next v hv => exact (congrArg (fun x : Bool × State => x.2.regs) hv).symm.trans (postRing_regs s _ _)

/-- The one register that a post can change counts its drops. -/
theorem postEntry_reg {k a : Nat} (ha : overrunReg k ≠ some a) (s : State) (e : Payload) : (postEntry s k e).reg a = s.reg a := by
  have hdrop : ∀ u : State, u.regs = s.regs → ∀ c, overrunReg k = some c → (u.incReg c).reg a = s.reg a := fun u hu c hc => by
    have hne : a ≠ c := fun h => ha (h ▸ hc)
    rw [State.incReg, State.reg_setReg_ne _ _ hne, State.reg, State.reg, hu]
  have hsame : ∀ u : State, u.regs = s.regs → u.reg a = s.reg a := fun u hu => by rw [State.reg, State.reg, hu]
  have hnow := postNow_regs s k e
  unfold postEntry
  split
  · rfl
  · by_cases hh : (s.pbuf k).held = []
    · rw [if_pos hh]
      dsimp only
      split
      · next hv =>
        rw [hv] at hnow
        exact hsame _ hnow
      · next hv =>
        rw [hv] at hnow
        split
        · exact hsame _ hnow
        · split
          · next c hc => exact hdrop _ hnow c hc
          · exact hsame _ hnow
    · rw [if_neg hh]
      dsimp only
      split
      · rfl
      · split
        · next c hc => exact hdrop _ rfl c hc
        · rfl

theorem event_reg {k a : Nat} (ha : overrunReg k ≠ some a) (s : State) (st : Word16) (op unit : Nat) (arg : Word32)
    (time arg2 : Word64) (data : List Byte) : (event s k st op unit arg time arg2 data).reg a = s.reg a := by
  unfold event
  split
  · exact postEntry_reg ha s _
  · rfl

end Sys2Proof.Machine
end

section
/-! SUPPORT. The requests of the card bus. -/

open Sys2Proof.Say

namespace Sys2Proof.Machine

variable {s t u v : State}

/-! ## The bus takes a request (R514, R523) -/

section
variable {b op : Nat} {q : PortReq}

theorem cardTake_stays (h : crdOn s = false ∨ s.ports.crd.run ≠ none ∨ s.pwr.flush ≠ 0 ∨ nextCardBind s ≠ some b) :
    cardTake s b op = s := by
  refine if_pos ?_
  obtain h | h | h | h := h
  · exact .inl (Bool.eq_false_iff.1 h)
  · exact .inr (.inl (Option.isSome_iff_ne_none.2 h))
  · exact .inr (.inr (.inl h))
  · exact .inr (.inr (.inr (.inl h)))

theorem cardTake_takes {b : Fin 5} (h : BusTakes s b op) (hq : takeReq (turned s b) b.val = (some q, u)) :
    cardTake s b.val op = cardServe u q := by
  obtain ⟨hon, hfree, hheld, hnext, hcode⟩ := h
  have hgo : ¬ (¬ crdOn s = true ∨ s.ports.crd.run.isSome = true ∨ s.pwr.flush ≠ 0 ∨ nextCardBind s ≠ some b.val ∨
      (reqOp s b.val ≠ op ∧ 1 ≤ reqOp s b.val ∧ reqOp s b.val ≤ 7)) := by
    rw [hon, hfree, hheld, hnext, hcode]
    simp
  refine (if_neg hgo).trans ?_
  rw [show takeReq (setCrd s { s.ports.crd with ptr := (b.val + 1) % 5 }) b.val = (some q, u) from hq]

/-- The rows of the bus and the state that each leaves. -/
theorem cardRow_leaves {b : Fin 5} {p : Instr × Nat} (hp : CardRow b p) (h : cardTake s b.val p.2 = v) : Leaves p.1 s v := by
  obtain rfl | rfl | rfl | rfl | rfl | rfl | rfl := hp
  all_goals exact leaves_of_eq rfl h

/-! ## Its checks (R525) -/

theorem cardServe_form (h : cardReqOk q = false) : cardServe u q = complete u q St.argInvalid :=
  if_pos (.inl (Bool.eq_false_iff.1 h))

section
variable (hf : cardReqOk q = true) (hk : (u.ports.crd.cards.any fun p => p.1 == q.unit) = true)
  (hb : slotBind (u.card q.unit).slot = q.bind)
include hf hk hb

theorem cardServe_known : ¬ (¬ cardReqOk q = true ∨ ¬ (u.ports.crd.cards.any fun p => p.1 == q.unit) = true ∨
    slotBind (u.card q.unit).slot ≠ q.bind) := by
  rw [hf, hk, hb]
  simp

theorem cardServe_absent (h0 : (u.card q.unit).state = 0) :
    cardServe u q = complete u q St.cardAbsent 0 ((u.card q.unit).status.setWidth 64) :=
  (if_neg (cardServe_known hf hk hb)).trans (if_pos h0)

section
variable (h0 : (u.card q.unit).state ≠ 0) (hv : u.pwr.viocOk = true) (hw : q.op = 2 → fld (u.card q.unit).status.toNat 26 2 = 0)
  (hm : q.op = 6 → q.arg = 1 → u.mode = Mode.workshop)
include h0 hv hw hm

/-- A request whose card may do it: what it sends, from its selection on where the card is in Standby. -/
theorem cardServe_sends
    (hs : (q.op = 4 → (u.card q.unit).state = 2) ∧ (q.op = 5 → (u.card q.unit).state = 4) ∧
      (q.op ≠ 4 → q.op ≠ 5 → (u.card q.unit).state = 2 ∨ (u.card q.unit).state = 3)) {n : Nat}
    (hn : (if (u.card q.unit).state = 2 ∧ q.op ∉ [4, 5] then 0 else 1) = n) :
    cardServe u q =
      (let run : CardRun := { req := q, rca := q.unit, stage := n }
       if q.op = 2 then transmit u q 0x34 fun v => sendCommand (setRun v run) run else sendCommand (setRun u run) run) := by
  obtain ⟨hs4, hs5, hs3⟩ := hs
  have hwp : ¬ (q.op = 2 ∧ fld (u.card q.unit).status.toNat 26 2 ≠ 0) := fun h => h.2 (hw h.1)
  have hmode : ¬ (q.op = 6 ∧ q.arg = 1 ∧ u.mode ≠ Mode.workshop) := fun h => h.2.2 (hm h.1 h.2.1)
  have hallow : ¬ ¬ (if q.op = 4 then (u.card q.unit).state = 2 else if q.op = 5 then (u.card q.unit).state = 4
      else (u.card q.unit).state = 2 ∨ (u.card q.unit).state = 3) := by
    rw [not_not]
    split
    · next h => exact hs4 h
    · split
      · next h => exact hs5 h
      · next h4 h5 => exact hs3 h4 h5
  have hrun : (if (u.card q.unit).state = 2 ∧ q.op ∉ [4, 5] then { req := q, rca := q.unit, stage := 0 }
      else { req := q, rca := q.unit, stage := 1 } : CardRun) = { req := q, rca := q.unit, stage := n } := by
    rw [← hn]
    split <;> rfl
  unfold cardServe
  dsimp only
  rw [if_neg (cardServe_known hf hk hb), if_neg h0, if_neg (not_not.2 hv), if_neg hwp, if_neg hmode, if_neg hallow]
  exact congrArg (fun run : CardRun => if q.op = 2 then transmit u q 0x34 fun v => sendCommand (setRun v run) run
    else sendCommand (setRun u run) run) hrun

end
end

theorem cardServe_may (h : CardMay u q) : cardServe u q =
    (let run : CardRun := { req := q, rca := q.unit, stage := 1 }
     if q.op = 2 then transmit u q 0x34 fun v => sendCommand (setRun v run) run else sendCommand (setRun u run) run) := by
  obtain ⟨hf, hc, hk, hb, hv, hw, hm⟩ := h
  refine cardServe_sends hf hk hb ?_ hv hw hm ⟨?_, ?_, ?_⟩ (if_neg ?_)
  · rw [hc]
    split
    · decide
    · split <;> decide
  · intro h4
    rw [hc, if_pos h4]
  · intro h5
    rw [hc, if_neg (by omega), if_pos h5]
  · intro h4 h5
    rw [hc, if_neg h4, if_neg h5]
    exact .inr rfl
  · rintro ⟨h2, hop⟩
    simp only [List.mem_cons, List.not_mem_nil, or_false, not_or] at hop
    rw [hc, if_neg hop.1, if_neg hop.2] at h2
    exact absurd h2 (by decide)

end

/-! ## How a request goes on (R517, R526, R527) -/

theorem cardEnd_run (s : State) (q : CardRun) (st : Word16) (data : List Byte) : (cardEnd s q st data).ports.crd.run = none := by
  have hc : ∀ (u : State) st arg arg2, (complete u q.req st arg arg2 data).ports.crd = u.ports.crd := fun u st arg arg2 => by
    have h := congrArg (fun u : State => u.ports.crd) (complete_butPost u q.req st arg arg2 data)
    exact h
  unfold cardEnd
  dsimp only
  rw [hc]
  rfl

section
variable {q : CardRun}

theorem cardResponse_idle (h : s.ports.crd.run = none) (r : CardReply) : cardResponse s r = s := by
  unfold cardResponse
  rw [h]

theorem busyRelease_idle (h : s.ports.crd.run = none) :
    Leaves .busyRelease s s ∧ Leaves .cardResponseTimeout s s ∧ Leaves .cardBusyTimeout s s := by
  refine ⟨leaves_of_eq rfl ?_, leaves_of_eq rfl ?_, leaves_of_eq rfl ?_⟩
  all_goals rw [h]

section
variable (hb : Busy s q)
include hb

theorem cardResponse_status (hs : q.stage ≤ 1) (st : Word32) : cardResponse s (.status st true) = cardStatusOk s q st := by
  unfold cardResponse
  rw [show s.ports.crd.run = some q from hb]
  exact (if_neg (Nat.not_lt.2 hs)).trans (if_pos rfl)

theorem cardResponse_block (h2 : q.stage = 2) {d : List Byte} (hd : d.length = 512) (ok : Bool) :
    cardResponse s (.block d ok) = if ok = true then cardEnd s q St.ok d else cardCrc s q := by
  have hgo : ¬ (q.stage ≠ 2 ∨ d.length ≠ 512) := by simp [h2, hd]
  unfold cardResponse
  rw [show s.ports.crd.run = some q from hb]
  exact if_neg hgo

theorem cardResponse_ack (h3 : q.stage = 3) (x : Byte) :
    cardResponse s (.ack x) = if x = 0x5C then setRun s { q with stage := 4 } else cardEnd s q St.portCrc := by
  unfold cardResponse
  rw [show s.ports.crd.run = some q from hb]
  exact if_neg (not_not.2 h3)

theorem busyRelease_ends (h4 : q.stage = 4) : Leaves .busyRelease s (cardEnd s q St.ok) := by
  refine leaves_of_eq rfl ?_
  rw [show s.ports.crd.run = some q from hb]
  exact if_pos h4

theorem busyTimeout_ends (h4 : q.stage = 4) : Leaves .cardBusyTimeout s (cardEnd s q St.outcomeUnknown) := by
  refine leaves_of_eq rfl ?_
  rw [show s.ports.crd.run = some q from hb]
  exact if_pos h4

theorem busy_stays (h4 : q.stage ≠ 4) : Leaves .busyRelease s s ∧ Leaves .cardBusyTimeout s s := by
  refine ⟨leaves_of_eq rfl ?_, leaves_of_eq rfl ?_⟩
  all_goals
    rw [show s.ports.crd.run = some q from hb]
    exact if_neg h4

theorem responseTimeout_eq (hs : q.stage ≤ 1) : Leaves .cardResponseTimeout s
    (if q.again = true then cardEnd (s.incReg Reg.CRD_TIMEOUTS) q St.portTimeout
      else sendCommand (setRun (s.incReg Reg.CRD_TIMEOUTS) { q with again := true }) q) := by
  refine leaves_of_eq rfl ?_
  rw [show s.ports.crd.run = some q from hb]
  exact if_neg (Nat.not_lt.2 hs)

end

theorem setRun_busy (s : State) (q : CardRun) : Busy (setRun s q) q := rfl

theorem sendCommand_busy {r : CardRun} (h : Busy s r) (q : CardRun) : Busy (sendCommand s q) r := h

/-- A block whose CRC is wrong is read again, twice at most. -/
theorem cardCrc_again (h1 : q.req.op = 1) (h0 : q.stage ≠ 0) (ht : q.tries < 2) :
    cardCrc s q = sendCommand (setRun (s.incReg Reg.CRD_CRCERR) { q with stage := 1, tries := q.tries + 1, again := false })
      { q with stage := 1, tries := q.tries + 1, again := false } := if_pos ⟨h1, h0, ht⟩

theorem cardCrc_ends (ht : q.tries = 2) : cardCrc s q = cardEnd (s.incReg Reg.CRD_CRCERR) q St.portCrc :=
  if_neg fun h => absurd h.2.2 (by omega)

/-- The device has seen a status of a card. -/
def statusSeen (s : State) (q : CardRun) (st : Word32) : State := setCard s q.rca { s.card q.rca with status := st }

section
variable (h1 : q.stage = 1) (st : Word32)
include h1

theorem cardStatusOk_sent : ¬ q.stage = 0 := by omega

theorem cardStatusOk_read (hop : q.req.op = 1) : cardStatusOk s q st = setRun (statusSeen s q st) { q with stage := 2 } := by
  unfold cardStatusOk
  dsimp only
  rw [if_neg (cardStatusOk_sent h1), hop]
  rfl

theorem cardStatusOk_state (hop : q.req.op = 3) : cardStatusOk s q st = cardEnd (statusSeen s q st) q St.ok := by
  unfold cardStatusOk
  dsimp only
  rw [if_neg (cardStatusOk_sent h1), hop]
  rfl

theorem cardStatusOk_write (hop : q.req.op = 2) : cardStatusOk s q st =
    if fld st.toNat 26 2 ≠ 0 then cardEnd (statusSeen s q st) q St.writeProtected
    else { setRun (statusSeen s q st) { q with stage := 3 } with outbox := s.outbox ++ [.cardBlock q.req.data] } := by
  unfold cardStatusOk
  dsimp only
  rw [if_neg (cardStatusOk_sent h1), hop]
  rfl

end

theorem crcAgain_busy (hb : Busy s q) (h2 : q.stage = 2) (h1 : q.req.op = 1) (ht : q.tries < 2) {d : List Byte} (hd : d.length = 512) :
    ∃ t, Leaves (.cardResponse (.block d false)) s t ∧ Busy t { q with stage := 1, tries := q.tries + 1, again := false } ∧
      t.outbox = s.outbox ++ [.cardCmd 0x8 q.rca q.req.arg] := by
  have hcmd : cardCommand q.req = (0x8, q.req.arg) := by simp only [cardCommand, h1]
  refine ⟨_, leaves_of_eq rfl ((cardResponse_block hb h2 hd false).trans (cardCrc_again h1 (by omega) ht)), rfl, ?_⟩
  unfold sendCommand
  dsimp only
  rw [if_neg (by decide), hcmd]
  rfl

theorem responseTimeout_again (hb : Busy s q) (hs : q.stage ≤ 1) (ha : q.again = false) :
    ∃ t, Leaves .cardResponseTimeout s t ∧ Busy t { q with again := true } ∧
      t.outbox = s.outbox ++ [.cardCmd (if q.stage = 0 then (0x3, 0#32) else cardCommand q.req).1 q.rca
        (if q.stage = 0 then (0x3, 0#32) else cardCommand q.req).2] := by
  have hl := responseTimeout_eq hb hs
  rw [ha, if_neg Bool.false_ne_true] at hl
  exact ⟨_, hl, rfl, rfl⟩

end

theorem cardRequestsEndOtherwise : CardRequestsEndOtherwise := by
  refine ⟨fun s u b p hp => ⟨fun h => cardRow_leaves hp (cardTake_stays h), ?_⟩, fun s q => ⟨fun h => ?_, ?_, fun st _ => cardEnd_run s q st []⟩⟩
  · intro q hbus hq c known
    refine ⟨fun hf => cardRow_leaves hp ((cardTake_takes hbus hq).trans (cardServe_form hf)),
      fun hf hk => ⟨fun h0 => ?_, fun h2 hv h4 h5 hw hm => ?_⟩⟩
    · exact cardRow_leaves hp ((cardTake_takes hbus hq).trans (cardServe_absent hf hk.1 hk.2 h0))
    · have h0 : (u.card q.unit).state ≠ 0 := by
        rw [show (u.card q.unit).state = 2 from h2]
        decide
      have hn : (if (u.card q.unit).state = 2 ∧ q.op ∉ [4, 5] then 0 else 1) = 0 := if_pos ⟨h2, by simp [h4, h5]⟩
      exact cardRow_leaves hp ((cardTake_takes hbus hq).trans
        (cardServe_sends hf hk.1 hk.2 h0 hv hw hm ⟨fun _ => h2, fun h => absurd h h5, fun _ _ => .inl h2⟩ hn))
  · obtain ⟨hrel, hresp, hbusy⟩ := busyRelease_idle h
    exact ⟨fun r => leaves_of_eq rfl (cardResponse_idle h r), hrel, hresp, hbusy⟩
  · intro hb seen
    refine ⟨fun h1 hop st => ?_, fun h1 hop st => ⟨fun hf => ?_, fun hf => ?_⟩, fun h3 x hx => ?_,
      fun h2 h1 ht d hd => crcAgain_busy hb h2 h1 ht hd, fun h2 ht d hd => ?_, fun h4 => busy_stays hb h4,
      fun hs ha => responseTimeout_again hb hs ha⟩
    · exact leaves_of_eq rfl ((cardResponse_status hb (Nat.le_of_eq h1) st).trans (cardStatusOk_read h1 st hop))
    · exact leaves_of_eq rfl ((cardResponse_status hb (Nat.le_of_eq h1) st).trans
        ((cardStatusOk_write h1 st hop).trans (if_neg (not_not.2 hf))))
    · exact leaves_of_eq rfl ((cardResponse_status hb (Nat.le_of_eq h1) st).trans ((cardStatusOk_write h1 st hop).trans (if_pos hf)))
    · exact leaves_of_eq rfl ((cardResponse_ack hb h3 x).trans (if_neg hx))
    · exact leaves_of_eq rfl ((cardResponse_block hb h2 hd false).trans (cardCrc_ends ht))

end Sys2Proof.Machine
end

section
/-! SUPPORT. The slots of the card bus. -/

open Sys2Proof.Say

namespace Sys2Proof.Machine

variable {s t u v : State}

/-! ## Cards (R519, R522) -/

@[simp] theorem card_setCard_self (s : State) (n : Nat) (x : Card) : (setCard s n x).card n = x := sget_sset_self _ _ _ _

theorem card_setCard_ne (s : State) {n j : Nat} (x : Card) (h : j ≠ n) : (setCard s n x).card j = s.card j := sget_sset_ne _ _ _ h

theorem card_congr (h : t.ports.crd.cards = s.ports.crd.cards) (n : Nat) : t.card n = s.card n := by
  rw [State.card, State.card, h]

theorem freeRca_congr (h : t.ports.crd.cards = s.ports.crd.cards) : freeRca t = freeRca s := by
  have hc : ∀ n, t.card n = s.card n := card_congr h
  unfold freeRca
  simp only [hc]

theorem event_crd (s : State) (k : Nat) (st : Word16) (op unit : Nat) (arg : Word32) (time arg2 : Word64) (data : List Byte) :
    (event s k st op unit arg time arg2 data).ports.crd = s.ports.crd := by
  have h := congrArg (fun u : State => u.ports.crd) (event_butPost s k st op unit arg time arg2 data)
  exact h

/-- One card is identified. -/
theorem identify_one {k slot : Nat} {cid : Word128} (h : freeRca s = some k) :
    (identify slot [cid] s).card k = { state := 2, slot := slot, cid := cid } ∧
      ∀ j, j ≠ k → (identify slot [cid] s).card j = s.card j := by
  have hc : ∀ j, (identify slot [cid] s).card j = (setCard s k { state := 2, slot := slot, cid := cid }).card j := fun j => by
    refine card_congr ?_ j
    rw [identify, h]
    exact congrArg CardBus.cards (event_crd _ _ _ _ _ _ _ _ _)
  refine ⟨(hc k).trans (card_setCard_self _ _ _), fun j hj => (hc j).trans (card_setCard_ne _ _ hj)⟩

/-! ## ENABLE (R523) -/

theorem crdEnable_stays (h : crdOn s = true ∨ portMode s = false) (l : List Word128) : crdEnable s l = s :=
  if_pos (h.imp_right Bool.eq_false_iff.1)

theorem crdEnable_begins (hoff : crdOn s = false) (hm : portMode s = true) (l : List Word128) :
    crdEnable s l = identify 15 (sortIds l) (s.setReg Reg.CRD_CTRL (s.reg Reg.CRD_CTRL ||| 1)) :=
  if_neg fun h => h.elim (Bool.eq_false_iff.1 hoff) fun h' => h' hm

theorem sortIds_nil : sortIds [] = [] := List.mergeSort_nil

theorem sortIds_one (cid : Word128) : sortIds [cid] = [cid] := List.mergeSort_singleton cid

theorem cardBusEnable_stays (h : crdOn s = true ∨ portMode s = false) (l : List Word128) : Leaves (.cardBusEnable l) s s :=
  leaves_of_eq rfl (byKeeper_same (crdEnable_stays h l))

/-! ## Insertion and removal (R524, R528) -/

section
variable {k : Nat}

theorem wakeSource_masked (h : s.regBit Reg.KPR_WAKE_EN k = false) : wakeSource s k = s := by
  unfold wakeSource
  exact if_pos (Bool.eq_false_iff.1 h)

/-- The detect pin of a slot. -/
def slotSeen (s : State) (k : Nat) : State := setCrd s { s.ports.crd with det := s.ports.crd.det ||| BitVec.ofNat 4 (2 ^ k) }

def slotLost (s : State) (k : Nat) : State :=
  setCrd s { s.ports.crd with
    det := s.ports.crd.det &&& ~~~BitVec.ofNat 4 (2 ^ k), pen := s.ports.crd.pen &&& ~~~BitVec.ofNat 4 (2 ^ k) }

section
variable (hw : s.regBit Reg.KPR_WAKE_EN 4 = false)
include hw

theorem cardInsert_off (hd : s.ports.crd.det.getLsbD k = false) (hoff : crdOn s = false) (l : List Word128) :
    cardInsert s k l = slotSeen s k := by
  have hw' : (slotSeen s k).regBit Reg.KPR_WAKE_EN 4 = false := hw
  have hoff' : crdOn (slotSeen s k) = false := hoff
  unfold cardInsert
  dsimp only
  rw [hd, if_neg Bool.false_ne_true]
  rw [show setCrd s { s.ports.crd with det := s.ports.crd.det ||| BitVec.ofNat 4 (2 ^ k) } = slotSeen s k from rfl,
    wakeSource_masked hw']
  exact if_pos (.inl (Bool.eq_false_iff.1 hoff'))

theorem cardInsert_identifies (hd : s.ports.crd.det.getLsbD k = false) (hon : crdOn s = true) (hm : portMode s = true)
    (hslot : ∀ p ∈ s.ports.crd.cards, p.2.state ≠ 0 → p.2.slot ≠ k) (hfree : (freeRca s).isSome = true) (l : List Word128) :
    cardInsert s k l = identify k (sortIds l) (setCrd (slotSeen s k) { (slotSeen s k).ports.crd with
      pen := (slotSeen s k).ports.crd.pen ||| BitVec.ofNat 4 (2 ^ k) }) := by
  have hw' : (slotSeen s k).regBit Reg.KPR_WAKE_EN 4 = false := hw
  have hnone : ¬ (s.ports.crd.cards.any fun p => decide (p.2.state ≠ 0 ∧ p.2.slot = k)) = true := by
    rw [List.any_eq_true]
    rintro ⟨p, hp, h⟩
    obtain ⟨h0, hk⟩ := of_decide_eq_true h
    exact hslot p hp h0 hk
  have hgo : ¬ (¬ crdOn (slotSeen s k) = true ∨ ¬ portMode (slotSeen s k) = true ∨
      ((slotSeen s k).ports.crd.cards.any fun p => decide (p.2.state ≠ 0 ∧ p.2.slot = k)) = true) := by
    rintro (h | h | h)
    · exact h hon
    · exact h hm
    · exact hnone h
  have hrca : ¬ (freeRca (slotSeen s k)).isNone = true := by
    rw [freeRca_congr (show (slotSeen s k).ports.crd.cards = s.ports.crd.cards from rfl)]
    intro h
    rw [Option.isNone_iff_eq_none] at h
    rw [h] at hfree
    exact Bool.false_ne_true hfree
  unfold cardInsert
  dsimp only
  rw [hd, if_neg Bool.false_ne_true]
  rw [show setCrd s { s.ports.crd with det := s.ports.crd.det ||| BitVec.ofNat 4 (2 ^ k) } = slotSeen s k from rfl,
    wakeSource_masked hw', if_neg hgo, if_neg hrca]

/-- A card whose slot becomes empty is absent. -/
def slotEmptied (k : Nat) (s : State) (p : Nat × Card) : State :=
  if p.2.slot = k then setCard s p.1 { p.2 with state := 0 } else s

theorem cardRemove_idle (hd : s.ports.crd.det.getLsbD k = true) (hon : crdOn s = true) (hm : portMode s = true)
    (hr : s.ports.crd.run = none) : cardRemove s k =
      (let u := s.ports.crd.cards.foldl (slotEmptied k) ((slotLost s k).incReg Reg.CRD_REMOVALS)
       event u k St.cardAbsent 3 0 (BitVec.ofNat 32 k) u.kpr.devtime 0) := by
  have hw' : (slotLost s k).regBit Reg.KPR_WAKE_EN 4 = false := hw
  have hgo : ¬ (¬ crdOn (slotLost s k) = true ∨ ¬ portMode (slotLost s k) = true) := fun h => h.elim (· hon) (· hm)
  have hrun : ((slotLost s k).incReg Reg.CRD_REMOVALS).ports.crd.run = none := hr
  unfold cardRemove
  dsimp only
  rw [hd, if_neg (by decide)]
  rw [← slotLost, wakeSource_masked hw', if_neg hgo, hrun]
  rfl

end
end

/-! ### What a removal leaves -/

theorem slotEmptied_state {k j : Nat} (p : Nat × Card) (h : (s.card j).state = 0) : ((slotEmptied k s p).card j).state = 0 := by
  unfold slotEmptied
  split
  · by_cases hj : j = p.1
    · rw [hj, card_setCard_self]
    · rw [card_setCard_ne _ _ hj, h]
  · exact h

theorem slotsEmptied_state {k j : Nat} (l : List (Nat × Card)) (h : (s.card j).state = 0) :
    ((l.foldl (slotEmptied k) s).card j).state = 0 := by
  induction l generalizing s with
  | nil => exact h
  | cons p l ih => exact ih (slotEmptied_state p h)

theorem slotsEmptied_absent {k : Nat} (l : List (Nat × Card)) (s : State) :
    ∀ p ∈ l, p.2.slot = k → ((l.foldl (slotEmptied k) s).card p.1).state = 0 := by
  induction l generalizing s with
  | nil => exact fun p hp => absurd hp List.not_mem_nil
  | cons q l ih =>
    intro p hp hk
    obtain rfl | hp := List.mem_cons.1 hp
    · refine slotsEmptied_state l ?_
      rw [slotEmptied, if_pos hk, card_setCard_self]
    · exact ih _ p hp hk

/-- The pins of the slots and the registers. -/
def State.slotPins (s : State) : BitVec 4 × List (Nat × Word32) := (s.ports.crd.det, s.regs)

theorem slotsEmptied_pins (k : Nat) (l : List (Nat × Card)) (s : State) : (l.foldl (slotEmptied k) s).slotPins = s.slotPins :=
  foldl_leaves State.slotPins (fun u p => by unfold slotEmptied; split <;> rfl) l s

theorem pin_cleared : ∀ (d : BitVec 4) (n : Fin 4), (d &&& ~~~BitVec.ofNat 4 (2 ^ n.val)).getLsbD n.val = false := by decide

section
variable {n : Fin 4} (hu : s.pwr.up = true) (hv : s.pwr.viocOk = true)
include hu hv

theorem cardInsertion_leaves {l : List Word128} (h : cardInsert s n.val l = v) : Leaves (.cardInsertion n l) s v :=
  leaves_of_eq rfl ((if_pos (by rw [hu, hv]; rfl)).trans h)

theorem cardRemoval_leaves (h : cardRemove s n.val = v) : Leaves (.cardRemoval n) s v :=
  leaves_of_eq rfl ((if_pos (by rw [hu, hv]; rfl)).trans h)

theorem cardRemoval_removes (hw : s.regBit Reg.KPR_WAKE_EN 4 = false) (hd : s.ports.crd.det.getLsbD n.val = true)
    (hon : crdOn s = true) (hm : portMode s = true) (hr : s.ports.crd.run = none) :
    ∃ t, Leaves (.cardRemoval n) s t ∧ t.ports.crd.det.getLsbD n.val = false ∧
      (∀ p ∈ s.ports.crd.cards, p.2.slot = n.val → (t.card p.1).state = 0) ∧
      t.reg Reg.CRD_REMOVALS = (s.incReg Reg.CRD_REMOVALS).reg Reg.CRD_REMOVALS := by
  have hpins := slotsEmptied_pins n.val s.ports.crd.cards ((slotLost s n.val).incReg Reg.CRD_REMOVALS)
  have hover : overrunReg n.val ≠ some Reg.CRD_REMOVALS := by
    rw [overrunReg, if_pos (by omega)]
    decide
  refine ⟨_, cardRemoval_leaves hu hv (cardRemove_idle hw hd hon hm hr), ?_, fun p hp hk => ?_, ?_⟩
  · rw [event_crd]
    refine (congrArg (fun x : BitVec 4 × List (Nat × Word32) => x.1.getLsbD n.val) hpins).trans ?_
    exact pin_cleared _ n
  · refine (congrArg Card.state (card_congr (congrArg CardBus.cards (event_crd _ _ _ _ _ _ _ _ _)) p.1)).trans ?_
    exact slotsEmptied_absent _ _ p hp hk
  · rw [event_reg hover]
    exact congrArg (fun x : BitVec 4 × List (Nat × Word32) => sget regReset x.2 Reg.CRD_REMOVALS) hpins

end

theorem cardsStay : CardsStay := by
  intro s n
  refine ⟨fun l h => cardBusEnable_stays h l, fun hk hoff hm => leaves_of_eq rfl ?_, fun h => ?_, fun hd => leaves_of_eq rfl ?_,
    fun hu hv hw => ⟨fun hd hoff l => cardInsertion_leaves hu hv (cardInsert_off hw hd hoff l), fun hd hon hm hr => ?_⟩⟩
  · rw [byKeeper_running hk, crdEnable_begins hoff hm, sortIds_nil]
    rfl
  · have hno : ¬ (s.pwr.up && s.pwr.viocOk) = true := by
      obtain h | h := h <;> simp [h]
    exact ⟨fun l => leaves_of_eq rfl (if_neg hno), leaves_of_eq rfl (if_neg hno)⟩
  · have hgone : cardRemove s n.val = s := if_pos (Bool.eq_false_iff.1 hd)
    rw [hgone, ite_self]
  · obtain ⟨t, hl, -, -, hreg⟩ := cardRemoval_removes hu hv hw hd hon hm hr
    exact ⟨t, hl, hreg⟩

/-- A row of the bus begins the request of its OP. -/
theorem cardRow_begins {b : Fin 5} {p : Instr × Nat} {q : PortReq} (hp : CardRow b p) (hop : q.op = p.2) (hbus : BusTakes s b q.op)
    (hq : takeReq (turned s b) b.val = (some q, u)) (hmay : CardMay u q) :
    Leaves p.1 s (let run : CardRun := { req := q, rca := q.unit, stage := 1 }
      if q.op = 2 then transmit u q 0x34 fun v => sendCommand (setRun v run) run else sendCommand (setRun u run) run) := by
  refine cardRow_leaves hp ?_
  rw [← hop]
  exact (cardTake_takes hbus hq).trans (cardServe_may hmay)

/-- Settles O57: entries, requests and slots as the ports have them. The address that a removed card's request gives again and
the busy timeout of CLRWP are log entry 96, the buffer that the bindings share is log entry 89, and pins unseen without supply
are log entry 132: the model's choices. -/
theorem cardBus : Obligations.CardBus := by
  refine ⟨?_, ?_, ?_, ?_, portsPostEntries, cardRequestsEndOtherwise, cardsStay⟩
  · intro s u p e i r r' k hb hh hd h
    exact portBuffer_drains hb hh hd h
  · intro s u b q begins
    exact ⟨fun h => cardRow_begins (.inl rfl) h, fun h => cardRow_begins (.inr (.inl rfl)) h,
      fun h => cardRow_begins (.inr (.inr (.inl rfl))) h, fun h => cardRow_begins (.inr (.inr (.inr (.inl rfl)))) h,
      fun h => cardRow_begins (.inr (.inr (.inr (.inr (.inl rfl))))) h,
      fun h => cardRow_begins (.inr (.inr (.inr (.inr (.inr (.inl rfl)))))) h,
      fun h => cardRow_begins (.inr (.inr (.inr (.inr (.inr (.inr rfl)))))) h⟩
  · intro s q hb
    refine ⟨fun h1 hop st => ?_, fun h2 d hd => ?_, fun h3 => ?_, fun h4 => ⟨busyRelease_ends hb h4, busyTimeout_ends hb h4⟩,
      fun hs ha => ?_⟩
    · exact leaves_of_eq rfl ((cardResponse_status hb (Nat.le_of_eq h1) st).trans (cardStatusOk_state h1 st hop))
    · exact leaves_of_eq rfl ((cardResponse_block hb h2 hd true).trans (if_pos rfl))
    · exact leaves_of_eq rfl ((cardResponse_ack hb h3 _).trans (if_pos rfl))
    · have hl := responseTimeout_eq hb hs
      rw [if_pos ha] at hl
      exact hl
  · intro s n cid hm
    refine ⟨fun hk hoff hf => ?_, fun hu hv hw hon => ⟨fun hd hslot k hf => ?_, fun hd hr => ?_⟩⟩
    · have hl := (byKeeper_running hk fun s => crdEnable s [cid]).trans (crdEnable_begins hoff hm [cid])
      rw [sortIds_one] at hl
      have hf' : freeRca (s.setReg Reg.CRD_CTRL (s.reg Reg.CRD_CTRL ||| 1)) = some 1 := (freeRca_congr rfl).trans hf
      exact ⟨_, leaves_of_eq rfl hl, (identify_one hf').1⟩
    · have hl := cardInsert_identifies hw hd hon hm hslot (by rw [hf]; rfl) [cid]
      rw [sortIds_one] at hl
      have hf' : freeRca (setCrd (slotSeen s n.val) { (slotSeen s n.val).ports.crd with
          pen := (slotSeen s n.val).ports.crd.pen ||| BitVec.ofNat 4 (2 ^ n.val) }) = some k := (freeRca_congr rfl).trans hf
      obtain ⟨hself, hother⟩ := identify_one (slot := n.val) (cid := cid) hf'
      exact ⟨_, cardInsertion_leaves hu hv hl, hself, fun j hj => (hother j hj).trans (card_congr rfl j)⟩
    · obtain ⟨t, hl, hdet, hcards, -⟩ := cardRemoval_removes hu hv hw hd hon hm hr
      exact ⟨t, hl, hdet, hcards⟩

end Sys2Proof.Machine
end

section
/-! SUPPORT. The boundary of an epoch (R344, R356, R358): what it leaves unchanged, its number, its frame and its source. -/

open Sys2Proof.Say

namespace Sys2Proof.Machine

variable {s t : State}

/-- All of the device but the durable state and its commits. -/
def State.butCommits (s : State) : State := { s with dur := {}, tdl := {} }

theorem butCommits_of_butDur (h : t.butDur = s.butDur) : t.butCommits = s.butCommits :=
  congrArg (fun x : State => { x with tdl := {} }) h

theorem devCommit_butCommits (s : State) (l : List Intent) (p : Purpose) (b : Bool) :
    (s.devCommit l p b).butCommits = s.butCommits := by
  unfold State.devCommit
  split <;> rfl

theorem closeAll_butCommits (s : State) (n : Nat) : (closeAll s n).butCommits = s.butCommits :=
  foldl_leaves State.butCommits (fun a v => butCommits_of_butDur (closeReason_butDur a v n)) _ s

theorem keepDescs_butCommits (s : State) : (keepDescs s).butCommits = s.butCommits := by
  unfold keepDescs
  dsimp only
  split
  · rfl
  · exact devCommit_butCommits _ _ _ _

theorem reopen_butCommits (s : State) : (reopen s).butCommits = s.butCommits := by
  refine foldl_leaves State.butCommits (fun a p => ?_) s.dur.vols s
  dsimp only
  split
  · exact devCommit_butCommits _ _ _ _
  · rfl

theorem limitRaise_butCommits (s : State) : (limitRaise s).butCommits = s.butCommits := by
  unfold limitRaise
  split
  · exact devCommit_butCommits _ _ _ _
  · rfl

theorem epochCloses_butCommits (s : State) :
    (if (s.mode == Mode.standby) = true then s else reopen (keepDescs (closeAll s 1))).butCommits = s.butCommits := by
  split
  · rfl
  · exact (reopen_butCommits _).trans ((keepDescs_butCommits _).trans (closeAll_butCommits s 1))

theorem pendCommit_butCommits (s : State) (b : Bool) :
    (if s.tmp.pendFlags ≠ 0 ∧ ¬ b = true then s.devCommit [] .none (s.pwr.flush != 0) else s).butCommits = s.butCommits := by
  split
  · exact devCommit_butCommits _ _ _ _
  · rfl

theorem epochCommits_butCommits (s : State) : (epochCommits s).butCommits = s.butCommits :=
  (pendCommit_butCommits _ _).trans ((limitRaise_butCommits _).trans (epochCloses_butCommits s))

/-- All of the device but its instances' states. -/
def State.butInsts (s : State) : State := { s with insts := [] }

theorem raiseIrqs_butInsts (c : State → Nat → Bool) (k : Nat) (l : List Nat) (s : State) :
    (l.foldl (fun s i => if c s i = true then s.raiseIrq i k else s) s).butInsts = s.butInsts := by
  refine foldl_leaves State.butInsts (fun a i => ?_) l s
  split <;> rfl

theorem applyStaged_butInsts (s : State) : (applyStaged s).butInsts = s.butInsts := by
  refine foldl_leaves State.butInsts (fun a p => ?_) s.insts s
  split <;> rfl

theorem modInst_state (s : State) (i j : Nat) (f : Inst → Inst) (h : ∀ x, (f x).state = x.state) :
    ((s.modInst i f).inst j).state = (s.inst j).state := by
  obtain rfl | hj := eq_or_ne j i
  · rw [State.inst_modInst_self, h]
  · rw [State.inst_modInst_ne s f hj]

theorem raiseIrq_state (s : State) (i k j : Nat) : ((s.raiseIrq i k).inst j).state = (s.inst j).state :=
  modInst_state s i j _ fun x => by split <;> rfl

theorem mem_raiseIrq_self (s : State) (i k : Nat) : k ∈ ((s.raiseIrq i k).inst i).irq := by
  rw [State.raiseIrq, State.inst_modInst_self]
  split
  · assumption
  · exact List.mem_append_right _ (List.mem_singleton_self k)

theorem mem_raiseIrq {s : State} {k j : Nat} (i : Nat) (h : k ∈ (s.inst j).irq) : k ∈ ((s.raiseIrq i k).inst j).irq := by
  obtain rfl | hj := eq_or_ne j i
  · exact mem_raiseIrq_self s j k
  · rw [State.raiseIrq, State.inst_modInst_ne s _ hj]
    exact h

theorem applyStaged_state (s : State) (j : Nat) : ((applyStaged s).inst j).state = (s.inst j).state := by
  refine foldl_leaves (fun a : State => (a.inst j).state) (fun a p => ?_) s.insts s
  split
  · exact (raiseIrq_state _ _ _ _).trans (modInst_state _ _ _ _ fun _ => rfl)
  · rfl

/-- Source 0 reaches an instance that executes (R350). -/
def raiseRunning (s : State) (i : Nat) : State := if (s.inst i).state = 2 then s.raiseIrq i 0 else s

theorem raiseRunning_state (s : State) (i j : Nat) : ((raiseRunning s i).inst j).state = (s.inst j).state := by
  unfold raiseRunning
  split
  · exact raiseIrq_state _ _ _ _
  · rfl

theorem raiseRunning_keeps {s : State} {j : Nat} (l : List Nat) (h : 0 ∈ (s.inst j).irq) :
    0 ∈ ((l.foldl raiseRunning s).inst j).irq := by
  induction l generalizing s with
  | nil => exact h
  | cons i l ih =>
    refine ih ?_
    unfold raiseRunning
    split
    · exact mem_raiseIrq i h
    · exact h

theorem raiseRunning_reaches {j : Nat} (l : List Nat) (hj : j ∈ l) (s : State) (h : (s.inst j).state = 2) :
    0 ∈ ((l.foldl raiseRunning s).inst j).irq := by
  induction l generalizing s with
  | nil => nomatch hj
  | cons i l ih =>
    obtain rfl | hl := List.mem_cons.1 hj
    · refine raiseRunning_keeps l ?_
      rw [raiseRunning, if_pos h]
      exact mem_raiseIrq_self s j 0
    · exact ih hl _ ((raiseRunning_state s i j).trans h)

/-- Source 0 reaches every instance that executes (R350). -/
def epochTold (s : State) : State := (List.range 64).foldl raiseRunning s

theorem epochTold_butInsts (s : State) : (epochTold s).butInsts = s.butInsts := by
  refine foldl_leaves State.butInsts (fun a i => ?_) (List.range 64) s
  unfold raiseRunning
  split <;> rfl

theorem epochTold_reaches {j : Nat} (hj : j < 64) (s : State) (h : (s.inst j).state = 2) : 0 ∈ ((epochTold s).inst j).irq :=
  raiseRunning_reaches (List.range 64) (List.mem_range.2 hj) s h

/-- The frame is published, and the epoch that begins has its number (R358 steps 1 and 2, R356). -/
def epochNumbered (s : State) : State :=
  let pro := decide (s.dur.epochLimit ≤ epochNumber s + 1)
  let s := publishFrame s pro
  if pro then s else s.setReg Reg.STAT_EPOCH (BitVec.ofNat 32 (epochNumber s + 1))

/-- The epoch that begins has a length and a time at which it ends. -/
def epochTimed (s : State) (len next : Nat) : State :=
  ({ s with ins := { s.ins with epochLen := len } }).setReg64 Reg.STAT_NEXT_LO next

theorem epochRoll_eq (s : State) : ∃ len next, epochRoll s = applyStaged (epochTimed (epochNumbered s) len next) :=
  ⟨_, _, rfl⟩

/-- The boundary of an epoch but for its source. -/
def epochEnded (s : State) (m : Int) (ok : Bool) : State := epochSelf (epochCommits (epochRoll s)) m ok

theorem epochBoundary_early (h : s.pwr.up = false ∨ s.kpr.devtime.toNat < s.reg64 Reg.STAT_NEXT_LO) (m : Int) (ok : Bool) :
    epochBoundary s m ok = s := by
  refine if_pos ?_
  obtain h | h := h
  · exact .inl (by rw [h]; decide)
  · exact .inr h

theorem epochBoundary_due (hu : s.pwr.up = true) (h : s.reg64 Reg.STAT_NEXT_LO ≤ s.kpr.devtime.toNat) (m : Int) (ok : Bool) :
    epochBoundary s m ok = epochTold (epochEnded s m ok) := by
  refine if_neg ?_
  rintro (hn | hn)
  · exact hn hu
  · omega

/-- What the boundary of an epoch leaves as it is. -/
def State.untimed (s : State) : Kpr × Ports × List Host.Cell := (s.kpr, s.ports, s.mem)

/-- What neither a commit nor an interrupt touches. -/
def State.epochView (s : State) : (Kpr × Ports × List Host.Cell) × List (Nat × Nat) × List (Nat × Word32) :=
  (s.untimed, s.statPub, s.regs)

theorem epochView_of_butInsts (h : t.butInsts = s.butInsts) : t.epochView = s.epochView := by
  have h' := congrArg State.epochView h
  exact h'

theorem epochView_of_butCommits (h : t.butCommits = s.butCommits) : t.epochView = s.epochView := by
  have h' := congrArg State.epochView h
  exact h'

theorem epochTold_view (s : State) : (epochTold s).epochView = s.epochView := epochView_of_butInsts (epochTold_butInsts s)

theorem epochCommits_view (s : State) : (epochCommits s).epochView = s.epochView :=
  epochView_of_butCommits (epochCommits_butCommits s)

theorem epochRoll_view (s : State) : ∃ len next, (epochRoll s).epochView = (epochTimed (epochNumbered s) len next).epochView := by
  obtain ⟨len, next, h⟩ := epochRoll_eq s
  exact ⟨len, next, h ▸ epochView_of_butInsts (applyStaged_butInsts _)⟩

theorem epochSelf_untimed (s : State) (m : Int) (ok : Bool) : (epochSelf s m ok).untimed = s.untimed := rfl

theorem epochTimed_untimed (s : State) (len next : Nat) : (epochTimed s len next).untimed = s.untimed := rfl

theorem epochNumbered_untimed (s : State) : (epochNumbered s).untimed = s.untimed := by
  unfold epochNumbered
  dsimp only
  split <;> rfl

/-- R358: the boundary of an epoch leaves the keeper, the ports and the memory. -/
theorem epochEnded_untimed (s : State) (m : Int) (ok : Bool) : (epochEnded s m ok).untimed = s.untimed := by
  obtain ⟨len, next, h⟩ := epochRoll_view s
  calc (epochEnded s m ok).untimed = (epochCommits (epochRoll s)).untimed := epochSelf_untimed _ m ok
    _ = (epochRoll s).untimed := congrArg Prod.fst (epochCommits_view (epochRoll s))
    _ = (epochTimed (epochNumbered s) len next).untimed := congrArg Prod.fst h
    _ = (epochNumbered s).untimed := epochTimed_untimed _ len next
    _ = s.untimed := epochNumbered_untimed s

theorem epochBoundary_untimed (s : State) (m : Int) (ok : Bool) : (epochBoundary s m ok).untimed = s.untimed := by
  by_cases hu : s.pwr.up = true
  · obtain hd | hd := Nat.lt_or_ge s.kpr.devtime.toNat (s.reg64 Reg.STAT_NEXT_LO)
    · rw [epochBoundary_early (.inr hd)]
    · rw [epochBoundary_due hu hd]
      exact (congrArg Prod.fst (epochTold_view (epochEnded s m ok))).trans (epochEnded_untimed s m ok)
  · rw [epochBoundary_early (.inl (Bool.eq_false_iff.2 hu))]

theorem statPub_of_epochView (h : t.epochView = s.epochView) : t.statPub = s.statPub := congrArg (fun x => x.2.1) h

theorem reg_of_epochView (h : t.epochView = s.epochView) (a : Nat) : t.reg a = s.reg a := by
  have hr : t.regs = s.regs := congrArg (fun x => x.2.2) h
  rw [State.reg, State.reg, hr]

theorem epochSelf_number (s : State) (m : Int) (ok : Bool) : (epochSelf s m ok).reg Reg.STAT_EPOCH = s.reg Reg.STAT_EPOCH :=
  State.reg_setReg_ne s _ (by decide)

theorem epochTimed_number (s : State) (len next : Nat) : (epochTimed s len next).reg Reg.STAT_EPOCH = s.reg Reg.STAT_EPOCH :=
  (State.reg_setReg_ne _ _ (by decide)).trans (State.reg_setReg_ne _ _ (by decide))

theorem epochEnded_number (s : State) (m : Int) (ok : Bool) :
    (epochEnded s m ok).reg Reg.STAT_EPOCH = (epochNumbered s).reg Reg.STAT_EPOCH := by
  obtain ⟨len, next, h⟩ := epochRoll_view s
  rw [epochEnded, epochSelf_number, reg_of_epochView (epochCommits_view _), reg_of_epochView h, epochTimed_number]

theorem epochSelf_statPub (s : State) (m : Int) (ok : Bool) : (epochSelf s m ok).statPub = s.statPub := rfl

theorem epochTimed_statPub (s : State) (len next : Nat) : (epochTimed s len next).statPub = s.statPub := rfl

theorem epochEnded_statPub (s : State) (m : Int) (ok : Bool) : (epochEnded s m ok).statPub = (epochNumbered s).statPub := by
  obtain ⟨len, next, h⟩ := epochRoll_view s
  rw [epochEnded, epochSelf_statPub, statPub_of_epochView (epochCommits_view _), statPub_of_epochView h, epochTimed_statPub]

theorem inst_congr (h : t.insts = s.insts) (j : Nat) : t.inst j = s.inst j := by rw [State.inst, State.inst, h]

theorem epochCommits_inst (s : State) (j : Nat) : (epochCommits s).inst j = s.inst j := by
  have h := congrArg State.insts (epochCommits_butCommits s)
  exact inst_congr h j

theorem epochSelf_inst (s : State) (m : Int) (ok : Bool) (j : Nat) : (epochSelf s m ok).inst j = s.inst j :=
  inst_congr rfl j

theorem epochTimed_inst (s : State) (len next j : Nat) : (epochTimed s len next).inst j = s.inst j := inst_congr rfl j

theorem epochNumbered_inst (s : State) (j : Nat) : (epochNumbered s).inst j = s.inst j := by
  unfold epochNumbered
  dsimp only
  split <;> exact inst_congr rfl j

theorem epochEnded_state (s : State) (m : Int) (ok : Bool) (j : Nat) : ((epochEnded s m ok).inst j).state = (s.inst j).state := by
  obtain ⟨len, next, h⟩ := epochRoll_eq s
  rw [epochEnded, epochSelf_inst, epochCommits_inst, h, applyStaged_state, epochTimed_inst, epochNumbered_inst]

end Sys2Proof.Machine

end

section
/-! SUPPORT. The sensor port, the GNSS port and the time (R538-R544, R57, R580). -/

open Sys2Proof.Say

namespace Sys2Proof.Machine

variable {s t u : State}

/-! ## Pulses (R580) -/

section
variable {n ns : Nat} {b : Bool}

@[simp] theorem pulse_setPulse_self (s : State) (n : Nat) (x : PulseIn) : (setPulse s n x).pulse n = x :=
  sget_sset_self _ _ _ _

theorem pulseEdge_ignored (h : s.regBit Reg.SNS_CTRL n = false ∨ portMode s = false ∨ s.pwr.viohOk = false ∨ ns < 2000 ∨
    (ns < 2040 ∧ b = false)) : pulseEdge s n ns b = s := by
  refine if_pos ?_
  obtain h | h | h | h | ⟨hn, hb⟩ := h
  · exact .inl (Bool.eq_false_iff.1 h)
  · exact .inr (.inl (Bool.eq_false_iff.1 h))
  · exact .inr (.inr (.inl (Bool.eq_false_iff.1 h)))
  · exact .inr (.inr (.inr (.inl h)))
  · exact .inr (.inr (.inr (.inr ⟨hn, Bool.eq_false_iff.1 hb⟩)))

theorem pulseEdge_counts (hon : s.regBit Reg.SNS_CTRL n = true) (hm : portMode s = true) (hv : s.pwr.viohOk = true)
    (hw : 2040 ≤ ns ∨ (2000 ≤ ns ∧ b = true)) :
    ((pulseEdge s n ns b).pulse n).count = (s.pulse n).count + 1 ∧
      ((pulseEdge s n ns b).pulse n).edges = (s.pulse n).edges + 1 ∧
      ((pulseEdge s n ns b).pulse n).last = some s.kpr.devtime := by
  have hgo : ¬ (¬ s.regBit Reg.SNS_CTRL n = true ∨ ¬ portMode s = true ∨ ¬ s.pwr.viohOk = true ∨ ns < 2000 ∨
      (ns < 2040 ∧ ¬ b = true)) := by
    rintro (h | h | h | h | ⟨h, h'⟩)
    · exact h hon
    · exact h hm
    · exact h hv
    · omega
    · obtain hw | ⟨-, hb⟩ := hw
      · omega
      · exact h' hb
  unfold pulseEdge
  rw [if_neg hgo]
  dsimp only
  rw [pulse_setPulse_self]
  exact ⟨rfl, rfl, rfl⟩

theorem pulseReport_off (h : s.regBit Reg.SNS_CTRL n = false ∨ portRuns s 9 = false) : pulseReport s n = s := by
  refine if_pos ?_
  obtain h | h := h
  · exact .inl (Bool.eq_false_iff.1 h)
  · exact .inr (Bool.eq_false_iff.1 h)

/-- The period of an input ends. -/
def periodEnded (s : State) (n : Nat) : State :=
  setPulse { s with freeCtr := s.freeCtr + 3 } n { count := (s.pulse n).count, last := (s.pulse n).last }

theorem pulseReport_reports {l : Word64} {d : Nat} (hon : s.regBit Reg.SNS_CTRL n = true) (hr : portRuns s 9 = true)
    (he : (s.pulse n).edges ≠ 0) (hl : (s.pulse n).last = some l) (hd : (s.pulse n).shortest = some d) :
    pulseReport s n = event (periodEnded s n) 9 St.ok 1 n (BitVec.ofNat 32 (s.pulse n).edges) (s.pulse n).first
      (BitVec.ofNat 64 (min (d / 100) 0xFFFFFFFF)) (leBytes 8 l.toNat) := by
  have hgo : ¬ (¬ s.regBit Reg.SNS_CTRL n = true ∨ ¬ portRuns s 9 = true) := by
    rw [hon, hr]
    decide
  have hlast : (s.pulse n).last.getD 0 = l := by rw [hl, Option.getD_some]
  unfold pulseReport
  rw [if_neg hgo]
  dsimp only
  rw [hd, if_neg he, if_neg he, hlast]
  rfl
end

/-! ## The link of the sensor (R538-R540) -/

section
variable {q : PortReq}

theorem sensorRequest_stays (h : linkOn s = false ∨ s.ports.sensor ≠ none ∨ s.pwr.flush ≠ 0 ∨ reqWaits s 9 = false) :
    sensorRequest s = s := by
  refine if_pos ?_
  obtain h | h | h | h := h
  · exact .inl (Bool.eq_false_iff.1 h)
  · exact .inr (.inl (Option.isSome_iff_ne_none.2 h))
  · exact .inr (.inr (.inl h))
  · exact .inr (.inr (.inr (Bool.eq_false_iff.1 h)))

/-- The frame of a request goes to the sensor. -/
def sensorSends (q : PortReq) (v : State) : State :=
  { v with
    ports := { v.ports with sensor := some q }
    outbox := v.outbox ++ [.sensorSent (BitVec.ofNat 8 (q.arg.toNat % 256)) q.data] }

/-- What becomes of a request whose fields are as they should be. -/
def sensorServe (u : State) (q : PortReq) : State :=
  if pairing (q.arg.toNat % 256) = true ∧ u.mode ≠ Mode.workshop then complete u q St.pairingRefused
  else if ¬ u.pwr.viohOk = true then complete u q St.portTimeout
  else transmit u q 0x37 (sensorSends q)

theorem fld_low_byte (n : Nat) : fld n 0 8 = n % 256 := by
  rw [fld, pow_zero, Nat.div_one, show 2 ^ 8 = 256 by decide]

theorem sensorRequest_serves (hon : linkOn s = true) (hf : s.ports.sensor = none) (hq : FromRing s 9 q u)
    (hl : q.data.length ≤ 200) (hu : q.unit = 0) : sensorRequest s = sensorServe u q := by
  have hgo : ¬ (¬ linkOn s = true ∨ s.ports.sensor.isSome = true ∨ s.pwr.flush ≠ 0 ∨ ¬ reqWaits s 9 = true) := by
    rw [hon, hf, hq.held, hq.waits]
    decide
  have hform : ¬ (200 < q.data.length ∨ q.unit ≠ 0) := by omega
  unfold sensorRequest
  rw [if_neg hgo, hq.req]
  dsimp only
  rw [if_neg hform, fld_low_byte]
  rfl

theorem pairing_iff (n : Nat) : pairing n = true ↔ 0x10 ≤ n ∧ n < 0x20 := decide_eq_true_iff

/-- A frame type that the mode allows. -/
theorem paired_allowed {n : Nat} {m : Word4} (h : n < 0x10 ∨ 0x20 ≤ n ∨ m = Mode.workshop) :
    ¬ (pairing n = true ∧ m ≠ Mode.workshop) := by
  rw [pairing_iff]
  rintro ⟨⟨h1, h2⟩, hm⟩
  obtain h | h | h := h
  · omega
  · omega
  · exact hm h

theorem sensorServe_sends (hm : q.arg.toNat % 256 < 0x10 ∨ 0x20 ≤ q.arg.toNat % 256 ∨ u.mode = Mode.workshop)
    (hv : u.pwr.viohOk = true) : sensorServe u q = transmit u q 0x37 (sensorSends q) :=
  (if_neg (paired_allowed hm)).trans (if_neg (not_not.2 hv))

theorem sensorServe_refused (h1 : 0x10 ≤ q.arg.toNat % 256) (h2 : q.arg.toNat % 256 < 0x20) (hm : u.mode ≠ Mode.workshop) :
    sensorServe u q = complete u q St.pairingRefused := if_pos ⟨(pairing_iff _).2 ⟨h1, h2⟩, hm⟩

theorem sensorServe_unsupplied (h1 : q.arg.toNat % 256 < 0x10) (hv : u.pwr.viohOk = false) :
    sensorServe u q = complete u q St.portTimeout :=
  (if_neg (paired_allowed (.inl h1))).trans (if_pos (Bool.eq_false_iff.1 hv))

theorem sensorAnswer_idle (h : s.ports.sensor = none) (ty : Byte) (b : List Byte) (ok : Bool) : sensorAnswer s ty b ok = s := by
  unfold sensorAnswer
  rw [h]

theorem sensorAnswer_crc (h : s.ports.sensor = some q) (ty : Byte) (b : List Byte) :
    sensorAnswer s ty b false = sensorEnd (s.incReg Reg.SNS_LINKERR) q St.portCrc := by
  unfold sensorAnswer
  rw [h]
  exact if_pos (.inl Bool.false_ne_true)

theorem answer_formed {b : List Byte} (hb : b.length ≤ 200) : ¬ (¬ true = true ∨ 200 < b.length) := by
  rintro (h | h)
  · exact h rfl
  · omega

theorem sensorAnswer_pairing (h : s.ports.sensor = some q) {ty : Byte} {b : List Byte} (hb : b.length ≤ 200)
    (h1 : 0x10 ≤ ty.toNat) (h2 : ty.toNat < 0x20) (hm : s.mode ≠ Mode.workshop) :
    sensorAnswer s ty b true = s.incReg Reg.SNS_LINKERR := by
  unfold sensorAnswer
  rw [h]
  exact (if_neg (answer_formed hb)).trans (if_pos ⟨(pairing_iff _).2 ⟨h1, h2⟩, hm⟩)

theorem sensorAnswer_ends (h : s.ports.sensor = some q) {ty : Byte} {b : List Byte} (hb : b.length ≤ 200)
    (hm : ty.toNat < 0x10 ∨ 0x20 ≤ ty.toNat ∨ s.mode = Mode.workshop) :
    sensorAnswer s ty b true = sensorEnd s q St.ok (ty.setWidth 32) b := by
  unfold sensorAnswer
  rw [h]
  exact (if_neg (answer_formed hb)).trans (if_neg (paired_allowed hm))

theorem sensorAnswerTimeout_idle (h : s.ports.sensor = none) : Leaves .sensorAnswerTimeout s s := by
  refine leaves_of_eq rfl ?_
  rw [h]

theorem sensorAnswerTimeout_ends (h : s.ports.sensor = some q) :
    Leaves .sensorAnswerTimeout s (sensorEnd (s.incReg Reg.SNS_LINKERR) q St.portTimeout) := by
  refine leaves_of_eq rfl ?_
  rw [h]

theorem sensorPortOtherwise : SensorPortOtherwise := by
  intro s u n q
  refine ⟨fun ns b h => leaves_of_eq rfl (pulseEdge_ignored h), fun h => leaves_of_eq rfl (pulseReport_off h),
    fun h => leaves_of_eq rfl (sensorRequest_stays h), fun hon hf hq hl hu => ⟨fun h1 h2 hm => ?_, fun h1 hv => ?_⟩,
    fun h => ⟨sensorAnswerTimeout_idle h, fun ty b ok => leaves_of_eq rfl (sensorAnswer_idle h ty b ok)⟩,
    fun h => ⟨fun ty b => leaves_of_eq rfl (sensorAnswer_crc h ty b), fun ty b hb h1 h2 hm => ?_⟩⟩
  · exact leaves_of_eq rfl ((sensorRequest_serves hon hf hq hl hu).trans (sensorServe_refused h1 h2 hm))
  · exact leaves_of_eq rfl ((sensorRequest_serves hon hf hq hl hu).trans (sensorServe_unsupplied h1 hv))
  · exact leaves_of_eq rfl (sensorAnswer_pairing h hb h1 h2 hm)
end

/-! ## GNSS (R541, R542, R544) -/

theorem gnssByte_off (h : s.regBit Reg.GNS_CTRL 0 = false ∨ portRuns s 10 = false ∨ s.pwr.viohOk = false) (b : Byte) :
    gnssByte s b = s := by
  refine if_pos ?_
  obtain h | h | h := h
  · exact .inl (Bool.eq_false_iff.1 h)
  · exact .inr (.inl (Bool.eq_false_iff.1 h))
  · exact .inr (.inr (Bool.eq_false_iff.1 h))

theorem gnssByte_joins (hon : s.regBit Reg.GNS_CTRL 0 = true) (hr : portRuns s 10 = true) (hv : s.pwr.viohOk = true)
    (hl : s.ports.gnss.bytes.length < 255) (b : Byte) : gnssByte s b = setGnss s { s.ports.gnss with
      bytes := s.ports.gnss.bytes ++ [b]
      first := if s.ports.gnss.bytes = [] then s.kpr.devtime else s.ports.gnss.first } := by
  have hgo : ¬ (¬ s.regBit Reg.GNS_CTRL 0 = true ∨ ¬ portRuns s 10 = true ∨ ¬ s.pwr.viohOk = true) := by
    rw [hon, hr, hv]
    decide
  unfold gnssByte
  rw [if_neg hgo]
  exact if_neg (Nat.not_le.2 hl)

theorem gnssClose_empty (h : s.ports.gnss.bytes = []) : gnssClose s = s := if_pos h

theorem ppsEdge_ignored {ns : Nat} (hw : s.regBit Reg.KPR_WAKE_EN 2 = false)
    (h : s.regBit Reg.GNS_CTRL 1 = false ∨ portMode s = false ∨ s.pwr.viohOk = false ∨ ns < 1000) : ppsEdge s ns = s := by
  have hstop : ¬ s.regBit Reg.GNS_CTRL 1 = true ∨ ¬ portMode s = true ∨ ¬ s.pwr.viohOk = true ∨ ns < 1000 := by
    obtain h | h | h | h := h
    · exact .inl (Bool.eq_false_iff.1 h)
    · exact .inr (.inl (Bool.eq_false_iff.1 h))
    · exact .inr (.inr (.inl (Bool.eq_false_iff.1 h)))
    · exact .inr (.inr (.inr h))
  unfold ppsEdge
  rw [wakeSource_masked hw]
  dsimp only
  rw [if_pos hstop, ite_self]

theorem event_gnss (s : State) (k : Nat) (st : Word16) (op unit : Nat) (arg : Word32) (time arg2 : Word64) (data : List Byte) :
    (event s k st op unit arg time arg2 data).ports.gnss = s.ports.gnss := by
  have h := congrArg (fun x : State => x.ports.gnss) (event_butPost s k st op unit arg time arg2 data)
  exact h

theorem discipline_free (h : s.ports.gnss.source = 0) (n : Nat) : discipline s n = s := if_pos h

theorem discipline_event (h : s.ports.gnss.source = 0) (e : Word64) (n : Nat) :
    discipline (event s 10 St.ok 2 0 0 e 0) n = event s 10 St.ok 2 0 0 e 0 :=
  discipline_free ((congrArg Gnss.source (event_gnss s 10 St.ok 2 0 0 e 0 [])).trans h) n

/-- The time of an edge, in units of 10 ns. -/
def edgeTime (s : State) : Word64 := BitVec.ofNat 64 (s.kpr.devtime.toNat / 10 * 10)

theorem ppsEdge_captured {ns : Nat} (hu : s.pwr.up = true) (hw : s.regBit Reg.KPR_WAKE_EN 2 = false)
    (hon : s.regBit Reg.GNS_CTRL 1 = true) (hm : portMode s = true) (hv : s.pwr.viohOk = true)
    (h0 : s.ports.gnss.source = 0) (hn : 1000 ≤ ns) : ppsEdge s ns =
      event (setGnss s { s.ports.gnss with pps := some (edgeTime s) }) 10 St.ok 2 0 0 (edgeTime s) 0 := by
  have hgo : ¬ (¬ s.regBit Reg.GNS_CTRL 1 = true ∨ ¬ portMode s = true ∨ ¬ s.pwr.viohOk = true ∨ ns < 1000) := by
    rintro (h | h | h | h)
    · exact h hon
    · exact h hm
    · exact h hv
    · omega
  unfold ppsEdge
  rw [if_neg (not_not.2 hu), wakeSource_masked hw]
  dsimp only
  rw [if_neg hgo]
  exact discipline_event (s := setGnss s { s.ports.gnss with pps := some (edgeTime s) }) h0 (edgeTime s) _

/-! ## Sets of the time (R57, R543) -/

theorem kpr_of_untimed (h : t.untimed = s.untimed) : t.kpr = s.kpr := congrArg Prod.fst h

theorem ports_of_untimed (h : t.untimed = s.untimed) : t.ports = s.ports := congrArg (fun y => y.2.1) h

theorem mem_of_untimed (h : t.untimed = s.untimed) : t.mem = s.mem := congrArg (fun y => y.2.2) h

theorem devCommit_untimed (s : State) (l : List Intent) (p : Purpose) (b : Bool) : (s.devCommit l p b).untimed = s.untimed := by
  have h := congrArg State.untimed (devCommit_butCommits s l p b)
  exact h

theorem epochNow_untimed (s : State) : (epochNow s).untimed = s.untimed := rfl

/-- The record of a set of the time, the end of the epoch, and source 4 at the running instances' contexts. -/
def timeTold (s : State) (l : List Intent) (m : Int) (ok : Bool) : State :=
  let s := s.devCommit l
  let s := epochBoundary (epochNow { s with freeCtr := s.freeCtr + 1 }) m ok
  (List.range 64).foldl (fun s i => if i = 0 ∨ (s.inst i).state = 2 then s.raiseIrq i 4 else s) s

theorem irqs_untimed (l : List Nat) (s : State) :
    (l.foldl (fun s i => if i = 0 ∨ (s.inst i).state = 2 then s.raiseIrq i 4 else s) s).untimed = s.untimed := by
  refine foldl_leaves State.untimed (fun a i => ?_) l s
  split <;> rfl

theorem drawn_untimed (s : State) (n : Nat) : ({ s with freeCtr := n } : State).untimed = s.untimed := rfl

theorem timeTold_untimed (s : State) (l : List Intent) (m : Int) (ok : Bool) : (timeTold s l m ok).untimed = s.untimed := by
  rw [timeTold, irqs_untimed, epochBoundary_untimed, epochNow_untimed, drawn_untimed, devCommit_untimed]

theorem timeSet_eq (s : State) (new : Word64) (k : Nat) : ∃ (x : State) (l : List Intent) (m : Int) (ok : Bool),
    timeSet s new k = timeTold x l m ok ∧ x.kpr.timeSet = true ∧ x.kpr.devtime = new ∧ x.ports.gnss.stat = St.ok :=
  ⟨_, _, _, _, rfl, rfl, rfl, rfl⟩

theorem timeSet_untimed (s : State) (new : Word64) (k : Nat) : ∃ x : State, x.kpr.timeSet = true ∧ x.kpr.devtime = new ∧
    x.ports.gnss.stat = St.ok ∧ (timeSet s new k).untimed = x.untimed := by
  obtain ⟨x, l, m, ok, h, h1, h2, h3⟩ := timeSet_eq s new k
  exact ⟨x, h1, h2, h3, h ▸ timeTold_untimed x l m ok⟩

theorem timeSet_sets (s : State) (new : Word64) (k : Nat) : (timeSet s new k).kpr.timeSet = true ∧
    (timeSet s new k).kpr.devtime = new ∧ (timeSet s new k).ports.gnss.stat = St.ok := by
  obtain ⟨x, h1, h2, h3, h⟩ := timeSet_untimed s new k
  rw [kpr_of_untimed h, ports_of_untimed h]
  exact ⟨h1, h2, h3⟩

/-- The time that the keeper would set. -/
def toSet (s : State) : Word64 := BitVec.ofNat 64 (s.reg64 Reg.GNS_TSET_LO)

theorem timeCmd_stopped (h : s.kpr.running = false) (op : Nat) : timeCmd s op = s := if_pos (Bool.eq_false_iff.1 h)

theorem timeCmd_host (h : s.kpr.running = true) : timeCmd s 1 = timeSet s (toSet s) 1 :=
  (if_neg (not_not.2 h)).trans (if_pos rfl)

theorem timeCmd_pps (h : s.kpr.running = true) {e : Word64} (hp : s.ports.gnss.pps = some e)
    (hh : s.ports.gnss.hostSet = false) : timeCmd s 2 = timeSet s (s.kpr.devtime + (toSet s - e)) 2 := by
  unfold timeCmd
  rw [if_neg (not_not.2 h), if_neg (by decide : ¬ (2 : Nat) = 1), if_pos rfl, hp]
  exact if_neg (Bool.eq_false_iff.1 hh)

theorem timeCmd_refused (h : s.kpr.running = true) (hp : s.ports.gnss.pps = none ∨ s.ports.gnss.hostSet = true) :
    timeCmd s 2 = setGnss s { s.ports.gnss with stat := St.timeRefused } := by
  unfold timeCmd
  rw [if_neg (not_not.2 h), if_neg (by decide : ¬ (2 : Nat) = 1), if_pos rfl]
  dsimp only
  split
  · next e he =>
    obtain hp | hp := hp
    · exact nomatch he.symm.trans hp
    · exact if_pos hp
  · rfl

theorem timeOtherwise : TimeOtherwise := by
  intro s x
  refine ⟨fun b h => leaves_of_eq rfl (gnssByte_off h b), fun h => leaves_of_eq rfl (gnssClose_empty h),
    fun ns => ⟨fun h => leaves_of_eq rfl (if_pos (Bool.eq_false_iff.1 h)), fun hw h => leaves_of_eq rfl (ppsEdge_ignored hw h)⟩,
    fun h => ⟨leaves_of_eq rfl (timeCmd_stopped h 1), leaves_of_eq rfl (timeCmd_stopped h 2)⟩,
    fun h hp => leaves_of_eq rfl (timeCmd_refused h hp)⟩

/-- Settles O59. The OP and the fields that events leave open are the model's choice (log entry 91), as is that the pins of
a port are not seen without its supply (log entry 132). -/
theorem sensorsAndTime : Obligations.SensorsAndTime := by
  unfold Obligations.SensorsAndTime
  refine ⟨fun s u n q => ?_, fun s => ?_, sensorPortOtherwise, timeOtherwise⟩
  · intro x
    refine ⟨fun hon => ⟨fun ns b hm hv hw => ⟨_, leaves_of_eq rfl rfl, pulseEdge_counts hon hm hv hw⟩,
      fun l d hr he hl hd => leaves_of_eq rfl (pulseReport_reports hon hr he hl hd)⟩, ?_,
      fun h => ⟨sensorAnswerTimeout_ends h, fun ty b hb hm => leaves_of_eq rfl (sensorAnswer_ends h hb hm)⟩⟩
    intro hon hf hq hl hu hv ty hm
    exact leaves_of_eq rfl ((sensorRequest_serves hon hf hq hl hu).trans (sensorServe_sends hm hv))
  · intro x
    refine ⟨fun b hon hr hv hl => leaves_of_eq rfl (gnssByte_joins hon hr hv hl b),
      fun hne => ⟨_, _, leaves_of_eq rfl (if_neg hne)⟩, fun hu hw hon hm hv h0 ns hn => ?_, fun hk => ?_⟩
    · exact leaves_of_eq rfl (ppsEdge_captured hu hw hon hm hv h0 hn)
    · refine ⟨⟨_, leaves_of_eq rfl (timeCmd_host hk), timeSet_sets s _ 1⟩, fun e he hh => ?_⟩
      exact ⟨_, leaves_of_eq rfl (timeCmd_pps hk he hh), timeSet_sets s _ 2⟩

end Sys2Proof.Machine

end

section
/-! SUPPORT. The sources of tamper and their raises (R548-R550, R553-R557). -/

open Sys2Proof.Say

namespace Sys2Proof.Machine

variable {s u : State} {t : Nat} {v : Word32}

/-! ## When a source raises (R548) -/

theorem tamperSource_off (h : s.tmp.on = false) (v : Word32) (w : Option Nat) : tamperSource s t v w = s :=
  if_pos (Bool.eq_false_iff.1 h)

theorem tamperSource_unmet (hk : tKind t ≠ .rate) (h : raiseHolds s t v = false) (w : Option Nat) : tamperSource s t v w = s := by
  unfold tamperSource
  rw [if_neg hk, if_pos (Bool.eq_false_iff.1 h), ite_self]

theorem tamperSource_event (hon : s.tmp.on = true) (hk : tKind t = .event) (h : raiseHolds s t v = true) (w : Option Nat) :
    tamperSource s t v w = tamperRaise s t v :=
  (if_neg (not_not.2 hon)).trans ((if_neg (by rw [hk]; decide)).trans ((if_neg (not_not.2 h)).trans (if_pos hk)))

theorem tamperSource_counts (hon : s.tmp.on = true) (hk : tKind t = .rate) (w : Option Nat) :
    tamperSource s t v w = rateEvent s t w := (if_neg (not_not.2 hon)).trans (if_pos hk)

theorem armBit_small (h : v.toNat < 2 ^ 24) : armBit t (decide (2 ^ 24 ≤ v.toNat)) = t := by
  rw [decide_eq_false (Nat.not_le.2 h)]
  exact if_neg fun hn => Bool.false_ne_true hn.2

theorem recorded_other (h : t ≠ 5) : recorded t v = v := if_neg fun hn => h hn.1

theorem tamperSource_unarmed (hk : tKind t = .level) (hv : v.toNat < 2 ^ 24) (h : s.tmp.armed.getLsbD t = false)
    (w : Option Nat) : tamperSource s t v w = s := by
  have he : tKind t ≠ .event := by rw [hk]; decide
  have hr : tKind t ≠ .rate := by rw [hk]; decide
  unfold tamperSource
  dsimp only
  rw [armBit_small hv, if_neg (Bool.eq_false_iff.1 h), if_neg he, ite_self, if_neg hr, ite_self]

/-- A level source that raises is no longer armed. -/
def disarmed (s : State) (t : Nat) : State :=
  { s with tmp := { s.tmp with armed := s.tmp.armed &&& ~~~(BitVec.ofNat 25 (2 ^ t)) } }

theorem tamperSource_level (hon : s.tmp.on = true) (hk : tKind t = .level) (hv : v.toNat < 2 ^ 24)
    (h : s.tmp.armed.getLsbD t = true) (hr : raiseHolds s t v = true) (h5 : t ≠ 5) (w : Option Nat) :
    tamperSource s t v w = tamperRaise (disarmed s t) t v := by
  unfold tamperSource
  dsimp only
  rw [armBit_small hv, if_pos h, recorded_other h5, if_neg (not_not.2 hon), if_neg (by rw [hk]; decide), if_neg (not_not.2 hr),
    if_neg (by rw [hk]; decide)]
  rfl

theorem rateEvent_counts {w : Option Nat} (h : (sget (fun _ => []) s.tmp.win t).length + 1 < rateCount s t) :
    rateEvent s t w = { s with tmp := { s.tmp with
      win := sset (fun _ => []) s.tmp.win t (sget (fun _ => []) s.tmp.win t ++ [w]) } } := by
  refine if_neg ?_
  rw [List.length_append, List.length_singleton]
  exact Nat.not_le.2 h

/-! ## Rows -/

section
variable {n : Fin 24}

theorem tamperRearm_stays (h : s.tmp.on = false ∨ tKind n.val ≠ .level) (b : Bool) : Leaves (.tamperRearm n b) s s := by
  refine leaves_of_eq rfl (if_neg ?_)
  rintro ⟨hon, hk, -⟩
  obtain h | h := h
  · exact Bool.noConfusion (h.symm.trans hon)
  · exact h hk

theorem nearMiss_stays (h : s.tmp.on = false ∨ tKind n.val ≠ .level ∨ (n.val ≠ 2 ∧ s.tmp.armed.getLsbD n.val = false)) :
    Leaves (.nearMiss n) s s := by
  refine leaves_of_eq rfl (if_neg ?_)
  rintro ⟨hon, hk, ha⟩
  obtain h | h | ⟨h2, h⟩ := h
  · exact Bool.noConfusion (h.symm.trans hon)
  · exact h hk
  · obtain ha | ⟨ha, -⟩ := ha
    · exact Bool.noConfusion (h.symm.trans ha)
    · exact h2 ha
end

/-! ## A raise of level 0 or 1 (R553) -/

/-- A raise is noted in its registers and flags. -/
def raiseNoted (s : State) (t : Nat) (v : Word32) : State :=
  let bit : BitVec 24 := BitVec.ofNat 24 (2 ^ t)
  let s' := (((s.setReg Reg.TMP_LAST (BitVec.ofNat 32 (256 * t + effLevel s t))).setReg Reg.TMP_LASTVAL v).statInc
    (0x2C0 + 8 * t + 4))
  { s' with tmp := { s'.tmp with
    sticky := s'.tmp.sticky ||| bit
    pendFlags := s'.tmp.pendFlags ||| bit
    lastRaise := sset (fun _ => 0) s'.tmp.lastRaise t (s'.kpr.devtime + 1000000)
    fastUntil := if t = 5 ∨ t = 6 ∨ t = 13 ∨ t = 14 then s'.kpr.devtime + 1000000 else s'.tmp.fastUntil } }

/-- A raise of level 1 is shown to the keeper. -/
def raiseShown (s : State) (t : Nat) : State :=
  (s.setReg Reg.TMP_PEND (s.reg Reg.TMP_PEND ||| BitVec.ofNat 32 (2 ^ t))).raiseIrq 0 5

/-- What a raise below level 5 does once it is noted (R553-R557). -/
def raiseActs (s : State) (t l : Nat) (body : List Byte) (evs : List (Option Nat)) : State :=
  let s := if l = 1 ∨ l = 2 ∨ l = 4 then
      (s.setReg Reg.TMP_PEND (s.reg Reg.TMP_PEND ||| BitVec.ofNat 32 (2 ^ t))).raiseIrq 0 5
    else s
  let s := if 1 ≤ l then wakeSource s 5 else s
  let s := if l = 2 ∨ l = 4 then (affected s t evs).foldl haltInst s else s
  let full := decide (32 ≤ s.queued) || s.pwr.low
  let s := if full then { s with dur := { s.dur with devrecLost := s.dur.devrecLost + 1 } }
    else s.devCommit [.devRec 0 0x0004 body] (.tamper t l) true
  let s := if l = 4 then zeroiseWorking s else s
  if resets s t l ∧ s.pwr.flush = 0 then
    if full then tamperReset s t
    else if ¬ s.admits then
      (activeInsts s).foldl (fun s i => closeIssue s i false)
        { s with tmp := { s.tmp with deferred := true } }
    else s
  else s

theorem tamperRaise_acts (ha : s.terminated = false) (hs : sget (fun _ => 0) s.tmp.lastRaise t ≤ s.kpr.devtime)
    (h5 : effLevel s t ≠ 5) : tamperRaise s t v = raiseActs (raiseNoted s t v) t (effLevel s t)
      ([BitVec.ofNat 8 t, BitVec.ofNat 8 (effLevel s t), s.mode.setWidth 8, 0] ++ leBytes 4 v.toNat) [] := by
  have hspaced : ¬ (tKind t = .event ∧ s.kpr.devtime < sget (fun _ => 0) s.tmp.lastRaise t) := fun hn =>
    absurd hn.2 (BitVec.not_lt.2 hs)
  exact (if_neg (Bool.eq_false_iff.1 ha)).trans ((if_neg hspaced).trans (if_neg h5))

theorem not_full (hq : s.queued < 32) (hlow : s.pwr.low = false) : (decide (32 ≤ s.queued) || s.pwr.low) = false := by
  rw [decide_eq_false (Nat.not_le.2 hq), hlow]
  rfl

theorem raiseActs_zero (hq : s.queued < 32) (hlow : s.pwr.low = false) {body : List Byte} (hr : ∀ u, resets u t 0 = false) :
    raiseActs s t 0 body [] = s.devCommit [.devRec 0 0x0004 body] (.tamper t 0) true := by
  unfold raiseActs
  dsimp only
  rw [if_neg (by decide : ¬ (0 = 1 ∨ 0 = 2 ∨ 0 = 4)), if_neg (by decide : ¬ 1 ≤ 0), if_neg (by decide : ¬ (0 = 2 ∨ 0 = 4)),
    not_full hq hlow, if_neg Bool.false_ne_true, if_neg (by decide : ¬ 0 = 4), hr]
  exact if_neg fun h => Bool.false_ne_true h.1

theorem raiseActs_one (hq : s.queued < 32) (hlow : s.pwr.low = false) {body : List Byte} (hr : ∀ u, resets u t 1 = false)
    (hw : s.regBit Reg.KPR_WAKE_EN 5 = false) :
    raiseActs s t 1 body [] = (raiseShown s t).devCommit [.devRec 0 0x0004 body] (.tamper t 1) true := by
  have hwake : wakeSource (raiseShown s t) 5 = raiseShown s t := by
    refine wakeSource_masked ?_
    rw [State.regBit, raiseShown]
    exact (congrArg (fun x : Word32 => x.getLsbD 5) (State.reg_setReg_ne s _ (by decide))).trans hw
  have hfull : (decide (32 ≤ (raiseShown s t).queued) || (raiseShown s t).pwr.low) = false := not_full hq hlow
  unfold raiseActs
  rw [if_pos (by decide : (1 = 1 ∨ 1 = 2 ∨ 1 = 4)), ← raiseShown]
  dsimp only
  rw [hwake, ite_self, if_neg (by decide : ¬ (1 = 2 ∨ 1 = 4)), hfull, if_neg Bool.false_ne_true, if_neg (by decide : ¬ 1 = 4), hr]
  exact if_neg fun h => Bool.false_ne_true h.1

theorem resets_low {l : Nat} (h : l < 3) (u : State) : resets u t l = false := by
  unfold resets
  rw [decide_eq_false (Nat.not_le.2 h), Bool.false_and, beq_eq_false_iff_ne.2 (Nat.ne_of_lt h), ite_self, ite_self]

/-! ## What a raise leaves -/

theorem raiseNoted_lastval (s : State) (t : Nat) (v : Word32) : (raiseNoted s t v).reg Reg.TMP_LASTVAL = v :=
  State.reg_setReg_self _ _ _

theorem raiseNoted_last (s : State) (t : Nat) (v : Word32) :
    (raiseNoted s t v).reg Reg.TMP_LAST = BitVec.ofNat 32 (256 * t + effLevel s t) :=
  (State.reg_setReg_ne (s.setReg Reg.TMP_LAST _) v (by decide)).trans (State.reg_setReg_self _ _ _)

theorem raiseNoted_reg {a : Nat} (h1 : a ≠ Reg.TMP_LASTVAL) (h2 : a ≠ Reg.TMP_LAST) (s : State) (t : Nat) (v : Word32) :
    (raiseNoted s t v).reg a = s.reg a :=
  (State.reg_setReg_ne (s.setReg Reg.TMP_LAST _) v h1).trans (State.reg_setReg_ne s _ h2)

theorem raiseNoted_sticky (s : State) (t : Nat) (v : Word32) :
    (raiseNoted s t v).tmp.sticky = s.tmp.sticky ||| BitVec.ofNat 24 (2 ^ t) := rfl

theorem raiseShown_reg {a : Nat} (h : a ≠ Reg.TMP_PEND) (s : State) (t : Nat) : (raiseShown s t).reg a = s.reg a :=
  State.reg_setReg_ne s _ h

theorem getLsbD_two_pow {t : Nat} (h : t < 32) : (BitVec.ofNat 32 (2 ^ t)).getLsbD t = true := by
  rw [BitVec.getLsbD_ofNat, Nat.testBit_two_pow_self, decide_eq_true h]
  rfl

theorem raiseShown_pend {t : Nat} (h : t < 32) (s : State) : ((raiseShown s t).reg Reg.TMP_PEND).getLsbD t = true := by
  have hreg : (raiseShown s t).reg Reg.TMP_PEND = s.reg Reg.TMP_PEND ||| BitVec.ofNat 32 (2 ^ t) := State.reg_setReg_self _ _ _
  rw [hreg, BitVec.getLsbD_or, getLsbD_two_pow h, Bool.or_true]

theorem raiseShown_irq (s : State) (t : Nat) : 5 ∈ ((raiseShown s t).inst 0).irq := mem_raiseIrq_self _ 0 5

theorem raiseShown_terminated (s : State) (t : Nat) : (raiseShown s t).terminated = s.terminated := rfl

theorem raiseShown_tdl (s : State) (t : Nat) : (raiseShown s t).tdl = s.tdl := rfl

theorem raiseNoted_tdl (s : State) (t : Nat) (v : Word32) : (raiseNoted s t v).tdl = s.tdl := rfl

theorem devCommit_reg (s : State) (l : List Intent) (p : Purpose) (b : Bool) (a : Nat) : (s.devCommit l p b).reg a = s.reg a := by
  have h := congrArg State.regs (devCommit_butCommits s l p b)
  exact congrArg (fun m => sget regReset m a) h

theorem devCommit_inst (s : State) (l : List Intent) (p : Purpose) (b : Bool) (j : Nat) : (s.devCommit l p b).inst j = s.inst j := by
  have h := congrArg State.insts (devCommit_butCommits s l p b)
  exact inst_congr h j

theorem devCommit_tmp (s : State) (l : List Intent) (p : Purpose) (b : Bool) : (s.devCommit l p b).tmp = s.tmp := by
  have h := congrArg State.tmp (devCommit_butCommits s l p b)
  exact h

theorem devCommit_waits (h : s.terminated = false) (l : List Intent) (p : Purpose) (b : Bool) :
    ∃ c, (s.devCommit l p b).tdl.waiting = s.tdl.waiting ++ [c] ∧ c.reserve = b ∧ c.intents = l := by
  refine ⟨_, congrArg (fun u : State => u.tdl.waiting) (if_neg (Bool.eq_false_iff.1 h)), rfl, rfl⟩

/-- The record of a raise (type 0x0004 of R82). -/
def raiseBody (s : State) (t : Nat) (v : Word32) : List Byte :=
  [BitVec.ofNat 8 t, BitVec.ofNat 8 (effLevel s t), s.mode.setWidth 8, 0] ++ leBytes 4 v.toNat

/-- What a raise of level 0 or 1 leaves for the host, the keeper and the evidence. -/
def RaiseLeaves (s : State) (t : Nat) (v : Word32) (u : State) : Prop :=
  u.reg Reg.TMP_LASTVAL = v ∧ u.reg Reg.TMP_LAST = BitVec.ofNat 32 (256 * t + effLevel s t) ∧
    u.tmp.sticky = s.tmp.sticky ||| BitVec.ofNat 24 (2 ^ t) ∧
    (effLevel s t = 1 → (u.reg Reg.TMP_PEND).getLsbD t = true ∧ 5 ∈ (u.inst 0).irq) ∧
    (effLevel s t = 0 → u.reg Reg.TMP_PEND = s.reg Reg.TMP_PEND) ∧
    ∃ c, u.tdl.waiting = s.tdl.waiting ++ [c] ∧ c.reserve = true ∧ c.intents = [.devRec 0 0x0004 (raiseBody s t v)]

theorem tamperRaise_zero_leaves (ha : s.terminated = false) (hs : sget (fun _ => 0) s.tmp.lastRaise t ≤ s.kpr.devtime)
    (hq : s.queued < 32) (hlow : s.pwr.low = false) (hl : effLevel s t = 0) : RaiseLeaves s t v (tamperRaise s t v) := by
  have h5 : effLevel s t ≠ 5 := by omega
  have hu : tamperRaise s t v = (raiseNoted s t v).devCommit [.devRec 0 0x0004 (raiseBody s t v)] (.tamper t 0) true := by
    rw [tamperRaise_acts ha hs h5, ← raiseBody, hl]
    exact raiseActs_zero (s := raiseNoted s t v) hq hlow (resets_low (by decide))
  rw [hu]
  refine ⟨?_, ?_, ?_, fun h1 => absurd (hl.symm.trans h1) (by decide), fun _ => ?_, ?_⟩
  · rw [devCommit_reg, raiseNoted_lastval]
  · rw [devCommit_reg, raiseNoted_last]
  · rw [devCommit_tmp, raiseNoted_sticky]
  · rw [devCommit_reg, raiseNoted_reg (by decide) (by decide)]
  · exact devCommit_waits (s := raiseNoted s t v) ha _ _ _

theorem tamperRaise_one_leaves (ht : t < 32) (ha : s.terminated = false)
    (hs : sget (fun _ => 0) s.tmp.lastRaise t ≤ s.kpr.devtime) (hw : s.regBit Reg.KPR_WAKE_EN 5 = false)
    (hq : s.queued < 32) (hlow : s.pwr.low = false) (hl : effLevel s t = 1) : RaiseLeaves s t v (tamperRaise s t v) := by
  have h5 : effLevel s t ≠ 5 := by omega
  have hwake : (raiseNoted s t v).regBit Reg.KPR_WAKE_EN 5 = false := by
    rw [State.regBit, raiseNoted_reg (by decide) (by decide)]
    exact hw
  have hu : tamperRaise s t v =
      (raiseShown (raiseNoted s t v) t).devCommit [.devRec 0 0x0004 (raiseBody s t v)] (.tamper t 1) true := by
    rw [tamperRaise_acts ha hs h5, ← raiseBody, hl]
    exact raiseActs_one (s := raiseNoted s t v) hq hlow (resets_low (by decide)) hwake
  rw [hu]
  refine ⟨?_, ?_, ?_, fun _ => ⟨?_, ?_⟩, fun h0 => absurd (hl.symm.trans h0) (by decide), ?_⟩
  · rw [devCommit_reg, raiseShown_reg (by decide), raiseNoted_lastval]
  · rw [devCommit_reg, raiseShown_reg (by decide), raiseNoted_last]
  · rw [devCommit_tmp]
    exact raiseNoted_sticky s t v
  · rw [devCommit_reg]
    exact raiseShown_pend ht _
  · rw [devCommit_inst]
    exact raiseShown_irq _ t
  · have hlive : (raiseShown (raiseNoted s t v) t).terminated = false := (raiseShown_terminated _ t).trans ha
    rw [← raiseNoted_tdl s t v, ← raiseShown_tdl (raiseNoted s t v) t]
    exact devCommit_waits hlive _ _ _

theorem tamperOtherwise : TamperOtherwise := by
  intro s t v w
  refine ⟨fun h => ⟨leaves_of_eq rfl (tamperSource_off h v _), tamperRearm_stays (.inl h), nearMiss_stays (.inl h)⟩,
    fun hk h => leaves_of_eq rfl (tamperSource_unmet hk h _), fun hk hv h => leaves_of_eq rfl (tamperSource_unarmed hk hv h _),
    fun hk => ⟨tamperRearm_stays (.inr hk), nearMiss_stays (.inr (.inl hk))⟩, fun h2 h => nearMiss_stays (.inr (.inr ⟨h2, h⟩)),
    fun hk => leaves_of_eq rfl (if_neg hk), fun ha hs hl hw hq hlow _ => ?_⟩
  obtain hl | hl := hl
  · exact tamperRaise_zero_leaves ha hs hq hlow hl
  · exact tamperRaise_one_leaves (by omega) ha hs hw hq hlow hl

/-! ## What the sources do (R548) -/

theorem tamperRearm_arms {n : Fin 24} (hon : s.tmp.on = true) (hk : tKind n.val = .level) (h4 : n.val ≠ 4) :
    Leaves (.tamperRearm n false) s
      { s with tmp := { s.tmp with armed := s.tmp.armed ||| BitVec.ofNat 25 (2 ^ n.val) } } := by
  have harm : armBit n.val false = n.val := if_neg fun h => Bool.false_ne_true h.2
  refine leaves_of_eq rfl ((if_pos ⟨hon, hk, .inl h4⟩).trans ?_)
  rw [harm]

theorem nearMiss_counts {n : Fin 24} (hon : s.tmp.on = true) (hk : tKind n.val = .level)
    (h : s.tmp.armed.getLsbD n.val = true) :
    Leaves (.nearMiss n) s ((s.statInc (0x2C0 + 8 * n.val)).incReg Reg.TMP_NEAR) :=
  leaves_of_eq rfl (if_pos ⟨hon, hk, .inl h⟩)

end Sys2Proof.Machine

end

section
/-! SUPPORT. The supplies and the thermal governor (R551, R570, R574, R583, R592). -/

open Sys2Proof.Say

namespace Sys2Proof.Machine

variable {s t u : State}

/-! ## The thermal governor (R551, R583) -/

/-- The temperature in 0.1 °C above which the governor steps to `n + 1`. -/
def govEntry (thresh n : Nat) : Int := ((thresh + 10 * n) * 10 : Nat)

theorem govStep_up {thresh g : Nat} {x : Int} (hg : g < 3) (h : govEntry thresh g < x) : govStep thresh g x = g + 1 :=
  if_pos ⟨hg, h⟩

theorem govEntry_pred {thresh g : Nat} (h0 : 0 < g) : govEntry thresh (g - 1) + 100 = govEntry thresh g := by
  unfold govEntry
  omega

theorem govStep_down {thresh g : Nat} {x : Int} (h0 : 0 < g) (h : x ≤ govEntry thresh (g - 1) - 30) :
    govStep thresh g x = g - 1 := by
  have hp := govEntry_pred (thresh := thresh) h0
  have hx : ¬ (g < 3 ∧ govEntry thresh g < x) := by omega
  exact (if_neg hx).trans (if_pos ⟨h0, h⟩)

theorem govStep_stays {thresh g : Nat} {x : Int} (h : x ≤ govEntry thresh g)
    (hd : 0 < g → govEntry thresh (g - 1) - 30 < x) : govStep thresh g x = g := by
  have hx : ¬ (g < 3 ∧ govEntry thresh g < x) := by omega
  have hy : ¬ (0 < g ∧ x ≤ govEntry thresh (g - 1) - 30) := by
    rintro ⟨h0, hn⟩
    have := hd h0
    omega
  exact (if_neg hx).trans (if_neg hy)

theorem govStep_le {thresh g : Nat} (x : Int) (hg : g ≤ 3) : govStep thresh g x ≤ 3 := by
  unfold govStep
  dsimp only
  split
  · omega
  · split <;> omega

/-- A temperature as its register shows it. -/
def tempWord (x : Int) : Word32 := (BitVec.ofInt 16 x).setWidth 32

/-- The measured temperatures stand in their registers. -/
def tempsRead (s : State) (q : Temps) : State :=
  (((s.setReg Reg.TMP_TEMP0 (tempWord q.t0)).setReg (Reg.TMP_TEMP0 + 4) (tempWord q.t1)).setReg (Reg.TMP_TEMP0 + 8)
    (tempWord q.t2)).setReg (Reg.TMP_TEMP0 + 12) (tempWord q.t3)

/-- The spread of the temperatures stands in its register, and the statistics follow. -/
def tempsSpread (s : State) (hi d : Int) : State :=
  ((s.setReg Reg.TMP_GRAD (tempWord d)).statMax 0x88 (hi + 100000).toNat).statMax 0x8C d.toNat

def hottest (q : Temps) : Int := max (max q.t0 q.t1) (max q.t2 q.t3)
def coldest (q : Temps) : Int := min (min q.t0 q.t1) (min q.t2 q.t3)

/-- What an evaluation of the governor shows before its step. -/
def tempsShown (s : State) (q : Temps) : State := tempsSpread (tempsRead s q) (hottest q) (hottest q - coldest q)

/-- The governor takes a step. -/
def govSet (s : State) (n : Nat) : State :=
  (s.setReg Reg.PWR_GOV ((s.reg Reg.PWR_GOV &&& 0xFFFFFFFC) ||| BitVec.ofNat 32 n)).incReg Reg.PWR_GOVSTEPS

/-- The governor's evaluation of a highest temperature. -/
def governed (s : State) (hi : Int) : State :=
  let g := s.regFld Reg.PWR_GOV 0 2
  let n := govStep (s.regFld Reg.PWR_GOV 8 8) g hi
  if n = g then s else govSet s n

theorem govern_off (h : s.pwr.up = false) (q : Temps) : govern s q = s := if_pos (Bool.eq_false_iff.1 h)

theorem govern_on (h : s.pwr.up = true) (q : Temps) :
    govern s q = governed (tempsShown s q) (hottest q) := if_neg (not_not.2 h)

theorem fld_two (n : Nat) : fld n 0 2 = n % 4 := by
  rw [fld, pow_zero, Nat.div_one, show 2 ^ 2 = 4 by decide]

theorem step_bits {n : Nat} (x : Word32) (hn : n ≤ 3) : fld ((x &&& 0xFFFFFFFC) ||| BitVec.ofNat 32 n).toNat 0 2 = n := by
  have hlow : ∀ y : Word32, fld y.toNat 0 2 = (y.setWidth 2).toNat := fun y => by rw [fld_two, BitVec.toNat_setWidth]
  have hmask : BitVec.setWidth 2 (0xFFFFFFFC : Word32) = 0#2 := by decide
  rw [hlow, BitVec.setWidth_or, BitVec.setWidth_and, hmask, BitVec.and_zero, BitVec.zero_or,
    BitVec.toNat_setWidth, BitVec.toNat_ofNat]
  omega

theorem govSet_step {n : Nat} (s : State) (hn : n ≤ 3) : (govSet s n).regFld Reg.PWR_GOV 0 2 = n := by
  have hreg : (govSet s n).reg Reg.PWR_GOV = (s.reg Reg.PWR_GOV &&& 0xFFFFFFFC) ||| BitVec.ofNat 32 n :=
    (State.reg_setReg_ne _ _ (by decide)).trans (State.reg_setReg_self _ _ _)
  rw [State.regFld, hreg, step_bits _ hn]

theorem governed_step (s : State) (hi : Int) : (governed s hi).regFld Reg.PWR_GOV 0 2 =
    govStep (s.regFld Reg.PWR_GOV 8 8) (s.regFld Reg.PWR_GOV 0 2) hi := by
  have h3 : s.regFld Reg.PWR_GOV 0 2 ≤ 3 := by
    rw [State.regFld, fld_two]
    omega
  unfold governed
  dsimp only
  split
  · next h => exact h.symm
  · exact govSet_step s (govStep_le hi h3)

theorem governed_stays {hi : Int}
    (h : govStep (s.regFld Reg.PWR_GOV 8 8) (s.regFld Reg.PWR_GOV 0 2) hi = s.regFld Reg.PWR_GOV 0 2) : governed s hi = s :=
  if_pos h

theorem governed_reg {a : Nat} (h1 : a ≠ Reg.PWR_GOV) (h2 : a ≠ Reg.PWR_GOVSTEPS) (s : State) (hi : Int) :
    (governed s hi).reg a = s.reg a := by
  unfold governed
  dsimp only
  split
  · rfl
  · exact (State.reg_setReg_ne _ _ h2).trans (State.reg_setReg_ne _ _ h1)

theorem tempsSpread_reg {a : Nat} (h : a ≠ Reg.TMP_GRAD) (s : State) (hi d : Int) : (tempsSpread s hi d).reg a = s.reg a :=
  State.reg_setReg_ne s _ h

theorem tempsSpread_grad (s : State) (hi d : Int) : (tempsSpread s hi d).reg Reg.TMP_GRAD = tempWord d :=
  State.reg_setReg_self _ _ _

theorem tempsShown_grad (s : State) (q : Temps) :
    (tempsShown s q).reg Reg.TMP_GRAD = tempWord (hottest q - coldest q) := tempsSpread_grad _ _ _

theorem tempsShown_reg {a : Nat} (h : a ≠ Reg.TMP_GRAD) (s : State) (q : Temps) :
    (tempsShown s q).reg a = (tempsRead s q).reg a := tempsSpread_reg h _ _ _

theorem tempsShown_gov (s : State) (q : Temps) : (tempsShown s q).reg Reg.PWR_GOV = s.reg Reg.PWR_GOV := by
  rw [tempsShown_reg (by decide), tempsRead, State.reg_setReg_ne _ _ (by decide), State.reg_setReg_ne _ _ (by decide),
    State.reg_setReg_ne _ _ (by decide), State.reg_setReg_ne _ _ (by decide)]

theorem tempsShown_fourth (s : State) (q : Temps) : (tempsShown s q).reg (Reg.TMP_TEMP0 + 4 * 3) = tempWord q.t3 := by
  rw [tempsShown_reg (by decide), tempsRead, show Reg.TMP_TEMP0 + 4 * 3 = Reg.TMP_TEMP0 + 12 by decide, State.reg_setReg_self]

theorem tempsShown_first (s : State) (q : Temps) : (tempsShown s q).reg (Reg.TMP_TEMP0 + 4 * 0) = tempWord q.t0 := by
  rw [tempsShown_reg (by decide), tempsRead, State.reg_setReg_ne _ _ (by decide), State.reg_setReg_ne _ _ (by decide),
    State.reg_setReg_ne _ _ (by decide), show Reg.TMP_TEMP0 + 4 * 0 = Reg.TMP_TEMP0 by decide, State.reg_setReg_self]

theorem dieTemp_of_reg {k : Nat} {x : Int} (h : t.reg (Reg.TMP_TEMP0 + 4 * k) = tempWord x) :
    dieTemp t k = (BitVec.ofInt 16 x).toInt := by
  rw [dieTemp, h, tempWord, BitVec.setWidth_setWidth_of_le _ (by decide), BitVec.setWidth_eq]

theorem govern_dieTemp (h : s.pwr.up = true) (q : Temps) :
    dieTemp (govern s q) 0 = (BitVec.ofInt 16 q.t0).toInt ∧ dieTemp (govern s q) 3 = (BitVec.ofInt 16 q.t3).toInt := by
  rw [govern_on h]
  refine ⟨dieTemp_of_reg ?_, dieTemp_of_reg ?_⟩
  · rw [governed_reg (by decide) (by decide), tempsShown_first]
  · rw [governed_reg (by decide) (by decide), tempsShown_fourth]

theorem govern_grad (h : s.pwr.up = true) (q : Temps) :
    (govern s q).reg Reg.TMP_GRAD = tempWord (hottest q - coldest q) := by
  rw [govern_on h, governed_reg (by decide) (by decide), tempsShown_grad]

theorem govern_step (h : s.pwr.up = true) (q : Temps) : (govern s q).regFld Reg.PWR_GOV 0 2 =
    govStep (s.regFld Reg.PWR_GOV 8 8) (s.regFld Reg.PWR_GOV 0 2) (hottest q) := by
  rw [govern_on h, governed_step, State.regFld, State.regFld, tempsShown_gov]
  rfl

theorem govern_stays (h : s.pwr.up = true) (q : Temps)
    (hs : govStep (s.regFld Reg.PWR_GOV 8 8) (s.regFld Reg.PWR_GOV 0 2) (hottest q) = s.regFld Reg.PWR_GOV 0 2) :
    (govern s q).reg Reg.PWR_GOV = s.reg Reg.PWR_GOV := by
  rw [govern_on h, governed_stays, tempsShown_gov]
  rw [State.regFld, State.regFld, tempsShown_gov]
  exact hs

/-! ## VBAT and the I/O supplies (R570, R574, R592) -/

theorem vbatMeasurement_off (h : s.pwr.up = false) (mv : Word16) : Leaves (.vbatMeasurement mv) s s :=
  leaves_of_eq rfl (if_neg (Bool.eq_false_iff.1 h))

theorem vioChange_off (h : s.pwr.up = false) (a b c : Bool) : vioChange s a b c = s := if_pos (Bool.eq_false_iff.1 h)

theorem vioChange_card_enters (hu : s.pwr.up = true) (h : s.pwr.viocHi = none) (c : Bool) :
    vioChange s true true c = { s with pwr := { s.pwr with viocOk := true, viocHi := some c } } := by
  unfold vioChange
  rw [if_neg (not_not.2 hu)]
  simp [h]

theorem vioChange_other_enters (hu : s.pwr.up = true) (h : s.pwr.viohHi = none) (c : Bool) :
    vioChange s false true c = { s with pwr := { s.pwr with viohOk := true, viohHi := some c } } := by
  unfold vioChange
  rw [if_neg (not_not.2 hu)]
  simp [h]

theorem vioChange_other_leaves {d : Bool} (hu : s.pwr.up = true) (h : s.pwr.viohHi = some d) (c : Bool) :
    vioChange s false false c = pinsLost { s with pwr := { s.pwr with viohOk := false, viohHi := some d } } false := by
  unfold vioChange
  rw [if_neg (not_not.2 hu)]
  simp [h]

theorem vioChange_card_leaves {c d : Bool} (hu : s.pwr.up = true) (h : s.pwr.viocHi = some d) (hc : c ≠ d) :
    vioChange s true true c = pinsLost { s with pwr := { s.pwr with viocOk := false, viocHi := some d } } true := by
  have hd : (d == c) = false := beq_eq_false_iff_ne.2 hc.symm
  unfold vioChange
  rw [if_neg (not_not.2 hu)]
  simp [h, hd]

/-! ## What is lost with the pins (R570) -/

/-- The requests that a CAN controller holds end. -/
def canDropped (s : State) (c : Nat) : State :=
  (s.canCtl c).held.foldl (fun s q => complete s q St.portTimeout) (setCan s c { s.canCtl c with held := [] })

theorem canDropped_idle {c : Nat} (h : (s.canCtl c).held = []) : canDropped s c = setCan s c { s.canCtl c with held := [] } := by
  rw [canDropped, h, List.foldl_nil]

theorem canCtl_setCan_ne (s : State) {c d : Nat} (x : CanCtl) (h : d ≠ c) : (setCan s c x).canCtl d = s.canCtl d :=
  sget_sset_ne _ _ _ h

theorem pinsLost_other (hs : s.ports.sensor = none) : pinsLost s false = canDropped (canDropped s 0) 1 := by
  refine (if_neg Bool.false_ne_true).trans ?_
  rw [hs]
  rfl

theorem pinsLost_other_idle (hs : s.ports.sensor = none) (h0 : (s.canCtl 0).held = []) (h1 : (s.canCtl 1).held = []) :
    ∃ x y, pinsLost s false = setCan (setCan s 0 x) 1 y := by
  have h1' : ((setCan s 0 { s.canCtl 0 with held := [] }).canCtl 1).held = [] := by
    rw [canCtl_setCan_ne s _ (by decide)]
    exact h1
  rw [pinsLost_other hs, canDropped_idle h0, canDropped_idle h1']
  exact ⟨_, _, rfl⟩

/-- The supplies, and the request of the card bus. -/
def State.cardPins (s : State) : Pwr × CardBus := (s.pwr, s.ports.crd)

theorem cardPins_of_butPost (h : t.butPost = s.butPost) : t.cardPins = s.cardPins := by
  have h' := congrArg State.cardPins h
  exact h'

theorem complete_cardPins (s : State) (q : PortReq) (st : Word16) (arg : Word32) (arg2 : Word64) (data : List Byte) :
    (complete s q st arg arg2 data).cardPins = s.cardPins := cardPins_of_butPost (complete_butPost s q st arg arg2 data)

theorem isoEnd_cardPins (s : State) (p : Nat) (st : Word16) (k n : Nat) (arg : Word32) (data : List Byte) :
    (isoEnd s p st k n arg data).cardPins = s.cardPins := by
  unfold isoEnd
  dsimp only
  split
  · exact complete_cardPins _ _ _ _ _ _
  · rfl

/-- The request of an ISO port ends. -/
def isoDropped (s : State) (p : Nat) : State := if (s.isoPort p).run.isSome then isoEnd s p St.portTimeout 0 0 else s

theorem isosDropped_cardPins (s : State) (l : List Nat) : (l.foldl isoDropped s).cardPins = s.cardPins := by
  refine foldl_leaves State.cardPins (fun a p => ?_) l s
  unfold isoDropped
  split
  · exact isoEnd_cardPins _ _ _ _ _ _ _
  · rfl

theorem cardEnd_pwr (s : State) (q : CardRun) (st : Word16) (data : List Byte) : (cardEnd s q st data).pwr = s.pwr := by
  unfold cardEnd
  dsimp only
  refine (congrArg Prod.fst (complete_cardPins _ _ _ _ _ _)).trans ?_
  split <;> rfl

theorem pinsLost_card {r : CardRun} (h : s.ports.crd.run = some r) :
    pinsLost s true = (List.range 2).foldl isoDropped (cardEnd s r St.portTimeout) := by
  refine (if_pos rfl).trans ?_
  rw [h]
  rfl

theorem pinsLost_card_leaves {r : CardRun} (h : s.ports.crd.run = some r) :
    (pinsLost s true).pwr = s.pwr ∧ (pinsLost s true).ports.crd.run = none := by
  have hv := isosDropped_cardPins (cardEnd s r St.portTimeout) (List.range 2)
  rw [pinsLost_card h]
  exact ⟨(congrArg Prod.fst hv).trans (cardEnd_pwr s r _ _),
    (congrArg (fun x => x.2.run) hv).trans (cardEnd_run s r _ _)⟩

theorem suppliesOtherwise : SuppliesOtherwise := by
  intro s q mv hi lo g thresh
  refine ⟨fun h => ⟨vbatMeasurement_off h mv, leaves_of_eq rfl (govern_off h q), fun a b c => leaves_of_eq rfl (vioChange_off h a b c)⟩,
    fun hu => ⟨⟨govern s q, leaves_of_eq rfl rfl, (govern_dieTemp hu q).2, govern_grad hu q, fun h0 h3 h => ?_, fun h3 h hd => ?_⟩,
      fun c h => leaves_of_eq rfl (vioChange_other_enters hu h c), ?_, ?_⟩, fun hm a b => leaves_of_eq rfl (if_neg hm)⟩
  · exact (govern_step hu q).trans (govStep_down h0 h)
  · exact govern_stays hu q (govStep_stays h hd)
  · intro c d hd hs h0 h1
    obtain ⟨x, y, h⟩ := pinsLost_other_idle (s := { s with pwr := { s.pwr with viohOk := false, viohHi := some d } }) hs h0 h1
    exact ⟨_, leaves_of_eq rfl ((vioChange_other_leaves hu hd c).trans h), rfl, rfl, rfl, rfl⟩
  · intro c d r hd hc hr
    obtain ⟨hp, hrun⟩ := pinsLost_card_leaves (s := { s with pwr := { s.pwr with viocOk := false, viocHi := some d } }) hr
    refine ⟨_, leaves_of_eq rfl (vioChange_card_leaves hu hd hc), ?_, ?_, hrun⟩
    · rw [hp]
    · rw [hp]

end Sys2Proof.Machine

end

section
/-! SUPPORT. The frame of an epoch (R358), and the tamper sources, the supplies and the epochs together. -/

open Sys2Proof.Say

namespace Sys2Proof.Machine

variable {s t u : State}

/-! ## The frame (R358, R361) -/

/-- A field of the frame. -/
def field (m : List (Nat × Nat)) (o : Nat) : Nat := sget (fun _ => 0) m o

/-- A field is put. -/
def putField (m : List (Nat × Nat)) (o x : Nat) : List (Nat × Nat) := sset (fun _ => 0) m o x

theorem field_put_self (m : List (Nat × Nat)) (o x : Nat) : field (putField m o x) o = x := sget_sset_self _ _ _ _

theorem field_put_ne (m : List (Nat × Nat)) {o k : Nat} (x : Nat) (h : o ≠ k) : field (putField m k x) o = field m o :=
  sget_sset_ne _ _ _ h

/-- The fields of the instances' records. -/
def putRecord (s : State) (m : List (Nat × Nat)) (i : Nat) : List (Nat × Nat) :=
  putField (putField m (instStat i 0) (if i = 0 then (if s.kpr.running then 2 else 0) else (s.inst i).state)) (instStat i 1)
    (s.descF i .model)

theorem field_putRecord {o : Nat} (h : o < 0x1000) (s : State) (m : List (Nat × Nat)) (i : Nat) :
    field (putRecord s m i) o = field m o := by
  have h0 : o ≠ instStat i 0 := by
    rw [instStat]
    omega
  have h1 : o ≠ instStat i 1 := by
    rw [instStat]
    omega
  rw [putRecord, field_put_ne _ _ h1, field_put_ne _ _ h0]

/-- The frame's own fields as the epoch ends. -/
def frameHead (s : State) (pro : Bool) : List (Nat × Nat) :=
  let g := field s.stat
  let e := s.kpr.devtime.toNat
  let flags := g 0x20 % 2 + (if e - g 0x10 < s.ins.epochLen * 1000000000 then 2 else 0) + (if pro then 4 else 0)
  let m := putField (putField (putField (putField s.stat 0x08 (epochNumber s)) 0x0C s.ins.epochLen) 0x18 e) 0x20 flags
  putField m 0x54 (if g 0x54 = 0 then s.pwr.vhold else g 0x54)

/-- The frame as it is published. -/
def frame (s : State) (pro : Bool) : List (Nat × Nat) :=
  blindFields.foldl (fun m o => putField m o (blindValue s.freeCtr o)) ((List.range 64).foldl (putRecord s) (frameHead s pro))

theorem publishFrame_statPub (s : State) (pro : Bool) : (publishFrame s pro).statPub = frame s pro := rfl

theorem field_blind {o : Nat} (l : List Nat) (h : o ∉ l) (c : Nat) (m : List (Nat × Nat)) :
    field (l.foldl (fun m o => putField m o (blindValue c o)) m) o = field m o := by
  induction l generalizing m with
  | nil => rfl
  | cons k l ih =>
    have hk : o ≠ k := fun hn => h (List.mem_cons.2 (.inl hn))
    rw [List.foldl_cons, ih (fun hn => h (List.mem_cons_of_mem k hn)), field_put_ne _ _ hk]

theorem field_frame {o : Nat} (h : o < 0x1000) (hb : o ∉ blindFields) (s : State) (pro : Bool) :
    field (frame s pro) o = field (frameHead s pro) o := by
  rw [frame, field_blind _ hb]
  exact foldl_leaves (fun m => field m o) (fun m i => field_putRecord h s m i) (List.range 64) (frameHead s pro)

theorem frameHead_number (s : State) (pro : Bool) : field (frameHead s pro) 0x08 = epochNumber s := by
  unfold frameHead
  dsimp only
  rw [field_put_ne _ _ (by decide), field_put_ne _ _ (by decide), field_put_ne _ _ (by decide), field_put_ne _ _ (by decide),
    field_put_self]

theorem frameHead_time (s : State) (pro : Bool) : field (frameHead s pro) 0x18 = s.kpr.devtime.toNat := by
  unfold frameHead
  dsimp only
  rw [field_put_ne _ _ (by decide), field_put_ne _ _ (by decide), field_put_self]

theorem epochNumbered_statPub (s : State) : ∃ pro, (epochNumbered s).statPub = frame s pro := by
  unfold epochNumbered
  dsimp only
  split <;> exact ⟨_, publishFrame_statPub s _⟩

theorem epochNumbered_limit (h : s.dur.epochLimit ≤ (s.reg Reg.STAT_EPOCH).toNat + 1) :
    (epochNumbered s).reg Reg.STAT_EPOCH = s.reg Reg.STAT_EPOCH := by
  have hp : decide (s.dur.epochLimit ≤ epochNumber s + 1) = true := decide_eq_true h
  unfold epochNumbered
  rw [hp]
  rfl

theorem epochNumbered_next (h : (s.reg Reg.STAT_EPOCH).toNat + 1 < s.dur.epochLimit) :
    (epochNumbered s).reg Reg.STAT_EPOCH = s.reg Reg.STAT_EPOCH + 1 := by
  have hp : decide (s.dur.epochLimit ≤ epochNumber s + 1) = false := decide_eq_false (Nat.not_le.2 h)
  have hn : BitVec.ofNat 32 (epochNumber s + 1) = s.reg Reg.STAT_EPOCH + 1 := by
    rw [epochNumber]
    apply BitVec.eq_of_toNat_eq
    rw [BitVec.toNat_ofNat, BitVec.toNat_add]
    rfl
  rw [← hn]
  unfold epochNumbered
  rw [hp]
  exact State.reg_setReg_self _ _ _

/-! ## The boundary of an epoch (R356, R358) -/

/-- What the boundary of an epoch does. -/
structure EpochEnds (s t : State) : Prop where
  kept : t.untimed = s.untimed
  fails : t.rng.epfail = 0
  limit : s.dur.epochLimit ≤ (s.reg Reg.STAT_EPOCH).toNat + 1 → t.reg Reg.STAT_EPOCH = s.reg Reg.STAT_EPOCH
  next : (s.reg Reg.STAT_EPOCH).toNat + 1 < s.dur.epochLimit → t.reg Reg.STAT_EPOCH = s.reg Reg.STAT_EPOCH + 1
  number : field t.statPub 0x08 = (s.reg Reg.STAT_EPOCH).toNat
  time : field t.statPub 0x18 = s.kpr.devtime.toNat
  told : ∀ j < 64, (s.inst j).state = 2 → 0 ∈ (t.inst j).irq

theorem rng_of_butInsts (h : t.butInsts = s.butInsts) : t.rng = s.rng := by
  have h' := congrArg State.rng h
  exact h'

theorem epochTold_rng (s : State) : (epochTold s).rng = s.rng := rng_of_butInsts (epochTold_butInsts s)

theorem epochSelf_epfail (s : State) (m : Int) (ok : Bool) : (epochSelf s m ok).rng.epfail = 0 := rfl

theorem epochBoundary_ends (hu : s.pwr.up = true) (hd : s.reg64 Reg.STAT_NEXT_LO ≤ s.kpr.devtime.toNat) (m : Int) (ok : Bool) :
    EpochEnds s (epochBoundary s m ok) := by
  have hreg : (epochTold (epochEnded s m ok)).reg Reg.STAT_EPOCH = (epochNumbered s).reg Reg.STAT_EPOCH := by
    rw [reg_of_epochView (epochTold_view _), epochEnded_number]
  obtain ⟨pro, hpub⟩ := epochNumbered_statPub s
  have hframe : (epochTold (epochEnded s m ok)).statPub = frame s pro := by
    rw [statPub_of_epochView (epochTold_view _), epochEnded_statPub, hpub]
  have hkept := epochBoundary_untimed s m ok
  rw [epochBoundary_due hu hd] at hkept ⊢
  refine ⟨hkept, ?_, fun h => ?_, fun h => ?_, ?_, ?_, fun j hj h => ?_⟩
  · rw [epochTold_rng, epochEnded, epochSelf_epfail]
  · rw [hreg, epochNumbered_limit h]
  · rw [hreg, epochNumbered_next h]
  · rw [hframe, field_frame (by decide) (by decide), frameHead_number, epochNumber]
  · rw [hframe, field_frame (by decide) (by decide), frameHead_time]
  · exact epochTold_reaches hj _ ((epochEnded_state s m ok j).trans h)

theorem epochsOtherwise : EpochsOtherwise := by
  intro s m ok n
  refine ⟨fun h => leaves_of_eq rfl (epochBoundary_early h m ok), fun hu hd => ?_⟩
  have h := epochBoundary_ends hu hd m ok
  exact ⟨_, leaves_of_eq rfl rfl, kpr_of_untimed h.kept, h.time, h.limit⟩

/-! ## Tamper, supplies, epochs -/

/-- Settles O60. Source 0 does not reach the keeper (log entry 26), the answer of the test-access port is free (log entries
49 and 110), the supplies' groups of pins are log entry 97's, and the raise conditions log entry 127's. -/
theorem tamperSuppliesEpochs : Obligations.TamperSuppliesEpochs := by
  unfold Obligations.TamperSuppliesEpochs
  refine ⟨?_, ?_, fun s a b hm => ⟨_, leaves_of_eq rfl (if_pos hm)⟩, tamperOtherwise, suppliesOtherwise, epochsOtherwise⟩
  · intro s t v who hon hv bit l win armed
    refine ⟨fun hk ha => ⟨fun hr h5 => ?_, nearMiss_counts hon hk ha⟩, fun hk h4 => tamperRearm_arms hon hk h4,
      fun hk hr => leaves_of_eq rfl (tamperSource_event hon hk hr _), fun hk => ⟨fun hl => ?_, leaves_of_eq rfl (if_pos hk)⟩⟩
    · exact leaves_of_eq rfl (tamperSource_level hon hk hv ha hr h5 _)
    · exact leaves_of_eq rfl ((tamperSource_counts hon hk _).trans (rateEvent_counts hl))
  · intro s q mv hu
    refine ⟨leaves_of_eq rfl (if_pos hu), ⟨_, leaves_of_eq rfl rfl, (govern_dieTemp hu q).1, fun h3 h => ?_⟩,
      fun c h => leaves_of_eq rfl (vioChange_card_enters hu h c), ?_⟩
    · exact (govern_step hu q).trans (govStep_up h3 h)
    · intro m ok hd n
      have h := epochBoundary_ends hu hd m ok
      exact ⟨_, leaves_of_eq rfl rfl, mem_of_untimed h.kept, h.fails, h.next, h.number, fun i => h.told i.val i.isLt⟩

end Sys2Proof.Machine

end

section
/-! SUPPORT. The loss of main supply (R111) and what it leaves of the operations of code flash (R484). A boot swap under way
has taken effect or not by `Config.pick`, of which nothing is known (log entry 7): O31 holds just where every draw says that
it has not, which no proof decides. -/

open Sys2Proof.Say

namespace Sys2Proof.Machine

variable {s t u : State}

/-! ## The operations of code flash that stop (R484) -/

/-- All of the device but the cells of the code flash, and the count of free values. -/
def State.butFlash (s : State) : State :=
  { s with mem := [], tags := [], checks := [], eras := [], cfl := {}, freeCtr := 0 }

theorem wrBytes_butFlash (s : State) (a : Nat) (l : List Byte) : (wrBytes s a l).butFlash = s.butFlash := by
  induction l generalizing s a with
  | nil => rfl
  | cons b l ih => rw [wrBytes_cons, ih]; rfl

theorem wrWords_butFlash (s : State) (a : Nat) (l : List TWord) : (wrWords s a l).butFlash = s.butFlash := by
  induction l generalizing s a with
  | nil => rfl
  | cons w l ih => rw [wrWords_cons, ih, State.wrWord]; exact wrBytes_butFlash s a _

theorem newCheck_butFlash (s : State) (a : Nat) : (s.newCheck a).butFlash = s.butFlash := by
  unfold State.newCheck State.claim
  split <;> rfl

theorem progUnit_butFlash (s : State) (a : Nat) (l : List TWord) (n : Nat) : (progUnit s a l n).butFlash = s.butFlash := by
  unfold progUnit
  exact (newCheck_butFlash _ _).trans (wrWords_butFlash _ _ _)

theorem freeFill_butFlash (s : State) (a n : Nat) : (freeFill s a n).butFlash = s.butFlash := by
  have h : (freeFill s a n).butFlash = (wrWords s a (freeWords s.freeCtr n)).butFlash := rfl
  exact h.trans (wrWords_butFlash _ _ _)

theorem freeCell_butFlash (s : State) (a : Nat) : (freeCell s a).butFlash = s.butFlash := by
  have h : (freeCell s a).butFlash = (freeFill s a 4).butFlash := rfl
  exact h.trans (freeFill_butFlash _ _ _)

theorem setUnitFlags_butFlash (s : State) (a n : Nat) : (s.setUnitFlags a n).butFlash = s.butFlash := rfl

theorem freeUnit_butFlash (s : State) (a : Nat) : (freeUnit s a).butFlash = s.butFlash := by
  unfold freeUnit
  split
  · rfl
  · exact (freeCell_butFlash _ _).trans (setUnitFlags_butFlash s a 1)

theorem freeSector_butFlash (s : State) (a : Nat) : (freeSector s a).butFlash = s.butFlash := by
  unfold freeSector
  exact foldl_leaves (f := fun s k => freeUnit s (a + 32 * k)) State.butFlash (fun u _ => freeUnit_butFlash u _) _ s

theorem progUnits_butFlash (g : Nat → Nat) (w : Nat → List TWord) (l : List Nat) (s : State) :
    (l.foldl (fun s j => progUnit s (g j) (w j) 1) s).butFlash = s.butFlash :=
  foldl_leaves (f := fun s j => progUnit s (g j) (w j) 1) State.butFlash (fun u _ => progUnit_butFlash u _ _ _) l s

/-- No draw says that a boot swap under way has taken effect. -/
def NoSwap : Prop := ∀ n, Config.pick n % 2 = 1

theorem stoppedUnits_butFlash (a k n : Nat) (w : Nat → List TWord) (s : State) :
    (if k < n then freeUnit ((List.range k).foldl (fun s j => progUnit s (a + 32 * j) (w j) 1) s) (a + 32 * k)
      else (List.range k).foldl (fun s j => progUnit s (a + 32 * j) (w j) 1) s).butFlash = s.butFlash := by
  have hunits := progUnits_butFlash (fun j => a + 32 * j) w (List.range k) s
  split
  · exact (freeUnit_butFlash _ _).trans hunits
  · exact hunits

/-- Where no draw completes a boot swap, the stop of an operation leaves all but the cells. -/
theorem flopStop_butFlash (h : NoSwap) (s : State) : (flopStop s).butFlash = s.butFlash := by
  unfold flopStop
  refine foldl_leaves State.butFlash (fun u p => ?_) s.cfl.busy { s with cfl := { s.cfl with busy := [] } }
  have hn : ¬ (p.2.first = true ∧ Config.pick u.freeCtr % 2 = 0) := fun hp => by
    have := h u.freeCtr
    omega
  dsimp only
  split
  · exact (stoppedUnits_butFlash _ _ _ _ _).trans rfl
  · exact (stoppedUnits_butFlash _ _ _ _ _).trans rfl
  · exact (freeSector_butFlash _ _).trans rfl
  · split
    · exact (freeCell_butFlash _ _).trans rfl
    · rfl
  · rw [if_neg hn]
    rfl

/-! ## The loss (R111) -/

theorem onCfg_true : OnCfg fun _ => true := fun _ _ _ => rfl

theorem airClose_rings (s : State) : (airClose s).rings = s.rings := by
  unfold airClose
  split <;> rfl

/-- All of the device but its rings, its tickets, its link and its contexts. -/
def State.butLinks (s : State) : State := { s with rings := [], tickets := [], ctxs := [], air := {} }

theorem airClose_butLinks (s : State) : (airClose s).butLinks = s.butLinks := by
  unfold airClose
  split <;> rfl

theorem stopRings_butLinks (s : State) (p : Ring → Bool) (err : Word16) : (stopRings s p err).butLinks = s.butLinks := by
  rw [stopRings_eq]
  rfl

/-- Every ring stands still, the link is closed. -/
def lossStopped (s : State) : State := airClose (stopRings s (fun _ => true) St.ringStopped)

theorem lossStopped_butLinks (s : State) : (lossStopped s).butLinks = s.butLinks :=
  (airClose_butLinks _).trans (stopRings_butLinks _ _ _)

theorem lossStopped_ring (s : State) (r : Nat) : ((lossStopped s).ring r).st ≠ 1 ∧ ((lossStopped s).ring r).st ≠ 2 := by
  have hr : (lossStopped s).ring r = (stopRings s (fun _ => true) St.ringStopped).ring r := by
    rw [State.ring, State.ring, lossStopped, airClose_rings]
  obtain ⟨hst, -⟩ := stopRings_ring onCfg_true s St.ringStopped r
  rw [hr, hst]
  split
  · exact ⟨by decide, by decide⟩
  · next h => exact ⟨fun h1 => h ⟨.inl h1, rfl⟩, fun h2 => h ⟨.inr h2, rfl⟩⟩

/-- The flush begins, and contexts between bundles stop. -/
def lossBegun (s : State) : State :=
  { s with
    pwr := { s.pwr with flush := 1, measuring := false }
    ctxs := s.ctxs.map fun p => (p.1, if p.2.bundle.isNone ∧ p.2.run = .running then { p.2 with run := .stopped } else p.2) }

/-- What a loss leaves. -/
structure LossView where
  flush : Nat
  tdl : Tdl
  dur : Durable
  roots : List (Nat × Root)
  pend : BitVec 24

def State.lossView (s : State) : LossView := ⟨s.pwr.flush, s.tdl, s.dur, s.roots, s.tmp.pendFlags⟩

theorem lossView_of_butLinks (h : t.butLinks = s.butLinks) : t.lossView = s.lossView := by
  have h' := congrArg State.lossView h
  exact h'

theorem lossView_of_butFlash (h : t.butFlash = s.butFlash) : t.lossView = s.lossView := by
  have h' := congrArg State.lossView h
  exact h'

theorem lossBegun_view (s : State) : (lossBegun s).lossView = { s.lossView with flush := 1 } := rfl

theorem mainLoss_late (h : s.pwr.flush ≠ 0) : mainLoss s = s := if_pos (.inr h)

/-- A loss that the tamper sources do not keep busy. -/
theorem mainLoss_stops (hn : NoSwap) (hu : s.pwr.up = true) (hf : s.pwr.flush = 0) (hp : s.tmp.pendFlags = 0) :
    mainLoss s = lossStopped (lossBegun (flopStop s)) ∧ (mainLoss s).lossView = { s.lossView with flush := 1 } := by
  have hgo : ¬ (¬ s.pwr.up = true ∨ s.pwr.flush ≠ 0) := by
    rw [hu, hf]
    decide
  have hview : (lossStopped (lossBegun (flopStop s))).lossView = { s.lossView with flush := 1 } := by
    rw [lossView_of_butLinks (lossStopped_butLinks _), lossBegun_view, lossView_of_butFlash (flopStop_butFlash hn s)]
  have hpend : (lossStopped (lossBegun (flopStop s))).tmp.pendFlags = 0 := (congrArg LossView.pend hview).trans hp
  have h : mainLoss s = lossStopped (lossBegun (flopStop s)) := (if_neg hgo).trans (if_neg (not_not.2 hpend))
  exact ⟨h, h ▸ hview⟩

theorem deviceStop_stops (h2 : s.pwr.flush = 2) (ha : s.tdl.admitted = []) : Leaves .deviceStop s (powerLoss s) :=
  leaves_of_eq rfl (if_pos ⟨h2, ha⟩)

theorem deviceStop_waits (ha : s.tdl.admitted ≠ []) : Leaves .deviceStop s s := leaves_of_eq rfl (if_neg fun h => ha h.2)

/-- The one-time cells after the stop are those that the operations of code flash leave. -/
theorem powerLoss_otp (s : State) : (powerLoss s).otp = (flopStop s).otp := rfl

theorem powerLoss_keeps (hn : NoSwap) (s : State) : (powerLoss s).otp = s.otp ∧ (powerLoss s).roots = s.roots ∧
    (powerLoss s).dur = durAfterReset s.dur ∧ (powerLoss s).tdl.marked = s.tdl.marked := by
  have h := flopStop_butFlash hn s
  have hotp : (flopStop s).otp = s.otp := by
    have h' := congrArg State.otp h
    exact h'
  have hview := lossView_of_butFlash h
  have hdur : (flopStop s).dur = s.dur := congrArg LossView.dur hview
  refine ⟨hotp, congrArg LossView.roots hview, congrArg durAfterReset hdur, ?_⟩
  exact congrArg (fun x => x.tdl.marked) hview

theorem noLoss : NoLoss := by
  intro s
  refine ⟨fun h => ⟨leaves_of_eq rfl (mainLoss_late h), leaves_of_eq rfl (if_neg fun hn => h hn.2)⟩, fun h => ⟨?_, deviceStop_waits h⟩⟩
  exact leaves_of_eq rfl (if_neg fun hn => h hn.2)

/-! ## Where O31 stands -/

/-- A device at the end of its flush with a boot swap under way, whose next draw is the `n`th. -/
def swapUnderWay (n : Nat) : State :=
  { State.reset with
    freeCtr := n
    pwr := { flush := 2 }
    cfl := { busy := [(0, { op := 0, inst := 0, ticket := 0, sel := 5 })] } }

theorem swapUnderWay_otp (n : Nat) : (swapUnderWay n).otp = {} := rfl

theorem swapUnderWay_swaps {n : Nat} (h : Config.pick n % 2 = 0) : (powerLoss (swapUnderWay n)).otp.swapCtr = 1 := by
  have hp : (({ op := 0, inst := 0, ticket := 0, sel := 5 } : FlopRun).first = true ∧ Config.pick n % 2 = 0) := ⟨rfl, h⟩
  rw [powerLoss_otp]
  exact congrArg (fun u : State => u.otp.swapCtr) (if_pos hp)

/-- A row leaves one set of one-time cells. -/
theorem leaves_otp {c : Instr} (ht : Leaves c s t) (hu : Leaves c s u) : t.otp = u.otp := by
  have h : ({ t with pending := s.pending } : State) = { u with pending := s.pending } :=
    Host.Outcome.next.inj (ht.symm.trans hu)
  have h' := congrArg State.otp h
  exact h'

/-- The clauses of O31, where no draw completes a boot swap. -/
theorem mainLoss_of_noSwap (hn : NoSwap) : Obligations.MainLoss := by
  unfold Obligations.MainLoss
  refine ⟨fun s => ⟨fun hu hf hp => ?_, fun hu hf => leaves_of_eq rfl (if_pos ⟨hu, hf⟩),
    fun h1 ha => leaves_of_eq rfl (if_pos ⟨h1, ha⟩), fun h2 ha => ?_⟩, noLoss⟩
  · obtain ⟨h, hv⟩ := mainLoss_stops hn hu hf hp
    refine ⟨mainLoss s, leaves_of_eq rfl rfl, congrArg LossView.flush hv, fun r => ?_, congrArg LossView.tdl hv,
      congrArg LossView.dur hv, congrArg LossView.roots hv⟩
    rw [h]
    exact lossStopped_ring _ r
  · obtain ⟨hotp, hroots, hdur, hmarked⟩ := powerLoss_keeps hn s
    exact ⟨_, deviceStop_stops h2 ha, rfl, rfl, rfl, hotp, hroots, hdur, hmarked, rfl, rfl⟩

theorem noSwap_of_mainLoss (h : Obligations.MainLoss) : NoSwap := by
  intro n
  obtain ⟨hall, -⟩ := h
  obtain ⟨-, -, -, hstop⟩ := hall (swapUnderWay n)
  obtain ⟨t, hl, -, -, -, hotp, -⟩ := hstop rfl rfl
  have hlast : t.otp = (powerLoss (swapUnderWay n)).otp := leaves_otp hl (deviceStop_stops rfl rfl)
  by_contra hne
  have hswap : t.otp.swapCtr = 1 := hlast ▸ swapUnderWay_swaps (n := n) (by omega)
  rw [hotp, swapUnderWay_otp] at hswap
  exact absurd hswap (by decide)

/-- O31 says no more and no less than that no draw is even. `Config.pick` has no body, so neither O31 nor its negation
follows: the clause that `deviceStop` leaves the one-time cells is one that a boot swap under way (R484) decides by its draw. -/
theorem mainLoss_iff_noSwap : Obligations.MainLoss ↔ NoSwap := ⟨noSwap_of_mainLoss, mainLoss_of_noSwap⟩

end Sys2Proof.Machine

end
